-- ==== Sys2Proof/Word.lean ====
section
/-! DEFINITION. The word types of the DZ8816 model and their plainest arithmetic.
Registers are 64-bit (R9); memory is bytes (R7); a line is 64 bytes (R225). -/

namespace Sys2Proof

/-- A 64-bit register or general-register value (R9, R385). -/
abbrev Word := BitVec 64

/-- One byte of memory (R7). -/
abbrev Byte := BitVec 8

/-- The 64 bytes of one memory line, lowest address first (R225, R257). -/
abbrev Line := List Byte

/-- The 64 bytes of a line or of a ring entry as a command carries them (R225, R302). -/
abbrev Bytes64 := Vector Byte 64

/-- A nonce of 32 bytes (R448). -/
abbrev Bytes32 := Vector Byte 32

/-- The 16-byte stage word (R62). -/
abbrev StageWord := BitVec 128

end Sys2Proof
end

