-- ==== Sys2Proof/Syntax.lean ====
section
/-! DEFINITION. The commands the DZ8816 takes from outside and from its own engines and timers,
one constructor per row of spec/opcode_table.json, with the operand types they carry. What the
block cannot compute (a sensor reading, an ECC outcome, a received message, a regulator's answer)
is an operand. -/

namespace Sys2Proof

/-- Where a register access comes from (R17, R18, R429): PF0 BAR0 (the manager), a pod window of
PF0 BAR2, the Shell processor, the executive on the control cores, or PF1 BAR0. -/
inductive RegFrom where
  | bar0
  | pf1
  | window (p : Fin 64)
  | shell
  | exec
  deriving DecidableEq, Repr

/-- The unit a register write covers (R9, R10, R12): the whole register, one aligned half, or
byte enables that cover neither. -/
inductive Lanes where
  | full
  | lower
  | upper
  | partialBytes
  deriving DecidableEq, Repr

/-- A register write: who makes it, what it covers and its value. A half write takes its data
from bits [31:0] of `value` (R10). -/
structure RegAccess where
  src : RegFrom
  lanes : Lanes
  value : Word
  deriving DecidableEq, Repr

/-- An entry of a work ring, and the run it starts: ring number and index in the ring (R302). -/
structure RunRef where
  ring : Fin 1024
  index : BitVec 16
  deriving DecidableEq, Repr

/-- One activation of a stage: its tile, pipeline slot and stage index, and the intensity class
the tile's activity monitor measures over the block (R34). -/
structure StageRef where
  tile : Fin 64
  slot : Fin 4
  stage : Fin 32
  act : BitVec 4
  deriving DecidableEq, Repr

/-- What an ECC check finds (R222, R265). -/
inductive Ecc where
  | good
  | corrected
  | uncorrectable
  deriving DecidableEq, Repr

/-- The poison kinds a line can carry (R266, R370). -/
inductive Poison where
  | clean
  | ue
  | lost
  deriving DecidableEq, Repr

/-- A request that reaches a home (R243, R244): its agent, line address, and whether the agent
already holds the line. `group` is the span group of the requesting pod (R357). -/
structure HomeReq where
  agent : Fin 24
  addr : BitVec 52
  group : BitVec 16
  holds : Bool
  deriving DecidableEq, Repr

/-- The atomics (R232, R386). -/
inductive AtomicOp where
  | swap
  | add
  | and
  | or
  | cas
  deriving DecidableEq, Repr

/-- The kinds of DDR5 module (R253). -/
inductive DimmKind where
  | registered
  | loadReduced
  | multiplexedRank
  | stacked
  deriving DecidableEq, Repr

/-- What step 1 of training reads from the DIMMs of all sixteen channels (R253 to R255, R258,
R260): their kind, count per channel, capacity in GB, device width and density, ranks per DIMM, the lowest
maximum rate, whether every channel and DIMM agree, whether one DIMM per channel sits in slot 0,
and the serial number of every DIMM in order of its slot. -/
structure Dimms where
  kind : DimmKind
  perChannel : Fin 3
  capacity : BitVec 8
  devw : BitVec 4
  density : BitVec 8
  ranks : Fin 5
  maxRate : BitVec 16
  uniform : Bool
  slotOk : Bool
  serials : List (BitVec 32)
  deriving DecidableEq, Repr

/-- The CXL MetaValue of a host MemRd (R296). -/
inductive MetaValue where
  | a
  | s
  | i
  deriving DecidableEq, Repr

/-- One producer and one consumer of a REMOTE stream group (R376 to R379): the consuming instance
on this device (or the producing stage, for grants), the member and instance number of the other
end, and the alignment group. -/
structure XRef where
  tile : Fin 64
  slot : Fin 4
  stage : Fin 32
  member : Fin 8
  inst : BitVec 16
  deriving DecidableEq, Repr

/-- One value of an exchanged row (R378): absent, an integer or bit pattern, or string bytes. -/
inductive XVal where
  | null
  | int (v : Int)
  | str (b : List Byte)
  deriving DecidableEq, Repr

/-- One row of an exchange packet: per stream its value and annotation (R378). -/
structure XRow where
  cols : List (XVal × Option Word)
  deriving DecidableEq, Repr

/-- The operands of an NVMe read, write or write-zeroes command (R326, R329 to R332). -/
structure NvmeIo where
  sq : Fin 65
  cid : BitVec 16
  nsid : BitVec 32
  slba : BitVec 64
  nlb : BitVec 16
  fua : Bool
  prinfo : BitVec 4
  prps : List (BitVec 64)
  /-- The host answers the command's transfer with poisoned data, or not in time (R332). -/
  hostFail : Bool
  deriving DecidableEq, Repr

/-- The parameters a port's partner sends in training step 4 (R355, R364). -/
structure NbrParams where
  spanId : BitVec 32
  spanNo : BitVec 3
  port : BitVec 2
  locked : Bool
  deriving DecidableEq, Repr

/-- What the link layer reads of a received flit, and whether its CRC matches (R361, R363): CREDITS holds the slots
freed for each class and hop level, class by class. -/
structure FlitHeader where
  seq : BitVec 12
  ack : BitVec 12
  nak : Bool
  crcOk : Bool
  credits : List (BitVec 8)
  deriving DecidableEq, Repr

/-- Operands of an R-format control instruction on a core (R385). -/
structure RFmt where
  core : Fin 8
  rd : BitVec 5
  ra : BitVec 5
  rb : BitVec 5
  deriving DecidableEq, Repr

/-- Operands of an I-format control instruction on a core (R385). -/
structure IFmt where
  core : Fin 8
  rd : BitVec 5
  ra : BitVec 5
  imm : BitVec 16
  deriving DecidableEq, Repr

/-- Operands of a B-format control instruction on a core (R385). -/
structure BFmt where
  core : Fin 8
  ra : BitVec 5
  rb : BitVec 5
  off : BitVec 16
  deriving DecidableEq, Repr

/-- Operands of SHI: the amount of IMM[5:0] (R386). -/
structure ShiFmt where
  core : Fin 8
  rd : BitVec 5
  ra : BitVec 5
  amount : BitVec 6
  deriving DecidableEq, Repr

/-- Operands of MOVZ and MOVK: SH and the immediate (R386). -/
structure MovFmt where
  core : Fin 8
  rd : BitVec 5
  sh : BitVec 2
  imm : BitVec 16
  deriving DecidableEq, Repr

/-- A reading the Shell takes (R449, R450): sensor ID and value (°C, mV, mA or W by kind). -/
structure SensorReading where
  sensor : BitVec 16
  value : BitVec 32
  deriving DecidableEq, Repr

/-- The requesters of the Hull (R429, R439). -/
inductive HullUser where
  | shell
  | exec
  | host
  deriving DecidableEq, Repr

/-- The MCTP bindings (R451). -/
inductive Binding where
  | smbus
  | i3c
  | pcie
  deriving DecidableEq, Repr


/-- The commands of the DZ8816, one constructor per row of the spec's command table. -/
inductive Instr where
  /-- `REGISTER_WRITE` (R10). -/
  | registerWrite (a : RegAccess) (off : BitVec 27)
  /-- `CCLK_REQUEST` (R409). -/
  | cclkRequest (a : RegAccess)
  /-- `AVS_COMPLETION` (R408). -/
  | avsCompletion
  /-- `AVS_TIMEOUT` (R408). -/
  | avsTimeout
  /-- `REGISTER` (R404). -/
  | register (p : Fin 64) (irq : Bool) (addr len : BitVec 64)
  /-- `DEREGISTER` (R41). -/
  | deregister (p : Fin 64) (irq : Bool) (handle : BitVec 64)
  /-- `DEREGISTER_TAKES_EFFECT` (R41). -/
  | deregisterTakesEffect (p : Fin 64) (handle : BitVec 32)
  /-- `QUERY` (R404). -/
  | query (p : Fin 64) (irq : Bool) (handle : BitVec 64)
  /-- `INFO` (R404). -/
  | info (p : Fin 64) (irq : Bool)
  /-- `MAILBOX_COMPLETE` (R403). -/
  | mailboxComplete (p : Fin 64)
  /-- `RING_ENABLE` (R313). -/
  | ringEnable (n : Fin 1024) (a : RegAccess)
  /-- `RING_DOORBELL` (R303). -/
  | ringDoorbell (n : Fin 1024) (a : RegAccess)
  /-- `RING_PUSH` (R303). -/
  | ringPush (n : Fin 1024) (src : RegFrom) (entry : List Byte)
  /-- `ENTRY_FETCH` (R306). -/
  | entryFetch (n : Fin 1024) (poisoned : Bool)
  /-- `NOP` (R304). -/
  | nop (r : RunRef)
  /-- `RUN` (R36). -/
  | run (r : RunRef)
  /-- `CONVERT` (R322). -/
  | convert (r : RunRef)
  /-- `PLACEMENT_RETRY` (R45). -/
  | placementRetry
  /-- `PIPELINE_START` (R47). -/
  | pipelineStart (r : RunRef) (pipe : Fin 8)
  /-- `LSTEP_ADVANCE_END` (R414). -/
  | lstepAdvanceEnd
  /-- `GOVERNOR_TICK` (R414). -/
  | governorTick
  /-- `LSTEP_DEASSERT` (R415). -/
  | lstepDeassert
  /-- `SCAN` (R79). -/
  | scan (w : StageRef)
  /-- `SKIP` (R78). -/
  | skip (w : StageRef)
  /-- `DECODE` (R21). -/
  | decode (w : StageRef)
  /-- `FILTER` (R72). -/
  | filter (w : StageRef)
  /-- `COMPUTE` (R80). -/
  | compute (w : StageRef)
  /-- `COMPACT` (R81). -/
  | compact (w : StageRef)
  /-- `HASH` (R167). -/
  | hash (w : StageRef)
  /-- `BUILD` (R175). -/
  | build (w : StageRef)
  /-- `SPILL_UNLOAD_COMPLETE` (R182). -/
  | spillUnloadComplete (p : Fin 64) (rgn : Fin 16)
  /-- `CLEAR_SWEEP_DONE` (R181). -/
  | clearSweepDone (p : Fin 64) (rgn : Fin 16)
  /-- `PROBE` (R176). -/
  | probe (w : StageRef)
  /-- `REPLAY_START` (R185). -/
  | replayStart (p : Fin 64) (rgn : Fin 16)
  /-- `REPLAY_WAVE_DONE` (R185). -/
  | replayWaveDone (p : Fin 64) (rgn : Fin 16)
  /-- `AGG` (R188). -/
  | agg (w : StageRef)
  /-- `PART` (R76). -/
  | part (w : StageRef)
  /-- `SPILL` (R76). -/
  | spill (w : StageRef)
  /-- `SORTRUN` (R198). -/
  | sortrun (w : StageRef)
  /-- `MERGE_RUNS` (R200). -/
  | mergeRuns (w : StageRef)
  /-- `MERGE_REGIONS` (R85). -/
  | mergeRegions (w : StageRef)
  /-- `TOPK` (R205). -/
  | topk (w : StageRef)
  /-- `RANGE_FLOOR` (R211). -/
  | rangeFloor (w : StageRef)
  /-- `RANGE_EXACT` (R211). -/
  | rangeExact (w : StageRef)
  /-- `RANGE_COVER` (R211). -/
  | rangeCover (w : StageRef)
  /-- `RANGE_INSERT` (R212). -/
  | rangeInsert (w : StageRef)
  /-- `RANGE_DELETE` (R212). -/
  | rangeDelete (w : StageRef)
  /-- `GEN_MARKING_DONE` (R216). -/
  | genMarkingDone (p : Fin 64) (rgn : Fin 16)
  /-- `LOOKUP` (R179). -/
  | lookup (w : StageRef)
  /-- `BLOOMSET` (R87). -/
  | bloomset (w : StageRef)
  /-- `BLOOMTEST` (R180). -/
  | bloomtest (w : StageRef)
  /-- `EXCHANGE` (R88). -/
  | exchange (w : StageRef)
  /-- `EMIT` (R89). -/
  | emit (w : StageRef)
  /-- `LIMIT` (R90). -/
  | limit (w : StageRef)
  /-- `YIELD` (R91). -/
  | yieldStage (w : StageRef)
  /-- `YIELD_TIMEOUT` (R91). -/
  | yieldTimeout (w : StageRef)
  /-- `STOP_AT_BLOCK_BOUNDARY` (R50). -/
  | stopAtBlockBoundary (t : Fin 64) (slot : Fin 4)
  /-- `RUN_TIMEOUT` (R306). -/
  | runTimeout (r : RunRef)
  /-- `COMPLETION_WRITE` (R308). -/
  | completionWrite (r : RunRef)
  /-- `HOLDOFF_EXPIRY` (R309). -/
  | holdoffExpiry (n : Fin 1024)
  /-- `MIGRATE_INSTANCE` (R56). -/
  | migrateInstance (t : Fin 64) (slot : Fin 4)
  /-- `MIGRATION_COMPLETE` (R56). -/
  | migrationComplete (t : Fin 64) (slot : Fin 4)
  /-- `PARK_INSTANCE` (R57). -/
  | parkInstance (t : Fin 64) (slot : Fin 4) (area : BitVec 52)
  /-- `RESTORE_PARKED` (R57). -/
  | restoreParked (t : Fin 64) (slot : Fin 4)
  /-- `INSTANCE_QUIESCE` (R49). -/
  | instanceQuiesce (t : Fin 64) (slot : Fin 4)
  /-- `DZ4400_MODE_REQUEST` (R234). -/
  | dz4400ModeRequest (c : Fin 8) (a : RegAccess)
  /-- `DZ4400_MODE_SWITCH` (R234). -/
  | dz4400ModeSwitch (c : Fin 8)
  /-- `CLEAN_LINE` (R236). -/
  | cleanLine (c : Fin 8) (global : Bool) (addr : BitVec 52)
  /-- `FLUSH_LINE` (R236). -/
  | flushLine (c : Fin 8) (global : Bool) (addr : BitVec 52)
  /-- `DISCARD_LINE` (R236). -/
  | discardLine (c : Fin 8) (global : Bool) (addr : BitVec 52)
  /-- `CLEAN_ALL` (R236). -/
  | cleanAll (c : Fin 8) (global : Bool)
  /-- `FLUSH_ALL` (R236). -/
  | flushAll (c : Fin 8) (global : Bool)
  /-- `MAINT_COMPLETE` (R237). -/
  | maintComplete (c : Fin 8)
  /-- `CACHE_DISABLE` (R238). -/
  | cacheDisable (c : Fin 8) (a : RegAccess)
  /-- `CACHE_ENABLE` (R238). -/
  | cacheEnable (c : Fin 8) (a : RegAccess)
  /-- `CACHE_DISABLE_COMPLETE` (R238). -/
  | cacheDisableComplete (c : Fin 8)
  /-- `TS_PATROL_SCRUB` (R223). -/
  | tsPatrolScrub (t : Fin 64) (off : BitVec 22) (e : Ecc)
  /-- `TILE_ZEROING_DONE` (R224). -/
  | tileZeroingDone (t : Fin 64)
  /-- `RDSHARED` (R244). -/
  | rdshared (q : HomeReq)
  /-- `RDUNIQUE` (R244). -/
  | rdunique (q : HomeReq)
  /-- `UPGRADE` (R244). -/
  | upgrade (q : HomeReq)
  /-- `RDONCE` (R244). -/
  | rdonce (q : HomeReq)
  /-- `WRFULL` (R244). -/
  | wrfull (q : HomeReq) (data : Bytes64)
  /-- `WRPART` (R244). -/
  | wrpart (q : HomeReq) (data : Bytes64) (be : BitVec 64)
  /-- `ATOMIC` (R244). -/
  | atomic (q : HomeReq) (op : AtomicOp) (operand compare : BitVec 64) (cached : Bool)
  /-- `WRBACK` (R245). -/
  | wrback (q : HomeReq) (data : Bytes64) (poison : Poison)
  /-- `SNPSHARED` (R243). -/
  | snpshared (agent : Fin 24) (sector : BitVec 52)
  /-- `SNPINV` (R243). -/
  | snpinv (agent : Fin 24) (sector : BitVec 52)
  /-- `SNPSTASH` (R247). -/
  | snpstash (c : Fin 8) (addr : BitVec 52)
  /-- `DATAS` (R229). -/
  | datas (agent : Fin 16) (addr : BitVec 52) (poison : Poison)
  /-- `DATAE` (R229). -/
  | datae (agent : Fin 16) (addr : BitVec 52) (poison : Poison)
  /-- `CMP` (R243). -/
  | cmp (agent : Fin 16) (addr : BitVec 52)
  /-- `WBACK` (R230). -/
  | wback (c : Fin 8) (addr : BitVec 52)
  /-- `RSPDATA` (R244). -/
  | rspdata (agent : Fin 24) (sector : BitVec 52) (lines : Vector (Option Bytes64) 4)
  /-- `RSPCLEAN` (R244). -/
  | rspclean (agent : Fin 24) (sector : BitVec 52)
  /-- `RSPMISS` (R244). -/
  | rspmiss (agent : Fin 24) (sector : BitVec 52)
  /-- `DIR_RETRY` (R246). -/
  | dirRetry (slice : Fin 16)
  /-- `SCRUB_COMPLETE` (R248). -/
  | scrubComplete
  /-- `TRAINING_COMPLETE` (R258). -/
  | trainingComplete (dimms : Dimms) (verified : Bool)
  /-- `TRAINING_FAIL` (R259). -/
  | trainingFail (ch : Fin 16) (step : Fin 10) (dimms : Dimms)
  /-- `REFRESH` (R262). -/
  | refresh (ch : Fin 16) (sub : Fin 2) (trfc : BitVec 16)
  /-- `DIMM_THERMAL_POLL` (R263). -/
  | dimmThermalPoll (ch : Fin 16) (temps : List (BitVec 8))
  /-- `ZQ_CALIBRATION` (R264). -/
  | zqCalibration (ch : Fin 16)
  /-- `RETRAIN_PASS` (R264). -/
  | retrainPass (ch : Fin 16)
  /-- `GRANT_OPPORTUNITY` (R276). -/
  | grantOpportunity (ch : Fin 16)
  /-- `READ_ISSUE` (R272). -/
  | readIssue (ch : Fin 16) (e : Ecc)
  /-- `READ_AGING` (R272). -/
  | readAging (ch : Fin 16)
  /-- `WRITE_DRAIN` (R269). -/
  | writeDrain (ch : Fin 16)
  /-- `READ_IDLE_DRAIN` (R269). -/
  | readIdleDrain (ch : Fin 16)
  /-- `ROW_IDLE_CLOSE` (R273). -/
  | rowIdleClose (ch : Fin 16) (sub : Fin 2) (bank : Fin 128)
  /-- `SLOT_COMMIT` (R278). -/
  | slotCommit (ch : Fin 16) (a : RegAccess)
  /-- `SLOT_COMMIT_APPLY` (R278). -/
  | slotCommitApply (ch : Fin 16)
  /-- `WATERMARK_WRITE` (R291). -/
  | watermarkWrite (ch : Fin 16) (a : RegAccess)
  /-- `DMA_ENABLE` (R289). -/
  | dmaEnable (n : Fin 32) (a : RegAccess)
  /-- `DMA_DISABLE` (R289). -/
  | dmaDisable (n : Fin 32) (a : RegAccess)
  /-- `DMA_TAIL` (R281). -/
  | dmaTail (n : Fin 32) (a : RegAccess)
  /-- `DMA_RESTART` (R289). -/
  | dmaRestart (n : Fin 32) (a : RegAccess)
  /-- `DMA_NOP` (R282). -/
  | dmaNop (n : Fin 32)
  /-- `DMA_COPY` (R282). -/
  | dmaCopy (n : Fin 32)
  /-- `DMA_FILL` (R282). -/
  | dmaFill (n : Fin 32)
  /-- `DMA_CJOB` (R282). -/
  | dmaCjob (n : Fin 32)
  /-- `DMA_BEAT` (R284). -/
  | dmaBeat (fault : Bool)
  /-- `DMA_READBACK_DONE` (R287). -/
  | dmaReadbackDone (n : Fin 32)
  /-- `ENGINE_TAKE_JOB` (R163). -/
  | engineTakeJob (e : Fin 8)
  /-- `DECOMPRESS` (R151). -/
  | decompress (e : Fin 8) (fault : Bool)
  /-- `COMPRESS` (R153). -/
  | compress (e : Fin 8) (fault : Bool)
  /-- `JOB_STOP` (R157). -/
  | jobStop (e : Fin 8)
  /-- `JDR_REGION_CLEAR` (R171). -/
  | jdrRegionClear (p : Fin 64) (a : RegAccess)
  /-- `RDR_REGION_CLEAR` (R216). -/
  | rdrRegionClear (p : Fin 64) (a : RegAccess)
  /-- `RDR_CLEAR_DONE` (R216). -/
  | rdrClearDone (p : Fin 64) (rgn : Fin 16)
  /-- `RDR_REGION_CFG` (R218). -/
  | rdrRegionCfg (p : Fin 64) (rgn : Fin 16) (a : RegAccess)
  /-- `CREDIT_REQUEST` (R377). -/
  | creditRequest (x : XRef)
  /-- `CREDIT_GRANT` (R377). -/
  | creditGrant (x : XRef)
  /-- `CREDIT_HOLD` (R377). -/
  | creditHold (x : XRef)
  /-- `HOLD_REPEAT` (R377). -/
  | holdRepeat (x : XRef)
  /-- `CREDIT_TIMEOUT` (R377). -/
  | creditTimeout (x : XRef)
  /-- `EXCHANGE_PACKET` (R378). -/
  | exchangePacket (x : XRef) (rows : List XRow)
  /-- `END` (R379). -/
  | endMarker (x : XRef)
  /-- `PF0_FLR` (R345). -/
  | pf0Flr
  /-- `PF1_FLR` (R334). -/
  | pf1Flr
  /-- `CONFIG_REQUEST` (R297). -/
  | configRequest (pf1 : Bool) (reg : BitVec 12)
  /-- `HOST_LINK_UP` (R293). -/
  | hostLinkUp (speed : Fin 6) (width : Fin 5) (flit : Bool)
  /-- `ATS_INVALIDATE` (R293). -/
  | atsInvalidate (pasid : BitVec 20) (page : BitVec 52) (pages : BitVec 32)
  /-- `PAGE_REQUEST_TIMEOUT` (R294). -/
  | pageRequestTimeout (pasid : BitVec 20) (page : BitVec 52)
  /-- `BAR4_READ` (R298). -/
  | bar4Read (off : BitVec 48) (len : Fin 4097)
  /-- `BAR4_WRITE` (R297). -/
  | bar4Write (off : BitVec 48) (data : List Byte) (tag : Option (BitVec 8))
  /-- `HOST_MEMRD` (R296). -/
  | hostMemrd (addr : BitVec 52) (mv : MetaValue)
  /-- `HOST_MEMWR` (R296). -/
  | hostMemwr (addr : BitVec 52) (data : Bytes64) (poison : Poison)
  /-- `HOST_SNPDATA` (R296). -/
  | hostSnpdata (addr : BitVec 52)
  /-- `HOST_SNPINV` (R296). -/
  | hostSnpinv (addr : BitVec 52)
  /-- `HOST_SNPCUR` (R296). -/
  | hostSnpcur (addr : BitVec 52)
  /-- `HOST_SNOOP_TIMEOUT` (R473). -/
  | hostSnoopTimeout
  /-- `HOST_LINK_DOWN` (R473). -/
  | hostLinkDown
  /-- `HOST_CXL_ENABLE` (R473). -/
  | hostCxlEnable
  /-- `VECTOR_UNMASK` (R299). -/
  | vectorUnmask (pf1 : Bool) (vec : Fin 2048)
  /-- `PTM_DIALOGUE` (R300). -/
  | ptmDialogue (offset : Int)
  /-- `CONTROLLER_ENABLE` (R324). -/
  | controllerEnable
  /-- `CONTROLLER_RESET` (R334). -/
  | controllerReset
  /-- `NVME_SQ_DOORBELL` (R324). -/
  | nvmeSqDoorbell (q : Fin 65) (tail : BitVec 16)
  /-- `NVME_CQ_DOORBELL` (R324). -/
  | nvmeCqDoorbell (q : Fin 65) (head : BitVec 16)
  /-- `CREATE_IO_SQ` (R325). -/
  | createIoSq (cid : BitVec 16) (q : BitVec 16) (size : BitVec 16) (cq : BitVec 16) (pc : Bool) (base : BitVec 64)
  /-- `CREATE_IO_CQ` (R325). -/
  | createIoCq (cid : BitVec 16) (q : BitVec 16) (size : BitVec 16) (vec : BitVec 16) (ien pc : Bool) (base : BitVec 64)
  /-- `DELETE_IO_SQ` (R334). -/
  | deleteIoSq (cid : BitVec 16) (q : BitVec 16)
  /-- `DELETE_IO_CQ` (R334). -/
  | deleteIoCq (cid : BitVec 16) (q : BitVec 16)
  /-- `GET_LOG_PAGE` (R335). -/
  | getLogPage (cid : BitVec 16) (lid : BitVec 8) (bytes : BitVec 16) (prps : List (BitVec 64))
  /-- `IDENTIFY` (R325). -/
  | identify (cid : BitVec 16) (cns : BitVec 8) (nsid : BitVec 32) (prps : List (BitVec 64))
  /-- `ABORT` (R333). -/
  | abort (cid : BitVec 16) (sqid : BitVec 16) (target : BitVec 16)
  /-- `SET_FEATURES` (R325). -/
  | setFeatures (cid : BitVec 16) (fid : BitVec 8) (save : Bool) (dw11 : BitVec 32)
  /-- `GET_FEATURES` (R325). -/
  | getFeatures (cid : BitVec 16) (fid : BitVec 8)
  /-- `NAMESPACE_CREATE` (R327). -/
  | namespaceCreate (cid : BitVec 16) (nsze ncap : BitVec 64) (flbas dps nmic : BitVec 8)
  /-- `NAMESPACE_ZEROING_DONE` (R327). -/
  | namespaceZeroingDone (nsid : BitVec 32)
  /-- `NAMESPACE_DELETE` (R327). -/
  | namespaceDelete (cid : BitVec 16) (nsid : BitVec 32)
  /-- `NAMESPACE_ATTACHMENT` (R325). -/
  | namespaceAttachment (cid : BitVec 16) (nsid : BitVec 32) (attach : Bool) (ctrl : BitVec 16)
  /-- `NVME_INVALID_OPCODE` (R325). -/
  | nvmeInvalidOpcode (sq : Fin 65) (cid : BitVec 16)
  /-- `WRITE` (R329). -/
  | write (io : NvmeIo)
  /-- `READ` (R330). -/
  | read (io : NvmeIo)
  /-- `FLUSH` (R331). -/
  | flush (sq : Fin 65) (cid : BitVec 16) (nsid : BitVec 32)
  /-- `WRITE_ZEROES` (R332). -/
  | writeZeroes (io : NvmeIo)
  /-- `WRITE_BUFFER_DRAIN` (R329). -/
  | writeBufferDrain
  /-- `ING_POOL_WRITE` (R337). -/
  | ingPoolWrite (m : Fin 16) (a : RegAccess)
  /-- `POD_CREATE` (R343). -/
  | podCreate (p : Fin 64)
  /-- `POD_CREATE_DONE` (R343). -/
  | podCreateDone (p : Fin 64)
  /-- `POD_DESTROY` (R344). -/
  | podDestroy (p : Fin 64)
  /-- `POD_DESTROY_DONE` (R344). -/
  | podDestroyDone (p : Fin 64)
  /-- `POD_RESET` (R345). -/
  | podReset (p : Fin 64)
  /-- `POD_RESET_DONE` (R345). -/
  | podResetDone (p : Fin 64)
  /-- `POD_QUIESCE` (R346). -/
  | podQuiesce (p : Fin 64)
  /-- `POD_QUIESCED` (R346). -/
  | podQuiesced (p : Fin 64)
  /-- `POD_RESUME` (R347). -/
  | podResume (p : Fin 64)
  /-- `POD_SAVE` (R348). -/
  | podSave (p : Fin 64)
  /-- `POD_SAVE_DONE` (R348). -/
  | podSaveDone (p : Fin 64)
  /-- `POD_RESTORE` (R349). -/
  | podRestore (p : Fin 64)
  /-- `POD_RESTORE_DONE` (R349). -/
  | podRestoreDone (p : Fin 64)
  /-- `LOG_SWAP` (R351). -/
  | logSwap (p : Fin 64)
  /-- `LOG_SWAP_DONE` (R351). -/
  | logSwapDone (p : Fin 64)
  /-- `SPAN_CFG_LOCK` (R355). -/
  | spanCfgLock (a : RegAccess)
  /-- `PORT_ENABLE` (R365). -/
  | portEnable (k : Fin 4)
  /-- `PORT_DISABLE` (R365). -/
  | portDisable (k : Fin 4)
  /-- `PORT_RETRAIN` (R365). -/
  | portRetrain (k : Fin 4)
  /-- `PORT_SIGNAL_DETECT` (R364). -/
  | portSignalDetect (k : Fin 4)
  /-- `PORT_TRAIN_COMPLETE` (R364). -/
  | portTrainComplete (k : Fin 4) (width : Fin 4)
  /-- `PORT_TRAIN_FAIL` (R364). -/
  | portTrainFail (k : Fin 4) (half : Option (Fin 2))
  /-- `PORT_PARAMETERS` (R355). -/
  | portParameters (k : Fin 4) (nbr : NbrParams)
  /-- `CODEWORD` (R360). -/
  | codeword (k : Fin 4) (header : BitVec 20) (errors : BitVec 8)
  /-- `FLIT` (R363). -/
  | flit (k : Fin 4) (f : FlitHeader)
  /-- `LPREQ` (R366). -/
  | lpreq (k : Fin 4)
  /-- `LPACK` (R366). -/
  | lpack (k : Fin 4)
  /-- `LPACK_TIMEOUT` (R366). -/
  | lpackTimeout (k : Fin 4)
  /-- `WAKE_PATTERN` (R366). -/
  | wakePattern (k : Fin 4)
  /-- `HELLO_SEND` (R372). -/
  | helloSend
  /-- `HELLO` (R372). -/
  | hello (d : Fin 8)
  /-- `LINKSTATE` (R368). -/
  | linkstate (d : Fin 8) (nbrs : List (Fin 4 × Fin 8))
  /-- `PATH_LOST` (R369). -/
  | pathLost (d : Fin 8)
  /-- `FENCE_MESSAGE` (R380). -/
  | fenceMessage (d : Fin 8) (named : Fin 8) (selfFence clean : Bool)
  /-- `PEER_TIMEOUT` (R380). -/
  | peerTimeout (d : Fin 8)
  /-- `READMIT_PERMIT` (R381). -/
  | readmitPermit (a : RegAccess)
  /-- `READY` (R381). -/
  | ready (d : Fin 8)
  /-- `JOIN` (R374). -/
  | join (d : Fin 8) (group : BitVec 16) (tag : BitVec 64) (crc : BitVec 32) (counts : List (BitVec 8))
  /-- `JOIN_TIMEOUT` (R374). -/
  | joinTimeout (r : RunRef)
  /-- `JOIN_HOLD_EXPIRY` (R374). -/
  | joinHoldExpiry (d : Fin 8) (group : BitVec 16) (tag : BitVec 64)
  /-- `PIPE_DONE` (R375). -/
  | pipeDone (d : Fin 8) (group : BitVec 16) (tag : BitVec 64) (pipe : Fin 8)
  /-- `ABORT_MESSAGE` (R375). -/
  | abortMessage (d : Fin 8) (group : BitVec 16) (tag : BitVec 64) (status : BitVec 16) (detail : BitVec 32)
  /-- `LOCKSTEP_MISCOMPARE` (R384). -/
  | lockstepMiscompare (core : Fin 8)
  /-- `ADD` (R386). -/
  | ctlAdd (f : RFmt)
  /-- `SUB` (R386). -/
  | ctlSub (f : RFmt)
  /-- `AND` (R386). -/
  | ctlAnd (f : RFmt)
  /-- `OR` (R386). -/
  | ctlOr (f : RFmt)
  /-- `XOR` (R386). -/
  | ctlXor (f : RFmt)
  /-- `SLL` (R386). -/
  | ctlSll (f : RFmt)
  /-- `SRL` (R386). -/
  | ctlSrl (f : RFmt)
  /-- `SRA` (R386). -/
  | ctlSra (f : RFmt)
  /-- `SLT` (R386). -/
  | ctlSlt (f : RFmt)
  /-- `SLTU` (R386). -/
  | ctlSltu (f : RFmt)
  /-- `MUL` (R386). -/
  | ctlMul (f : RFmt)
  /-- `MULHU` (R386). -/
  | ctlMulhu (f : RFmt)
  /-- `DIVU` (R387). -/
  | ctlDivu (f : RFmt)
  /-- `REMU` (R387). -/
  | ctlRemu (f : RFmt)
  /-- `DIVS` (R387). -/
  | ctlDivs (f : RFmt)
  /-- `REMS` (R387). -/
  | ctlRems (f : RFmt)
  /-- `ADDI` (R386). -/
  | ctlAddi (f : IFmt)
  /-- `ANDI` (R386). -/
  | ctlAndi (f : IFmt)
  /-- `ORI` (R386). -/
  | ctlOri (f : IFmt)
  /-- `XORI` (R386). -/
  | ctlXori (f : IFmt)
  /-- `SHI_SLL` (R386). -/
  | ctlShiSll (f : ShiFmt)
  /-- `SHI_SRL` (R386). -/
  | ctlShiSrl (f : ShiFmt)
  /-- `SHI_SRA` (R386). -/
  | ctlShiSra (f : ShiFmt)
  /-- `MOVZ` (R386). -/
  | ctlMovz (f : MovFmt)
  /-- `MOVK` (R386). -/
  | ctlMovk (f : MovFmt)
  /-- `LDU8` (R386). -/
  | ctlLdu8 (f : IFmt)
  /-- `LDU16` (R386). -/
  | ctlLdu16 (f : IFmt)
  /-- `LDU32` (R386). -/
  | ctlLdu32 (f : IFmt)
  /-- `LD64` (R386). -/
  | ctlLd64 (f : IFmt)
  /-- `LDS8` (R386). -/
  | ctlLds8 (f : IFmt)
  /-- `LDS16` (R386). -/
  | ctlLds16 (f : IFmt)
  /-- `LDS32` (R386). -/
  | ctlLds32 (f : IFmt)
  /-- `ST8` (R386). -/
  | ctlSt8 (f : IFmt)
  /-- `ST16` (R386). -/
  | ctlSt16 (f : IFmt)
  /-- `ST32` (R386). -/
  | ctlSt32 (f : IFmt)
  /-- `ST64` (R386). -/
  | ctlSt64 (f : IFmt)
  /-- `SWAP` (R386). -/
  | ctlSwap (f : RFmt)
  /-- `AADD` (R386). -/
  | ctlAadd (f : RFmt)
  /-- `AAND` (R386). -/
  | ctlAand (f : RFmt)
  /-- `AOR` (R386). -/
  | ctlAor (f : RFmt)
  /-- `CAS` (R386). -/
  | ctlCas (f : RFmt)
  /-- `FENCE` (R386). -/
  | ctlFence (core : Fin 8)
  /-- `BEQ` (R386). -/
  | ctlBeq (f : BFmt)
  /-- `BNE` (R386). -/
  | ctlBne (f : BFmt)
  /-- `BLT` (R386). -/
  | ctlBlt (f : BFmt)
  /-- `BGE` (R386). -/
  | ctlBge (f : BFmt)
  /-- `BLTU` (R386). -/
  | ctlBltu (f : BFmt)
  /-- `BGEU` (R386). -/
  | ctlBgeu (f : BFmt)
  /-- `JAL` (R386). -/
  | ctlJal (core : Fin 8) (off : BitVec 26)
  /-- `JALR` (R386). -/
  | ctlJalr (f : IFmt)
  /-- `CSRR` (R386). -/
  | ctlCsrr (f : IFmt)
  /-- `CSRW` (R386). -/
  | ctlCsrw (f : IFmt)
  /-- `KRD` (R391). -/
  | ctlKrd (f : RFmt)
  /-- `KWR` (R391). -/
  | ctlKwr (f : RFmt)
  /-- `RESUME` (R391). -/
  | ctlResume (core : Fin 8)
  /-- `EXIT` (R394). -/
  | ctlExit (core : Fin 8)
  /-- `YIELDCPU` (R394). -/
  | ctlYieldcpu (core : Fin 8)
  /-- `SLEEP` (R397). -/
  | ctlSleep (f : RFmt)
  /-- `WAIT` (R394). -/
  | ctlWait (f : RFmt)
  /-- `POST` (R394). -/
  | ctlPost (f : RFmt)
  /-- `SPAWN` (R390). -/
  | ctlSpawn (f : RFmt)
  /-- `SETPRI` (R394). -/
  | ctlSetpri (f : RFmt)
  /-- `SELF` (R394). -/
  | ctlSelf (f : RFmt)
  /-- `NOW` (R394). -/
  | ctlNow (f : RFmt)
  /-- `LOCK` (R399). -/
  | ctlLock (f : RFmt)
  /-- `TRYLOCK` (R399). -/
  | ctlTrylock (f : RFmt)
  /-- `UNLOCK` (R399). -/
  | ctlUnlock (f : RFmt)
  /-- `CLRPOISON` (R400). -/
  | ctlClrpoison (f : RFmt)
  /-- `TICK` (R397). -/
  | tick
  /-- `TIME_SLICE` (R396). -/
  | timeSlice (core : Fin 8)
  /-- `POWER_LIMIT_TICK` (R410). -/
  | powerLimitTick (watts : BitVec 16)
  /-- `THERMAL_TICK` (R411). -/
  | thermalTick (tj : BitVec 8)
  /-- `THERMAL_TRIP` (R412). -/
  | thermalTrip (sensor : Fin 40) (reading : BitVec 8)
  /-- `DROOP_DETECT` (R417). -/
  | droopDetect (c : Fin 8)
  /-- `DROOP_RECOVER` (R417). -/
  | droopRecover (c : Fin 8)
  /-- `P1_ENTRY` (R419). -/
  | p1Entry
  /-- `P1_EXIT` (R419). -/
  | p1Exit
  /-- `REQUEST_S1` (R420). -/
  | requestS1
  /-- `REQUEST_S2` (R420). -/
  | requestS2
  /-- `REQUEST_P0` (R422). -/
  | requestP0
  /-- `POWER_ENTRY_COMPLETE` (R420). -/
  | powerEntryComplete
  /-- `WAKE` (R422). -/
  | wake (sources : BitVec 8)
  /-- `EXIT_STEP_READY` (R421). -/
  | exitStepReady (tj : BitVec 8)
  /-- `BROWNOUT` (R423). -/
  | brownout
  /-- `POWER_ON_RESET` (R424). -/
  | powerOnReset
  /-- `COLD_RESET` (R424). -/
  | coldReset (cmd : Bool)
  /-- `WARM_RESET` (R424). -/
  | warmReset (cmd : Bool)
  /-- `PWROK_LOSS` (R491). -/
  | pwrokLoss
  /-- `PLL_LOCK_LOSS` (R497). -/
  | pllLockLoss (pll : Fin 8)
  /-- `SENSOR_SAMPLE` (R449). -/
  | sensorSample (readings : List SensorReading)
  /-- `SHELL_WATCHDOG` (R449). -/
  | shellWatchdog
  /-- `EXECUTIVE_START` (R435). -/
  | executiveStart (slotA : Bool)
  /-- `END_BOOT` (R435). -/
  | endBoot (src : RegFrom)
  /-- `OPEN` (R439). -/
  | digestOpen (who : HullUser) (value : BitVec 64)
  /-- `CLOSE` (R439). -/
  | digestClose (who : HullUser)
  /-- `DIGEST_DATA` (R440). -/
  | digestData (who : HullUser) (word : BitVec 64)
  /-- `ABSORB_DONE` (R441). -/
  | absorbDone
  /-- `DIGEST_WATCHDOG` (R443). -/
  | digestWatchdog
  /-- `DIGEST_STATUS_READ` (R443). -/
  | digestStatusRead (who : HullUser)
  /-- `RNG_READ` (R445). -/
  | rngRead (who : HullUser)
  /-- `DRBG_RESEED` (R445). -/
  | drbgReseed
  /-- `ENTROPY_HEALTH_FAIL` (R445). -/
  | entropyHealthFail
  /-- `PIT_READ` (R459). -/
  | pitRead (who : HullUser)
  /-- `SESAME_REQUEST` (R455). -/
  | sesameRequest (level : BitVec 2)
  /-- `SESAME_RESPONSE_WORD` (R460). -/
  | sesameResponseWord (word : BitVec 64)
  /-- `SESAME_SUBMIT` (R455). -/
  | sesameSubmit
  /-- `SESAME_VERIFY_DONE` (R455). -/
  | sesameVerifyDone
  /-- `SESAME_DROP` (R455). -/
  | sesameDrop
  /-- `DEBUG_MUX_SELECT` (R456). -/
  | debugMuxSelect (group : BitVec 8) (en : Bool)
  /-- `QUERY_DEVICE_IDENTIFIERS` (R447). -/
  | queryDeviceIdentifiers (b : Binding)
  /-- `GET_FIRMWARE_PARAMETERS` (R447). -/
  | getFirmwareParameters (b : Binding)
  /-- `REQUEST_UPDATE` (R447). -/
  | requestUpdate (b : Binding)
  /-- `PASS_COMPONENT_TABLE` (R447). -/
  | passComponentTable (b : Binding) (comp : BitVec 16)
  /-- `UPDATE_COMPONENT` (R447). -/
  | updateComponent (b : Binding) (comp : BitVec 16) (size : BitVec 32)
  /-- `REQUEST_FIRMWARE_DATA` (R447). -/
  | requestFirmwareData (b : Binding) (chunk : List Byte)
  /-- `TRANSFER_COMPLETE` (R447). -/
  | transferComplete (b : Binding)
  /-- `VERIFY_COMPLETE` (R447). -/
  | verifyComplete (b : Binding)
  /-- `APPLY_COMPLETE` (R447). -/
  | applyComplete (b : Binding)
  /-- `ACTIVATE_FIRMWARE` (R447). -/
  | activateFirmware (b : Binding) (selfContained : Bool)
  /-- `GET_STATUS` (R447). -/
  | getStatus (b : Binding)
  /-- `CANCEL_UPDATE_COMPONENT` (R447). -/
  | cancelUpdateComponent (b : Binding)
  /-- `CANCEL_UPDATE` (R447). -/
  | cancelUpdate (b : Binding)
  /-- `GET_PDR_REPOSITORY_INFO` (R450). -/
  | getPdrRepositoryInfo (b : Binding)
  /-- `GET_PDR` (R450). -/
  | getPdr (b : Binding) (handle : BitVec 32)
  /-- `GET_SENSOR_READING` (R450). -/
  | getSensorReading (b : Binding) (sensor : BitVec 16)
  /-- `GET_STATE_SENSOR_READINGS` (R450). -/
  | getStateSensorReadings (b : Binding) (sensor : BitVec 16)
  /-- `GET_VERSION` (R448). -/
  | getVersion (b : Binding)
  /-- `GET_CAPABILITIES` (R448). -/
  | getCapabilities (b : Binding)
  /-- `NEGOTIATE_ALGORITHMS` (R448). -/
  | negotiateAlgorithms (b : Binding)
  /-- `GET_DIGESTS` (R448). -/
  | getDigests (b : Binding)
  /-- `GET_CERTIFICATE` (R448). -/
  | getCertificate (b : Binding) (slot : BitVec 8) (off len : BitVec 16)
  /-- `CHALLENGE` (R448). -/
  | challenge (b : Binding) (slot : BitVec 8) (nonce : Bytes32)
  /-- `GET_MEASUREMENTS` (R448). -/
  | getMeasurements (b : Binding) (index : BitVec 8) (signed : Bool) (nonce : Bytes32)
  /-- `SPDM_SIGN_DONE` (R448). -/
  | spdmSignDone
  /-- `MCTP_CONTROL` (R451). -/
  | mctpControl (b : Binding) (command : BitVec 8) (eid : BitVec 8)
  /-- `EVENT_LOG_READ_MESSAGE` (R453). -/
  | eventLogReadMessage (b : Binding) (entry : BitVec 15)
  /-- `TAP_RESET` (R457). -/
  | tapReset
  /-- `BYPASS` (R457). -/
  | bypass
  /-- `SAMPLE_PRELOAD` (R457). -/
  | samplePreload
  /-- `EXTEST` (R457). -/
  | extest
  /-- `IDCODE` (R457). -/
  | idcode
  /-- `RESIDUE_MISMATCH` (R471). -/
  | residueMismatch (t : Fin 64) (unit : Fin 8) (slot : Fin 4) (stage : Fin 32) (seq : BitVec 32)
  /-- `TILE_WATCHDOG` (R465). -/
  | tileWatchdog (t : Fin 64)
  /-- `SELFTEST_CLAIM` (R466). -/
  | selftestClaim (c : Fin 8)
  /-- `SELFTEST_START` (R467). -/
  | selftestStart (t : Fin 64)
  /-- `SELFTEST_DONE` (R467). -/
  | selftestDone (t : Fin 64) (pass : Bool)
  /-- `SELFTEST_LATE` (R466). -/
  | selftestLate (t : Fin 64)
  /-- `CLUSTER_FAULT` (R472). -/
  | clusterFault (c : Fin 8)
  /-- `FABRIC_PARITY` (R470). -/
  | fabricParity (segment : BitVec 16) (run : Option RunRef)
  /-- `ERROR_RING_ENABLE` (R478). -/
  | errorRingEnable (pod : Option (Fin 64)) (a : RegAccess)
  /-- `INJECTION_ARM` (R482). -/
  | injectionArm (a : RegAccess)
  /-- `RETEST` (R483). -/
  | retest (a : RegAccess)
  /-- `SYS_PWROK_RISE` (R491). -/
  | sysPwrokRise
  /-- `VAUX_REMOVED` (R418). -/
  | vauxRemoved
  /-- `BAD_COMMAND` (R404). -/
  | badCommand (p : Fin 64) (words : List (BitVec 64))
  /-- `PAGE_REQUEST_GROUP_RESPONSE` (R294). -/
  | pageRequestGroupResponse (pasid : BitVec 20) (page : BitVec 52) (success : Bool)
  /-- `INTERRUPT_COALESCING_EXPIRY` (R325). -/
  | interruptCoalescingExpiry
  deriving DecidableEq, Repr

end Sys2Proof
end

