-- ==== Sys2Proof/Config.lean ====
section
/-! DEFINITION. What the spec leaves open. Every constant here is opaque: nothing in Lean can
evaluate one, so a statement that mentions one holds whatever its value is. The assumption log
names each (notes/assumptions). -/

namespace Sys2Proof.Config

/-- The n-th free 64-bit value: a value the spec does not state (DESIGN CHOICE, log entry 1). -/
opaque freeWord : Nat → BitVec 64

/-- The n-th free string (log entry 55). -/
opaque freeText : Nat → List Byte

/-- A random 64-bit output of the DRBG (R445): the spec fixes no value (log entry 2). -/
opaque drbg : Nat → BitVec 64

/-- The bytes a compression of `src` gives (R153, R154): fixed by the format, level and CHECKSUM
bit, but not stated by the spec. `fmt` 1 Zstandard, 2 LZ4 (log entry 3). -/
opaque compressed (fmt level : Nat) (checksum : Bool) (src : List Byte) : List Byte

/-- What a compression under MORE_INPUT, or after it, adds to the output `base` of its earlier chunks (R153: its
bytes depend on where the input chunks end; log entry 3). -/
opaque partOutput (fmt level : Nat) (checksum more : Bool) (base src : List Byte) : List Byte

/-- How far the window of a frame written under MORE_INPUT stays below its level's (log entry 3). -/
opaque partLog (src : List Byte) : Nat

/-- What a resumed decompression writes after its history was changed (R161; log entry 83). -/
opaque alteredByte (history : List Byte) (n : Nat) : Byte

/-- The 468 bytes of opaque engine state in a compression context (R160; log entry 3). -/
opaque contextState (src : List Byte) : List Byte

/-- The history that a decompression context's 468 state bytes stand for (R160; log entry 3). -/
opaque contextHistory (state : List Byte) : List Byte

/-- The class of an uncorrectable join- or range-directory entry (R169, R209; R470 lists none; log entry 84). -/
opaque directoryClass : Nat

/-- The class of a range-directory entry restored from the next slice (R209; R470 lists none; log entry 84). -/
opaque rangeCorrected : Nat

/-- OPC of a message of the COH, XD and XC classes by class and kind, whose codes the spec does not list (R370;
log entry 86). -/
opaque messageCode : Nat → Nat → Nat

/-- The slots after the header of a span control or exchange message, whose layout the spec does not give (R370;
log entry 86). -/
opaque messageSlots : Nat → List Nat → Nat

/-- BODY of a message whose layout the spec does not give (R370; log entry 86). -/
opaque messageBody : Nat → List Nat → Nat

/-- The transaction tag that a source gives its n-th message (R370; log entry 86). -/
opaque messageTag : Nat → Nat

/-- How far beyond what a beat needs the DMA engine has read into a channel's staging buffer (R284; log entry 43). -/
opaque readAhead : Nat → Nat

/-- Where a function's configuration space holds its k-th capability structure (R293; log entry 6). -/
opaque capOffset : Bool → Nat → Nat

/-- A 64-bit word of the CXL component registers (R500; their layout is CXL 3.1's and the spec states none of their
values but the HDM decoder's size; log entry 48). -/
opaque componentWord : Nat → BitVec 64

/-- Which 8 bytes of the CXL component registers hold the HDM decoder's size (R295, R297; log entry 48). -/
opaque hdmSizeWord : Nat

/-- Where in its tile's store the region of a pipeline slot begins (R43; the spec places it
nowhere; log entry 17). -/
opaque regionAt (tile slot : Nat) : Nat

/-- How many source bytes the compressor has consumed when `room` output bytes are full
(R156 OUT_FULL; log entry 3). -/
opaque compressConsumed (fmt level : Nat) (src : List Byte) (room : Nat) : Nat

/-- FIPS 205 verification of a signature over a message under root public key `key`
(R433, R455). The algorithm is cited by the spec, not given (log entry 4). -/
opaque slhVerify (key : List Byte) (message signature : List Byte) : Bool

/-- FIPS 205 signing with the identity key derived from the seed (R434, R448; log entry 4). -/
opaque slhSign (seed message : List Byte) : List Byte

/-- The image that a flash slot holds when the part is delivered, by component and slot (R446; the spec
gives none; log entry 8). -/
opaque flashImage (component : Nat) (slotB : Bool) : List Byte

/-- The fused VDDC table of the part: setpoint in mV for a CCLK in MHz (R408, R428: not
published; log entry 5). -/
opaque vddcTable : Nat → Nat

/-- The rail that a voltage monitor measures, as a number (R449, R450; the spec assigns none; log
entry 5). -/
opaque monitorRail : Nat → Nat

/-- The certificate chain in SPDM slot 0 (R448: issued at PROVISIONED; log entry 6). -/
opaque certificateChain : List Byte

/-- SHA3-512 measurement 1, of the Acorn ROM, fixed for the stepping (R436; log entry 6). -/
opaque acornDigest : List Byte

/-- The body of a pod image beyond its header (R348 gives its content, not its layout; log
entry 7): byte `i` of an image of content code `c`. -/
opaque imageByte : Nat → Nat → Byte

/-- A PLDM platform descriptor record (R450 names the sensors, DSP0248 the layout; log entry 6). -/
opaque pdrRecord : Nat → List Byte

/-- The version number of the running executive (R404 INFO; log entry 6). -/
opaque executiveVersion : BitVec 64

/-- Sprout's version number as its firmware reports it (R461 FW_VERSION; log entry 6). -/
opaque sproutVersion : List Byte → BitVec 32

/-- A field of a PCIe configuration register the spec does not state (R297; log entry 6). -/
opaque configSpace : Bool → Nat → BitVec 32

/-- The pad or register value that a JTAG data scan shifts out where the spec states none
(R457; log entry 6). -/
opaque padSample : Nat → Nat

/-- Karevo's manufacturer code in IDCODE (R457; the spec names it and gives no value; log entry 6). -/
opaque manufacturerCode : Nat

/-- The CODE of an event-log entry that is no error record, by event (R453 gives the field, not its
values; log entry 8). -/
opaque eventCode : Nat → Nat

/-- Byte `i` of an NVMe data structure whose content the spec leaves to the NVMe specification:
structure, selector, byte (R328, R332; log entry 6). -/
opaque nvmeByte : Nat → Nat → Nat → Byte

/-- Bytes of a management response that the spec leaves to the cited DMTF specifications, by message
and request (R446 to R453; log entry 6). -/
opaque mgmtBytes : Nat → List Nat → List Byte

end Sys2Proof.Config
end

