-- ==== Sys2Proof/Machine/State.lean ====
section
/-! DEFINITION. Everything the spec gives the DZ8816, as plain data, and the state after reset.
What the spec describes as a register lives in `Dev.regs` under its PF0 BAR0 address; what it
describes as a structure (a block, a run, a directory entry, a queue) is a structure here. -/

namespace Sys2Proof.Machine

/-! ### Values, blocks and images -/

/-- The value of one row (R92, R93): an unscaled integer (integers, decimals, dates, booleans as
0 and 1, dictionary codes), the bit pattern of a float, or the bytes of a string (R94: the bytes a
reference names). -/
inductive Val where
  | int (v : Int)
  | flt (bits : Nat)
  | str (bytes : List Byte)
  deriving DecidableEq, Repr

/-- A column of rows with validity: `none` is null (R97). -/
abbrev Col := List (Option Val)

/-- The body of a block in a stream buffer (R20, R136): husk and raw payload bytes, or decoded
rows. -/
inductive Body where
  | encoded (husk payload : List Byte)
  | decoded (rows : Col)
  deriving DecidableEq, Repr

/-- A block on a stream (R20, R27, R58, R70): sequence number, placement epoch, producing tile
and slot, body, the annotation a stage attached, and the tapping stages that have finished it. -/
structure Block where
  seq : Nat
  epoch : Nat
  tile : Nat
  slot : Nat
  body : Body
  ann : Option (List Word)
  tapped : List Nat
  /-- Its consumer has accepted it under R58 and not finished it yet. -/
  taken : Bool := false
  deriving DecidableEq, Repr

/-- One stream of an instance on the consuming tile: its two buffers, oldest block first, the end
mark, and for a REMOTE stream the filling block (R26 to R30, R378). -/
structure Chan where
  stream : Nat
  blocks : List Block
  ended : Bool
  deriving DecidableEq, Repr

/-- A stream descriptor of an image. -/
structure StreamDesc where
  stream : Nat
  producer : Nat
  consumer : Nat
  form : Nat
  typ : Nat
  group : Nat
  remote : Bool
  deriving DecidableEq, Repr

/-- A binding of an image (R24). -/
structure Bind where
  pipe : Nat
  stage : Nat
  target : Nat
  kind : Nat
  casefold : Bool
  off : Nat
  size : Nat
  dict : Nat
  deriving DecidableEq, Repr

/-- A pipeline descriptor with its stage words and stream table. -/
structure Pipe where
  place : Nat
  tileCount : Nat
  depends : Nat
  seed : Word
  tsRegion : Nat
  intens : List Nat
  stages : List StageWord
  streams : List StreamDesc
  deriving DecidableEq, Repr

/-- The validated form of a program (R35, R38, R59): what the program cache holds. -/
structure Image where
  v2 : Bool
  crc : Nat
  span : Bool
  paramLen : Nat
  tag : Word
  pipes : List Pipe
  binds : List Bind
  ucode : List Word
  consts : List Byte
  ctrl : List (BitVec 32)
  deriving DecidableEq, Repr

/-- A registered program (R35, R41, R404). -/
structure ProgReg where
  pod : Nat
  handle : Nat
  addr : Nat
  len : Nat
  dereg : Bool
  deriving DecidableEq, Repr

/-- A program-cache entry of a cluster (R38, R40): its tag, its image and its age (the
submission that last used it). -/
structure PgcEntry where
  cluster : Nat
  pod : Nat
  handle : Nat
  age : Nat
  image : Image
  deriving DecidableEq, Repr

/-! ### Pipelines in flight -/

/-- The lifecycle states of R48. -/
inductive Life where
  | free
  | placed
  | starting
  | running
  | migrating
  | parked
  | quiesced
  | done
  | failed
  deriving DecidableEq, Repr

/-- A row held by SORTRUN, TOPK or MERGE: run number, arrival number, sort key (R196) and the
row's values (R198, R201, R205). -/
structure SortRec where
  run : Nat
  arr : Nat
  key : List Byte
  row : List (Option Val)
  deriving DecidableEq, Repr

/-- A column set being written: the types of its columns, per group the addresses of its blocks,
and its rows so far (R75, R76). -/
structure SetAcc where
  groups : List (List Nat)
  rows : Nat
  deriving DecidableEq, Repr

/-- Rows waiting to fill a block of a partition, a run or an exchange destination. -/
structure RowBuf where
  key : Nat
  rows : List (List (Option Val))
  anns : List (List (Option Word))
  deriving DecidableEq, Repr

/-- Credits of an exchange between a producer and a destination (R377). -/
structure Credit where
  dest : Nat
  held : Nat
  asked : Bool
  waitUs : Nat
  deriving DecidableEq, Repr

/-- A column set: its address, group count and columns (R75). -/
structure ColSet where
  addr : Nat
  groups : Nat
  cols : Nat
  rows : Nat
  deriving DecidableEq, Repr

/-- The stage registers of one stage of an instance (R64, R186, R222). -/
structure StageSt where
  /-- K0 to K63 (R64). -/
  k : List Word
  /-- KWR writes that wait for the next block boundary (R391). -/
  kPend : List (Nat × Word)
  /-- The stage has checked its source (R79, R200). -/
  opened : Bool
  /-- The set of a GATHER, checked when the instance starts, and the type of its husks (R89). -/
  source : Option (ColSet × Nat)
  /-- The stage has ended (R30), and the blocks it has finished (R71). -/
  ended : Bool
  finished : Nat
  /-- Block groups claimed and not yet read (R46). -/
  groups : List Nat
  /-- The next free offset of the stage's part of a destination area (R76, R203). -/
  cursor : Nat
  /-- Column sets being written, by partition or run (R76, R199). -/
  sets : List SetAcc
  /-- Rows waiting to fill a block (PART, SORTRUN, EXCHANGE, expand PROBE). -/
  bufs : List RowBuf
  /-- Records held by SORTRUN or TOPK (R198, R205). -/
  held : List SortRec
  /-- Current run number, arrival number and last key written (R198). -/
  runNo : Nat
  arr : Nat
  lastKey : Option (List Byte)
  /-- Output rows a MERGE has formed and not yet put on its outputs (R202). -/
  outRows : Option (List (List (Option Val)))
  /-- Next sequence number of blocks the stage numbers itself (R185, R202, R378). -/
  seqOut : Nat
  /-- Dictionary blocks the instance has verified (R135). -/
  dicts : List Nat
  /-- Rows skipped and passed by LIMIT (R90). -/
  skipped : Nat
  passed : Nat
  /-- Blocks counted and block held by YIELD, time it has been held, and its posted event
  (R91, R390). -/
  count : Nat
  heldBlk : Bool
  heldUs : Nat
  posted : Bool
  /-- PROBE of a spilled region: the live pass has ended, the wave is finished (R184, R185). -/
  liveDone : Bool
  waveDone : Bool
  /-- Open chunks of the spill area it writes: (partition, offset) (R183). -/
  chunks : List (Nat × Nat)
  /-- PROBE: streams a live pass over a spilled region carried: (stream, dictionary base, whether the
  stream carried an annotation) (R184). TOPK: (input, its dictionary, whether it named several)
  (R96). -/
  bases : List (Nat × Nat × Bool)
  /-- Consecutive blocks whose measured class exceeded the declared one by 2, and the largest
  measured class once it replaces the declaration (R34). -/
  exceeded : Nat
  measured : Nat
  /-- Exchange credits and timers as a producer (R377). -/
  credits : List Credit
  /-- Destinations that END has been sent to, or producers END has come from (R379). -/
  ends : List (Nat × Nat)
  deriving DecidableEq, Repr

/-- A selection entry of a tile (R71): keyed by slot, alignment group and sequence number. -/
structure SelEntry where
  slot : Nat
  group : Nat
  seq : Nat
  bits : List Bool
  deriving DecidableEq, Repr

/-- An instance of a pipeline. -/
structure Inst where
  ring : Nat
  index : Nat
  pod : Nat
  pipe : Nat
  number : Nat
  tile : Nat
  slot : Nat
  life : Life
  epoch : Nat
  chans : List Chan
  stages : List StageSt
  /-- Accumulator slots of the tile-store region that are not initial (R187, R188). -/
  accs : List (Nat × List Byte)
  /-- The first AGG extension slot written back (R187), as addresses are in memory. -/
  extInit : Bool
  /-- The instance stops at its next block boundary (R50). -/
  stop : Bool
  /-- A migration or park asked for by a claim (R55, R467). -/
  leaving : Bool
  /-- Block held while parked: device address of the saved state (R57). -/
  parkArea : Nat
  deriving DecidableEq, Repr

/-- What a pipeline slot of a tile holds (R48, R51, R52), of the run `ring`, `index`. A leaving slot stays
until DRAIN is 0. `stalls`: the stages that stand stalled (R27, R71). -/
structure SlotSt where
  tile : Nat
  slot : Nat
  ring : Nat
  index : Nat
  pod : Nat
  handle : Nat
  pipe : Nat
  number : Nat
  life : Life
  epoch : Nat
  drain : Nat
  pairs : Nat
  stalls : List Nat
  deriving DecidableEq, Repr

/-- The first failure recorded for a run (R50, R311). -/
structure Failure where
  status : Nat
  detail : Nat
  tile : Nat
  pipe : Nat
  stage : Nat
  seq : Nat
  errSeq : Nat
  deriving DecidableEq, Repr

/-- Where an entry of a ring stands (R306, R310). -/
inductive EntSt where
  | fetched
  | waiting
  | running
  | ended
  deriving DecidableEq, Repr

/-- A JOIN received for a span run (R374). -/
structure JoinMsg where
  member : Nat
  group : Nat
  tag : Word
  crc : Nat
  counts : List Nat
  deriving DecidableEq, Repr

/-- An entry in progress and the run it starts (R302 to R310, R374, R375). -/
structure Run where
  ring : Nat
  index : Nat
  pod : Nat
  entry : List Byte
  startTs : Word
  st : EntSt
  image : Option Image
  /-- Its number among the submissions whose program was resident or passed its checks (R40). -/
  order : Nat
  params : List Byte
  /-- K registers after constants and bindings: (pipe, stage, registers) (R64). -/
  kinit : List (Nat × Nat × List Word)
  placed : Bool
  failure : Option Failure
  /-- Placement epoch of each pipeline. -/
  epochs : List Nat
  /-- Pipelines reported DONE by span members: (member, pipe) (R375). -/
  peerDone : List (Nat × Nat)
  joins : List JoinMsg
  /-- Allocation cursor, batches and rows of the result buffer (R317). -/
  resUsed : Nat
  resBatches : Nat
  resRows : Nat
  resFields : Nat
  /-- The same for device areas of EMIT: (pipe, stage, cursor, batches, rows). -/
  areas : List (Nat × Nat × Nat × Nat × Nat)
  /-- Rows and bytes a CONVERT wrote. -/
  rows : Nat
  bytes : Nat
  /-- Join and range regions this run has locked (R171, R216). -/
  jlocks : List Nat
  rlocks : List Nat
  /-- Its completion could not be written (R316). -/
  unwritten : Bool
  deriving DecidableEq, Repr

/-! ### Join and range directories -/

/-- A join-directory entry (R170) with its slice and bucket in the pod's share (R168, R169). -/
structure JEntry where
  pod : Nat
  rgn : Nat
  slice : Nat
  bucket : Nat
  /-- KEY, or empty for a key longer than 16 bytes, which is `klen` bytes at KREF. -/
  key : List Byte
  klen : Nat
  kref : Nat
  fp : Nat
  payload : Nat
  vnull : Bool
  rowmin : Nat
  /-- Its SECDED check finds it uncorrectable (R169). -/
  ue : Bool
  deriving DecidableEq, Repr

/-- What the device keeps of a join region beyond JDR_PODp_RGNr registers (R171 to R186). -/
structure JRegion where
  pod : Nat
  rgn : Nat
  /-- The run that holds the lock, as ring and index (R171). -/
  owner : Option (Nat × Nat)
  forBuild : Bool
  seed : Word
  keyType : Nat
  /-- The chain area, spill area and key heap of the builder (R173), and its links (R503). -/
  chain : Nat
  chainLen : Nat
  spillArea : Nat
  spillLen : Nat
  heap : Nat
  heapLen : Nat
  /-- The unload of R182 step 3 has ended. -/
  unloaded : Bool
  /-- The probing pipeline that replays: ring, index, pipeline and stage (R185). -/
  replay : Option (Nat × Nat × Nat × Nat)
  deriving DecidableEq, Repr

/-- One position of a range region (R208 to R214): a hole is `none`. -/
structure REntry where
  key : List Byte
  payload : Nat
  prio : Nat
  stop : Bool
  gen : Bool
  /-- Slices whose copy of the entry is uncorrectable (R209). -/
  ue : List Nat
  deriving DecidableEq, Repr

/-- A range region: its positions, H and lock owner (R208, R216). The eight slices hold identical
copies (R208), so one copy is kept, with the slices whose copy is bad. -/
structure RRegion where
  pod : Nat
  rgn : Nat
  pos : List (Option REntry)
  owner : Option (Nat × Nat)
  deriving DecidableEq, Repr

/-! ### Caches and the coherence directory -/

/-- The states of a cached line (R242). -/
inductive CState where
  | s
  | e
  | m
  deriving DecidableEq, Repr

/-- A line of a column cache (agents 0 to 7) or of a control core's data cache (agents 8 to 15):
its way, state, whether a prefetch brought it and no demand hit it yet, its poison mark, and for
an M line what memory still held when it became dirty (R225 to R237). -/
structure CLine where
  agent : Nat
  addr : Nat
  way : Nat
  st : CState
  prefetched : Bool
  poison : Poison
  stale : Option Line
  deriving DecidableEq, Repr

/-- A requesting stream: cluster, tile, pipeline slot, stage, input column and pod (R235). -/
structure Reader where
  cluster : Nat
  tile : Nat
  slot : Nat
  stage : Nat
  col : Nat
  pod : Nat
  openHint : Bool
  deriving DecidableEq, Repr

/-- A request for one line of a column cache: merged into a miss register, or waiting at the crossbar (R229).
`old` is the line before a store. -/
structure CacheReq where
  reader : Reader
  addr : Nat
  store : Bool
  old : Line
  deriving DecidableEq, Repr

/-- A busy miss register (R229, R235, R237). -/
structure MissReg where
  cluster : Nat
  addr : Nat
  pod : Nat
  store : Bool
  prefetch : Bool
  /-- Requests merged into it, in arrival order (R229). -/
  secondaries : List CacheReq
  /-- A maintenance operation attached to the register (R237). -/
  maint : Nat
  /-- The fill has arrived and waits for the write-back buffer (R230): 1 clean, 2 with ownership, 0 not
  yet; its poison mark, and the way it waits for. -/
  fill : Nat
  fillPoison : Poison
  way : Nat
  /-- Its request carries the page hint OPEN (R273). -/
  openHint : Bool
  /-- The line as it stood before the first store that merged here. -/
  old : Line
  deriving DecidableEq, Repr

/-- A stream entry shared by the streaming detector and the prefetcher (R231, R235). -/
structure PfStream where
  cluster : Nat
  tile : Nat
  slot : Nat
  stage : Nat
  col : Nat
  lastMiss : Option Nat
  stride : Int
  confirmed : Bool
  lastStore : Option Nat
  storeRun : Nat
  noAlloc : Bool
  deriving DecidableEq, Repr

/-- A directory entry not in state I (R240 to R242). `txn` is the open transaction (PIN). -/
structure DirEnt where
  slice : Nat
  set : Nat
  way : Nat
  sector : Nat
  filter : Bool
  bcast : Bool
  ptrs : List Nat
  excl : Bool
  deriving DecidableEq, Repr

/-- The requests of R243 and R244. -/
inductive ReqKind where
  | rdShared
  | rdUnique
  | upgrade
  | rdOnce
  | wrFull (data : Line) (poison : Poison)
  | wrPart (data : Line) (be : Nat)
  | atomic (op : AtomicOp) (operand compare : Word) (cached : Bool)
  /-- A store of a stage that goes to the home uncached (R227, R231, R238): WrFull, WrPart or an Atomic by its
  message code, with the write hint and the line before it. Its bytes are in the coherent view already (log
  entry 16). -/
  | stageWr (code hint : Nat) (old : Line)
  | clean
  | flush
  | snpShared
  | snpInv
  deriving DecidableEq, Repr

/-- A request at its home: open (waiting for snoop answers), queued or backing off (R244, R246). -/
structure HomeTxn where
  slice : Nat
  sector : Nat
  agent : Nat
  addr : Nat
  holds : Bool
  kind : ReqKind
  /-- Agents whose answers are outstanding; the transaction is open while `opened`. -/
  waits : List Nat
  opened : Bool
  retries : Nat
  gotDirty : Bool
  gotClean : Bool
  /-- WrBacks held against an outstanding snoop, by agent and line (R245). -/
  heldWb : List (Nat × Nat)
  /-- The span group of the requesting pod (R357, R370), and the dirty lines that answers to a remote home's snoop
  have given (R371). -/
  group : Nat
  lines : Nat
  deriving DecidableEq, Repr

/-- A victim slot of a slice (R246). -/
structure Victim where
  slice : Nat
  sector : Nat
  filter : Bool
  /-- The entry was in state E (R248). -/
  excl : Bool
  waits : List Nat
  deriving DecidableEq, Repr

/-! ### DDR5 and DMA -/

/-- The data message that answers a read once the controller has read the line (R244, R265). -/
structure Reply where
  agent : Nat
  code : Nat
  addr : Nat
  group : Nat
  deriving DecidableEq, Repr

/-- An entry of a channel's read or write queue (R268 to R273). -/
structure QEnt where
  addr : Nat
  port : Nat
  pod : Nat
  write : Bool
  part : Bool
  openHint : Bool
  aged : Bool
  reply : Option Reply
  deriving DecidableEq, Repr

/-- A request waiting at a channel's port (R274): its lines, all of one sector. -/
structure PortReq where
  port : Nat
  pod : Nat
  write : Bool
  part : Bool
  openHint : Bool
  lines : List Nat
  reply : Option Reply
  deriving DecidableEq, Repr

/-- A memory channel beyond its registers (R262 to R280). -/
structure MemCh where
  table : List (BitVec 16)
  ptr : Nat
  rq : List QEnt
  wq : List QEnt
  ports : List PortReq
  /-- Writes of directory slices that wait for room in the write queue, ahead of any grant (R274). -/
  slices : List QEnt
  openRows : List (Nat × Nat × Nat)
  zqDue : Bool
  retrainDue : Bool
  lastTemp : Nat
  /-- The hottest sensor at the last poll, and opportunities and grants of the window of 64 that a
  throttled channel is held to (R263, R411). -/
  temp : Nat
  opps : Nat
  grants : Nat
  scrubC : Nat
  /-- Until when, in ns of the device timestamp, each subchannel refreshes and a ZQ calibration or retraining stalls
  the channel (R262, R264). -/
  refresh : List (Nat × Nat)
  stalledTo : Nat
  deriving DecidableEq, Repr

/-- What the DMA engine is doing with a descriptor (R281 to R289). -/
inductive DmaSt where
  | moving
  | job
  | readback
  deriving DecidableEq, Repr

/-- The running descriptor of a DMA channel, with the bytes its staging buffer has read and not yet written
(R282 to R287). -/
structure DmaCur where
  chan : Nat
  desc : List Byte
  st : DmaSt
  len : Nat
  done : Nat
  short : Bool
  status : Nat
  detail : Nat
  staged : List Byte
  deriving DecidableEq, Repr

/-- A compression job waiting or running (R155 to R163): a stage job names its stage and block
address, a DMA job its channel and descriptor address. -/
structure Job where
  stageJob : Bool
  tile : Nat
  slot : Nat
  stage : Nat
  col : Nat
  chan : Nat
  level : Nat
  pod : Nat
  /-- DMA: device address of the job descriptor; stage: device address of the block. -/
  addr : Nat
  op : Nat
  fmt : Nat
  src : List Byte
  limit : Nat
  deriving DecidableEq, Repr

/-- A context that an engine has written (R160) and what its 468 opaque bytes stand for: the source since the first
part, the output of the chunks before (under MORE_INPUT), and whether the history is in host memory (R161; the
model's own record, log entry 83). -/
structure JobCtx where
  bytes : List Byte
  src : List Byte
  base : List Byte
  more : Bool
  host : Bool
  deriving DecidableEq, Repr

/-- A job on an engine, and its outcome once the engine has worked it (R156, R157). -/
structure EngJob where
  engine : Nat
  job : Job
  finished : Bool
  status : Nat
  consumed : Nat
  output : List Byte
  /-- The context to write when the job stops (R160). -/
  ctx : Option JobCtx
  deriving DecidableEq, Repr

/-- The outcome of a stage job, until the stage takes it (R162). -/
structure JobResult where
  tile : Nat
  slot : Nat
  stage : Nat
  col : Nat
  addr : Nat
  status : Nat
  output : List Byte
  deriving DecidableEq, Repr

/-! ### Host, NVMe and pods -/

/-- Who waits for a page request (R294). -/
inductive Waiter where
  | stage (tile slot stage : Nat)
  | dma (chan : Nat)
  | job (engine : Nat)
  | ring (n : Nat)
  | nvme
  | other
  deriving DecidableEq, Repr

/-- An outstanding PRI page request (R293, R294). -/
structure PageReq where
  pasid : Nat
  page : Nat
  waiter : Waiter
  deriving DecidableEq, Repr

/-- What leaves the device through its pins and links: interrupts, coherent and span messages,
answers to reads, and management responses. Newest first. -/
inductive Out where
  | irq (pf1 : Bool) (vec : Nat)
  | coh (dst : Nat) (kind : Nat) (addr : Nat) (group : Nat := 0) (poison : Poison := .clean) (lines : Nat := 0)
  /-- The header slot of a message to a peer, and the port it leaves on (R370). -/
  | header (port : Nat) (slot : Nat)
  | span (dst : Nat) (opc : Nat) (body : List Nat)
  | xfer (dst : Nat) (kind : Nat) (body : List Nat)
  | data (bytes : List Byte) (poison : Bool)
  | completerAbort
  | retryStatus
  | config (value : Nat)
  | regRead (value : Nat)
  | mctp (b : Binding) (kind : Nat) (body : List Nat)
  | link (port : Nat) (kind : Nat) (value : Nat)
  | jtag (value : Nat) (bits : Nat)
  | avs (vddm : Bool) (mv : Nat)
  | pmbusOff
  deriving DecidableEq, Repr

/-- An NVMe submission queue (R325, R334). -/
structure NvmeSq where
  id : Nat
  size : Nat
  head : Nat
  tail : Nat
  cq : Nat
  base : Nat
  deriving DecidableEq, Repr

/-- A posted NVMe completion. -/
structure NvmeCqe where
  sq : Nat
  cid : Nat
  status : Nat
  dw0 : Nat
  deriving DecidableEq, Repr

/-- An NVMe completion queue with the completions its consumer has not yet freed. -/
structure NvmeCq where
  id : Nat
  size : Nat
  head : Nat
  tail : Nat
  vec : Nat
  ien : Bool
  base : Nat
  posted : List NvmeCqe
  /-- Completions aggregated and not yet announced (Interrupt Coalescing). -/
  unannounced : Nat
  deriving DecidableEq, Repr

/-- An LBA in the ingest write buffer (R329): namespace, LBA, bytes and how many of its lines have
drained. -/
structure BufLba where
  nsid : Nat
  lba : Nat
  bytes : List Byte
  drained : Nat
  deriving DecidableEq, Repr

/-- Why a completion waits (R329, R331, R333, R334): a Write or Flush for the write buffer, a Delete for
the other commands of its queue, an Abort for the one it names. -/
inductive WaitKind where
  | write
  | flush
  | delete (sq : Nat)
  | abort (sq cid : Nat)
  | other
  deriving DecidableEq, Repr

/-- A command that has been fetched and whose completion is not posted yet. -/
structure NvmeWait where
  sq : Nat
  cq : Nat
  cid : Nat
  status : Nat
  dw0 : Nat
  kind : WaitKind
  /-- Buffered LBAs that must drain first. -/
  after : List (Nat × Nat)
  deriving DecidableEq, Repr

/-- A namespace being zeroed by its create command (R327). -/
structure NsCreate where
  nsid : Nat
  /-- The command to complete; none once its queue is gone. -/
  cid : Option Nat
  deriving DecidableEq, Repr

/-- The NVMe controller of PF1 beyond the ING_ registers (R324 to R335). -/
structure Nvme where
  enabled : Bool
  rdy : Bool
  cfs : Bool
  sqs : List NvmeSq
  cqs : List NvmeCq
  buf : List BufLba
  waits : List NvmeWait
  writeWaits : List NvmeIo
  creating : List NsCreate
  /-- Namespaces attached to controller 1. -/
  attached : List Nat
  features : List (Nat × Nat)
  /-- Error Information log, newest first (64 entries), as (error count, sq, cid, status). -/
  errLog : List (Nat × Nat × Nat × Nat)
  unitsRead : Nat
  unitsWritten : Nat
  hostReads : Nat
  hostWrites : Nat
  powerOnHours : Nat
  deriving DecidableEq, Repr

/-- The host link (R293 to R300). -/
structure HostSt where
  up : Bool
  /-- Speed code 0 to 5 (2.5 to 64 GT/s), width code 0 to 4 (×1 to ×16), flit mode. -/
  speed : Nat
  width : Nat
  flit : Bool
  cxl : Bool
  /-- The translation cache (R293): (PASID, 4 KiB page). -/
  ats : List (Nat × Nat)
  /-- Pages whose translation the host has withdrawn and ATS cannot supply (R294): (PASID, first page,
  pages). -/
  unmapped : List (Nat × Nat × Nat)
  /-- Pages whose resolution has failed once: the next access faults (R294). -/
  failed : List (Nat × Nat)
  pageReqs : List PageReq
  /-- Vectors unmasked and pending, as (pf1, vector) (R299); every other vector is masked. -/
  unmasked : List (Bool × Nat)
  pending : List (Bool × Nat)
  /-- Rings and error rings in holdoff: (ring, something to announce, when it ends) (R309, R478). -/
  holdoff : List (Nat × Bool × Nat)
  /-- Correction the timestamp runs at: 0 none, 1 fast, 2 slow, 3 half rate, and 4 or 5 once a slow or
  half-rate one has stood still for its nanosecond; what is left of the offset (R300). -/
  ptmMode : Nat
  ptmLeft : Nat
  deriving DecidableEq, Repr

/-! ### Control complex -/

/-- The slot states of R395. -/
inductive ThSt where
  | ready
  | running
  | next
  | delayed
  | waiting
  | blocked
  | stalled
  deriving DecidableEq, Repr

/-- A thread in a scheduler slot (R390 to R397). -/
structure Thread where
  slot : Nat
  number : Nat
  pod : Nat
  priv : Bool
  ring : Nat
  index : Nat
  pipe : Nat
  inst : Nat
  /-- The YIELD stage of the thread's ancestry (R391). -/
  stage : Nat
  prio : Nat
  st : ThSt
  pc : Nat
  g : List Word
  event : Word
  /-- Register that a WAIT, SPAWN or LOCK writes when it completes, and WAIT's mask. -/
  dest : Nat
  mask : Word
  expiry : Nat
  lockwait : Nat
  deriving DecidableEq, Repr

/-- A control core (R383, R396). -/
structure Core where
  fenced : Bool
  cur : Option Nat
  next : Option Nat
  deriving DecidableEq, Repr

/-- A hardware lock that is held, poisoned or bound (R399 to R401). -/
structure HLock where
  id : Nat
  held : Bool
  poison : Bool
  bound : Bool
  pod : Nat
  ring : Nat
  index : Nat
  local_ : Nat
  owner : Nat
  waiters : List Nat
  deriving DecidableEq, Repr

/-- A mailbox command in progress: its response words (R403, R404). -/
structure Mbx where
  pod : Nat
  rsp : List Word
  irq : Bool
  deriving DecidableEq, Repr

/-! ### Span -/

/-- A DzLink port beyond its registers (R359 to R366). -/
structure Port where
  cwGood : Nat
  cwBad : Nat
  cwLock : Bool
  cwSeq : Nat
  rxSeq : Nat
  txSeq : Nat
  /-- Unacknowledged flits, by sequence number (R363). -/
  replay : List Nat
  naks : Nat
  /-- Credits for the partner's receive buffers: classes COH, NC, XD and XC in turn, hop levels 1 to 3 each (R362). -/
  credits : List Nat
  /-- Messages with their header slots that wait for credits or for room in the replay buffer, oldest first. -/
  waiting : List (Out × Nat)
  /-- Retrains within the last second (R364), as timestamps. -/
  retrains : List Nat
  kept : Bool
  lpWait : Bool
  deriving DecidableEq, Repr

/-- What this device knows of a peer (R368, R380, R381). -/
structure Peer where
  links : List (Nat × Nat)
  lastHeard : Nat
  permit : Bool
  readySent : Bool
  readyGot : Bool
  clean : Bool
  deriving DecidableEq, Repr

/-- A consuming instance's assembly of a REMOTE group (R377 to R379). -/
structure XRecv where
  tile : Nat
  slot : Nat
  stage : Nat
  /-- Rows in the filling block, numbered block, outstanding credits by producer and held
  requests in order. -/
  rows : List XRow
  nextSeq : Nat
  granted : List (Nat × Nat)
  holds : List (Nat × Nat)
  ends : List (Nat × Nat)
  deriving DecidableEq, Repr

/-! ### Power, Hull, Shell, errors -/

/-- An instance waiting for release by the governor (R414). -/
structure GovStart where
  tile : Nat
  slot : Nat
  x : Nat
  deriving DecidableEq, Repr

/-- The load-step governor and the power sequencer beyond their registers (R408 to R422). The
account unit is 1/32000 A, so a class step and a SLEW step are both whole. -/
structure Power where
  queue : List GovStart
  acct : Nat
  announced : Bool
  advancing : Bool
  /-- Sum of x released in this ramp. -/
  released : Nat
  lstep : Bool
  ramping : Bool
  /-- Dead-band releases of the last 1 µs: (timestamp, x) (R413). -/
  db : List (Nat × Nat)
  /-- Ballast by tile: its current and when it began to decay (R416). -/
  ballast : List (Nat × Nat × Nat)
  /-- A frequency raise that waits for the regulator (R408). -/
  pendingMhz : Option Nat
  /-- A voltage has been written to the regulator and is not reported reached (R408). -/
  avsWait : Bool
  powerMhz : Nat
  thermalMhz : Nat
  /-- Clusters whose clock is stretched (R417). -/
  stretched : List Nat
  /-- Requested power state of an entry in progress: 2 S1, 3 S2 (R420), and the state left. -/
  target : Nat
  fromState : Nat
  latched : Nat
  heldReq : Option Nat
  clocksStopped : Bool
  thermtripN : Bool
  tripPending : Bool
  pwrokLost : Bool
  off : Bool
  deriving DecidableEq, Repr

/-- The digest engine (R439 to R443). -/
structure Digest where
  owner : Option HullUser
  alg : Nat
  len : Nat
  outlen : Nat
  dest : Nat
  /-- Bytes of the message absorbed or in the open rate block, the word in the latch. -/
  message : List Byte
  latch : Option Word
  absorbing : Bool
  lost : Bool
  trunc : Bool
  done : Bool
  result : Nat
  /-- The squeezed output, never readable (R442). -/
  output : List Byte
  key : List Byte
  /-- Per requester: refused, reason, expired. -/
  refused : List (HullUser × Nat)
  expired : List HullUser
  deriving DecidableEq, Repr

/-- A Pit slot (R444). -/
structure PitSlot where
  slot : Nat
  bytes : List Byte
  locked : Bool
  deriving DecidableEq, Repr

/-- The OTP fuses (R430 to R432): lifecycle code, SVN, key retirement, serial number, UDS and
root keys. -/
structure Otp where
  lifecycle : Nat
  svn : Nat
  retired : Bool
  serial : List Byte
  uds : List Byte
  keys : List (List Byte)
  gradeB : Bool
  deriving DecidableEq, Repr

/-- The Hull (R429 to R445, R454, R455). -/
structure Hull where
  otp : Otp
  mode : Nat
  debug : Nat
  digest : Digest
  expect : List Word
  pit : List PitSlot
  drbgReady : Bool
  healthFail : Bool
  drbgCount : Nat
  /-- The issued challenge nonce and level, and the token words written (R455). -/
  nonce : Option (List Word)
  level : Nat
  token : List Word
  tokenOver : Bool
  verifying : Bool
  submitted : List Byte
  fails : Nat
  sesameResult : Nat
  locked : Bool
  measure2 : List Byte
  measure3 : List Byte
  deriving DecidableEq, Repr

/-- A firmware component image in a flash slot (R446). -/
structure FlashSlot where
  component : Nat
  slotB : Bool
  image : List Byte
  deriving DecidableEq, Repr

/-- A PLDM firmware update in progress (R447). -/
structure Update where
  binding : Binding
  /-- 1 learn components, 2 ready, 3 download, 4 verify, 5 apply, 6 activate. -/
  state : Nat
  component : Nat
  size : Nat
  received : List Byte
  deriving DecidableEq, Repr

/-- An event-log entry (R453). -/
structure LogEntry where
  seq : Nat
  bytes : List Byte
  deriving DecidableEq, Repr

/-- The Shell, its flash, log and protocol endpoints (R446 to R453), and the test access port
(R456, R457). -/
structure Shell where
  flash : List FlashSlot
  activeB : List (Nat × Bool)
  policy : Option (List Byte)
  /-- The trained values in flash: the serial numbers and the rate they are keyed by (R260). -/
  trainKey : Option (List (BitVec 32) × Nat)
  flashOk : Bool
  update : Option Update
  log : List LogEntry
  logSeq : Nat
  powerCycle : Nat
  /-- Shell nanoseconds since power-on (R453). -/
  ns : Nat
  readings : List SensorReading
  /-- EID of each binding, 0 while none is assigned (R451). -/
  eids : List (Binding × Nat)
  /-- The signing in progress: its binding and response (R448). -/
  signing : Option (Binding × List Byte)
  transcript : List Byte
  running : Bool
  tapIr : Nat
  extest : Bool
  deriving DecidableEq, Repr

/-- A tile's self-test state (R466 to R471). -/
structure TileTest where
  tile : Nat
  lastPass : Nat
  late : Bool
  claimed : Bool
  testing : Bool
  immediate : Bool
  retest : Bool
  firstTested : Bool
  lastFault : Option Nat
  deriving DecidableEq, Repr

/-- What an armed injection names (R482). -/
structure Injection where
  target : Nat
  index : Nat
  mode : Nat
  addr : Nat
  deriving DecidableEq, Repr

/-- The error reporter beyond the ERR_ registers (R470 to R482). -/
structure Errs where
  seq : Nat
  /-- Rings whose next record carries FLAGS.LOST: `none` the manager's, `some p` pod p's. -/
  lost : List (Option Nat)
  /-- Last record of a rate-limited class and source: (class, source, timestamp) (R477). -/
  recent : List (Nat × Nat × Nat)
  /-- Faults planted by fired injections: (target, index, address, mode) (R482). -/
  planted : List (Nat × Nat × Nat × Nat)
  /-- The injection that ERR_INJ armed last: it keeps what it named when the register is rewritten. -/
  inj : Injection
  tests : List TileTest
  /-- Parity failures of one message on a hop: (segment, count) (R470). -/
  parity : List (Nat × Nat)
  segFenced : List Nat
  /-- Join slices lost to a cluster fence (R472). -/
  jdrLost : Bool
  /-- Tiles that wait for an immediate test or a retest, in request order (R466). -/
  waitTests : List Nat
  /-- Runs that used a tile since its last pass: (tile, ring, index) (R475). -/
  used : List (Nat × Nat × Nat)
  deriving DecidableEq, Repr

/-- A pod's saved state (R348), found again by RESTORE under its header (log entry 7): the lists of the
device that belong to the pod, and its registers in the order of `Dev.imageRegs`. -/
structure PodImage where
  code : Nat
  header : List Byte
  pod : Nat
  tiles : List Nat
  rings : List Nat
  chans : List Nat
  insts : List Inst
  slots : List SlotSt
  sels : List (Nat × SelEntry)
  jents : List JEntry
  jrgns : List JRegion
  rrgns : List RRegion
  runs : List Run
  pushed : List (Nat × Nat × List Byte)
  progs : List ProgReg
  threads : List Thread
  ready : List Nat
  locks : List HLock
  regs : List Word
  stageJobs : List Job
  dmaJobs : List Job
  jobResults : List JobResult
  xrecvs : List XRecv
  dmas : List DmaCur
  deriving DecidableEq, Repr

/-- The device: everything the spec gives the DZ8816. -/
structure Dev where
  /-- Registers whose value differs from their reset value, by PF0 BAR0 address, ascending. -/
  regs : List (Nat × Word)
  /-- Staged lower halves (R10). -/
  staging : List (Nat × BitVec 32)
  /-- Device memory through every coherent agent's eyes, by device offset; unlisted bytes are
  zero (R258 step 9). -/
  mem : List Host.Cell
  /-- Host memory by address, PASID in the upper part of the key; unlisted bytes are zero. -/
  hmem : List Host.Cell
  /-- Memory of peer devices, by the 52-bit address of R356. -/
  peerMem : List Host.Cell
  /-- Poisoned lines by 52-bit line address (R266). -/
  poison : List (Nat × Poison)
  progs : List ProgReg
  handles : List (Nat × Nat)
  pgc : List PgcEntry
  submits : Nat
  runs : List Run
  /-- Entries pushed and not yet fetched: (ring, index, entry) (R303). -/
  pushed : List (Nat × Nat × List Byte)
  insts : List Inst
  slots : List SlotSt
  /-- Selection stores, by tile (R71). -/
  sels : List (Nat × SelEntry)
  /-- The pod that last used each tile's store (R224). -/
  lastPod : List (Nat × Nat)
  /-- Poisoned words of tile stores: (tile, offset) (R222). -/
  tsPoison : List (Nat × Nat)
  jents : List JEntry
  jrgns : List JRegion
  rrgns : List RRegion
  /-- Stores of a slot where a read finds an uncorrectable word: (tile, slot, 0 block descriptors, 1 selections,
  2 stage registers) (R222; log entry 85). -/
  slotMarks : List (Nat × Nat × Nat)
  lines : List CLine
  misses : List MissReg
  /-- Requests that wait at the crossbar for a fill or a free register, in arrival order (R229, R233, R237). -/
  missWait : List CacheReq
  /-- Write hints of stage stores that have not reached their home: (cluster, line, hint) (R247). -/
  hints : List (Nat × Nat × Nat)
  /-- Write-back buffers in use: (cluster, line) (R230). -/
  wbb : List (Nat × Nat)
  /-- Maintenance in progress: (cluster, operation, line, global) (R236). -/
  maint : List (Nat × Nat × Nat × Bool)
  pfs : List PfStream
  dir : List DirEnt
  txns : List HomeTxn
  victims : List Victim
  /-- Rotating way pointers that are not 0: ((slice, set), way) (R246). -/
  rot : List ((Nat × Nat) × Nat)
  /-- Agents whose scrub walk runs (R248). -/
  scrubs : List Nat
  chans : List MemCh
  /-- Requests of the real-time ports that wait for room in the ingress buffers (R279). -/
  memWait : List PortReq
  dimms : Option Dimms
  dmas : List DmaCur
  /-- Round-robin pointers of the DMA priority levels (R284), and the last CJOB order. -/
  dmaRr : List Nat
  stageJobs : List Job
  dmaJobs : List Job
  engJobs : List EngJob
  /-- The contexts that engines have written (R160, R161; log entry 83). -/
  contexts : List JobCtx
  jobResults : List JobResult
  host : HostSt
  out : List Out
  nvme : Nvme
  images : List PodImage
  /-- What waits for the end of a pod's creation or reset: (pod, 2 DESTROY or 3 the reset of an FLR)
  (R342, R345). -/
  podPend : List (Nat × Nat)
  threads : List Thread
  /-- Ready lists: slots in FIFO order, all priorities together (R396). -/
  ready : List Nat
  cores : List Core
  locks : List HLock
  mbxs : List Mbx
  ports : List Port
  peers : List Peer
  /-- JOINs held for a local entry (R374). -/
  joins : List JoinMsg
  xrecvs : List XRecv
  pw : Power
  hull : Hull
  shell : Shell
  errs : Errs
  /-- The transaction tag of the last message to a peer (R370). -/
  msgTag : Nat
  /-- How many free values have been used (the model's own field; log entry 1). -/
  fresh : Nat
  deriving DecidableEq, Repr

/-- The machine: the device and the commands that wait for it, first in, first out. -/
structure State where
  dev : Dev
  pending : List Instr
  deriving DecidableEq, Repr

/-- Why a command stops without a next state. No command of the DZ8816 does: every error the spec describes
is a status, a record or an ignored access, so the type has no constructor. -/
inductive Fault where
  deriving DecidableEq, Repr

/-- Why the model refuses a command. -/
inductive Refusal where
  /-- Raised by an arm of `exec` that has no meaning yet. Safe: nothing is claimed of it. -/
  | notModelled (mnemonic : String)
  deriving DecidableEq, Repr

/-! ### Reset -/

/-- The default time-slot table (R280). -/
def defaultTable : List (BitVec 16) :=
  [0, 1, 2, 8, 3, 4, 5, 9, 6, 7, 0, 8, 1, 2, 3, 9, 4, 5, 6, 8, 7, 0, 1, 9, 2, 3, 4, 8, 5, 6, 7, 10,
   0, 1, 2, 8, 3, 4, 5, 9, 6, 7, 0, 8, 1, 2, 3, 9, 4, 5, 6, 8, 7, 0, 1, 9, 2, 3, 4, 8, 5, 6, 7, 14]

/-- A memory channel after reset (R280: the default table, `ptr` 0). -/
def MemCh.reset : MemCh :=
  { table := defaultTable, ptr := 0, rq := [], wq := [], ports := [], openRows := [],
    zqDue := false, retrainDue := false, lastTemp := 0, temp := 0, opps := 0,
    grants := 0, scrubC := 0, slices := [], refresh := [], stalledTo := 0 }

/-- The NVMe controller after a reset that clears it (R328, R334). -/
def Nvme.reset : Nvme :=
  { enabled := false, rdy := false, cfs := false, sqs := [], cqs := [], buf := [], waits := [],
    writeWaits := [], creating := [], attached := [], features := [], errLog := [],
    unitsRead := 0, unitsWritten := 0, hostReads := 0, hostWrites := 0, powerOnHours := 0 }

/-- The host link before it trains. -/
def HostSt.reset : HostSt :=
  { up := false, speed := 0, width := 0, flit := false, cxl := false, ats := [], unmapped := [],
    failed := [], pageReqs := [], unmasked := [], pending := [], holdoff := [], ptmMode := 0,
    ptmLeft := 0 }

/-- A control core with no thread. -/
def Core.reset : Core := { fenced := false, cur := none, next := none }

/-- Every slot of the receive buffers (R362): 512, 64, 2,048 and 64 for each hop level. -/
def fullCredits : List Nat := [512, 64, 2048, 64].flatMap (List.replicate 3)

/-- A port after reset; training loads the credits (R364). -/
def Port.reset : Port :=
  { cwGood := 0, cwBad := 0, cwLock := false, cwSeq := 0, rxSeq := 0, txSeq := 0, replay := [],
    naks := 0, credits := fullCredits, waiting := [], retrains := [], kept := false, lpWait := false }

/-- A peer nothing is known of. -/
def Peer.reset : Peer :=
  { links := [], lastHeard := 0, permit := false, readySent := false, readyGot := false,
    clean := false }

/-- The governor and sequencer after reset; both frequency limits stand at the reset
LIMIT_MHZ of 1600 (R428). -/
def Power.reset : Power :=
  { queue := [], acct := 0, announced := false, advancing := false, released := 0, lstep := false,
    ramping := false, db := [], ballast := [], pendingMhz := none, avsWait := false, powerMhz := 1600,
    thermalMhz := 1600, stretched := [], target := 0, fromState := 0, latched := 0,
    heldReq := none, clocksStopped := false, thermtripN := false, tripPending := false,
    pwrokLost := false, off := false }

/-- A free digest engine (R439; OUTLEN and DEST at the reset values of SEC_DG_CTRL). -/
def Digest.reset : Digest :=
  { owner := none, alg := 0, len := 0, outlen := 32, dest := 255, message := [], latch := none,
    absorbing := false, lost := false, trunc := false, done := false, result := 0, output := [],
    key := [], refused := [], expired := [] }

/-- The fuses of the modelled part: SEALED, grade -A, all secrets zero bytes (log entry 8: the
spec gives the fuses of no part). -/
def Otp.reset : Otp :=
  { lifecycle := 2, svn := 0, retired := false, serial := List.replicate 16 0,
    uds := List.replicate 32 0, keys := [List.replicate 64 0, List.replicate 64 0],
    gradeB := false }

/-- The Hull right after power-on: BOOT mode, level D0 (R454), Pit empty. -/
def Hull.reset : Hull :=
  { otp := Otp.reset, mode := 0, debug := 0, digest := Digest.reset, expect := List.replicate 8 0,
    pit := [], drbgReady := true, healthFail := false, drbgCount := 0, nonce := none, level := 0,
    token := [], tokenOver := false, verifying := false, submitted := [], fails := 0,
    sesameResult := 0, locked := false, measure2 := List.replicate 64 0,
    measure3 := List.replicate 64 0 }

/-- The Shell after power-on: Sprout and the executive in slots A as delivered, and an empty log (log
entry 8). -/
def Shell.reset : Shell :=
  { flash := [⟨1, false, Config.flashImage 1 false⟩, ⟨2, false, Config.flashImage 2 false⟩], activeB := [], policy := none, trainKey := none,
    flashOk := false,
    update := none, log := [], logSeq := 0, powerCycle := 1, ns := 0, readings := [],
    eids := [], signing := none, transcript := [], running := true, tapIr := 0, extest := false }

/-- No fault, no record, no test (R476: SEQ skips 0, so the first record is 1). -/
def Errs.reset : Errs :=
  { seq := 0, lost := [], recent := [], planted := [], inj := ⟨0, 0, 0, 0⟩, tests := [], parity := [], segFenced := [],
    jdrLost := false, waitTests := [], used := [] }

/-- The device right after power-on: every register at the Reset column of its table (so none is
listed), every structure empty. -/
def Dev.reset : Dev :=
  { regs := [], staging := [], mem := [], hmem := [], peerMem := [], poison := [], progs := [],
    handles := [], pgc := [], submits := 0, runs := [], pushed := [], insts := [], slots := [], sels := [],
    lastPod := [], tsPoison := [], slotMarks := [], jents := [], jrgns := [], rrgns := [], lines := [],
    misses := [], missWait := [], hints := [], wbb := [], maint := [], pfs := [], dir := [], txns := [], victims := [],
    rot := [], scrubs := [], chans := List.replicate 16 MemCh.reset, memWait := [],
    dimms := none, dmas := [],
    dmaRr := [0, 0, 0, 0], stageJobs := [], dmaJobs := [], engJobs := [], contexts := [], jobResults := [],
    host := HostSt.reset, out := [], nvme := Nvme.reset, images := [], podPend := [], threads := [], ready := [],
    cores := List.replicate 8 Core.reset, locks := [], mbxs := [],
    ports := List.replicate 4 Port.reset, peers := List.replicate 8 Peer.reset, joins := [],
    xrecvs := [], pw := Power.reset, hull := Hull.reset, shell := Shell.reset, errs := Errs.reset,
    msgTag := 0, fresh := 0 }

/-- The machine right after reset, with no command waiting. -/
def State.reset : State := { dev := Dev.reset, pending := [] }

end Sys2Proof.Machine
end

