-- ==== Sys2Proof/Machine/RegMap.lean ====
section
/-! DEFINITION. The register map: every register of the spec's register tables with its address
in PF0 BAR0 (R500), its fields, access codes (R13), reset values (R16) and legal field ranges. -/

namespace Sys2Proof.Machine

/-- The access codes of R13. -/
inductive Acc where
  | rw
  | ro
  | wo
  | w1c
  | rws
  | rwl
  deriving DecidableEq, Repr

/-- The registers, one constructor per row of the spec's register tables. -/
inductive RegKind where
  | CTL_DEVICE_ID
  | TIL_PIPE_SLOT
  | TIL_PIPE_PROG
  | TIL_BP_STALL
  | TIL_INTENSITY_EVT
  | CLU_PGC_STATUS
  | CLU_PGC_HIT
  | CLU_PGC_MISS
  | TIL_ARITH_FAULT
  | CMP_CTRL
  | CMP_ENG_STATUS
  | CMP_ENG_IN
  | CMP_ENG_OUT
  | CMP_ENG_NOSHRINK
  | JDR_SLICE_INSERTS
  | JDR_SLICE_PROBES
  | JDR_SLICE_USED
  | JDR_POD_RGN_STATE
  | JDR_POD_RGN_ROWS
  | JDR_POD_RGN_ENTRIES
  | JDR_POD_RGN_SPILLED
  | JDR_POD_CLEAR
  | RDR_SLICE_SEARCHES
  | RDR_SLICE_UPDATES
  | RDR_SLICE_MOVES
  | RDR_SLICE_USED
  | RDR_POD_RGN_CFG
  | RDR_POD_RGN_STATE
  | RDR_POD_CLEAR
  | TIL_TS_ECC
  | TIL_TS_ECC_ADDR
  | TIL_TS_SCRUB
  | CCH_CTRL
  | CCH_LFSR
  | CCH_STATUS
  | CCH_MAINT_ADDR
  | CCH_MAINT
  | CCH_POD_WAYS
  | CCH_STASH_POD
  | CCH_HIT
  | CCH_MISS
  | CCH_PF_USEFUL
  | CCH_NOALLOC
  | CCH_WB
  | DIR_AGENT_LIVE
  | DIR_SCRUB
  | DIR_POISONED
  | DIR_SLICE_USED
  | DIR_SLICE_BACKINV
  | DIR_SLICE_RETRY
  | DIR_SLICE_BCAST
  | MEM_CFG
  | MEM_TRAIN
  | MEM_MAINT_CFG
  | MEM_SCRUB
  | MEM_RT_CFG
  | MEM_CH_WM
  | MEM_CH_STATUS
  | MEM_CH_ECC
  | MEM_CH_ECC_ADDR
  | MEM_CH_STALL
  | MEM_CH_PANIC
  | MEM_CH_SLOT_COMMIT
  | MEM_CH_SLOT
  | DMA_ACTIVE
  | DMA_CH_RING
  | DMA_CH_CFG
  | DMA_CH_TAIL
  | DMA_CH_HEAD
  | DMA_CH_STATUS
  | DMA_CH_CTRL
  | DMA_CH_OWNER
  | DMA_CH_BYTES
  | RNG_BASE
  | RNG_CFG
  | RNG_DB
  | RNG_HEAD
  | RNG_STATUS
  | RNG_OWNER
  | RNG_DONE
  | RNG_PUSH
  | ING_POOL
  | ING_STATUS
  | ING_WR_BYTES
  | ING_RD_BYTES
  | ING_BUF_HITS
  | ING_NS
  | CLK_PTM_CTRL
  | CLK_PTM_STATUS
  | POD_GLOBAL
  | POD_CMD
  | POD_STATUS
  | POD_TILES
  | POD_SHARES
  | POD_PASID
  | POD_LOG_CFG
  | POD_LOG_BASE
  | POD_LOG_BUF
  | POD_SAVE_ADDR
  | POD_SAVE_LEN
  | POD_DDR
  | LNK_SPAN_CFG
  | LNK_SPAN_STATUS
  | LNK_SPAN_CTRL
  | LNK_XCFG
  | LNK_ROUTE
  | LNK_PORT_CTRL
  | LNK_PORT_STATUS
  | LNK_PORT_FEC_CORR
  | LNK_PORT_FEC_UNCORR
  | LNK_PORT_REPLAY
  | LNK_POD_SPAN
  | CTL_CORE_STATUS
  | CTL_SCHED_CFG
  | CTL_SCHED_STATUS
  | CTL_SCHED_STALL
  | CTL_LOCK
  | CTL_THREAD
  | CTL_MBX_CMD
  | CTL_MBX_RSP
  | CTL_MBX_CTRL
  | PWR_STATE
  | PWR_WAKE
  | PWR_RESET_CAUSE
  | PWR_RESET
  | PWR_GOV_CFG
  | PWR_GOV_STATUS
  | PWR_LIMIT
  | PWR_DROOP_CFG
  | PWR_DROOP_EVT
  | PWR_THERMAL
  | PWR_STATUS
  | CLK_CCLK_REQ
  | CLK_CCLK_STATUS
  | CLK_TIMESTAMP
  | SEC_STATUS
  | SEC_CTRL
  | SEC_DG_CTRL
  | SEC_DG_STATUS
  | SEC_DG_DATA
  | SEC_DG_EXPECT
  | SEC_RNG
  | SEC_RNG_STATUS
  | SEC_PIT_SEL
  | SEC_PIT_DATA
  | DBG_SESAME_CTRL
  | DBG_SESAME_NONCE
  | DBG_SESAME_RESP
  | DBG_MUX
  | SHL_STATUS
  | SHL_LOG_STATE
  | SHL_LOG_INDEX
  | SHL_LOG_DATA
  | ERR_CFG
  | ERR_STATUS
  | ERR_RING_BASE
  | ERR_RING_CFG
  | ERR_RING_PTR
  | ERR_ST_CTRL
  | ERR_ST_STATUS
  | ERR_FENCE_TILE
  | ERR_FENCE_OTHER
  | ERR_RETEST
  | ERR_INJ
  | ERR_INJ_ADDR
  | ERR_POD_RING_BASE
  | ERR_POD_RING_CFG
  | ERR_POD_RING_PTR
  | ERR_POD_STATUS
  deriving DecidableEq, Repr

/-- A field of a register: lowest bit, width, access, reset value, and the values a write may
leave in it (another value leaves the field unchanged). -/
structure Fld where
  kind : RegKind
  lo : Nat
  width : Nat
  acc : Acc
  reset : Nat
  least : Nat
  most : Nat
  deriving DecidableEq, Repr

/-- One register: its kind and its instance numbers. -/
structure RegRef where
  kind : RegKind
  i : Nat
  j : Nat
  deriving DecidableEq, Repr

namespace F

def CTL_DEVICE_ID_PART : Fld := ⟨.CTL_DEVICE_ID, 48, 16, .ro, 0x8816, 0, 0xffff⟩
def CTL_DEVICE_ID_GRADE : Fld := ⟨.CTL_DEVICE_ID, 40, 8, .ro, 0xa, 0, 0xff⟩
def CTL_DEVICE_ID_STEPPING : Fld := ⟨.CTL_DEVICE_ID, 32, 8, .ro, 0x10, 0, 0xff⟩
def CTL_DEVICE_ID_ISA : Fld := ⟨.CTL_DEVICE_ID, 24, 8, .ro, 3, 0, 0xff⟩
def CTL_DEVICE_ID_MAX_CCLK_MHZ : Fld := ⟨.CTL_DEVICE_ID, 0, 16, .ro, 0x76c, 0, 0xffff⟩
def TIL_PIPE_SLOT_HANDLE : Fld := ⟨.TIL_PIPE_SLOT, 32, 32, .ro, 0, 0, 0xffffffff⟩
def TIL_PIPE_SLOT_EPOCH : Fld := ⟨.TIL_PIPE_SLOT, 16, 16, .ro, 0, 0, 0xffff⟩
def TIL_PIPE_SLOT_PIPE : Fld := ⟨.TIL_PIPE_SLOT, 13, 3, .ro, 0, 0, 7⟩
def TIL_PIPE_SLOT_STATE : Fld := ⟨.TIL_PIPE_SLOT, 8, 4, .ro, 0, 0, 0xf⟩
def TIL_PIPE_SLOT_POD : Fld := ⟨.TIL_PIPE_SLOT, 0, 6, .ro, 0, 0, 0x3f⟩
def TIL_PIPE_PROG_DRAIN : Fld := ⟨.TIL_PIPE_PROG, 32, 16, .ro, 0, 0, 0xffff⟩
def TIL_PIPE_PROG_INSTANCE : Fld := ⟨.TIL_PIPE_PROG, 16, 6, .ro, 0, 0, 0x3f⟩
def TIL_PIPE_PROG_PAIRS : Fld := ⟨.TIL_PIPE_PROG, 8, 4, .ro, 0, 0, 0xf⟩
def TIL_PIPE_PROG_STALL_STAGE : Fld := ⟨.TIL_PIPE_PROG, 0, 6, .ro, 0x3f, 0, 0x3f⟩
def TIL_BP_STALL_OVF : Fld := ⟨.TIL_BP_STALL, 63, 1, .w1c, 0, 0, 1⟩
def TIL_BP_STALL_COUNT : Fld := ⟨.TIL_BP_STALL, 0, 48, .rw, 0, 0, 0xffffffffffff⟩
def TIL_INTENSITY_EVT_OVF : Fld := ⟨.TIL_INTENSITY_EVT, 63, 1, .w1c, 0, 0, 1⟩
def TIL_INTENSITY_EVT_COUNT : Fld := ⟨.TIL_INTENSITY_EVT, 0, 48, .rw, 0, 0, 0xffffffffffff⟩
def CLU_PGC_STATUS_PINNED : Fld := ⟨.CLU_PGC_STATUS, 8, 6, .ro, 0, 0, 0x3f⟩
def CLU_PGC_STATUS_RESIDENT : Fld := ⟨.CLU_PGC_STATUS, 0, 7, .ro, 0, 0, 0x7f⟩
def CLU_PGC_HIT_OVF : Fld := ⟨.CLU_PGC_HIT, 63, 1, .w1c, 0, 0, 1⟩
def CLU_PGC_HIT_COUNT : Fld := ⟨.CLU_PGC_HIT, 0, 48, .rw, 0, 0, 0xffffffffffff⟩
def CLU_PGC_MISS_OVF : Fld := ⟨.CLU_PGC_MISS, 63, 1, .w1c, 0, 0, 1⟩
def CLU_PGC_MISS_COUNT : Fld := ⟨.CLU_PGC_MISS, 0, 48, .rw, 0, 0, 0xffffffffffff⟩
def TIL_ARITH_FAULT_VALID : Fld := ⟨.TIL_ARITH_FAULT, 63, 1, .w1c, 0, 0, 1⟩
def TIL_ARITH_FAULT_SLOT : Fld := ⟨.TIL_ARITH_FAULT, 61, 2, .ro, 0, 0, 3⟩
def TIL_ARITH_FAULT_STAGE : Fld := ⟨.TIL_ARITH_FAULT, 56, 5, .ro, 0, 0, 0x1f⟩
def TIL_ARITH_FAULT_UOP : Fld := ⟨.TIL_ARITH_FAULT, 48, 8, .ro, 0, 0, 0xff⟩
def TIL_ARITH_FAULT_CODE : Fld := ⟨.TIL_ARITH_FAULT, 46, 2, .ro, 0, 0, 3⟩
def TIL_ARITH_FAULT_ROW : Fld := ⟨.TIL_ARITH_FAULT, 32, 14, .ro, 0, 0, 0x3fff⟩
def TIL_ARITH_FAULT_SEQ : Fld := ⟨.TIL_ARITH_FAULT, 0, 32, .ro, 0, 0, 0xffffffff⟩
def CMP_CTRL_RATIO_DEFAULT : Fld := ⟨.CMP_CTRL, 32, 16, .rw, 0x100, 1, 0xffff⟩
def CMP_CTRL_DMA_MAX : Fld := ⟨.CMP_CTRL, 8, 4, .rw, 4, 0, 8⟩
def CMP_CTRL_ENG_EN : Fld := ⟨.CMP_CTRL, 0, 8, .rw, 0xff, 0, 0xff⟩
def CMP_ENG_STATUS_POD : Fld := ⟨.CMP_ENG_STATUS, 10, 6, .ro, 0, 0, 0x3f⟩
def CMP_ENG_STATUS_LAST : Fld := ⟨.CMP_ENG_STATUS, 4, 4, .ro, 0, 0, 0xf⟩
def CMP_ENG_STATUS_FENCED : Fld := ⟨.CMP_ENG_STATUS, 3, 1, .ro, 0, 0, 1⟩
def CMP_ENG_STATUS_DMA : Fld := ⟨.CMP_ENG_STATUS, 2, 1, .ro, 0, 0, 1⟩
def CMP_ENG_STATUS_ENABLED : Fld := ⟨.CMP_ENG_STATUS, 1, 1, .ro, 1, 0, 1⟩
def CMP_ENG_STATUS_BUSY : Fld := ⟨.CMP_ENG_STATUS, 0, 1, .ro, 0, 0, 1⟩
def CMP_ENG_IN_OVF : Fld := ⟨.CMP_ENG_IN, 63, 1, .w1c, 0, 0, 1⟩
def CMP_ENG_IN_COUNT : Fld := ⟨.CMP_ENG_IN, 0, 48, .rw, 0, 0, 0xffffffffffff⟩
def CMP_ENG_OUT_OVF : Fld := ⟨.CMP_ENG_OUT, 63, 1, .w1c, 0, 0, 1⟩
def CMP_ENG_OUT_COUNT : Fld := ⟨.CMP_ENG_OUT, 0, 48, .rw, 0, 0, 0xffffffffffff⟩
def CMP_ENG_NOSHRINK_OVF : Fld := ⟨.CMP_ENG_NOSHRINK, 63, 1, .w1c, 0, 0, 1⟩
def CMP_ENG_NOSHRINK_COUNT : Fld := ⟨.CMP_ENG_NOSHRINK, 0, 48, .rw, 0, 0, 0xffffffffffff⟩
def JDR_SLICE_INSERTS_OVF : Fld := ⟨.JDR_SLICE_INSERTS, 63, 1, .w1c, 0, 0, 1⟩
def JDR_SLICE_INSERTS_COUNT : Fld := ⟨.JDR_SLICE_INSERTS, 0, 48, .rw, 0, 0, 0xffffffffffff⟩
def JDR_SLICE_PROBES_OVF : Fld := ⟨.JDR_SLICE_PROBES, 63, 1, .w1c, 0, 0, 1⟩
def JDR_SLICE_PROBES_COUNT : Fld := ⟨.JDR_SLICE_PROBES, 0, 48, .rw, 0, 0, 0xffffffffffff⟩
def JDR_SLICE_USED_ENTRIES : Fld := ⟨.JDR_SLICE_USED, 0, 18, .ro, 0, 0, 0x3ffff⟩
def JDR_POD_RGN_STATE_WAVE_FIRST : Fld := ⟨.JDR_POD_RGN_STATE, 56, 8, .ro, 0, 0, 0xff⟩
def JDR_POD_RGN_STATE_WAVE_LAST : Fld := ⟨.JDR_POD_RGN_STATE, 48, 8, .ro, 0, 0, 0xff⟩
def JDR_POD_RGN_STATE_SUB_FIRST : Fld := ⟨.JDR_POD_RGN_STATE, 40, 8, .ro, 0, 0, 0xff⟩
def JDR_POD_RGN_STATE_SUB_LAST : Fld := ⟨.JDR_POD_RGN_STATE, 32, 8, .ro, 0xff, 0, 0xff⟩
def JDR_POD_RGN_STATE_WAVES : Fld := ⟨.JDR_POD_RGN_STATE, 16, 16, .ro, 0, 0, 0xffff⟩
def JDR_POD_RGN_STATE_CASEFOLD : Fld := ⟨.JDR_POD_RGN_STATE, 9, 1, .ro, 0, 0, 1⟩
def JDR_POD_RGN_STATE_NULLKEY : Fld := ⟨.JDR_POD_RGN_STATE, 8, 1, .ro, 0, 0, 1⟩
def JDR_POD_RGN_STATE_PAYLOAD : Fld := ⟨.JDR_POD_RGN_STATE, 6, 2, .ro, 0, 0, 3⟩
def JDR_POD_RGN_STATE_STATE : Fld := ⟨.JDR_POD_RGN_STATE, 0, 4, .ro, 0, 0, 0xf⟩
def JDR_POD_RGN_ROWS_BUILD_ROWS : Fld := ⟨.JDR_POD_RGN_ROWS, 0, 48, .ro, 0, 0, 0xffffffffffff⟩
def JDR_POD_RGN_ENTRIES_ENTRIES : Fld := ⟨.JDR_POD_RGN_ENTRIES, 0, 21, .ro, 0, 0, 0x1fffff⟩
def JDR_POD_RGN_SPILLED_RECORDS : Fld := ⟨.JDR_POD_RGN_SPILLED, 0, 48, .ro, 0, 0, 0xffffffffffff⟩
def JDR_POD_CLEAR_REGIONS : Fld := ⟨.JDR_POD_CLEAR, 0, 16, .wo, 0, 0, 0xffff⟩
def RDR_SLICE_SEARCHES_OVF : Fld := ⟨.RDR_SLICE_SEARCHES, 63, 1, .w1c, 0, 0, 1⟩
def RDR_SLICE_SEARCHES_COUNT : Fld := ⟨.RDR_SLICE_SEARCHES, 0, 48, .rw, 0, 0, 0xffffffffffff⟩
def RDR_SLICE_UPDATES_OVF : Fld := ⟨.RDR_SLICE_UPDATES, 63, 1, .w1c, 0, 0, 1⟩
def RDR_SLICE_UPDATES_COUNT : Fld := ⟨.RDR_SLICE_UPDATES, 0, 48, .rw, 0, 0, 0xffffffffffff⟩
def RDR_SLICE_MOVES_OVF : Fld := ⟨.RDR_SLICE_MOVES, 63, 1, .w1c, 0, 0, 1⟩
def RDR_SLICE_MOVES_COUNT : Fld := ⟨.RDR_SLICE_MOVES, 0, 48, .rw, 0, 0, 0xffffffffffff⟩
def RDR_SLICE_USED_ENTRIES : Fld := ⟨.RDR_SLICE_USED, 0, 16, .ro, 0, 0, 0xffff⟩
def RDR_POD_RGN_CFG_HOLE : Fld := ⟨.RDR_POD_RGN_CFG, 56, 6, .rw, 8, 0, 0x3f⟩
def RDR_POD_RGN_CFG_BASE : Fld := ⟨.RDR_POD_RGN_CFG, 32, 16, .rw, 0, 0, 0xffff⟩
def RDR_POD_RGN_CFG_SIZE : Fld := ⟨.RDR_POD_RGN_CFG, 0, 16, .rw, 0, 0, 0xffff⟩
def RDR_POD_RGN_STATE_REBAL : Fld := ⟨.RDR_POD_RGN_STATE, 48, 16, .ro, 0, 0, 0xffff⟩
def RDR_POD_RGN_STATE_ENTRIES : Fld := ⟨.RDR_POD_RGN_STATE, 32, 16, .ro, 0, 0, 0xffff⟩
def RDR_POD_RGN_STATE_KEYTYPE : Fld := ⟨.RDR_POD_RGN_STATE, 24, 8, .ro, 0, 0, 0xff⟩
def RDR_POD_RGN_STATE_LAYERS : Fld := ⟨.RDR_POD_RGN_STATE, 20, 4, .ro, 0, 0, 0xf⟩
def RDR_POD_RGN_STATE_MARKING : Fld := ⟨.RDR_POD_RGN_STATE, 19, 1, .ro, 0, 0, 1⟩
def RDR_POD_RGN_STATE_LOCKED : Fld := ⟨.RDR_POD_RGN_STATE, 18, 1, .ro, 0, 0, 1⟩
def RDR_POD_RGN_STATE_REJECT : Fld := ⟨.RDR_POD_RGN_STATE, 17, 1, .w1c, 0, 0, 1⟩
def RDR_POD_RGN_STATE_STATE : Fld := ⟨.RDR_POD_RGN_STATE, 0, 4, .ro, 0, 0, 0xf⟩
def RDR_POD_CLEAR_REGIONS : Fld := ⟨.RDR_POD_CLEAR, 0, 16, .wo, 0, 0, 0xffff⟩
def TIL_TS_ECC_UE_COUNT : Fld := ⟨.TIL_TS_ECC, 32, 16, .rw, 0, 0, 0xffff⟩
def TIL_TS_ECC_CE_COUNT : Fld := ⟨.TIL_TS_ECC, 16, 16, .rw, 0, 0, 0xffff⟩
def TIL_TS_ECC_ADDR_VALID : Fld := ⟨.TIL_TS_ECC_ADDR, 63, 1, .w1c, 0, 0, 1⟩
def TIL_TS_ECC_ADDR_OFFSET : Fld := ⟨.TIL_TS_ECC_ADDR, 0, 22, .ro, 0, 0, 0x3fffff⟩
def TIL_TS_SCRUB_ZEROING : Fld := ⟨.TIL_TS_SCRUB, 1, 1, .ro, 0, 0, 1⟩
def TIL_TS_SCRUB_EN : Fld := ⟨.TIL_TS_SCRUB, 0, 1, .rw, 1, 0, 1⟩
def CCH_CTRL_PF_MR_MAX : Fld := ⟨.CCH_CTRL, 24, 7, .rw, 0x60, 0, 0x78⟩
def CCH_CTRL_PF_DEPTH : Fld := ⟨.CCH_CTRL, 16, 6, .rw, 0x10, 1, 0x20⟩
def CCH_CTRL_SD_EN : Fld := ⟨.CCH_CTRL, 9, 1, .rw, 1, 0, 1⟩
def CCH_CTRL_PF_EN : Fld := ⟨.CCH_CTRL, 8, 1, .rw, 1, 0, 1⟩
def CCH_CTRL_MODE : Fld := ⟨.CCH_CTRL, 5, 1, .ro, 0, 0, 1⟩
def CCH_CTRL_MODE_REQ : Fld := ⟨.CCH_CTRL, 4, 1, .rw, 0, 0, 1⟩
def CCH_CTRL_EN : Fld := ⟨.CCH_CTRL, 0, 2, .rw, 1, 0, 3⟩
def CCH_LFSR_VALUE : Fld := ⟨.CCH_LFSR, 0, 16, .rw, 0xace1, 1, 0xffff⟩
def CCH_STATUS_MR_BUSY : Fld := ⟨.CCH_STATUS, 8, 8, .ro, 0, 0, 0xff⟩
def CCH_STATUS_MAINT_REJ : Fld := ⟨.CCH_STATUS, 1, 1, .w1c, 0, 0, 1⟩
def CCH_STATUS_WBB_BUSY : Fld := ⟨.CCH_STATUS, 0, 1, .ro, 0, 0, 1⟩
def CCH_MAINT_ADDR_ADDR : Fld := ⟨.CCH_MAINT_ADDR, 6, 46, .rw, 0, 0, 0x3fffffffffff⟩
def CCH_MAINT_BUSY : Fld := ⟨.CCH_MAINT, 63, 1, .ro, 0, 0, 1⟩
def CCH_MAINT_GLOBAL : Fld := ⟨.CCH_MAINT, 3, 1, .rw, 0, 0, 1⟩
def CCH_MAINT_OP : Fld := ⟨.CCH_MAINT, 0, 3, .wo, 0, 0, 7⟩
def CCH_POD_WAYS_WAYS : Fld := ⟨.CCH_POD_WAYS, 0, 16, .rw, 0, 0, 0xffff⟩
def CCH_STASH_POD_HINT : Fld := ⟨.CCH_STASH_POD, 0, 32, .rw, 0, 0, 0xffffffff⟩
def CCH_HIT_OVF : Fld := ⟨.CCH_HIT, 63, 1, .w1c, 0, 0, 1⟩
def CCH_HIT_COUNT : Fld := ⟨.CCH_HIT, 0, 48, .rw, 0, 0, 0xffffffffffff⟩
def CCH_MISS_OVF : Fld := ⟨.CCH_MISS, 63, 1, .w1c, 0, 0, 1⟩
def CCH_MISS_COUNT : Fld := ⟨.CCH_MISS, 0, 48, .rw, 0, 0, 0xffffffffffff⟩
def CCH_PF_USEFUL_OVF : Fld := ⟨.CCH_PF_USEFUL, 63, 1, .w1c, 0, 0, 1⟩
def CCH_PF_USEFUL_COUNT : Fld := ⟨.CCH_PF_USEFUL, 0, 48, .rw, 0, 0, 0xffffffffffff⟩
def CCH_NOALLOC_OVF : Fld := ⟨.CCH_NOALLOC, 63, 1, .w1c, 0, 0, 1⟩
def CCH_NOALLOC_COUNT : Fld := ⟨.CCH_NOALLOC, 0, 48, .rw, 0, 0, 0xffffffffffff⟩
def CCH_WB_OVF : Fld := ⟨.CCH_WB, 63, 1, .w1c, 0, 0, 1⟩
def CCH_WB_COUNT : Fld := ⟨.CCH_WB, 0, 48, .rw, 0, 0, 0xffffffffffff⟩
def DIR_AGENT_LIVE_LIVE : Fld := ⟨.DIR_AGENT_LIVE, 0, 24, .ro, 0xffff, 0, 0xffffff⟩
def DIR_SCRUB_ACTIVE : Fld := ⟨.DIR_SCRUB, 63, 1, .ro, 0, 0, 1⟩
def DIR_SCRUB_AGENT : Fld := ⟨.DIR_SCRUB, 24, 5, .ro, 0, 0, 0x1f⟩
def DIR_SCRUB_COUNT : Fld := ⟨.DIR_SCRUB, 0, 16, .rw, 0, 0, 0xffff⟩
def DIR_POISONED_OVF : Fld := ⟨.DIR_POISONED, 63, 1, .w1c, 0, 0, 1⟩
def DIR_POISONED_COUNT : Fld := ⟨.DIR_POISONED, 0, 48, .rw, 0, 0, 0xffffffffffff⟩
def DIR_SLICE_USED_ENTRIES : Fld := ⟨.DIR_SLICE_USED, 0, 16, .ro, 0, 0, 0xffff⟩
def DIR_SLICE_BACKINV_OVF : Fld := ⟨.DIR_SLICE_BACKINV, 63, 1, .w1c, 0, 0, 1⟩
def DIR_SLICE_BACKINV_COUNT : Fld := ⟨.DIR_SLICE_BACKINV, 0, 48, .rw, 0, 0, 0xffffffffffff⟩
def DIR_SLICE_RETRY_OVF : Fld := ⟨.DIR_SLICE_RETRY, 63, 1, .w1c, 0, 0, 1⟩
def DIR_SLICE_RETRY_COUNT : Fld := ⟨.DIR_SLICE_RETRY, 0, 48, .rw, 0, 0, 0xffffffffffff⟩
def DIR_SLICE_BCAST_OVF : Fld := ⟨.DIR_SLICE_BCAST, 63, 1, .w1c, 0, 0, 1⟩
def DIR_SLICE_BCAST_COUNT : Fld := ⟨.DIR_SLICE_BCAST, 0, 48, .rw, 0, 0, 0xffffffffffff⟩
def MEM_CFG_CAP_GIB : Fld := ⟨.MEM_CFG, 32, 16, .ro, 0, 0, 0xffff⟩
def MEM_CFG_SPEED : Fld := ⟨.MEM_CFG, 24, 4, .ro, 0, 0, 0xf⟩
def MEM_CFG_SPEED_MAX : Fld := ⟨.MEM_CFG, 20, 4, .rws, 5, 1, 5⟩
def MEM_CFG_DPC2 : Fld := ⟨.MEM_CFG, 16, 1, .ro, 0, 0, 1⟩
def MEM_CFG_RANKS : Fld := ⟨.MEM_CFG, 12, 4, .ro, 0, 0, 0xf⟩
def MEM_CFG_DEVW : Fld := ⟨.MEM_CFG, 8, 4, .ro, 0, 0, 0xf⟩
def MEM_CFG_DENSITY : Fld := ⟨.MEM_CFG, 0, 8, .ro, 0, 0, 0xff⟩
def MEM_TRAIN_FAIL_STEP : Fld := ⟨.MEM_TRAIN, 16, 4, .ro, 0, 0, 0xf⟩
def MEM_TRAIN_FAIL_CH : Fld := ⟨.MEM_TRAIN, 12, 4, .ro, 0, 0, 0xf⟩
def MEM_TRAIN_FAST : Fld := ⟨.MEM_TRAIN, 8, 1, .ro, 0, 0, 1⟩
def MEM_TRAIN_STEP : Fld := ⟨.MEM_TRAIN, 4, 4, .ro, 0, 0, 0xf⟩
def MEM_TRAIN_STATE : Fld := ⟨.MEM_TRAIN, 0, 4, .ro, 0, 0, 0xf⟩
def MEM_MAINT_CFG_TEMP_DELTA : Fld := ⟨.MEM_MAINT_CFG, 16, 8, .rw, 8, 1, 0xff⟩
def MEM_MAINT_CFG_ZQ_MS : Fld := ⟨.MEM_MAINT_CFG, 8, 8, .rw, 0x80, 1, 0xff⟩
def MEM_MAINT_CFG_RETRAIN_MS : Fld := ⟨.MEM_MAINT_CFG, 0, 8, .rw, 0x40, 1, 0xff⟩
def MEM_SCRUB_ACTIVE : Fld := ⟨.MEM_SCRUB, 16, 1, .ro, 0, 0, 1⟩
def MEM_SCRUB_PERIOD_H : Fld := ⟨.MEM_SCRUB, 8, 8, .rw, 0x18, 1, 0xff⟩
def MEM_SCRUB_EN : Fld := ⟨.MEM_SCRUB, 0, 1, .rw, 1, 0, 1⟩
def MEM_RT_CFG_LNK_OFF : Fld := ⟨.MEM_RT_CFG, 48, 16, .rw, 0x200, 0, 0xffff⟩
def MEM_RT_CFG_LNK_ON : Fld := ⟨.MEM_RT_CFG, 32, 16, .rw, 0x300, 0, 0xffff⟩
def MEM_RT_CFG_IO_OFF : Fld := ⟨.MEM_RT_CFG, 16, 16, .rw, 0x200, 0, 0xffff⟩
def MEM_RT_CFG_IO_ON : Fld := ⟨.MEM_RT_CFG, 0, 16, .rw, 0x300, 0, 0xffff⟩
def MEM_CH_WM_HIGH : Fld := ⟨.MEM_CH_WM, 8, 7, .rw, 0x30, 0, 0x7f⟩
def MEM_CH_WM_LOW : Fld := ⟨.MEM_CH_WM, 0, 7, .rw, 0x10, 0, 0x7f⟩
def MEM_CH_STATUS_RQ : Fld := ⟨.MEM_CH_STATUS, 32, 8, .ro, 0, 0, 0xff⟩
def MEM_CH_STATUS_WQ : Fld := ⟨.MEM_CH_STATUS, 24, 8, .ro, 0, 0, 0xff⟩
def MEM_CH_STATUS_HOT : Fld := ⟨.MEM_CH_STATUS, 7, 1, .ro, 0, 0, 1⟩
def MEM_CH_STATUS_DRAIN : Fld := ⟨.MEM_CH_STATUS, 6, 1, .ro, 0, 0, 1⟩
def MEM_CH_STATUS_REFRESH : Fld := ⟨.MEM_CH_STATUS, 5, 1, .ro, 0, 0, 1⟩
def MEM_CH_STATUS_MAINT : Fld := ⟨.MEM_CH_STATUS, 4, 1, .ro, 0, 0, 1⟩
def MEM_CH_STATUS_PANIC_IO : Fld := ⟨.MEM_CH_STATUS, 3, 1, .ro, 0, 0, 1⟩
def MEM_CH_STATUS_PANIC_LNK : Fld := ⟨.MEM_CH_STATUS, 2, 1, .ro, 0, 0, 1⟩
def MEM_CH_STATUS_COMMIT_PEND : Fld := ⟨.MEM_CH_STATUS, 1, 1, .ro, 0, 0, 1⟩
def MEM_CH_STATUS_CFG_REJ : Fld := ⟨.MEM_CH_STATUS, 0, 1, .w1c, 0, 0, 1⟩
def MEM_CH_ECC_UE_COUNT : Fld := ⟨.MEM_CH_ECC, 32, 16, .rw, 0, 0, 0xffff⟩
def MEM_CH_ECC_CE_COUNT : Fld := ⟨.MEM_CH_ECC, 16, 16, .rw, 0, 0, 0xffff⟩
def MEM_CH_ECC_ADDR_VALID : Fld := ⟨.MEM_CH_ECC_ADDR, 63, 1, .w1c, 0, 0, 1⟩
def MEM_CH_ECC_ADDR_OFFSET : Fld := ⟨.MEM_CH_ECC_ADDR, 6, 46, .ro, 0, 0, 0x3fffffffffff⟩
def MEM_CH_STALL_OVF : Fld := ⟨.MEM_CH_STALL, 63, 1, .w1c, 0, 0, 1⟩
def MEM_CH_STALL_COUNT : Fld := ⟨.MEM_CH_STALL, 0, 48, .rw, 0, 0, 0xffffffffffff⟩
def MEM_CH_PANIC_OVF : Fld := ⟨.MEM_CH_PANIC, 63, 1, .w1c, 0, 0, 1⟩
def MEM_CH_PANIC_COUNT : Fld := ⟨.MEM_CH_PANIC, 0, 48, .rw, 0, 0, 0xffffffffffff⟩
def MEM_CH_SLOT_COMMIT_COMMIT : Fld := ⟨.MEM_CH_SLOT_COMMIT, 0, 1, .wo, 0, 0, 1⟩
def MEM_CH_SLOT_ENTRY : Fld := ⟨.MEM_CH_SLOT, 0, 64, .rw, 0, 0, 0xffffffffffffffff⟩
def DMA_ACTIVE_CHANNELS : Fld := ⟨.DMA_ACTIVE, 0, 32, .ro, 0, 0, 0xffffffff⟩
def DMA_CH_RING_ADDR : Fld := ⟨.DMA_CH_RING, 6, 46, .rw, 0, 0, 0x3fffffffffff⟩
def DMA_CH_CFG_VEC : Fld := ⟨.DMA_CH_CFG, 16, 8, .rw, 0, 0, 0xff⟩
def DMA_CH_CFG_SIZE_LOG2 : Fld := ⟨.DMA_CH_CFG, 8, 5, .rw, 4, 4, 0x10⟩
def DMA_CH_CFG_PRIO : Fld := ⟨.DMA_CH_CFG, 3, 2, .rw, 0, 0, 3⟩
def DMA_CH_CFG_RING_HOST : Fld := ⟨.DMA_CH_CFG, 2, 1, .rw, 0, 0, 1⟩
def DMA_CH_CFG_EN : Fld := ⟨.DMA_CH_CFG, 0, 1, .rw, 0, 0, 1⟩
def DMA_CH_TAIL_TAIL : Fld := ⟨.DMA_CH_TAIL, 0, 16, .rw, 0, 0, 0xffff⟩
def DMA_CH_HEAD_PHASE : Fld := ⟨.DMA_CH_HEAD, 16, 1, .ro, 1, 0, 1⟩
def DMA_CH_HEAD_HEAD : Fld := ⟨.DMA_CH_HEAD, 0, 16, .ro, 0, 0, 0xffff⟩
def DMA_CH_STATUS_ERR_INDEX : Fld := ⟨.DMA_CH_STATUS, 16, 16, .ro, 0, 0, 0xffff⟩
def DMA_CH_STATUS_LAST : Fld := ⟨.DMA_CH_STATUS, 8, 8, .ro, 0, 0, 0xff⟩
def DMA_CH_STATUS_STATE : Fld := ⟨.DMA_CH_STATUS, 0, 3, .ro, 0, 0, 7⟩
def DMA_CH_CTRL_RESTART : Fld := ⟨.DMA_CH_CTRL, 0, 1, .wo, 0, 0, 1⟩
def DMA_CH_OWNER_PRIO_MAX : Fld := ⟨.DMA_CH_OWNER, 14, 2, .rw, 0, 0, 3⟩
def DMA_CH_OWNER_POD : Fld := ⟨.DMA_CH_OWNER, 8, 6, .rw, 0, 0, 0x3f⟩
def DMA_CH_OWNER_ASSIGNED : Fld := ⟨.DMA_CH_OWNER, 0, 1, .rw, 0, 0, 1⟩
def DMA_CH_BYTES_OVF : Fld := ⟨.DMA_CH_BYTES, 63, 1, .w1c, 0, 0, 1⟩
def DMA_CH_BYTES_COUNT : Fld := ⟨.DMA_CH_BYTES, 0, 48, .rw, 0, 0, 0xffffffffffff⟩
def RNG_BASE_ADDR : Fld := ⟨.RNG_BASE, 12, 40, .rw, 0, 0, 0xffffffffff⟩
def RNG_CFG_HOLDOFF_US : Fld := ⟨.RNG_CFG, 32, 8, .rw, 0, 0, 0xff⟩
def RNG_CFG_VEC : Fld := ⟨.RNG_CFG, 24, 8, .rw, 0, 0, 0xff⟩
def RNG_CFG_DEPTH_M1 : Fld := ⟨.RNG_CFG, 16, 6, .rw, 0xf, 0, 0x3f⟩
def RNG_CFG_SIZE_LOG2 : Fld := ⟨.RNG_CFG, 8, 5, .rw, 6, 6, 0x10⟩
def RNG_CFG_HOST : Fld := ⟨.RNG_CFG, 1, 1, .rw, 0, 0, 1⟩
def RNG_CFG_EN : Fld := ⟨.RNG_CFG, 0, 1, .rw, 0, 0, 1⟩
def RNG_DB_TAIL : Fld := ⟨.RNG_DB, 32, 16, .rw, 0, 0, 0xffff⟩
def RNG_HEAD_PHASE : Fld := ⟨.RNG_HEAD, 32, 1, .ro, 0, 0, 1⟩
def RNG_HEAD_DONE : Fld := ⟨.RNG_HEAD, 16, 16, .ro, 0, 0, 0xffff⟩
def RNG_HEAD_FETCH : Fld := ⟨.RNG_HEAD, 0, 16, .ro, 0, 0, 0xffff⟩
def RNG_STATUS_ERR_INDEX : Fld := ⟨.RNG_STATUS, 32, 16, .ro, 0, 0, 0xffff⟩
def RNG_STATUS_RUNS : Fld := ⟨.RNG_STATUS, 16, 7, .ro, 0, 0, 0x7f⟩
def RNG_STATUS_CAUSE : Fld := ⟨.RNG_STATUS, 4, 4, .ro, 0, 0, 0xf⟩
def RNG_STATUS_STATE : Fld := ⟨.RNG_STATUS, 0, 3, .ro, 0, 0, 7⟩
def RNG_OWNER_POD : Fld := ⟨.RNG_OWNER, 8, 6, .rw, 0, 0, 0x3f⟩
def RNG_OWNER_ASSIGNED : Fld := ⟨.RNG_OWNER, 0, 1, .rw, 0, 0, 1⟩
def RNG_DONE_OVF : Fld := ⟨.RNG_DONE, 63, 1, .w1c, 0, 0, 1⟩
def RNG_DONE_COUNT : Fld := ⟨.RNG_DONE, 0, 48, .rw, 0, 0, 0xffffffffffff⟩
def RNG_PUSH_ENTRY : Fld := ⟨.RNG_PUSH, 0, 64, .wo, 0, 0, 0xffffffffffffffff⟩
def ING_POOL_VALID : Fld := ⟨.ING_POOL, 63, 1, .rw, 0, 0, 1⟩
def ING_POOL_COUNT_GIB : Fld := ⟨.ING_POOL, 32, 16, .rw, 0, 0, 0xffff⟩
def ING_POOL_BASE_GIB : Fld := ⟨.ING_POOL, 0, 16, .rw, 0, 0, 0xffff⟩
def ING_STATUS_BUF_USED : Fld := ⟨.ING_STATUS, 32, 16, .ro, 0, 0, 0xffff⟩
def ING_STATUS_REJECT : Fld := ⟨.ING_STATUS, 16, 1, .w1c, 0, 0, 1⟩
def ING_STATUS_NS_COUNT : Fld := ⟨.ING_STATUS, 0, 9, .ro, 0, 0, 0x1ff⟩
def ING_WR_BYTES_OVF : Fld := ⟨.ING_WR_BYTES, 63, 1, .w1c, 0, 0, 1⟩
def ING_WR_BYTES_COUNT : Fld := ⟨.ING_WR_BYTES, 0, 48, .rw, 0, 0, 0xffffffffffff⟩
def ING_RD_BYTES_OVF : Fld := ⟨.ING_RD_BYTES, 63, 1, .w1c, 0, 0, 1⟩
def ING_RD_BYTES_COUNT : Fld := ⟨.ING_RD_BYTES, 0, 48, .rw, 0, 0, 0xffffffffffff⟩
def ING_BUF_HITS_OVF : Fld := ⟨.ING_BUF_HITS, 63, 1, .w1c, 0, 0, 1⟩
def ING_BUF_HITS_COUNT : Fld := ⟨.ING_BUF_HITS, 0, 48, .rw, 0, 0, 0xffffffffffff⟩
def ING_NS_VALID : Fld := ⟨.ING_NS, 63, 1, .ro, 0, 0, 1⟩
def ING_NS_POD : Fld := ⟨.ING_NS, 48, 6, .ro, 0, 0, 0x3f⟩
def ING_NS_SIZE_GIB : Fld := ⟨.ING_NS, 32, 16, .ro, 0, 0, 0xffff⟩
def ING_NS_BASE_GIB : Fld := ⟨.ING_NS, 0, 16, .ro, 0, 0, 0xffff⟩
def CLK_PTM_CTRL_EN : Fld := ⟨.CLK_PTM_CTRL, 16, 1, .rw, 1, 0, 1⟩
def CLK_PTM_CTRL_INTERVAL_MS : Fld := ⟨.CLK_PTM_CTRL, 0, 16, .rw, 0xa, 1, 0x3e8⟩
def CLK_PTM_STATUS_VALID : Fld := ⟨.CLK_PTM_STATUS, 63, 1, .ro, 0, 0, 1⟩
def CLK_PTM_STATUS_STEPPED : Fld := ⟨.CLK_PTM_STATUS, 32, 1, .w1c, 0, 0, 1⟩
def CLK_PTM_STATUS_OFFSET_NS : Fld := ⟨.CLK_PTM_STATUS, 0, 32, .ro, 0, 0, 0xffffffff⟩
def POD_GLOBAL_WHOLE : Fld := ⟨.POD_GLOBAL, 8, 1, .ro, 0, 0, 1⟩
def POD_GLOBAL_PODS : Fld := ⟨.POD_GLOBAL, 0, 7, .ro, 0, 0, 0x7f⟩
def POD_CMD_CMD : Fld := ⟨.POD_CMD, 0, 4, .wo, 0, 0, 0xf⟩
def POD_STATUS_SAVE_NEED_MIB : Fld := ⟨.POD_STATUS, 48, 16, .ro, 0, 0, 0xffff⟩
def POD_STATUS_REASON : Fld := ⟨.POD_STATUS, 32, 8, .ro, 0, 0, 0xff⟩
def POD_STATUS_SAVE_DONE : Fld := ⟨.POD_STATUS, 16, 1, .ro, 0, 0, 1⟩
def POD_STATUS_STATE : Fld := ⟨.POD_STATUS, 0, 4, .ro, 0, 0, 0xf⟩
def POD_TILES_MASK : Fld := ⟨.POD_TILES, 0, 64, .rw, 0, 0, 0xffffffffffffffff⟩
def POD_SHARES_VEC_COUNT : Fld := ⟨.POD_SHARES, 52, 12, .rw, 0, 0, 0xfff⟩
def POD_SHARES_VEC_BASE : Fld := ⟨.POD_SHARES, 36, 11, .rw, 0, 0, 0x7ff⟩
def POD_SHARES_RDR_Q : Fld := ⟨.POD_SHARES, 16, 16, .rw, 0, 0, 0xffff⟩
def POD_SHARES_JDR_B : Fld := ⟨.POD_SHARES, 0, 15, .rw, 0, 0, 0x7fff⟩
def POD_PASID_PASID : Fld := ⟨.POD_PASID, 0, 20, .rw, 0, 0, 0xfffff⟩
def POD_LOG_CFG_OUTSIDE : Fld := ⟨.POD_LOG_CFG, 63, 1, .w1c, 0, 0, 1⟩
def POD_LOG_CFG_SWAP_PEND : Fld := ⟨.POD_LOG_CFG, 16, 1, .ro, 0, 0, 1⟩
def POD_LOG_CFG_SPAN_LOG2 : Fld := ⟨.POD_LOG_CFG, 8, 8, .rw, 0x1e, 30, 0x30⟩
def POD_LOG_CFG_SEL : Fld := ⟨.POD_LOG_CFG, 2, 1, .ro, 0, 0, 1⟩
def POD_LOG_CFG_SWAP : Fld := ⟨.POD_LOG_CFG, 1, 1, .wo, 0, 0, 1⟩
def POD_LOG_CFG_EN : Fld := ⟨.POD_LOG_CFG, 0, 1, .rw, 0, 0, 1⟩
def POD_LOG_BASE_ADDR : Fld := ⟨.POD_LOG_BASE, 12, 52, .rw, 0, 0, 0xfffffffffffff⟩
def POD_LOG_BUF_ADDR : Fld := ⟨.POD_LOG_BUF, 12, 40, .rw, 0, 0, 0xffffffffff⟩
def POD_SAVE_ADDR_HOST : Fld := ⟨.POD_SAVE_ADDR, 63, 1, .rw, 0, 0, 1⟩
def POD_SAVE_ADDR_ADDR : Fld := ⟨.POD_SAVE_ADDR, 12, 51, .rw, 0, 0, 0x7ffffffffffff⟩
def POD_SAVE_LEN_LEN_MIB : Fld := ⟨.POD_SAVE_LEN, 0, 16, .rw, 0, 0, 0xffff⟩
def POD_DDR_VALID : Fld := ⟨.POD_DDR, 63, 1, .rw, 0, 0, 1⟩
def POD_DDR_COUNT_GIB : Fld := ⟨.POD_DDR, 32, 16, .rw, 0, 0, 0xffff⟩
def POD_DDR_BASE_GIB : Fld := ⟨.POD_DDR, 0, 16, .rw, 0, 0, 0xffff⟩
def LNK_SPAN_CFG_LOCK : Fld := ⟨.LNK_SPAN_CFG, 63, 1, .rw, 0, 0, 1⟩
def LNK_SPAN_CFG_AUTO_READMIT : Fld := ⟨.LNK_SPAN_CFG, 56, 1, .rwl, 0, 0, 1⟩
def LNK_SPAN_CFG_SPAN_NO : Fld := ⟨.LNK_SPAN_CFG, 48, 3, .rwl, 0, 0, 7⟩
def LNK_SPAN_CFG_SPAN_ID : Fld := ⟨.LNK_SPAN_CFG, 0, 32, .rwl, 0, 0, 0xffffffff⟩
def LNK_SPAN_STATUS_REACH : Fld := ⟨.LNK_SPAN_STATUS, 32, 8, .ro, 0, 0, 0xff⟩
def LNK_SPAN_STATUS_FENCED : Fld := ⟨.LNK_SPAN_STATUS, 24, 8, .ro, 0, 0, 0xff⟩
def LNK_SPAN_STATUS_SCRUBBED : Fld := ⟨.LNK_SPAN_STATUS, 16, 8, .ro, 0, 0, 0xff⟩
def LNK_SPAN_STATUS_LIVE : Fld := ⟨.LNK_SPAN_STATUS, 0, 8, .ro, 0, 0, 0xff⟩
def LNK_SPAN_CTRL_READMIT : Fld := ⟨.LNK_SPAN_CTRL, 0, 8, .wo, 0, 0, 0xff⟩
def LNK_XCFG_JOIN_MS : Fld := ⟨.LNK_XCFG, 16, 16, .rw, 0x64, 1, 0xffff⟩
def LNK_XCFG_CREDIT_TO_US : Fld := ⟨.LNK_XCFG, 0, 16, .rw, 0x3e8, 20, 0xffff⟩
def LNK_ROUTE_HOPS : Fld := ⟨.LNK_ROUTE, 8, 2, .ro, 0, 0, 3⟩
def LNK_ROUTE_PORTS : Fld := ⟨.LNK_ROUTE, 0, 4, .ro, 0, 0, 0xf⟩
def LNK_PORT_CTRL_RETRAIN : Fld := ⟨.LNK_PORT_CTRL, 2, 1, .wo, 0, 0, 1⟩
def LNK_PORT_CTRL_NARROW_OK : Fld := ⟨.LNK_PORT_CTRL, 1, 1, .rw, 1, 0, 1⟩
def LNK_PORT_CTRL_EN : Fld := ⟨.LNK_PORT_CTRL, 0, 1, .rw, 1, 0, 1⟩
def LNK_PORT_STATUS_NBR_PORT : Fld := ⟨.LNK_PORT_STATUS, 48, 4, .ro, 0, 0, 0xf⟩
def LNK_PORT_STATUS_NBR_NO : Fld := ⟨.LNK_PORT_STATUS, 40, 4, .ro, 0, 0, 0xf⟩
def LNK_PORT_STATUS_NBR_ID : Fld := ⟨.LNK_PORT_STATUS, 8, 32, .ro, 0, 0, 0xffffffff⟩
def LNK_PORT_STATUS_WIDTH : Fld := ⟨.LNK_PORT_STATUS, 6, 2, .ro, 0, 0, 3⟩
def LNK_PORT_STATUS_STATE : Fld := ⟨.LNK_PORT_STATUS, 0, 4, .ro, 0, 0, 0xf⟩
def LNK_PORT_FEC_CORR_OVF : Fld := ⟨.LNK_PORT_FEC_CORR, 63, 1, .w1c, 0, 0, 1⟩
def LNK_PORT_FEC_CORR_COUNT : Fld := ⟨.LNK_PORT_FEC_CORR, 0, 48, .rw, 0, 0, 0xffffffffffff⟩
def LNK_PORT_FEC_UNCORR_OVF : Fld := ⟨.LNK_PORT_FEC_UNCORR, 63, 1, .w1c, 0, 0, 1⟩
def LNK_PORT_FEC_UNCORR_COUNT : Fld := ⟨.LNK_PORT_FEC_UNCORR, 0, 48, .rw, 0, 0, 0xffffffffffff⟩
def LNK_PORT_REPLAY_OVF : Fld := ⟨.LNK_PORT_REPLAY, 63, 1, .w1c, 0, 0, 1⟩
def LNK_PORT_REPLAY_COUNT : Fld := ⟨.LNK_PORT_REPLAY, 0, 48, .rw, 0, 0, 0xffffffffffff⟩
def LNK_POD_SPAN_GROUP : Fld := ⟨.LNK_POD_SPAN, 16, 16, .rw, 0, 0, 0xffff⟩
def LNK_POD_SPAN_MEMBERS : Fld := ⟨.LNK_POD_SPAN, 0, 8, .rw, 0, 0, 0xff⟩
def CTL_CORE_STATUS_NEXT : Fld := ⟨.CTL_CORE_STATUS, 32, 10, .ro, 0, 0, 0x3ff⟩
def CTL_CORE_STATUS_CUR : Fld := ⟨.CTL_CORE_STATUS, 16, 10, .ro, 0, 0, 0x3ff⟩
def CTL_CORE_STATUS_NEXT_VALID : Fld := ⟨.CTL_CORE_STATUS, 15, 1, .ro, 0, 0, 1⟩
def CTL_CORE_STATUS_CUR_VALID : Fld := ⟨.CTL_CORE_STATUS, 14, 1, .ro, 0, 0, 1⟩
def CTL_CORE_STATUS_PRIV : Fld := ⟨.CTL_CORE_STATUS, 1, 1, .ro, 0, 0, 1⟩
def CTL_CORE_STATUS_FENCED : Fld := ⟨.CTL_CORE_STATUS, 0, 1, .ro, 0, 0, 1⟩
def CTL_SCHED_CFG_TICK_US : Fld := ⟨.CTL_SCHED_CFG, 32, 16, .rw, 1, 1, 0x3e8⟩
def CTL_SCHED_CFG_POD_MAX : Fld := ⟨.CTL_SCHED_CFG, 16, 11, .rw, 0x40, 1, 0x3c0⟩
def CTL_SCHED_CFG_SLICE_US : Fld := ⟨.CTL_SCHED_CFG, 0, 16, .rw, 0x64, 0, 0xffff⟩
def CTL_SCHED_STATUS_FREE : Fld := ⟨.CTL_SCHED_STATUS, 32, 11, .ro, 0x400, 0, 0x7ff⟩
def CTL_SCHED_STATUS_TICKS : Fld := ⟨.CTL_SCHED_STATUS, 0, 32, .ro, 0, 0, 0xffffffff⟩
def CTL_SCHED_STALL_OVF : Fld := ⟨.CTL_SCHED_STALL, 63, 1, .w1c, 0, 0, 1⟩
def CTL_SCHED_STALL_COUNT : Fld := ⟨.CTL_SCHED_STALL, 0, 48, .rw, 0, 0, 0xffffffffffff⟩
def CTL_LOCK_HELD : Fld := ⟨.CTL_LOCK, 63, 1, .ro, 0, 0, 1⟩
def CTL_LOCK_POISON : Fld := ⟨.CTL_LOCK, 62, 1, .ro, 0, 0, 1⟩
def CTL_LOCK_BOUND : Fld := ⟨.CTL_LOCK, 61, 1, .ro, 0, 0, 1⟩
def CTL_LOCK_POD : Fld := ⟨.CTL_LOCK, 42, 6, .ro, 0, 0, 0x3f⟩
def CTL_LOCK_OWNER : Fld := ⟨.CTL_LOCK, 32, 10, .ro, 0, 0, 0x3ff⟩
def CTL_LOCK_WAITERS : Fld := ⟨.CTL_LOCK, 16, 11, .ro, 0, 0, 0x7ff⟩
def CTL_LOCK_LOCAL : Fld := ⟨.CTL_LOCK, 0, 4, .ro, 0, 0, 0xf⟩
def CTL_THREAD_NUMBER : Fld := ⟨.CTL_THREAD, 54, 10, .ro, 0, 0, 0x3ff⟩
def CTL_THREAD_POD : Fld := ⟨.CTL_THREAD, 42, 6, .ro, 0, 0, 0x3f⟩
def CTL_THREAD_PRIV : Fld := ⟨.CTL_THREAD, 41, 1, .ro, 0, 0, 1⟩
def CTL_THREAD_PRIO : Fld := ⟨.CTL_THREAD, 36, 5, .ro, 0, 0, 0x1f⟩
def CTL_THREAD_LOCKWAIT : Fld := ⟨.CTL_THREAD, 8, 8, .ro, 0, 0, 0xff⟩
def CTL_THREAD_STATE : Fld := ⟨.CTL_THREAD, 0, 4, .ro, 0, 0, 0xf⟩
def CTL_MBX_CMD_CMD : Fld := ⟨.CTL_MBX_CMD, 0, 64, .rw, 0, 0, 0xffffffffffffffff⟩
def CTL_MBX_RSP_RSP : Fld := ⟨.CTL_MBX_RSP, 0, 64, .ro, 0, 0, 0xffffffffffffffff⟩
def CTL_MBX_CTRL_VEC : Fld := ⟨.CTL_MBX_CTRL, 16, 8, .rw, 0, 0, 0xff⟩
def CTL_MBX_CTRL_BUSY : Fld := ⟨.CTL_MBX_CTRL, 3, 1, .ro, 0, 0, 1⟩
def CTL_MBX_CTRL_REJ : Fld := ⟨.CTL_MBX_CTRL, 2, 1, .w1c, 0, 0, 1⟩
def CTL_MBX_CTRL_DONE : Fld := ⟨.CTL_MBX_CTRL, 1, 1, .w1c, 0, 0, 1⟩
def CTL_MBX_CTRL_GO : Fld := ⟨.CTL_MBX_CTRL, 0, 1, .wo, 0, 0, 1⟩
def PWR_STATE_STEP : Fld := ⟨.PWR_STATE, 20, 4, .ro, 0, 0, 0xf⟩
def PWR_STATE_REASON : Fld := ⟨.PWR_STATE, 16, 2, .ro, 0, 0, 3⟩
def PWR_STATE_REJECT : Fld := ⟨.PWR_STATE, 15, 1, .w1c, 0, 0, 1⟩
def PWR_STATE_STATE : Fld := ⟨.PWR_STATE, 8, 4, .ro, 0, 0, 0xf⟩
def PWR_STATE_REQ : Fld := ⟨.PWR_STATE, 0, 3, .wo, 0, 0, 7⟩
def PWR_WAKE_PENDING : Fld := ⟨.PWR_WAKE, 16, 8, .w1c, 0, 0, 0xff⟩
def PWR_WAKE_LAST : Fld := ⟨.PWR_WAKE, 8, 4, .ro, 0, 0, 0xf⟩
def PWR_WAKE_EN : Fld := ⟨.PWR_WAKE, 0, 8, .rws, 0x3e, 0, 0xff⟩
def PWR_RESET_CAUSE_HISTORY : Fld := ⟨.PWR_RESET_CAUSE, 16, 8, .w1c, 0, 0, 0xff⟩
def PWR_RESET_CAUSE_CAUSE : Fld := ⟨.PWR_RESET_CAUSE, 0, 4, .ro, 1, 0, 0xf⟩
def PWR_RESET_COLD : Fld := ⟨.PWR_RESET, 1, 1, .wo, 0, 0, 1⟩
def PWR_RESET_WARM : Fld := ⟨.PWR_RESET, 0, 1, .wo, 0, 0, 1⟩
def PWR_GOV_CFG_BALLAST_EN : Fld := ⟨.PWR_GOV_CFG, 56, 1, .rw, 1, 0, 1⟩
def PWR_GOV_CFG_DB_WINDOW : Fld := ⟨.PWR_GOV_CFG, 48, 8, .rw, 0x10, 0, 0xff⟩
def PWR_GOV_CFG_DB_INST : Fld := ⟨.PWR_GOV_CFG, 40, 8, .rw, 0x10, 0, 0xff⟩
def PWR_GOV_CFG_LSTEP_ADV : Fld := ⟨.PWR_GOV_CFG, 32, 8, .rw, 2, 0, 0xff⟩
def PWR_GOV_CFG_STEP_THR : Fld := ⟨.PWR_GOV_CFG, 16, 16, .rw, 0x14, 0, 0xffff⟩
def PWR_GOV_CFG_SLEW : Fld := ⟨.PWR_GOV_CFG, 0, 8, .rw, 0x19, 0, 0xff⟩
def PWR_GOV_STATUS_QUEUED : Fld := ⟨.PWR_GOV_STATUS, 8, 8, .ro, 0, 0, 0xff⟩
def PWR_GOV_STATUS_LSTEP : Fld := ⟨.PWR_GOV_STATUS, 1, 1, .ro, 0, 0, 1⟩
def PWR_GOV_STATUS_RAMPING : Fld := ⟨.PWR_GOV_STATUS, 0, 1, .ro, 0, 0, 1⟩
def PWR_LIMIT_TDP_W : Fld := ⟨.PWR_LIMIT, 0, 10, .rws, 0x1c2, 300, 0x230⟩
def PWR_DROOP_CFG_HOLD_NS : Fld := ⟨.PWR_DROOP_CFG, 8, 16, .rw, 0x64, 0, 0xffff⟩
def PWR_DROOP_CFG_DROOP_MV : Fld := ⟨.PWR_DROOP_CFG, 0, 8, .rw, 0x28, 0, 0xff⟩
def PWR_DROOP_EVT_OVF : Fld := ⟨.PWR_DROOP_EVT, 63, 1, .w1c, 0, 0, 1⟩
def PWR_DROOP_EVT_COUNT : Fld := ⟨.PWR_DROOP_EVT, 0, 48, .rw, 0, 0, 0xffffffffffff⟩
def PWR_THERMAL_DIMM_THROTTLE : Fld := ⟨.PWR_THERMAL, 16, 16, .ro, 0, 0, 0xffff⟩
def PWR_THERMAL_THROTTLE : Fld := ⟨.PWR_THERMAL, 8, 1, .ro, 0, 0, 1⟩
def PWR_THERMAL_TJ_MAX : Fld := ⟨.PWR_THERMAL, 0, 8, .ro, 0, 0, 0xff⟩
def PWR_STATUS_AVS_FAULT : Fld := ⟨.PWR_STATUS, 0, 1, .w1c, 0, 0, 1⟩
def CLK_CCLK_REQ_MHZ : Fld := ⟨.CLK_CCLK_REQ, 0, 16, .rw, 0x640, 0, 0xffff⟩
def CLK_CCLK_STATUS_VDDC_MV : Fld := ⟨.CLK_CCLK_STATUS, 48, 16, .ro, 0, 0, 0xffff⟩
def CLK_CCLK_STATUS_LIMIT_MHZ : Fld := ⟨.CLK_CCLK_STATUS, 32, 16, .ro, 0x640, 0, 0xffff⟩
def CLK_CCLK_STATUS_CLAMPED_MHZ : Fld := ⟨.CLK_CCLK_STATUS, 16, 16, .ro, 0x640, 0, 0xffff⟩
def CLK_CCLK_STATUS_MHZ : Fld := ⟨.CLK_CCLK_STATUS, 0, 16, .ro, 0x640, 0, 0xffff⟩
def CLK_TIMESTAMP_NS : Fld := ⟨.CLK_TIMESTAMP, 0, 64, .ro, 0, 0, 0xffffffffffffffff⟩
def SEC_STATUS_SVN : Fld := ⟨.SEC_STATUS, 32, 9, .ro, 0, 0, 0x1ff⟩
def SEC_STATUS_KEY : Fld := ⟨.SEC_STATUS, 16, 1, .ro, 0, 0, 1⟩
def SEC_STATUS_MODE : Fld := ⟨.SEC_STATUS, 8, 2, .ro, 0, 0, 3⟩
def SEC_STATUS_DEBUG : Fld := ⟨.SEC_STATUS, 4, 2, .ro, 0, 0, 3⟩
def SEC_STATUS_LIFECYCLE : Fld := ⟨.SEC_STATUS, 0, 3, .ro, 0, 0, 7⟩
def SEC_CTRL_END_BOOT : Fld := ⟨.SEC_CTRL, 0, 1, .wo, 0, 0, 1⟩
def SEC_DG_CTRL_LEN : Fld := ⟨.SEC_DG_CTRL, 32, 32, .rw, 0, 0, 0xffffffff⟩
def SEC_DG_CTRL_KEYSEL : Fld := ⟨.SEC_DG_CTRL, 24, 8, .rw, 0, 0, 0xff⟩
def SEC_DG_CTRL_DEST : Fld := ⟨.SEC_DG_CTRL, 16, 8, .rw, 0xff, 0, 0xff⟩
def SEC_DG_CTRL_OUTLEN : Fld := ⟨.SEC_DG_CTRL, 8, 8, .rw, 0x20, 0, 0xff⟩
def SEC_DG_CTRL_OP : Fld := ⟨.SEC_DG_CTRL, 6, 2, .wo, 0, 0, 3⟩
def SEC_DG_CTRL_ALG : Fld := ⟨.SEC_DG_CTRL, 0, 3, .rw, 0, 0, 7⟩
def SEC_DG_STATUS_ABSORBED : Fld := ⟨.SEC_DG_STATUS, 32, 32, .ro, 0, 0, 0xffffffff⟩
def SEC_DG_STATUS_OWNER : Fld := ⟨.SEC_DG_STATUS, 14, 2, .ro, 0, 0, 3⟩
def SEC_DG_STATUS_MINE : Fld := ⟨.SEC_DG_STATUS, 13, 1, .ro, 0, 0, 1⟩
def SEC_DG_STATUS_REASON : Fld := ⟨.SEC_DG_STATUS, 10, 2, .ro, 0, 0, 3⟩
def SEC_DG_STATUS_REFUSED : Fld := ⟨.SEC_DG_STATUS, 9, 1, .ro, 0, 0, 1⟩
def SEC_DG_STATUS_EXPIRED : Fld := ⟨.SEC_DG_STATUS, 7, 1, .ro, 0, 0, 1⟩
def SEC_DG_STATUS_LOST : Fld := ⟨.SEC_DG_STATUS, 6, 1, .ro, 0, 0, 1⟩
def SEC_DG_STATUS_TRUNC : Fld := ⟨.SEC_DG_STATUS, 5, 1, .ro, 0, 0, 1⟩
def SEC_DG_STATUS_RESULT : Fld := ⟨.SEC_DG_STATUS, 2, 2, .ro, 0, 0, 3⟩
def SEC_DG_STATUS_DONE : Fld := ⟨.SEC_DG_STATUS, 1, 1, .ro, 0, 0, 1⟩
def SEC_DG_STATUS_ABSORBING : Fld := ⟨.SEC_DG_STATUS, 0, 1, .ro, 0, 0, 1⟩
def SEC_DG_DATA_WORD : Fld := ⟨.SEC_DG_DATA, 0, 64, .wo, 0, 0, 0xffffffffffffffff⟩
def SEC_DG_EXPECT_VALUE : Fld := ⟨.SEC_DG_EXPECT, 0, 64, .wo, 0, 0, 0xffffffffffffffff⟩
def SEC_RNG_VALUE : Fld := ⟨.SEC_RNG, 0, 64, .ro, 0, 0, 0xffffffffffffffff⟩
def SEC_RNG_STATUS_HEALTH_FAIL : Fld := ⟨.SEC_RNG_STATUS, 1, 1, .ro, 0, 0, 1⟩
def SEC_RNG_STATUS_READY : Fld := ⟨.SEC_RNG_STATUS, 0, 1, .ro, 0, 0, 1⟩
def SEC_PIT_SEL_WORD : Fld := ⟨.SEC_PIT_SEL, 8, 3, .rw, 0, 0, 7⟩
def SEC_PIT_SEL_SLOT : Fld := ⟨.SEC_PIT_SEL, 0, 6, .rw, 0, 0, 0x3f⟩
def SEC_PIT_DATA_VALUE : Fld := ⟨.SEC_PIT_DATA, 0, 64, .ro, 0, 0, 0xffffffffffffffff⟩
def DBG_SESAME_CTRL_LEVEL_REQ : Fld := ⟨.DBG_SESAME_CTRL, 16, 2, .rw, 0, 0, 3⟩
def DBG_SESAME_CTRL_DROP : Fld := ⟨.DBG_SESAME_CTRL, 10, 1, .wo, 0, 0, 1⟩
def DBG_SESAME_CTRL_SUBMIT : Fld := ⟨.DBG_SESAME_CTRL, 9, 1, .wo, 0, 0, 1⟩
def DBG_SESAME_CTRL_REQUEST : Fld := ⟨.DBG_SESAME_CTRL, 8, 1, .wo, 0, 0, 1⟩
def DBG_SESAME_CTRL_FAILS : Fld := ⟨.DBG_SESAME_CTRL, 4, 4, .ro, 0, 0, 0xf⟩
def DBG_SESAME_CTRL_LOCKED : Fld := ⟨.DBG_SESAME_CTRL, 3, 1, .ro, 0, 0, 1⟩
def DBG_SESAME_CTRL_RESULT : Fld := ⟨.DBG_SESAME_CTRL, 1, 2, .ro, 0, 0, 3⟩
def DBG_SESAME_CTRL_BUSY : Fld := ⟨.DBG_SESAME_CTRL, 0, 1, .ro, 0, 0, 1⟩
def DBG_SESAME_NONCE_NONCE : Fld := ⟨.DBG_SESAME_NONCE, 0, 64, .ro, 0, 0, 0xffffffffffffffff⟩
def DBG_SESAME_RESP_WORD : Fld := ⟨.DBG_SESAME_RESP, 0, 64, .wo, 0, 0, 0xffffffffffffffff⟩
def DBG_MUX_GROUP : Fld := ⟨.DBG_MUX, 8, 8, .rw, 0, 0, 0xff⟩
def DBG_MUX_DENIED : Fld := ⟨.DBG_MUX, 1, 1, .ro, 0, 0, 1⟩
def DBG_MUX_EN : Fld := ⟨.DBG_MUX, 0, 1, .rw, 0, 0, 1⟩
def SHL_STATUS_FW_VERSION : Fld := ⟨.SHL_STATUS, 32, 32, .ro, 0, 0, 0xffffffff⟩
def SHL_STATUS_UPDATE : Fld := ⟨.SHL_STATUS, 2, 1, .ro, 0, 0, 1⟩
def SHL_STATUS_SLOT : Fld := ⟨.SHL_STATUS, 1, 1, .ro, 0, 0, 1⟩
def SHL_STATUS_FLASH_OK : Fld := ⟨.SHL_STATUS, 0, 1, .ro, 0, 0, 1⟩
def SHL_LOG_STATE_DROPPED : Fld := ⟨.SHL_LOG_STATE, 48, 16, .rw, 0, 0, 0xffff⟩
def SHL_LOG_STATE_HEAD_SEQ : Fld := ⟨.SHL_LOG_STATE, 0, 32, .ro, 0, 0, 0xffffffff⟩
def SHL_LOG_INDEX_ENTRY : Fld := ⟨.SHL_LOG_INDEX, 0, 15, .rw, 0, 0, 0x7fff⟩
def SHL_LOG_DATA_DATA : Fld := ⟨.SHL_LOG_DATA, 0, 64, .ro, 0, 0, 0xffffffffffffffff⟩
def ERR_CFG_REPEAT_MIN : Fld := ⟨.ERR_CFG, 16, 16, .rw, 0x3c, 1, 0xffff⟩
def ERR_CFG_SAT_REC : Fld := ⟨.ERR_CFG, 1, 1, .rw, 1, 0, 1⟩
def ERR_CFG_LOG_CE : Fld := ⟨.ERR_CFG, 0, 1, .rw, 0, 0, 1⟩
def ERR_STATUS_LAST_SEQ : Fld := ⟨.ERR_STATUS, 32, 32, .ro, 0, 0, 0xffffffff⟩
def ERR_STATUS_DROPPED : Fld := ⟨.ERR_STATUS, 16, 16, .rw, 0, 0, 0xffff⟩
def ERR_STATUS_FATAL : Fld := ⟨.ERR_STATUS, 0, 1, .ro, 0, 0, 1⟩
def ERR_RING_BASE_HOST : Fld := ⟨.ERR_RING_BASE, 63, 1, .rw, 0, 0, 1⟩
def ERR_RING_BASE_ADDR : Fld := ⟨.ERR_RING_BASE, 12, 40, .rw, 0, 0, 0xffffffffff⟩
def ERR_RING_CFG_HOLDOFF_US : Fld := ⟨.ERR_RING_CFG, 32, 8, .rw, 0, 0, 0xff⟩
def ERR_RING_CFG_VEC : Fld := ⟨.ERR_RING_CFG, 16, 11, .rw, 0, 0, 0x7ff⟩
def ERR_RING_CFG_SIZE_LOG2 : Fld := ⟨.ERR_RING_CFG, 8, 5, .rw, 6, 6, 0x10⟩
def ERR_RING_CFG_EN : Fld := ⟨.ERR_RING_CFG, 0, 1, .rw, 0, 0, 1⟩
def ERR_RING_PTR_TAIL : Fld := ⟨.ERR_RING_PTR, 32, 16, .ro, 0, 0, 0xffff⟩
def ERR_RING_PTR_HEAD : Fld := ⟨.ERR_RING_PTR, 0, 16, .rw, 0, 0, 0xffff⟩
def ERR_ST_CTRL_PERIOD_MS : Fld := ⟨.ERR_ST_CTRL, 16, 16, .rw, 0x64, 20, 0x3e8⟩
def ERR_ST_CTRL_EN : Fld := ⟨.ERR_ST_CTRL, 0, 1, .rw, 1, 0, 1⟩
def ERR_ST_STATUS_CLUSTERS : Fld := ⟨.ERR_ST_STATUS, 0, 64, .ro, 0, 0, 0xffffffffffffffff⟩
def ERR_FENCE_TILE_FENCED : Fld := ⟨.ERR_FENCE_TILE, 0, 64, .ro, 0, 0, 0xffffffffffffffff⟩
def ERR_FENCE_OTHER_HOST : Fld := ⟨.ERR_FENCE_OTHER, 8, 1, .ro, 0, 0, 1⟩
def ERR_FENCE_OTHER_CLUSTER : Fld := ⟨.ERR_FENCE_OTHER, 0, 8, .ro, 0, 0, 0xff⟩
def ERR_RETEST_TILES : Fld := ⟨.ERR_RETEST, 0, 64, .wo, 0, 0, 0xffffffffffffffff⟩
def ERR_INJ_ARMED : Fld := ⟨.ERR_INJ, 63, 1, .ro, 0, 0, 1⟩
def ERR_INJ_FIRED : Fld := ⟨.ERR_INJ, 62, 1, .w1c, 0, 0, 1⟩
def ERR_INJ_ARM : Fld := ⟨.ERR_INJ, 61, 1, .wo, 0, 0, 1⟩
def ERR_INJ_INDEX : Fld := ⟨.ERR_INJ, 16, 8, .rw, 0, 0, 0xff⟩
def ERR_INJ_MODE : Fld := ⟨.ERR_INJ, 8, 4, .rw, 0, 0, 0xf⟩
def ERR_INJ_TARGET : Fld := ⟨.ERR_INJ, 0, 4, .rw, 0, 0, 0xf⟩
def ERR_INJ_ADDR_ADDR : Fld := ⟨.ERR_INJ_ADDR, 0, 64, .rw, 0, 0, 0xffffffffffffffff⟩
def ERR_POD_RING_BASE_HOST : Fld := ⟨.ERR_POD_RING_BASE, 63, 1, .rw, 0, 0, 1⟩
def ERR_POD_RING_BASE_ADDR : Fld := ⟨.ERR_POD_RING_BASE, 12, 40, .rw, 0, 0, 0xffffffffff⟩
def ERR_POD_RING_CFG_HOLDOFF_US : Fld := ⟨.ERR_POD_RING_CFG, 32, 8, .rw, 0, 0, 0xff⟩
def ERR_POD_RING_CFG_VEC : Fld := ⟨.ERR_POD_RING_CFG, 16, 8, .rw, 0, 0, 0xff⟩
def ERR_POD_RING_CFG_SIZE_LOG2 : Fld := ⟨.ERR_POD_RING_CFG, 8, 5, .rw, 6, 6, 0x10⟩
def ERR_POD_RING_CFG_EN : Fld := ⟨.ERR_POD_RING_CFG, 0, 1, .rw, 0, 0, 1⟩
def ERR_POD_RING_PTR_TAIL : Fld := ⟨.ERR_POD_RING_PTR, 32, 16, .ro, 0, 0, 0xffff⟩
def ERR_POD_RING_PTR_HEAD : Fld := ⟨.ERR_POD_RING_PTR, 0, 16, .rw, 0, 0, 0xffff⟩
def ERR_POD_STATUS_LAST_SEQ : Fld := ⟨.ERR_POD_STATUS, 32, 32, .ro, 0, 0, 0xffffffff⟩
def ERR_POD_STATUS_DROPPED : Fld := ⟨.ERR_POD_STATUS, 16, 16, .rw, 0, 0, 0xffff⟩

end F

/-- Base address in PF0 BAR0, then stride and count of the first and second instance number
(R500 and the register tables). -/
def RegKind.geom : RegKind → Nat × Nat × Nat × Nat × Nat
  | .CTL_DEVICE_ID => (0x0, 0x0, 1, 0x0, 1)
  | .TIL_PIPE_SLOT => (0x300100, 0x1000, 64, 0x8, 4)
  | .TIL_PIPE_PROG => (0x300120, 0x1000, 64, 0x8, 4)
  | .TIL_BP_STALL => (0x300140, 0x1000, 64, 0x0, 1)
  | .TIL_INTENSITY_EVT => (0x300148, 0x1000, 64, 0x0, 1)
  | .CLU_PGC_STATUS => (0x200200, 0x1000, 8, 0x0, 1)
  | .CLU_PGC_HIT => (0x200208, 0x1000, 8, 0x0, 1)
  | .CLU_PGC_MISS => (0x200210, 0x1000, 8, 0x0, 1)
  | .TIL_ARITH_FAULT => (0x300180, 0x1000, 64, 0x0, 1)
  | .CMP_CTRL => (0xc2000, 0x0, 1, 0x0, 1)
  | .CMP_ENG_STATUS => (0xc2100, 0x20, 8, 0x0, 1)
  | .CMP_ENG_IN => (0xc2108, 0x20, 8, 0x0, 1)
  | .CMP_ENG_OUT => (0xc2110, 0x20, 8, 0x0, 1)
  | .CMP_ENG_NOSHRINK => (0xc2118, 0x20, 8, 0x0, 1)
  | .JDR_SLICE_INSERTS => (0x100000, 0x20, 8, 0x0, 1)
  | .JDR_SLICE_PROBES => (0x100008, 0x20, 8, 0x0, 1)
  | .JDR_SLICE_USED => (0x100010, 0x20, 8, 0x0, 1)
  | .JDR_POD_RGN_STATE => (0x101000, 0x200, 64, 0x20, 16)
  | .JDR_POD_RGN_ROWS => (0x101008, 0x200, 64, 0x20, 16)
  | .JDR_POD_RGN_ENTRIES => (0x101010, 0x200, 64, 0x20, 16)
  | .JDR_POD_RGN_SPILLED => (0x101018, 0x200, 64, 0x20, 16)
  | .JDR_POD_CLEAR => (0x109000, 0x8, 64, 0x0, 1)
  | .RDR_SLICE_SEARCHES => (0x110000, 0x20, 8, 0x0, 1)
  | .RDR_SLICE_UPDATES => (0x110008, 0x20, 8, 0x0, 1)
  | .RDR_SLICE_MOVES => (0x110010, 0x20, 8, 0x0, 1)
  | .RDR_SLICE_USED => (0x110018, 0x20, 8, 0x0, 1)
  | .RDR_POD_RGN_CFG => (0x111000, 0x200, 64, 0x20, 16)
  | .RDR_POD_RGN_STATE => (0x111008, 0x200, 64, 0x20, 16)
  | .RDR_POD_CLEAR => (0x119000, 0x8, 64, 0x0, 1)
  | .TIL_TS_ECC => (0x300200, 0x1000, 64, 0x0, 1)
  | .TIL_TS_ECC_ADDR => (0x300208, 0x1000, 64, 0x0, 1)
  | .TIL_TS_SCRUB => (0x300210, 0x1000, 64, 0x0, 1)
  | .CCH_CTRL => (0x210000, 0x1000, 8, 0x0, 1)
  | .CCH_LFSR => (0x210008, 0x1000, 8, 0x0, 1)
  | .CCH_STATUS => (0x210010, 0x1000, 8, 0x0, 1)
  | .CCH_MAINT_ADDR => (0x210018, 0x1000, 8, 0x0, 1)
  | .CCH_MAINT => (0x210020, 0x1000, 8, 0x0, 1)
  | .CCH_POD_WAYS => (0x210100, 0x1000, 8, 0x8, 64)
  | .CCH_STASH_POD => (0x210300, 0x1000, 8, 0x8, 64)
  | .CCH_HIT => (0x210500, 0x1000, 8, 0x0, 1)
  | .CCH_MISS => (0x210508, 0x1000, 8, 0x0, 1)
  | .CCH_PF_USEFUL => (0x210510, 0x1000, 8, 0x0, 1)
  | .CCH_NOALLOC => (0x210518, 0x1000, 8, 0x0, 1)
  | .CCH_WB => (0x210520, 0x1000, 8, 0x0, 1)
  | .DIR_AGENT_LIVE => (0xe0000, 0x0, 1, 0x0, 1)
  | .DIR_SCRUB => (0xe0008, 0x0, 1, 0x0, 1)
  | .DIR_POISONED => (0xe0010, 0x0, 1, 0x0, 1)
  | .DIR_SLICE_USED => (0xe0100, 0x20, 16, 0x0, 1)
  | .DIR_SLICE_BACKINV => (0xe0108, 0x20, 16, 0x0, 1)
  | .DIR_SLICE_RETRY => (0xe0110, 0x20, 16, 0x0, 1)
  | .DIR_SLICE_BCAST => (0xe0118, 0x20, 16, 0x0, 1)
  | .MEM_CFG => (0xd0000, 0x0, 1, 0x0, 1)
  | .MEM_TRAIN => (0xd0008, 0x0, 1, 0x0, 1)
  | .MEM_MAINT_CFG => (0xd0010, 0x0, 1, 0x0, 1)
  | .MEM_SCRUB => (0xd0018, 0x0, 1, 0x0, 1)
  | .MEM_RT_CFG => (0xd0020, 0x0, 1, 0x0, 1)
  | .MEM_CH_WM => (0xd1000, 0x200, 16, 0x0, 1)
  | .MEM_CH_STATUS => (0xd1008, 0x200, 16, 0x0, 1)
  | .MEM_CH_ECC => (0xd1010, 0x200, 16, 0x0, 1)
  | .MEM_CH_ECC_ADDR => (0xd1018, 0x200, 16, 0x0, 1)
  | .MEM_CH_STALL => (0xd1020, 0x200, 16, 0x0, 1)
  | .MEM_CH_PANIC => (0xd1028, 0x200, 16, 0x0, 1)
  | .MEM_CH_SLOT_COMMIT => (0xd1038, 0x200, 16, 0x0, 1)
  | .MEM_CH_SLOT => (0xd1040, 0x200, 16, 0x8, 16)
  | .DMA_ACTIVE => (0xc0000, 0x0, 1, 0x0, 1)
  | .DMA_CH_RING => (0xc1000, 0x40, 32, 0x0, 1)
  | .DMA_CH_CFG => (0xc1008, 0x40, 32, 0x0, 1)
  | .DMA_CH_TAIL => (0xc1010, 0x40, 32, 0x0, 1)
  | .DMA_CH_HEAD => (0xc1018, 0x40, 32, 0x0, 1)
  | .DMA_CH_STATUS => (0xc1020, 0x40, 32, 0x0, 1)
  | .DMA_CH_CTRL => (0xc1028, 0x40, 32, 0x0, 1)
  | .DMA_CH_OWNER => (0xc1030, 0x40, 32, 0x0, 1)
  | .DMA_CH_BYTES => (0xc1038, 0x40, 32, 0x0, 1)
  | .RNG_BASE => (0xa0000, 0x80, 1024, 0x0, 1)
  | .RNG_CFG => (0xa0008, 0x80, 1024, 0x0, 1)
  | .RNG_DB => (0xa0010, 0x80, 1024, 0x0, 1)
  | .RNG_HEAD => (0xa0018, 0x80, 1024, 0x0, 1)
  | .RNG_STATUS => (0xa0020, 0x80, 1024, 0x0, 1)
  | .RNG_OWNER => (0xa0028, 0x80, 1024, 0x0, 1)
  | .RNG_DONE => (0xa0030, 0x80, 1024, 0x0, 1)
  | .RNG_PUSH => (0xa0040, 0x80, 1024, 0x8, 8)
  | .ING_POOL => (0xc4000, 0x8, 16, 0x0, 1)
  | .ING_STATUS => (0xc4080, 0x0, 1, 0x0, 1)
  | .ING_WR_BYTES => (0xc4088, 0x0, 1, 0x0, 1)
  | .ING_RD_BYTES => (0xc4090, 0x0, 1, 0x0, 1)
  | .ING_BUF_HITS => (0xc4098, 0x0, 1, 0x0, 1)
  | .ING_NS => (0xc5000, 0x8, 256, 0x0, 1)
  | .CLK_PTM_CTRL => (0x81100, 0x0, 1, 0x0, 1)
  | .CLK_PTM_STATUS => (0x81108, 0x0, 1, 0x0, 1)
  | .POD_GLOBAL => (0x90000, 0x0, 1, 0x0, 1)
  | .POD_CMD => (0x91000, 0x100, 64, 0x0, 1)
  | .POD_STATUS => (0x91008, 0x100, 64, 0x0, 1)
  | .POD_TILES => (0x91010, 0x100, 64, 0x0, 1)
  | .POD_SHARES => (0x91018, 0x100, 64, 0x0, 1)
  | .POD_PASID => (0x91020, 0x100, 64, 0x0, 1)
  | .POD_LOG_CFG => (0x91028, 0x100, 64, 0x0, 1)
  | .POD_LOG_BASE => (0x91030, 0x100, 64, 0x0, 1)
  | .POD_LOG_BUF => (0x91038, 0x100, 64, 0x8, 2)
  | .POD_SAVE_ADDR => (0x91048, 0x100, 64, 0x0, 1)
  | .POD_SAVE_LEN => (0x91050, 0x100, 64, 0x0, 1)
  | .POD_DDR => (0x91080, 0x100, 64, 0x8, 8)
  | .LNK_SPAN_CFG => (0xc8000, 0x0, 1, 0x0, 1)
  | .LNK_SPAN_STATUS => (0xc8008, 0x0, 1, 0x0, 1)
  | .LNK_SPAN_CTRL => (0xc8010, 0x0, 1, 0x0, 1)
  | .LNK_XCFG => (0xc8018, 0x0, 1, 0x0, 1)
  | .LNK_ROUTE => (0xc8040, 0x8, 8, 0x0, 1)
  | .LNK_PORT_CTRL => (0xc8100, 0x40, 4, 0x0, 1)
  | .LNK_PORT_STATUS => (0xc8108, 0x40, 4, 0x0, 1)
  | .LNK_PORT_FEC_CORR => (0xc8110, 0x40, 4, 0x0, 1)
  | .LNK_PORT_FEC_UNCORR => (0xc8118, 0x40, 4, 0x0, 1)
  | .LNK_PORT_REPLAY => (0xc8120, 0x40, 4, 0x0, 1)
  | .LNK_POD_SPAN => (0xc9000, 0x8, 64, 0x0, 1)
  | .CTL_CORE_STATUS => (0x100, 0x8, 8, 0x0, 1)
  | .CTL_SCHED_CFG => (0x200, 0x0, 1, 0x0, 1)
  | .CTL_SCHED_STATUS => (0x208, 0x0, 1, 0x0, 1)
  | .CTL_SCHED_STALL => (0x210, 0x0, 1, 0x0, 1)
  | .CTL_LOCK => (0x1000, 0x8, 256, 0x0, 1)
  | .CTL_THREAD => (0x2000, 0x8, 1024, 0x0, 1)
  | .CTL_MBX_CMD => (0x10000, 0x100, 64, 0x8, 8)
  | .CTL_MBX_RSP => (0x10040, 0x100, 64, 0x8, 8)
  | .CTL_MBX_CTRL => (0x10080, 0x100, 64, 0x0, 1)
  | .PWR_STATE => (0x80000, 0x0, 1, 0x0, 1)
  | .PWR_WAKE => (0x80008, 0x0, 1, 0x0, 1)
  | .PWR_RESET_CAUSE => (0x80010, 0x0, 1, 0x0, 1)
  | .PWR_RESET => (0x80018, 0x0, 1, 0x0, 1)
  | .PWR_GOV_CFG => (0x80020, 0x0, 1, 0x0, 1)
  | .PWR_GOV_STATUS => (0x80028, 0x0, 1, 0x0, 1)
  | .PWR_LIMIT => (0x80030, 0x0, 1, 0x0, 1)
  | .PWR_DROOP_CFG => (0x80038, 0x0, 1, 0x0, 1)
  | .PWR_DROOP_EVT => (0x80040, 0x0, 1, 0x0, 1)
  | .PWR_THERMAL => (0x80048, 0x0, 1, 0x0, 1)
  | .PWR_STATUS => (0x80050, 0x0, 1, 0x0, 1)
  | .CLK_CCLK_REQ => (0x81000, 0x0, 1, 0x0, 1)
  | .CLK_CCLK_STATUS => (0x81008, 0x0, 1, 0x0, 1)
  | .CLK_TIMESTAMP => (0x81010, 0x0, 1, 0x0, 1)
  | .SEC_STATUS => (0x82000, 0x0, 1, 0x0, 1)
  | .SEC_CTRL => (0x82008, 0x0, 1, 0x0, 1)
  | .SEC_DG_CTRL => (0x82100, 0x0, 1, 0x0, 1)
  | .SEC_DG_STATUS => (0x82108, 0x0, 1, 0x0, 1)
  | .SEC_DG_DATA => (0x82110, 0x0, 1, 0x0, 1)
  | .SEC_DG_EXPECT => (0x82120, 0x8, 8, 0x0, 1)
  | .SEC_RNG => (0x82200, 0x0, 1, 0x0, 1)
  | .SEC_RNG_STATUS => (0x82208, 0x0, 1, 0x0, 1)
  | .SEC_PIT_SEL => (0x82300, 0x0, 1, 0x0, 1)
  | .SEC_PIT_DATA => (0x82308, 0x0, 1, 0x0, 1)
  | .DBG_SESAME_CTRL => (0x83000, 0x0, 1, 0x0, 1)
  | .DBG_SESAME_NONCE => (0x83008, 0x8, 4, 0x0, 1)
  | .DBG_SESAME_RESP => (0x83040, 0x0, 1, 0x0, 1)
  | .DBG_MUX => (0x83100, 0x0, 1, 0x0, 1)
  | .SHL_STATUS => (0x84000, 0x0, 1, 0x0, 1)
  | .SHL_LOG_STATE => (0x84008, 0x0, 1, 0x0, 1)
  | .SHL_LOG_INDEX => (0x84010, 0x0, 1, 0x0, 1)
  | .SHL_LOG_DATA => (0x84040, 0x8, 16, 0x0, 1)
  | .ERR_CFG => (0x88000, 0x0, 1, 0x0, 1)
  | .ERR_STATUS => (0x88008, 0x0, 1, 0x0, 1)
  | .ERR_RING_BASE => (0x88010, 0x0, 1, 0x0, 1)
  | .ERR_RING_CFG => (0x88018, 0x0, 1, 0x0, 1)
  | .ERR_RING_PTR => (0x88020, 0x0, 1, 0x0, 1)
  | .ERR_ST_CTRL => (0x88030, 0x0, 1, 0x0, 1)
  | .ERR_ST_STATUS => (0x88038, 0x0, 1, 0x0, 1)
  | .ERR_FENCE_TILE => (0x88048, 0x0, 1, 0x0, 1)
  | .ERR_FENCE_OTHER => (0x88050, 0x0, 1, 0x0, 1)
  | .ERR_RETEST => (0x88058, 0x0, 1, 0x0, 1)
  | .ERR_INJ => (0x88060, 0x0, 1, 0x0, 1)
  | .ERR_INJ_ADDR => (0x88068, 0x0, 1, 0x0, 1)
  | .ERR_POD_RING_BASE => (0x89000, 0x40, 64, 0x0, 1)
  | .ERR_POD_RING_CFG => (0x89008, 0x40, 64, 0x0, 1)
  | .ERR_POD_RING_PTR => (0x89010, 0x40, 64, 0x0, 1)
  | .ERR_POD_STATUS => (0x89018, 0x40, 64, 0x0, 1)

/-- The fields of a register; bits in no field are reserved (R14). -/
def RegKind.fields : RegKind → List Fld
  | .CTL_DEVICE_ID => [F.CTL_DEVICE_ID_PART,
      F.CTL_DEVICE_ID_GRADE,
      F.CTL_DEVICE_ID_STEPPING,
      F.CTL_DEVICE_ID_ISA,
      F.CTL_DEVICE_ID_MAX_CCLK_MHZ]
  | .TIL_PIPE_SLOT => [F.TIL_PIPE_SLOT_HANDLE,
      F.TIL_PIPE_SLOT_EPOCH,
      F.TIL_PIPE_SLOT_PIPE,
      F.TIL_PIPE_SLOT_STATE,
      F.TIL_PIPE_SLOT_POD]
  | .TIL_PIPE_PROG => [F.TIL_PIPE_PROG_DRAIN,
      F.TIL_PIPE_PROG_INSTANCE,
      F.TIL_PIPE_PROG_PAIRS,
      F.TIL_PIPE_PROG_STALL_STAGE]
  | .TIL_BP_STALL => [F.TIL_BP_STALL_OVF, F.TIL_BP_STALL_COUNT]
  | .TIL_INTENSITY_EVT => [F.TIL_INTENSITY_EVT_OVF, F.TIL_INTENSITY_EVT_COUNT]
  | .CLU_PGC_STATUS => [F.CLU_PGC_STATUS_PINNED, F.CLU_PGC_STATUS_RESIDENT]
  | .CLU_PGC_HIT => [F.CLU_PGC_HIT_OVF, F.CLU_PGC_HIT_COUNT]
  | .CLU_PGC_MISS => [F.CLU_PGC_MISS_OVF, F.CLU_PGC_MISS_COUNT]
  | .TIL_ARITH_FAULT => [F.TIL_ARITH_FAULT_VALID,
      F.TIL_ARITH_FAULT_SLOT,
      F.TIL_ARITH_FAULT_STAGE,
      F.TIL_ARITH_FAULT_UOP,
      F.TIL_ARITH_FAULT_CODE,
      F.TIL_ARITH_FAULT_ROW,
      F.TIL_ARITH_FAULT_SEQ]
  | .CMP_CTRL => [F.CMP_CTRL_RATIO_DEFAULT, F.CMP_CTRL_DMA_MAX, F.CMP_CTRL_ENG_EN]
  | .CMP_ENG_STATUS => [F.CMP_ENG_STATUS_POD,
      F.CMP_ENG_STATUS_LAST,
      F.CMP_ENG_STATUS_FENCED,
      F.CMP_ENG_STATUS_DMA,
      F.CMP_ENG_STATUS_ENABLED,
      F.CMP_ENG_STATUS_BUSY]
  | .CMP_ENG_IN => [F.CMP_ENG_IN_OVF, F.CMP_ENG_IN_COUNT]
  | .CMP_ENG_OUT => [F.CMP_ENG_OUT_OVF, F.CMP_ENG_OUT_COUNT]
  | .CMP_ENG_NOSHRINK => [F.CMP_ENG_NOSHRINK_OVF, F.CMP_ENG_NOSHRINK_COUNT]
  | .JDR_SLICE_INSERTS => [F.JDR_SLICE_INSERTS_OVF, F.JDR_SLICE_INSERTS_COUNT]
  | .JDR_SLICE_PROBES => [F.JDR_SLICE_PROBES_OVF, F.JDR_SLICE_PROBES_COUNT]
  | .JDR_SLICE_USED => [F.JDR_SLICE_USED_ENTRIES]
  | .JDR_POD_RGN_STATE => [F.JDR_POD_RGN_STATE_WAVE_FIRST,
      F.JDR_POD_RGN_STATE_WAVE_LAST,
      F.JDR_POD_RGN_STATE_SUB_FIRST,
      F.JDR_POD_RGN_STATE_SUB_LAST,
      F.JDR_POD_RGN_STATE_WAVES,
      F.JDR_POD_RGN_STATE_CASEFOLD,
      F.JDR_POD_RGN_STATE_NULLKEY,
      F.JDR_POD_RGN_STATE_PAYLOAD,
      F.JDR_POD_RGN_STATE_STATE]
  | .JDR_POD_RGN_ROWS => [F.JDR_POD_RGN_ROWS_BUILD_ROWS]
  | .JDR_POD_RGN_ENTRIES => [F.JDR_POD_RGN_ENTRIES_ENTRIES]
  | .JDR_POD_RGN_SPILLED => [F.JDR_POD_RGN_SPILLED_RECORDS]
  | .JDR_POD_CLEAR => [F.JDR_POD_CLEAR_REGIONS]
  | .RDR_SLICE_SEARCHES => [F.RDR_SLICE_SEARCHES_OVF, F.RDR_SLICE_SEARCHES_COUNT]
  | .RDR_SLICE_UPDATES => [F.RDR_SLICE_UPDATES_OVF, F.RDR_SLICE_UPDATES_COUNT]
  | .RDR_SLICE_MOVES => [F.RDR_SLICE_MOVES_OVF, F.RDR_SLICE_MOVES_COUNT]
  | .RDR_SLICE_USED => [F.RDR_SLICE_USED_ENTRIES]
  | .RDR_POD_RGN_CFG => [F.RDR_POD_RGN_CFG_HOLE, F.RDR_POD_RGN_CFG_BASE, F.RDR_POD_RGN_CFG_SIZE]
  | .RDR_POD_RGN_STATE => [F.RDR_POD_RGN_STATE_REBAL,
      F.RDR_POD_RGN_STATE_ENTRIES,
      F.RDR_POD_RGN_STATE_KEYTYPE,
      F.RDR_POD_RGN_STATE_LAYERS,
      F.RDR_POD_RGN_STATE_MARKING,
      F.RDR_POD_RGN_STATE_LOCKED,
      F.RDR_POD_RGN_STATE_REJECT,
      F.RDR_POD_RGN_STATE_STATE]
  | .RDR_POD_CLEAR => [F.RDR_POD_CLEAR_REGIONS]
  | .TIL_TS_ECC => [F.TIL_TS_ECC_UE_COUNT, F.TIL_TS_ECC_CE_COUNT]
  | .TIL_TS_ECC_ADDR => [F.TIL_TS_ECC_ADDR_VALID, F.TIL_TS_ECC_ADDR_OFFSET]
  | .TIL_TS_SCRUB => [F.TIL_TS_SCRUB_ZEROING, F.TIL_TS_SCRUB_EN]
  | .CCH_CTRL => [F.CCH_CTRL_PF_MR_MAX,
      F.CCH_CTRL_PF_DEPTH,
      F.CCH_CTRL_SD_EN,
      F.CCH_CTRL_PF_EN,
      F.CCH_CTRL_MODE,
      F.CCH_CTRL_MODE_REQ,
      F.CCH_CTRL_EN]
  | .CCH_LFSR => [F.CCH_LFSR_VALUE]
  | .CCH_STATUS => [F.CCH_STATUS_MR_BUSY, F.CCH_STATUS_MAINT_REJ, F.CCH_STATUS_WBB_BUSY]
  | .CCH_MAINT_ADDR => [F.CCH_MAINT_ADDR_ADDR]
  | .CCH_MAINT => [F.CCH_MAINT_BUSY, F.CCH_MAINT_GLOBAL, F.CCH_MAINT_OP]
  | .CCH_POD_WAYS => [F.CCH_POD_WAYS_WAYS]
  | .CCH_STASH_POD => [F.CCH_STASH_POD_HINT]
  | .CCH_HIT => [F.CCH_HIT_OVF, F.CCH_HIT_COUNT]
  | .CCH_MISS => [F.CCH_MISS_OVF, F.CCH_MISS_COUNT]
  | .CCH_PF_USEFUL => [F.CCH_PF_USEFUL_OVF, F.CCH_PF_USEFUL_COUNT]
  | .CCH_NOALLOC => [F.CCH_NOALLOC_OVF, F.CCH_NOALLOC_COUNT]
  | .CCH_WB => [F.CCH_WB_OVF, F.CCH_WB_COUNT]
  | .DIR_AGENT_LIVE => [F.DIR_AGENT_LIVE_LIVE]
  | .DIR_SCRUB => [F.DIR_SCRUB_ACTIVE, F.DIR_SCRUB_AGENT, F.DIR_SCRUB_COUNT]
  | .DIR_POISONED => [F.DIR_POISONED_OVF, F.DIR_POISONED_COUNT]
  | .DIR_SLICE_USED => [F.DIR_SLICE_USED_ENTRIES]
  | .DIR_SLICE_BACKINV => [F.DIR_SLICE_BACKINV_OVF, F.DIR_SLICE_BACKINV_COUNT]
  | .DIR_SLICE_RETRY => [F.DIR_SLICE_RETRY_OVF, F.DIR_SLICE_RETRY_COUNT]
  | .DIR_SLICE_BCAST => [F.DIR_SLICE_BCAST_OVF, F.DIR_SLICE_BCAST_COUNT]
  | .MEM_CFG => [F.MEM_CFG_CAP_GIB,
      F.MEM_CFG_SPEED,
      F.MEM_CFG_SPEED_MAX,
      F.MEM_CFG_DPC2,
      F.MEM_CFG_RANKS,
      F.MEM_CFG_DEVW,
      F.MEM_CFG_DENSITY]
  | .MEM_TRAIN => [F.MEM_TRAIN_FAIL_STEP,
      F.MEM_TRAIN_FAIL_CH,
      F.MEM_TRAIN_FAST,
      F.MEM_TRAIN_STEP,
      F.MEM_TRAIN_STATE]
  | .MEM_MAINT_CFG => [F.MEM_MAINT_CFG_TEMP_DELTA, F.MEM_MAINT_CFG_ZQ_MS, F.MEM_MAINT_CFG_RETRAIN_MS]
  | .MEM_SCRUB => [F.MEM_SCRUB_ACTIVE, F.MEM_SCRUB_PERIOD_H, F.MEM_SCRUB_EN]
  | .MEM_RT_CFG => [F.MEM_RT_CFG_LNK_OFF,
      F.MEM_RT_CFG_LNK_ON,
      F.MEM_RT_CFG_IO_OFF,
      F.MEM_RT_CFG_IO_ON]
  | .MEM_CH_WM => [F.MEM_CH_WM_HIGH, F.MEM_CH_WM_LOW]
  | .MEM_CH_STATUS => [F.MEM_CH_STATUS_RQ,
      F.MEM_CH_STATUS_WQ,
      F.MEM_CH_STATUS_HOT,
      F.MEM_CH_STATUS_DRAIN,
      F.MEM_CH_STATUS_REFRESH,
      F.MEM_CH_STATUS_MAINT,
      F.MEM_CH_STATUS_PANIC_IO,
      F.MEM_CH_STATUS_PANIC_LNK,
      F.MEM_CH_STATUS_COMMIT_PEND,
      F.MEM_CH_STATUS_CFG_REJ]
  | .MEM_CH_ECC => [F.MEM_CH_ECC_UE_COUNT, F.MEM_CH_ECC_CE_COUNT]
  | .MEM_CH_ECC_ADDR => [F.MEM_CH_ECC_ADDR_VALID, F.MEM_CH_ECC_ADDR_OFFSET]
  | .MEM_CH_STALL => [F.MEM_CH_STALL_OVF, F.MEM_CH_STALL_COUNT]
  | .MEM_CH_PANIC => [F.MEM_CH_PANIC_OVF, F.MEM_CH_PANIC_COUNT]
  | .MEM_CH_SLOT_COMMIT => [F.MEM_CH_SLOT_COMMIT_COMMIT]
  | .MEM_CH_SLOT => [F.MEM_CH_SLOT_ENTRY]
  | .DMA_ACTIVE => [F.DMA_ACTIVE_CHANNELS]
  | .DMA_CH_RING => [F.DMA_CH_RING_ADDR]
  | .DMA_CH_CFG => [F.DMA_CH_CFG_VEC,
      F.DMA_CH_CFG_SIZE_LOG2,
      F.DMA_CH_CFG_PRIO,
      F.DMA_CH_CFG_RING_HOST,
      F.DMA_CH_CFG_EN]
  | .DMA_CH_TAIL => [F.DMA_CH_TAIL_TAIL]
  | .DMA_CH_HEAD => [F.DMA_CH_HEAD_PHASE, F.DMA_CH_HEAD_HEAD]
  | .DMA_CH_STATUS => [F.DMA_CH_STATUS_ERR_INDEX, F.DMA_CH_STATUS_LAST, F.DMA_CH_STATUS_STATE]
  | .DMA_CH_CTRL => [F.DMA_CH_CTRL_RESTART]
  | .DMA_CH_OWNER => [F.DMA_CH_OWNER_PRIO_MAX, F.DMA_CH_OWNER_POD, F.DMA_CH_OWNER_ASSIGNED]
  | .DMA_CH_BYTES => [F.DMA_CH_BYTES_OVF, F.DMA_CH_BYTES_COUNT]
  | .RNG_BASE => [F.RNG_BASE_ADDR]
  | .RNG_CFG => [F.RNG_CFG_HOLDOFF_US,
      F.RNG_CFG_VEC,
      F.RNG_CFG_DEPTH_M1,
      F.RNG_CFG_SIZE_LOG2,
      F.RNG_CFG_HOST,
      F.RNG_CFG_EN]
  | .RNG_DB => [F.RNG_DB_TAIL]
  | .RNG_HEAD => [F.RNG_HEAD_PHASE, F.RNG_HEAD_DONE, F.RNG_HEAD_FETCH]
  | .RNG_STATUS => [F.RNG_STATUS_ERR_INDEX,
      F.RNG_STATUS_RUNS,
      F.RNG_STATUS_CAUSE,
      F.RNG_STATUS_STATE]
  | .RNG_OWNER => [F.RNG_OWNER_POD, F.RNG_OWNER_ASSIGNED]
  | .RNG_DONE => [F.RNG_DONE_OVF, F.RNG_DONE_COUNT]
  | .RNG_PUSH => [F.RNG_PUSH_ENTRY]
  | .ING_POOL => [F.ING_POOL_VALID, F.ING_POOL_COUNT_GIB, F.ING_POOL_BASE_GIB]
  | .ING_STATUS => [F.ING_STATUS_BUF_USED, F.ING_STATUS_REJECT, F.ING_STATUS_NS_COUNT]
  | .ING_WR_BYTES => [F.ING_WR_BYTES_OVF, F.ING_WR_BYTES_COUNT]
  | .ING_RD_BYTES => [F.ING_RD_BYTES_OVF, F.ING_RD_BYTES_COUNT]
  | .ING_BUF_HITS => [F.ING_BUF_HITS_OVF, F.ING_BUF_HITS_COUNT]
  | .ING_NS => [F.ING_NS_VALID,
      F.ING_NS_POD,
      F.ING_NS_SIZE_GIB,
      F.ING_NS_BASE_GIB]
  | .CLK_PTM_CTRL => [F.CLK_PTM_CTRL_EN, F.CLK_PTM_CTRL_INTERVAL_MS]
  | .CLK_PTM_STATUS => [F.CLK_PTM_STATUS_VALID, F.CLK_PTM_STATUS_STEPPED, F.CLK_PTM_STATUS_OFFSET_NS]
  | .POD_GLOBAL => [F.POD_GLOBAL_WHOLE, F.POD_GLOBAL_PODS]
  | .POD_CMD => [F.POD_CMD_CMD]
  | .POD_STATUS => [F.POD_STATUS_SAVE_NEED_MIB,
      F.POD_STATUS_REASON,
      F.POD_STATUS_SAVE_DONE,
      F.POD_STATUS_STATE]
  | .POD_TILES => [F.POD_TILES_MASK]
  | .POD_SHARES => [F.POD_SHARES_VEC_COUNT,
      F.POD_SHARES_VEC_BASE,
      F.POD_SHARES_RDR_Q,
      F.POD_SHARES_JDR_B]
  | .POD_PASID => [F.POD_PASID_PASID]
  | .POD_LOG_CFG => [F.POD_LOG_CFG_OUTSIDE,
      F.POD_LOG_CFG_SWAP_PEND,
      F.POD_LOG_CFG_SPAN_LOG2,
      F.POD_LOG_CFG_SEL,
      F.POD_LOG_CFG_SWAP,
      F.POD_LOG_CFG_EN]
  | .POD_LOG_BASE => [F.POD_LOG_BASE_ADDR]
  | .POD_LOG_BUF => [F.POD_LOG_BUF_ADDR]
  | .POD_SAVE_ADDR => [F.POD_SAVE_ADDR_HOST, F.POD_SAVE_ADDR_ADDR]
  | .POD_SAVE_LEN => [F.POD_SAVE_LEN_LEN_MIB]
  | .POD_DDR => [F.POD_DDR_VALID, F.POD_DDR_COUNT_GIB, F.POD_DDR_BASE_GIB]
  | .LNK_SPAN_CFG => [F.LNK_SPAN_CFG_LOCK,
      F.LNK_SPAN_CFG_AUTO_READMIT,
      F.LNK_SPAN_CFG_SPAN_NO,
      F.LNK_SPAN_CFG_SPAN_ID]
  | .LNK_SPAN_STATUS => [F.LNK_SPAN_STATUS_REACH,
      F.LNK_SPAN_STATUS_FENCED,
      F.LNK_SPAN_STATUS_SCRUBBED,
      F.LNK_SPAN_STATUS_LIVE]
  | .LNK_SPAN_CTRL => [F.LNK_SPAN_CTRL_READMIT]
  | .LNK_XCFG => [F.LNK_XCFG_JOIN_MS, F.LNK_XCFG_CREDIT_TO_US]
  | .LNK_ROUTE => [F.LNK_ROUTE_HOPS, F.LNK_ROUTE_PORTS]
  | .LNK_PORT_CTRL => [F.LNK_PORT_CTRL_RETRAIN, F.LNK_PORT_CTRL_NARROW_OK, F.LNK_PORT_CTRL_EN]
  | .LNK_PORT_STATUS => [F.LNK_PORT_STATUS_NBR_PORT,
      F.LNK_PORT_STATUS_NBR_NO,
      F.LNK_PORT_STATUS_NBR_ID,
      F.LNK_PORT_STATUS_WIDTH,
      F.LNK_PORT_STATUS_STATE]
  | .LNK_PORT_FEC_CORR => [F.LNK_PORT_FEC_CORR_OVF, F.LNK_PORT_FEC_CORR_COUNT]
  | .LNK_PORT_FEC_UNCORR => [F.LNK_PORT_FEC_UNCORR_OVF, F.LNK_PORT_FEC_UNCORR_COUNT]
  | .LNK_PORT_REPLAY => [F.LNK_PORT_REPLAY_OVF, F.LNK_PORT_REPLAY_COUNT]
  | .LNK_POD_SPAN => [F.LNK_POD_SPAN_GROUP, F.LNK_POD_SPAN_MEMBERS]
  | .CTL_CORE_STATUS => [F.CTL_CORE_STATUS_NEXT,
      F.CTL_CORE_STATUS_CUR,
      F.CTL_CORE_STATUS_NEXT_VALID,
      F.CTL_CORE_STATUS_CUR_VALID,
      F.CTL_CORE_STATUS_PRIV,
      F.CTL_CORE_STATUS_FENCED]
  | .CTL_SCHED_CFG => [F.CTL_SCHED_CFG_TICK_US, F.CTL_SCHED_CFG_POD_MAX, F.CTL_SCHED_CFG_SLICE_US]
  | .CTL_SCHED_STATUS => [F.CTL_SCHED_STATUS_FREE, F.CTL_SCHED_STATUS_TICKS]
  | .CTL_SCHED_STALL => [F.CTL_SCHED_STALL_OVF, F.CTL_SCHED_STALL_COUNT]
  | .CTL_LOCK => [F.CTL_LOCK_HELD,
      F.CTL_LOCK_POISON,
      F.CTL_LOCK_BOUND,
      F.CTL_LOCK_POD,
      F.CTL_LOCK_OWNER,
      F.CTL_LOCK_WAITERS,
      F.CTL_LOCK_LOCAL]
  | .CTL_THREAD => [F.CTL_THREAD_NUMBER,
      F.CTL_THREAD_POD,
      F.CTL_THREAD_PRIV,
      F.CTL_THREAD_PRIO,
      F.CTL_THREAD_LOCKWAIT,
      F.CTL_THREAD_STATE]
  | .CTL_MBX_CMD => [F.CTL_MBX_CMD_CMD]
  | .CTL_MBX_RSP => [F.CTL_MBX_RSP_RSP]
  | .CTL_MBX_CTRL => [F.CTL_MBX_CTRL_VEC,
      F.CTL_MBX_CTRL_BUSY,
      F.CTL_MBX_CTRL_REJ,
      F.CTL_MBX_CTRL_DONE,
      F.CTL_MBX_CTRL_GO]
  | .PWR_STATE => [F.PWR_STATE_STEP,
      F.PWR_STATE_REASON,
      F.PWR_STATE_REJECT,
      F.PWR_STATE_STATE,
      F.PWR_STATE_REQ]
  | .PWR_WAKE => [F.PWR_WAKE_PENDING, F.PWR_WAKE_LAST, F.PWR_WAKE_EN]
  | .PWR_RESET_CAUSE => [F.PWR_RESET_CAUSE_HISTORY, F.PWR_RESET_CAUSE_CAUSE]
  | .PWR_RESET => [F.PWR_RESET_COLD, F.PWR_RESET_WARM]
  | .PWR_GOV_CFG => [F.PWR_GOV_CFG_BALLAST_EN,
      F.PWR_GOV_CFG_DB_WINDOW,
      F.PWR_GOV_CFG_DB_INST,
      F.PWR_GOV_CFG_LSTEP_ADV,
      F.PWR_GOV_CFG_STEP_THR,
      F.PWR_GOV_CFG_SLEW]
  | .PWR_GOV_STATUS => [F.PWR_GOV_STATUS_QUEUED, F.PWR_GOV_STATUS_LSTEP, F.PWR_GOV_STATUS_RAMPING]
  | .PWR_LIMIT => [F.PWR_LIMIT_TDP_W]
  | .PWR_DROOP_CFG => [F.PWR_DROOP_CFG_HOLD_NS, F.PWR_DROOP_CFG_DROOP_MV]
  | .PWR_DROOP_EVT => [F.PWR_DROOP_EVT_OVF, F.PWR_DROOP_EVT_COUNT]
  | .PWR_THERMAL => [F.PWR_THERMAL_DIMM_THROTTLE, F.PWR_THERMAL_THROTTLE, F.PWR_THERMAL_TJ_MAX]
  | .PWR_STATUS => [F.PWR_STATUS_AVS_FAULT]
  | .CLK_CCLK_REQ => [F.CLK_CCLK_REQ_MHZ]
  | .CLK_CCLK_STATUS => [F.CLK_CCLK_STATUS_VDDC_MV,
      F.CLK_CCLK_STATUS_LIMIT_MHZ,
      F.CLK_CCLK_STATUS_CLAMPED_MHZ,
      F.CLK_CCLK_STATUS_MHZ]
  | .CLK_TIMESTAMP => [F.CLK_TIMESTAMP_NS]
  | .SEC_STATUS => [F.SEC_STATUS_SVN,
      F.SEC_STATUS_KEY,
      F.SEC_STATUS_MODE,
      F.SEC_STATUS_DEBUG,
      F.SEC_STATUS_LIFECYCLE]
  | .SEC_CTRL => [F.SEC_CTRL_END_BOOT]
  | .SEC_DG_CTRL => [F.SEC_DG_CTRL_LEN,
      F.SEC_DG_CTRL_KEYSEL,
      F.SEC_DG_CTRL_DEST,
      F.SEC_DG_CTRL_OUTLEN,
      F.SEC_DG_CTRL_OP,
      F.SEC_DG_CTRL_ALG]
  | .SEC_DG_STATUS => [F.SEC_DG_STATUS_ABSORBED,
      F.SEC_DG_STATUS_OWNER,
      F.SEC_DG_STATUS_MINE,
      F.SEC_DG_STATUS_REASON,
      F.SEC_DG_STATUS_REFUSED,
      F.SEC_DG_STATUS_EXPIRED,
      F.SEC_DG_STATUS_LOST,
      F.SEC_DG_STATUS_TRUNC,
      F.SEC_DG_STATUS_RESULT,
      F.SEC_DG_STATUS_DONE,
      F.SEC_DG_STATUS_ABSORBING]
  | .SEC_DG_DATA => [F.SEC_DG_DATA_WORD]
  | .SEC_DG_EXPECT => [F.SEC_DG_EXPECT_VALUE]
  | .SEC_RNG => [F.SEC_RNG_VALUE]
  | .SEC_RNG_STATUS => [F.SEC_RNG_STATUS_HEALTH_FAIL, F.SEC_RNG_STATUS_READY]
  | .SEC_PIT_SEL => [F.SEC_PIT_SEL_WORD, F.SEC_PIT_SEL_SLOT]
  | .SEC_PIT_DATA => [F.SEC_PIT_DATA_VALUE]
  | .DBG_SESAME_CTRL => [F.DBG_SESAME_CTRL_LEVEL_REQ,
      F.DBG_SESAME_CTRL_DROP,
      F.DBG_SESAME_CTRL_SUBMIT,
      F.DBG_SESAME_CTRL_REQUEST,
      F.DBG_SESAME_CTRL_FAILS,
      F.DBG_SESAME_CTRL_LOCKED,
      F.DBG_SESAME_CTRL_RESULT,
      F.DBG_SESAME_CTRL_BUSY]
  | .DBG_SESAME_NONCE => [F.DBG_SESAME_NONCE_NONCE]
  | .DBG_SESAME_RESP => [F.DBG_SESAME_RESP_WORD]
  | .DBG_MUX => [F.DBG_MUX_GROUP, F.DBG_MUX_DENIED, F.DBG_MUX_EN]
  | .SHL_STATUS => [F.SHL_STATUS_FW_VERSION,
      F.SHL_STATUS_UPDATE,
      F.SHL_STATUS_SLOT,
      F.SHL_STATUS_FLASH_OK]
  | .SHL_LOG_STATE => [F.SHL_LOG_STATE_DROPPED, F.SHL_LOG_STATE_HEAD_SEQ]
  | .SHL_LOG_INDEX => [F.SHL_LOG_INDEX_ENTRY]
  | .SHL_LOG_DATA => [F.SHL_LOG_DATA_DATA]
  | .ERR_CFG => [F.ERR_CFG_REPEAT_MIN, F.ERR_CFG_SAT_REC, F.ERR_CFG_LOG_CE]
  | .ERR_STATUS => [F.ERR_STATUS_LAST_SEQ, F.ERR_STATUS_DROPPED, F.ERR_STATUS_FATAL]
  | .ERR_RING_BASE => [F.ERR_RING_BASE_HOST, F.ERR_RING_BASE_ADDR]
  | .ERR_RING_CFG => [F.ERR_RING_CFG_HOLDOFF_US,
      F.ERR_RING_CFG_VEC,
      F.ERR_RING_CFG_SIZE_LOG2,
      F.ERR_RING_CFG_EN]
  | .ERR_RING_PTR => [F.ERR_RING_PTR_TAIL, F.ERR_RING_PTR_HEAD]
  | .ERR_ST_CTRL => [F.ERR_ST_CTRL_PERIOD_MS, F.ERR_ST_CTRL_EN]
  | .ERR_ST_STATUS => [F.ERR_ST_STATUS_CLUSTERS]
  | .ERR_FENCE_TILE => [F.ERR_FENCE_TILE_FENCED]
  | .ERR_FENCE_OTHER => [F.ERR_FENCE_OTHER_HOST, F.ERR_FENCE_OTHER_CLUSTER]
  | .ERR_RETEST => [F.ERR_RETEST_TILES]
  | .ERR_INJ => [F.ERR_INJ_ARMED,
      F.ERR_INJ_FIRED,
      F.ERR_INJ_ARM,
      F.ERR_INJ_INDEX,
      F.ERR_INJ_MODE,
      F.ERR_INJ_TARGET]
  | .ERR_INJ_ADDR => [F.ERR_INJ_ADDR_ADDR]
  | .ERR_POD_RING_BASE => [F.ERR_POD_RING_BASE_HOST, F.ERR_POD_RING_BASE_ADDR]
  | .ERR_POD_RING_CFG => [F.ERR_POD_RING_CFG_HOLDOFF_US,
      F.ERR_POD_RING_CFG_VEC,
      F.ERR_POD_RING_CFG_SIZE_LOG2,
      F.ERR_POD_RING_CFG_EN]
  | .ERR_POD_RING_PTR => [F.ERR_POD_RING_PTR_TAIL, F.ERR_POD_RING_PTR_HEAD]
  | .ERR_POD_STATUS => [F.ERR_POD_STATUS_LAST_SEQ, F.ERR_POD_STATUS_DROPPED]

/-- The register is reachable through pod windows (R17). -/
def RegKind.viewU : RegKind → Bool
  | .CTL_DEVICE_ID => true
  | .TIL_PIPE_SLOT => true
  | .TIL_PIPE_PROG => true
  | .TIL_BP_STALL => true
  | .TIL_INTENSITY_EVT => true
  | .CLU_PGC_STATUS => false
  | .CLU_PGC_HIT => false
  | .CLU_PGC_MISS => false
  | .TIL_ARITH_FAULT => true
  | .CMP_CTRL => false
  | .CMP_ENG_STATUS => false
  | .CMP_ENG_IN => false
  | .CMP_ENG_OUT => false
  | .CMP_ENG_NOSHRINK => false
  | .JDR_SLICE_INSERTS => false
  | .JDR_SLICE_PROBES => false
  | .JDR_SLICE_USED => false
  | .JDR_POD_RGN_STATE => true
  | .JDR_POD_RGN_ROWS => true
  | .JDR_POD_RGN_ENTRIES => true
  | .JDR_POD_RGN_SPILLED => true
  | .JDR_POD_CLEAR => true
  | .RDR_SLICE_SEARCHES => false
  | .RDR_SLICE_UPDATES => false
  | .RDR_SLICE_MOVES => false
  | .RDR_SLICE_USED => false
  | .RDR_POD_RGN_CFG => true
  | .RDR_POD_RGN_STATE => true
  | .RDR_POD_CLEAR => true
  | .TIL_TS_ECC => false
  | .TIL_TS_ECC_ADDR => false
  | .TIL_TS_SCRUB => false
  | .CCH_CTRL => false
  | .CCH_LFSR => false
  | .CCH_STATUS => false
  | .CCH_MAINT_ADDR => false
  | .CCH_MAINT => false
  | .CCH_POD_WAYS => false
  | .CCH_STASH_POD => true
  | .CCH_HIT => false
  | .CCH_MISS => false
  | .CCH_PF_USEFUL => false
  | .CCH_NOALLOC => false
  | .CCH_WB => false
  | .DIR_AGENT_LIVE => false
  | .DIR_SCRUB => false
  | .DIR_POISONED => false
  | .DIR_SLICE_USED => false
  | .DIR_SLICE_BACKINV => false
  | .DIR_SLICE_RETRY => false
  | .DIR_SLICE_BCAST => false
  | .MEM_CFG => false
  | .MEM_TRAIN => false
  | .MEM_MAINT_CFG => false
  | .MEM_SCRUB => false
  | .MEM_RT_CFG => false
  | .MEM_CH_WM => false
  | .MEM_CH_STATUS => false
  | .MEM_CH_ECC => false
  | .MEM_CH_ECC_ADDR => false
  | .MEM_CH_STALL => false
  | .MEM_CH_PANIC => false
  | .MEM_CH_SLOT_COMMIT => false
  | .MEM_CH_SLOT => false
  | .DMA_ACTIVE => false
  | .DMA_CH_RING => true
  | .DMA_CH_CFG => true
  | .DMA_CH_TAIL => true
  | .DMA_CH_HEAD => true
  | .DMA_CH_STATUS => true
  | .DMA_CH_CTRL => true
  | .DMA_CH_OWNER => false
  | .DMA_CH_BYTES => true
  | .RNG_BASE => true
  | .RNG_CFG => true
  | .RNG_DB => true
  | .RNG_HEAD => true
  | .RNG_STATUS => true
  | .RNG_OWNER => false
  | .RNG_DONE => true
  | .RNG_PUSH => true
  | .ING_POOL => false
  | .ING_STATUS => false
  | .ING_WR_BYTES => false
  | .ING_RD_BYTES => false
  | .ING_BUF_HITS => false
  | .ING_NS => false
  | .CLK_PTM_CTRL => false
  | .CLK_PTM_STATUS => false
  | .POD_GLOBAL => false
  | .POD_CMD => false
  | .POD_STATUS => true
  | .POD_TILES => true
  | .POD_SHARES => true
  | .POD_PASID => false
  | .POD_LOG_CFG => false
  | .POD_LOG_BASE => false
  | .POD_LOG_BUF => false
  | .POD_SAVE_ADDR => false
  | .POD_SAVE_LEN => false
  | .POD_DDR => true
  | .LNK_SPAN_CFG => false
  | .LNK_SPAN_STATUS => false
  | .LNK_SPAN_CTRL => false
  | .LNK_XCFG => false
  | .LNK_ROUTE => false
  | .LNK_PORT_CTRL => false
  | .LNK_PORT_STATUS => false
  | .LNK_PORT_FEC_CORR => false
  | .LNK_PORT_FEC_UNCORR => false
  | .LNK_PORT_REPLAY => false
  | .LNK_POD_SPAN => false
  | .CTL_CORE_STATUS => false
  | .CTL_SCHED_CFG => false
  | .CTL_SCHED_STATUS => false
  | .CTL_SCHED_STALL => false
  | .CTL_LOCK => false
  | .CTL_THREAD => false
  | .CTL_MBX_CMD => true
  | .CTL_MBX_RSP => true
  | .CTL_MBX_CTRL => true
  | .PWR_STATE => false
  | .PWR_WAKE => false
  | .PWR_RESET_CAUSE => false
  | .PWR_RESET => false
  | .PWR_GOV_CFG => false
  | .PWR_GOV_STATUS => false
  | .PWR_LIMIT => false
  | .PWR_DROOP_CFG => false
  | .PWR_DROOP_EVT => false
  | .PWR_THERMAL => false
  | .PWR_STATUS => false
  | .CLK_CCLK_REQ => false
  | .CLK_CCLK_STATUS => false
  | .CLK_TIMESTAMP => true
  | .SEC_STATUS => false
  | .SEC_CTRL => false
  | .SEC_DG_CTRL => false
  | .SEC_DG_STATUS => false
  | .SEC_DG_DATA => false
  | .SEC_DG_EXPECT => false
  | .SEC_RNG => false
  | .SEC_RNG_STATUS => false
  | .SEC_PIT_SEL => false
  | .SEC_PIT_DATA => false
  | .DBG_SESAME_CTRL => false
  | .DBG_SESAME_NONCE => false
  | .DBG_SESAME_RESP => false
  | .DBG_MUX => false
  | .SHL_STATUS => false
  | .SHL_LOG_STATE => false
  | .SHL_LOG_INDEX => false
  | .SHL_LOG_DATA => false
  | .ERR_CFG => false
  | .ERR_STATUS => false
  | .ERR_RING_BASE => false
  | .ERR_RING_CFG => false
  | .ERR_RING_PTR => false
  | .ERR_ST_CTRL => false
  | .ERR_ST_STATUS => false
  | .ERR_FENCE_TILE => false
  | .ERR_FENCE_OTHER => false
  | .ERR_RETEST => false
  | .ERR_INJ => false
  | .ERR_INJ_ADDR => false
  | .ERR_POD_RING_BASE => true
  | .ERR_POD_RING_CFG => true
  | .ERR_POD_RING_PTR => true
  | .ERR_POD_STATUS => true

/-- Register kinds, part 0. -/
def RegKind.part0 : List RegKind :=
  [.CTL_DEVICE_ID, .TIL_PIPE_SLOT, .TIL_PIPE_PROG, .TIL_BP_STALL, .TIL_INTENSITY_EVT, .CLU_PGC_STATUS, .CLU_PGC_HIT, .CLU_PGC_MISS, .TIL_ARITH_FAULT, .CMP_CTRL, .CMP_ENG_STATUS, .CMP_ENG_IN, .CMP_ENG_OUT, .CMP_ENG_NOSHRINK, .JDR_SLICE_INSERTS, .JDR_SLICE_PROBES, .JDR_SLICE_USED, .JDR_POD_RGN_STATE, .JDR_POD_RGN_ROWS, .JDR_POD_RGN_ENTRIES, .JDR_POD_RGN_SPILLED, .JDR_POD_CLEAR, .RDR_SLICE_SEARCHES, .RDR_SLICE_UPDATES, .RDR_SLICE_MOVES, .RDR_SLICE_USED, .RDR_POD_RGN_CFG, .RDR_POD_RGN_STATE, .RDR_POD_CLEAR, .TIL_TS_ECC]

/-- Register kinds, part 1. -/
def RegKind.part1 : List RegKind :=
  [.TIL_TS_ECC_ADDR, .TIL_TS_SCRUB, .CCH_CTRL, .CCH_LFSR, .CCH_STATUS, .CCH_MAINT_ADDR, .CCH_MAINT, .CCH_POD_WAYS, .CCH_STASH_POD, .CCH_HIT, .CCH_MISS, .CCH_PF_USEFUL, .CCH_NOALLOC, .CCH_WB, .DIR_AGENT_LIVE, .DIR_SCRUB, .DIR_POISONED, .DIR_SLICE_USED, .DIR_SLICE_BACKINV, .DIR_SLICE_RETRY, .DIR_SLICE_BCAST, .MEM_CFG, .MEM_TRAIN, .MEM_MAINT_CFG, .MEM_SCRUB, .MEM_RT_CFG, .MEM_CH_WM, .MEM_CH_STATUS, .MEM_CH_ECC, .MEM_CH_ECC_ADDR]

/-- Register kinds, part 2. -/
def RegKind.part2 : List RegKind :=
  [.MEM_CH_STALL, .MEM_CH_PANIC, .MEM_CH_SLOT_COMMIT, .MEM_CH_SLOT, .DMA_ACTIVE, .DMA_CH_RING, .DMA_CH_CFG, .DMA_CH_TAIL, .DMA_CH_HEAD, .DMA_CH_STATUS, .DMA_CH_CTRL, .DMA_CH_OWNER, .DMA_CH_BYTES, .RNG_BASE, .RNG_CFG, .RNG_DB, .RNG_HEAD, .RNG_STATUS, .RNG_OWNER, .RNG_DONE, .RNG_PUSH, .ING_POOL, .ING_STATUS, .ING_WR_BYTES, .ING_RD_BYTES, .ING_BUF_HITS, .ING_NS, .CLK_PTM_CTRL, .CLK_PTM_STATUS, .POD_GLOBAL]

/-- Register kinds, part 3. -/
def RegKind.part3 : List RegKind :=
  [.POD_CMD, .POD_STATUS, .POD_TILES, .POD_SHARES, .POD_PASID, .POD_LOG_CFG, .POD_LOG_BASE, .POD_LOG_BUF, .POD_SAVE_ADDR, .POD_SAVE_LEN, .POD_DDR, .LNK_SPAN_CFG, .LNK_SPAN_STATUS, .LNK_SPAN_CTRL, .LNK_XCFG, .LNK_ROUTE, .LNK_PORT_CTRL, .LNK_PORT_STATUS, .LNK_PORT_FEC_CORR, .LNK_PORT_FEC_UNCORR, .LNK_PORT_REPLAY, .LNK_POD_SPAN, .CTL_CORE_STATUS, .CTL_SCHED_CFG, .CTL_SCHED_STATUS, .CTL_SCHED_STALL, .CTL_LOCK, .CTL_THREAD, .CTL_MBX_CMD, .CTL_MBX_RSP]

/-- Register kinds, part 4. -/
def RegKind.part4 : List RegKind :=
  [.CTL_MBX_CTRL, .PWR_STATE, .PWR_WAKE, .PWR_RESET_CAUSE, .PWR_RESET, .PWR_GOV_CFG, .PWR_GOV_STATUS, .PWR_LIMIT, .PWR_DROOP_CFG, .PWR_DROOP_EVT, .PWR_THERMAL, .PWR_STATUS, .CLK_CCLK_REQ, .CLK_CCLK_STATUS, .CLK_TIMESTAMP, .SEC_STATUS, .SEC_CTRL, .SEC_DG_CTRL, .SEC_DG_STATUS, .SEC_DG_DATA, .SEC_DG_EXPECT, .SEC_RNG, .SEC_RNG_STATUS, .SEC_PIT_SEL, .SEC_PIT_DATA, .DBG_SESAME_CTRL, .DBG_SESAME_NONCE, .DBG_SESAME_RESP, .DBG_MUX, .SHL_STATUS]

/-- Register kinds, part 5. -/
def RegKind.part5 : List RegKind :=
  [.SHL_LOG_STATE, .SHL_LOG_INDEX, .SHL_LOG_DATA, .ERR_CFG, .ERR_STATUS, .ERR_RING_BASE, .ERR_RING_CFG, .ERR_RING_PTR, .ERR_ST_CTRL, .ERR_ST_STATUS, .ERR_FENCE_TILE, .ERR_FENCE_OTHER, .ERR_RETEST, .ERR_INJ, .ERR_INJ_ADDR, .ERR_POD_RING_BASE, .ERR_POD_RING_CFG, .ERR_POD_RING_PTR, .ERR_POD_STATUS]

/-- Every register kind. -/
def RegKind.all : List RegKind :=
  RegKind.part0 ++ RegKind.part1 ++ RegKind.part2 ++ RegKind.part3 ++ RegKind.part4 ++ RegKind.part5

end Sys2Proof.Machine
end

