-- ==== Sys2Proof/Machine/Ops.lean ====
section
/-! DEFINITION. The operations every command is built from: registers (R9 to R18), memory with one
canonical form, address targets (R356), pod ranges, interrupts (R299), host translation (R294),
the dirty-page log (R350), error records and rings (R476 to R478), the event log (R453) and
counters (R479, R480). The DZ8816 has no exception entry: a failure is a status, a record and a
flag, written by the operations here. -/

namespace Sys2Proof.Machine

/-! ### Bits and bytes -/

/-- Bits [lo + width - 1 : lo] of a number (R8). -/
def bitsOf (v lo width : Nat) : Nat := (v >>> lo) % 2 ^ width

/-- `v` with bits [lo + width - 1 : lo] replaced by `x`. -/
def setBits (v lo width x : Nat) : Nat :=
  v % 2 ^ lo + (x % 2 ^ width) * 2 ^ lo + (v >>> (lo + width)) * 2 ^ (lo + width)

/-- The `n` low bytes of `v`, little-endian (R7). -/
def leBytes : Nat → Nat → List Byte
  | 0, _ => []
  | n + 1, v => BitVec.ofNat 8 v :: leBytes n (v / 256)

/-- The number a byte list spells, little-endian (R7). -/
def leNat : List Byte → Nat
  | [] => 0
  | b :: bs => b.toNat + 256 * leNat bs

/-- Bytes [off, off + n) of a list, missing bytes zero. -/
def slice (bs : List Byte) (off n : Nat) : List Byte :=
  let t := (bs.drop off).take n
  t ++ List.replicate (n - t.length) 0

/-- The little-endian number at [off, off + n). -/
def fieldAt (bs : List Byte) (off n : Nat) : Nat := leNat (slice bs off n)

/-- Every byte is zero. -/
def allZero (bs : List Byte) : Bool := bs.all (· == 0)

/-- `x` rounded up to a multiple of `m`. -/
def roundUp (x m : Nat) : Nat := (x + m - 1) / m * m

/-- One step of the reflected CRC-32C on one bit (R129). -/
def crcBit (c : Nat) : Nat := if c % 2 = 1 then (c / 2) ^^^ 0x82F63B78 else c / 2

/-- The CRC register after one byte. -/
def crcByte (c : Nat) (b : Byte) : Nat :=
  crcBit (crcBit (crcBit (crcBit (crcBit (crcBit (crcBit (crcBit (c ^^^ b.toNat))))))))

/-- CRC-32C: polynomial 0x1EDC6F41 reflected, initial value and final exclusive-or 0xFFFFFFFF
(R129). -/
def crc32c (bs : List Byte) : Nat := (bs.foldl crcByte 0xFFFFFFFF) ^^^ 0xFFFFFFFF

/-- `l` with element `i` replaced. -/
def setAt {α : Type} (l : List α) (i : Nat) (x : α) : List α := l.set i x

/-- The two's complement value of the low `w` bits. -/
def toSigned (w v : Nat) : Int :=
  let u := v % 2 ^ w
  if u < 2 ^ (w - 1) then (u : Int) else (u : Int) - (2 ^ w : Nat)

/-- The low `w` bits of an integer, two's complement. -/
def ofSigned (w : Nat) (v : Int) : Nat := (v % ((2 ^ w : Nat) : Int)).toNat

/-- Put `x` in place of the first element that meets `p`, or at the end. -/
def upsert {α : Type} (p : α → Bool) (x : α) : List α → List α
  | [] => [x]
  | y :: ys => if p y then x :: ys else y :: upsert p x ys

/-- Change every element that meets `p`. -/
def mapIf {α : Type} (p : α → Bool) (f : α → α) (l : List α) : List α :=
  l.map fun x => if p x then f x else x

/-! ### Registers -/

/-- The address of a register in PF0 BAR0 (R500). -/
def RegRef.addr (r : RegRef) : Nat :=
  let g := r.kind.geom
  g.1 + g.2.1 * r.i + g.2.2.2.1 * r.j

/-- The value after any reset that clears the register (R16, R280, R291). -/
def RegRef.reset (r : RegRef) : Nat :=
  if r.kind = .MEM_CH_SLOT then
    ((defaultTable.drop (4 * r.j)).take 4).foldr (fun e acc => e.toNat + 65536 * acc) 0
  else r.kind.fields.foldl (fun acc f => acc + f.reset * 2 ^ f.lo) 0

/-- Look an address up in a register file. -/
def regFind : List (Nat × Word) → Nat → Option Word
  | [], _ => none
  | (b, v) :: rest, a => if b = a then some v else regFind rest a

/-- Keep addresses ascending and no entry equal to its reset value. -/
def regStore (rs : List (Nat × Word)) (a : Nat) (v reset : Nat) : List (Nat × Word) :=
  rs.filter (fun x => x.1 < a) ++
    (if v % 2 ^ 64 = reset then [] else [(a, BitVec.ofNat 64 v)]) ++
    rs.filter (fun x => a < x.1)

/-- The stored value of a register. -/
def Dev.rd (d : Dev) (r : RegRef) : Nat :=
  match regFind d.regs r.addr with
  | some v => v.toNat
  | none => r.reset

/-- Store a register's value. -/
def Dev.wr (d : Dev) (r : RegRef) (v : Nat) : Dev :=
  { d with regs := regStore d.regs r.addr v r.reset }

/-- The value of a field of instance (i, j). -/
def Dev.get (d : Dev) (f : Fld) (i : Nat := 0) (j : Nat := 0) : Nat :=
  bitsOf (d.rd ⟨f.kind, i, j⟩) f.lo f.width

/-- A device with one field replaced. -/
def Dev.put (d : Dev) (f : Fld) (v : Nat) (i : Nat := 0) (j : Nat := 0) : Dev :=
  d.wr ⟨f.kind, i, j⟩ (setBits (d.rd ⟨f.kind, i, j⟩) f.lo f.width v)

/-- A field grows by `n`, wrapping in its width. -/
def Dev.addTo (d : Dev) (f : Fld) (n : Nat) (i : Nat := 0) (j : Nat := 0) : Dev :=
  d.put f (d.get f i j + n) i j

/-- Discard a staged lower half (R10). -/
def Dev.unstage (d : Dev) (a : Nat) : Dev :=
  { d with staging := d.staging.filter fun x => x.1 != a }

/-- Take a register back to its reset value. -/
def Dev.clearReg (d : Dev) (k : RegKind) (i : Nat := 0) (j : Nat := 0) : Dev :=
  d.wr ⟨k, i, j⟩ (RegRef.reset ⟨k, i, j⟩)

/-- A reset clears the register: a staged lower half is discarded with it (R10, R16). -/
def Dev.resetReg (d : Dev) (k : RegKind) (i : Nat := 0) (j : Nat := 0) : Dev :=
  (d.clearReg k i j).unstage (RegRef.addr ⟨k, i, j⟩)

/-- What a write leaves in one field (R13): `new` is the whole written value. -/
def fieldAfter (f : Fld) (old new : Nat) (locked : Bool) : Nat :=
  let o := bitsOf old f.lo f.width
  let n := bitsOf new f.lo f.width
  match f.acc with
  | .ro => o
  | .wo => o
  | .w1c => o &&& (o ^^^ n)
  | .rw => if f.least ≤ n ∧ n ≤ f.most then n else o
  | .rws => if f.least ≤ n ∧ n ≤ f.most then n else o
  | .rwl => if locked then o else if f.least ≤ n ∧ n ≤ f.most then n else o

/-- What a 64-bit write leaves in a register, by the access codes of its fields (R13, R14).
`keepLow`: an upper-half write with no staged lower half leaves bits [31:0] (R10). -/
def regAfter (fields : List Fld) (old new : Nat) (locked keepLow : Bool) : Nat :=
  let new := if keepLow then setBits new 0 32 (bitsOf old 0 32) else new
  fields.foldl (fun v f =>
    if keepLow && decide (f.lo + f.width ≤ 32) then v else
    setBits v f.lo f.width (fieldAfter f old new locked)) old

/-- The device timestamp in ns (R428). -/
def Dev.now (d : Dev) : Nat := d.get F.CLK_TIMESTAMP_NS

/-- The next free value (log entry 1). -/
def Dev.takeFree (d : Dev) : Word × Dev :=
  (Config.freeWord d.fresh, { d with fresh := d.fresh + 1 })

/-- An injection of this target and index is armed (R482). -/
def Dev.armed (d : Dev) (target index : Nat) : Bool :=
  d.get F.ERR_INJ_ARMED == 1 && d.errs.inj.target == target && d.errs.inj.index == index

/-- The armed injection fires. -/
def Dev.fire (d : Dev) : Dev := (d.put F.ERR_INJ_ARMED 0).put F.ERR_INJ_FIRED 1

/-- It fires when it is armed for this event. -/
def Dev.fireIf (d : Dev) (b : Bool) : Dev := if b then d.fire else d

/-- The peer a message goes to, and the producer instance number of an exchange message (R368). -/
def Out.peer (self : Nat) : Out → Option (Nat × Option Nat)
  | .span k _ _ => some (k, none)
  | .xfer k kind body =>
    if k = self then none else some (k, some (body.getD (if [1, 4, 5].contains kind then 4 else 5) 0))
  | .coh x _ _ _ _ _ => if 17 ≤ x ∧ x < 24 then some ((self + x - 16) % 8, none) else none
  | _ => none

/-- The ports a message to peer `k` may leave on (R368); before routes are computed, the ports to that
neighbour, or else every ACTIVE port (log entry 50). -/
def Dev.portsTo (d : Dev) (k : Nat) : List Nat :=
  let up := (List.range 4).filter fun p => d.get F.LNK_PORT_STATUS_STATE p == 4
  let routed := up.filter fun p => (d.get F.LNK_ROUTE_PORTS k).testBit p
  let near := up.filter fun p => d.get F.LNK_PORT_STATUS_NBR_NO p == k
  if !routed.isEmpty then routed else if !near.isEmpty then near else up

/-- A port sends a flit and keeps it until it is acknowledged (R363). -/
def Dev.sendFlit (d : Dev) (p : Nat) : Dev :=
  { d.fireIf (d.armed 10 p) with ports := d.ports.modify p fun (x : Port) =>
      { x with txSeq := (x.txSeq + 1) % 4096, replay := x.replay ++ [x.txSeq] } }

/-- The header slot of a message between span members (R370). ADDR is the line number A[51:6]. -/
structure DzHeader where
  group : Nat
  addr : Nat
  txn : Nat
  poison : Nat
  len : Nat
  opc : Nat
  src : Nat
  dst : Nat
  hop : Nat
  body : Nat
  deriving DecidableEq, Repr

/-- The 256 bits of a header. -/
def DzHeader.slot (h : DzHeader) : Nat :=
  let v := setBits (setBits (setBits 0 200 16 h.group) 154 46 h.addr) 138 16 h.txn
  let v := setBits (setBits (setBits v 136 2 h.poison) 128 8 h.len) 120 8 h.opc
  setBits (setBits (setBits (setBits v 116 4 h.src) 112 4 h.dst) 110 2 h.hop) 0 110 h.body

/-- The header in 256 bits. -/
def DzHeader.ofSlot (v : Nat) : DzHeader :=
  { group := bitsOf v 200 16, addr := bitsOf v 154 46, txn := bitsOf v 138 16, poison := bitsOf v 136 2,
    len := bitsOf v 128 8, opc := bitsOf v 120 8, src := bitsOf v 116 4, dst := bitsOf v 112 4,
    hop := bitsOf v 110 2, body := bitsOf v 0 110 }

/-- POISON of a header (R370). -/
def poisonCode (p : Poison) : Nat :=
  match p with
  | .clean => 0
  | .ue => 1
  | .lost => 2

/-- Lines of data that a coherent message of a kind carries (R371). -/
def cohLines (kind lines : Nat) : Nat :=
  if kind = 8 then lines else if [4, 5, 11, 24, 25, 27, 28].contains kind then 1 else 0

/-- The span group that a control message names first in its body: JOIN, PIPE_DONE and ABORT (R374, R375). -/
def ctlGroup (opc : Nat) (body : List Nat) : Nat := if 0x48 ≤ opc then body.headD 0 else 0

/-- The header of a message that member `src` sends to member `dst`, on the first link of its path (R362, R370). A
line of data takes two slots of 32 bytes (R361). -/
def Out.head (o : Out) (src dst tag : Nat) : DzHeader :=
  let h : DzHeader := { group := 0, addr := 0, txn := tag % 2 ^ 16, poison := 0, len := 1, opc := 0, src := src, dst := dst,
                        hop := 1, body := 0 }
  match o with
  | .coh _ kind addr group p lines =>
    { h with group := group, addr := addr / 64, poison := poisonCode p, len := 1 + 2 * cohLines kind lines,
             opc := Config.messageCode 0 kind, body := Config.messageBody kind [lines] }
  | .span _ opc body =>
    { h with group := ctlGroup opc body, len := 1 + Config.messageSlots opc body % 64, opc := opc,
             body := if opc = 0x43 then body.getD 1 0 else Config.messageBody opc body }
  | .xfer _ kind body =>
    { h with group := body.headD 0,
             len := 1 + Config.messageSlots (256 + kind) body % (if kind = 4 ∨ kind = 5 then 255 else 64),
             opc := Config.messageCode 1 kind, body := Config.messageBody (256 + kind) body }
  | _ => h

/-- The class of a message to a peer (R362): COH, NC, XD for packets and END, XC for the other exchange messages. -/
def Out.linkClass : Out → Nat
  | .coh _ _ _ _ _ _ => 0
  | .xfer _ kind _ => if kind = 4 ∨ kind = 5 then 2 else 3
  | _ => 1

/-- Where a port counts the credits of a message on the first link of its path (R362). -/
def Out.creditAt (o : Out) : Nat := 3 * o.linkClass

/-- LEN of a header slot. -/
def slotLen (slot : Nat) : Nat := (DzHeader.ofSlot slot).len

/-- A port can send a message: no earlier one of its class waits, its class has the credits, and fewer than 256 flits
are unacknowledged (R362, R363). -/
def Port.canSend (p : Port) (o : Out) (slot : Nat) : Bool :=
  !(p.waiting.any fun w => w.1.linkClass == o.linkClass) && decide (slotLen slot ≤ p.credits.getD o.creditAt 0) &&
    decide (p.replay.length < 256)

/-- A message and its header leave on a port, which spends the credits. -/
def Dev.launch (d : Dev) (p : Nat) (o : Out) (slot : Nat) : Dev :=
  Dev.sendFlit { d with
    out := .header p slot :: o :: d.out
    ports := d.ports.modify p fun (x : Port) => { x with credits := x.credits.modify o.creditAt (· - slotLen slot) } } p

/-- A message goes to a port: it leaves, or waits there. -/
def Dev.postMsg (d : Dev) (p : Nat) (o : Out) (slot : Nat) : Dev :=
  if (d.ports.getD p Port.reset).canSend o slot then d.launch p o slot
  else { d with ports := d.ports.modify p fun (x : Port) => { x with waiting := x.waiting ++ [(o, slot)] } }

/-- What waits at an ACTIVE port leaves as far as it can, each class in order. -/
def Dev.sendWaiting (d : Dev) (p : Nat) : Dev :=
  if d.get F.LNK_PORT_STATUS_STATE p = 4 then
    (d.ports.getD p Port.reset).waiting.foldl (fun (d : Dev) w => d.postMsg p w.1 w.2)
      { d with ports := d.ports.modify p fun (x : Port) => { x with waiting := [] } }
  else d

/-- Something leaves the device; a message to a peer goes to a port with its header and takes one flit (log entry
50). -/
def Dev.emit (d : Dev) (o : Out) : Dev :=
  let self := d.get F.LNK_SPAN_CFG_SPAN_NO
  match o.peer self with
  | none => { d with out := o :: d.out }
  | some w =>
    let ps := d.portsTo w.1
    match ps[(w.2.getD 0) % ps.length]? with
    | some p =>
      Dev.postMsg { d with msgTag := d.msgTag + 1 } p o (o.head self w.1 (Config.messageTag d.msgTag)).slot
    | none => { d with out := o :: d.out }

/-! ### Memory -/

/-- One byte; an address not listed reads zero (R258). -/
def cellGet : List Host.Cell → Nat → Byte
  | [], _ => 0
  | (b, v) :: rest, a => if b = a then v else cellGet rest a

/-- The canonical form: addresses strictly rising, no zero byte listed. -/
def Mem.wf : List Host.Cell → Bool
  | [] => true
  | [(_, v)] => v != 0
  | (a, v) :: (b, w) :: rest => decide (a < b) && v != 0 && Mem.wf ((b, w) :: rest)

/-- The listed cells of a run of bytes from `a`. -/
def cellsOf : Nat → List Byte → List Host.Cell
  | _, [] => []
  | a, b :: bs => if b = 0 then cellsOf (a + 1) bs else (a, b) :: cellsOf (a + 1) bs

/-- Read `n` bytes from `a`. -/
def memRead (m : List Host.Cell) (a n : Nat) : List Byte :=
  (List.range n).map fun i => cellGet m (a + i)

/-- Write bytes from `a`; the canonical form is kept. -/
def memWrite (m : List Host.Cell) (a : Nat) (bs : List Byte) : List Host.Cell :=
  m.filter (fun x => x.1 < a) ++ cellsOf a bs ++ m.filter (fun x => a + bs.length ≤ x.1)

/-- Zero a range. -/
def memZero (m : List Host.Cell) (a n : Nat) : List Host.Cell :=
  m.filter (fun x => x.1 < a || decide (a + n ≤ x.1))

/-- Device memory at offset `a` (the coherent view). -/
def Dev.ld (d : Dev) (a n : Nat) : List Byte := memRead d.mem a n

/-- The line an address lies in. -/
def lineOf (a : Nat) : Nat := a / 64 * 64

/-- The poison mark of the line of an address (R266). -/
def Dev.poisonAt (d : Dev) (a : Nat) : Poison :=
  match d.poison.find? (fun x => x.1 == lineOf a) with
  | some x => x.2
  | none => .clean

/-- Mark or clear a line. -/
def Dev.setPoison (d : Dev) (a : Nat) (p : Poison) : Dev :=
  let rest := d.poison.filter (fun x => x.1 != lineOf a)
  { d with poison := if p = .clean then rest else (lineOf a, p) :: rest }

/-- The poison met by a read of [a, a + n): the first marked line's kind. -/
def Dev.poisonIn (d : Dev) (a n : Nat) : Poison :=
  match d.poison.find? (fun x => decide (lineOf a ≤ x.1 ∧ x.1 < a + n ∧ 0 < n)) with
  | some x => x.2
  | none => .clean

/-- Write the bytes that fall in one line. A whole line clears its poison; a part of a poisoned
line is discarded (R266). -/
def Dev.stLine (d : Dev) (a : Nat) (bs : List Byte) : Dev :=
  if bs.length = 64 then
    { (d.setPoison a .clean) with mem := memWrite d.mem a bs }
  else if d.poisonAt a = .clean then { d with mem := memWrite d.mem a bs }
  else d

/-- Write bytes line by line, with `fuel` lines. -/
def Dev.stLines (d : Dev) (a : Nat) (bs : List Byte) : Nat → Dev
  | 0 => d
  | fuel + 1 =>
    if bs.isEmpty then d else
      let k := 64 - a % 64
      (d.stLine a (bs.take k)).stLines (a + k) (bs.drop k) fuel

/-- Write bytes to device memory at offset `a`. -/
def Dev.st (d : Dev) (a : Nat) (bs : List Byte) : Dev :=
  if d.poison.isEmpty then { d with mem := memWrite d.mem a bs }
  else d.stLines a bs (bs.length / 64 + 2)

/-! ### Address targets and pods -/

/-- Where a 52-bit device physical address lies (R356). -/
inductive Target where
  | home (off : Nat)
  | peer (span off : Nat)
  | host (addr : Nat)
  | nowhere
  deriving DecidableEq, Repr

/-- Capacity in bytes: the installed capacity once training has made it available (R259, R291). -/
def Dev.capacity (d : Dev) : Nat :=
  if d.get F.MEM_TRAIN_STATE = 3 then d.get F.MEM_CFG_CAP_GIB * 2 ^ 30 else 0

/-- The target of an address, with the own span window in local form (R356). -/
def Dev.target (d : Dev) (a : Nat) : Target :=
  let sel := bitsOf a 44 8
  let off := bitsOf a 0 44
  if 2 ^ 52 ≤ a then .nowhere
  else if sel = 0 then (if off < d.capacity then .home off else .nowhere)
  else if 0x10 ≤ sel ∧ sel < 0x18 then
    (if sel - 0x10 = d.get F.LNK_SPAN_CFG_SPAN_NO then
      (if off < d.capacity then .home off else .nowhere)
    else if (d.get F.LNK_SPAN_STATUS_LIVE).testBit (sel - 0x10) then .peer (sel - 0x10) off
    else .nowhere)
  else if 0x80 ≤ sel then .host (bitsOf a 0 51)
  else .nowhere

/-- The local form of an address (R356). -/
def Dev.localForm (d : Dev) (a : Nat) : Nat :=
  match d.target a with
  | .home off => off
  | _ => a

/-- Range `j` of pod `p` holds granule `g` (R339, R354). -/
def Dev.rangeHas (d : Dev) (p g j : Nat) : Bool :=
  d.get F.POD_DDR_VALID p j == 1 &&
    decide (d.get F.POD_DDR_BASE_GIB p j ≤ g ∧
      g < d.get F.POD_DDR_BASE_GIB p j + d.get F.POD_DDR_COUNT_GIB p j)

/-- Pod `p` owns granule `g`. -/
def Dev.granuleOf (d : Dev) (p g : Nat) : Bool := (List.range 8).any fun j => d.rangeHas p g j

/-- [a, a + n) lies wholly inside the DDR5 ranges of pod `p` (R352). -/
def Dev.inPod (d : Dev) (p a n : Nat) : Bool :=
  match d.target a with
  | .home off =>
    (List.range ((off + (max n 1) - 1) / 2 ^ 30 - off / 2 ^ 30 + 1)).all fun k =>
      d.granuleOf p (off / 2 ^ 30 + k)
  | _ => false

/-- [a, a + n) lies in granules that belong to no pod (R348, R351, R478). -/
def Dev.inNoPod (d : Dev) (a n : Nat) : Bool :=
  decide (a + n ≤ d.capacity) &&
  (List.range ((a + (max n 1) - 1) / 2 ^ 30 - a / 2 ^ 30 + 1)).all fun k =>
    (List.range 64).all fun p => d.get F.POD_STATUS_STATE p == 0 || !d.granuleOf p (a / 2 ^ 30 + k)

/-- The pod that owns the granule of a device offset, if any. -/
def Dev.podOfAddr (d : Dev) (a : Nat) : Option Nat :=
  (List.range 64).find? fun p => d.get F.POD_STATUS_STATE p != 0 && d.granuleOf p (a / 2 ^ 30)

/-- The state code of a pod (R342). -/
def Dev.podState (d : Dev) (p : Nat) : Nat := d.get F.POD_STATUS_STATE p

/-- Tile `t` belongs to pod `p`. -/
def Dev.podTile (d : Dev) (p t : Nat) : Bool := (d.get F.POD_TILES_MASK p).testBit t

/-- The pod that owns a tile. -/
def Dev.podOfTile (d : Dev) (t : Nat) : Option Nat :=
  (List.range 64).find? fun p => d.podState p != 0 && d.podTile p t

/-- The pod's own instances, in ascending order: rings and DMA channels (R353). -/
def Dev.podRings (d : Dev) (p : Nat) : List Nat :=
  (List.range 1024).filter fun n =>
    d.get F.RNG_OWNER_ASSIGNED n == 1 && d.get F.RNG_OWNER_POD n == p

/-- The pod's DMA channels. -/
def Dev.podChans (d : Dev) (p : Nat) : List Nat :=
  (List.range 32).filter fun n =>
    d.get F.DMA_CH_OWNER_ASSIGNED n == 1 && d.get F.DMA_CH_OWNER_POD n == p

/-- The pod's tiles. -/
def Dev.podTiles (d : Dev) (p : Nat) : List Nat := (List.range 64).filter fun t => d.podTile p t

/-- Whole-device mode (R341). -/
def Dev.whole (d : Dev) : Bool :=
  (List.range 64).any fun p => d.podState p != 0 && d.get F.POD_TILES_MASK p == 2 ^ 64 - 1

/-! ### Host memory -/

/-- The model's key of a host address: the PASID, 0 for none, above the address. -/
def hostKey (pasid a : Nat) : Nat := pasid * 2 ^ 64 + a

/-- The key space of host memory reached through CXL.cache by physical address (R356). -/
def cxlSpace : Nat := 2 ^ 20

/-- Bytes at an address of any target. -/
def Dev.anyRead (d : Dev) (a n : Nat) : List Byte :=
  match d.target a with
  | .home off => d.ld off n
  | .peer k off => memRead d.peerMem ((0x10 + k) * 2 ^ 44 + off) n
  | .host h => memRead d.hmem (hostKey cxlSpace h) n
  | .nowhere => List.replicate n 0

/-- Write bytes at an address of any target. -/
def Dev.anyWrite (d : Dev) (a : Nat) (bs : List Byte) : Dev :=
  match d.target a with
  | .home off => d.st off bs
  | .peer k off => { d with peerMem := memWrite d.peerMem ((0x10 + k) * 2 ^ 44 + off) bs }
  | .host h => { d with hmem := memWrite d.hmem (hostKey cxlSpace h) bs }
  | .nowhere => d

/-- The poison that a read of device memory meets. -/
def Dev.anyPoison (d : Dev) (a n : Nat) : Poison :=
  match d.target a with
  | .home off => d.poisonIn off n
  | .peer _ _ => .clean
  | .host _ => .clean
  | .nowhere => .clean

/-- What a translation gives (R294). -/
inductive Xlate where
  | ok
  | wait
  | fault
  deriving DecidableEq, Repr

/-- Every page of [a, a + n). -/
def pagesOf (a n : Nat) : List Nat :=
  (List.range ((a + (max n 1) - 1) / 4096 - a / 4096 + 1)).map fun k => a / 4096 + k

/-- The host has withdrawn the translation of a page. -/
def Dev.withdrawn (d : Dev) (pasid g : Nat) : Bool :=
  d.host.unmapped.any fun u => u.1 == pasid && decide (u.2.1 ≤ g ∧ g < u.2.1 + u.2.2)

/-- Translate a host range under a PASID (R294): a page the host has unmapped needs a page
request; one whose request failed faults. -/
def Dev.xlate (d : Dev) (pasid a n : Nat) : Xlate :=
  if !d.host.up then .fault
  else if (pagesOf a n).any fun g => d.host.failed.contains (pasid, g) then .fault
  else if (pagesOf a n).any fun g => d.withdrawn pasid g then .wait
  else .ok

/-- Remember translations in the cache of 4,096 entries (R293). -/
def Dev.cacheXlate (d : Dev) (pasid a n : Nat) : Dev :=
  { d with host := { d.host with
      ats := (((pagesOf a n).map fun g => (pasid, g)) ++
        d.host.ats.filter fun x => !((pagesOf a n).map fun g => (pasid, g)).contains x).take 4096 } }

/-- Ask the host for a page (R293, R294): one request for each page and waiter, at most 512. -/
def Dev.askPage (d : Dev) (pasid a n : Nat) (w : Waiter) : Dev :=
  let want := (pagesOf a n).filter fun g => d.withdrawn pasid g
  { d with host := { d.host with pageReqs := want.foldl (fun l g =>
      let q : PageReq := ⟨pasid, g, w⟩
      if l.contains q || decide (512 ≤ l.length) then l else l ++ [q]) d.host.pageReqs } }

/-- A failed translation is reported once to its requester (R294). -/
def Dev.forgetFault (d : Dev) (pasid a n : Nat) : Dev :=
  { d with host := { d.host with
      failed := d.host.failed.filter fun x => !((pagesOf a n).map fun g => (pasid, g)).contains x } }

/-- The failed translations of several runs of addresses are reported once. -/
def Dev.forgetRuns (d : Dev) (pasid : Nat) (l : List (Nat × Nat)) : Dev :=
  l.foldl (fun (d : Dev) x => d.forgetFault pasid x.1 x.2) d

/-- The translations of several runs enter the cache (R293). -/
def Dev.cacheRuns (d : Dev) (pasid : Nat) (l : List (Nat × Nat)) : Dev :=
  l.foldl (fun (d : Dev) x => d.cacheXlate pasid x.1 x.2) d

/-- Read host memory. -/
def Dev.hld (d : Dev) (pasid a n : Nat) : List Byte := memRead d.hmem (hostKey pasid a) n

/-- The pod under a PASID. -/
def Dev.podOfPasid (d : Dev) (pasid : Nat) : Option Nat :=
  (List.range 64).find? fun p => d.podState p != 0 && d.get F.POD_PASID_PASID p == pasid

/-- Record a written host page in the pod's dirty-page log (R350, R351). -/
def Dev.logPage (d : Dev) (p page : Nat) : Dev :=
  if d.get F.POD_LOG_CFG_EN p = 0 then d else
  let base := d.get F.POD_LOG_BASE_ADDR p
  let span := 2 ^ (d.get F.POD_LOG_CFG_SPAN_LOG2 p - 12)
  if base ≤ page ∧ page < base + span then
    let buf := d.get F.POD_LOG_BUF_ADDR p (d.get F.POD_LOG_CFG_SEL p) * 4096
    let i := page - base
    let a := buf + i / 8
    { d with mem := memWrite d.mem a [cellGet d.mem a ||| BitVec.ofNat 8 (2 ^ (i % 8))] }
  else d.put F.POD_LOG_CFG_OUTSIDE 1 p

/-- Write host memory under a pod's PASID, with its dirty-page log. -/
def Dev.hst (d : Dev) (pasid a : Nat) (bs : List Byte) : Dev :=
  let d := { d with hmem := memWrite d.hmem (hostKey pasid a) bs }
  match d.podOfPasid pasid with
  | some p => (pagesOf a bs.length).foldl (fun d g => d.logPage p g) d
  | none => d

/-! ### Interrupts, the event log and error records -/

/-- Send a vector, or set its pending bit while it is masked (R299). -/
def Dev.sendVec (d : Dev) (pf1 : Bool) (v : Nat) : Dev :=
  if d.host.unmasked.contains (pf1, v) then d.emit (.irq pf1 v)
  else if d.host.pending.contains (pf1, v) then d
  else { d with host := { d.host with pending := (pf1, v) :: d.host.pending } }

/-- A 16-bit error counter saturates at 0xFFFF (R480). -/
def Dev.bump16 (d : Dev) (f : Fld) (i : Nat := 0) (j : Nat := 0) : Dev :=
  d.put f (min (d.get f i j + 1) 0xFFFF) i j

/-- Every clock but the Shell's stands still: in S2, in the exit from it, with VAUX off and after a thermal
trip or a loss of SYS_PWROK (R412, R418, R491). -/
def Dev.halted (d : Dev) : Bool := d.pw.clocksStopped || d.pw.off

/-- The time of an event-log entry: Shell time while the timestamp does not run (R453). -/
def Dev.logTime (d : Dev) : Nat := if d.halted then d.shell.ns else d.now

/-- Entries the log wrote in the current second (R453). -/
def Dev.logRate (d : Dev) : Nat :=
  (d.shell.log.filter fun e => fieldAt e.bytes 8 8 / 10 ^ 9 == d.logTime / 10 ^ 9).length

/-- The 128 bytes of an event-log entry (R453). -/
def logBytes (seq kind sev code ts cycle : Nat) (data record : List Byte) : List Byte :=
  let head := leBytes 4 seq ++ leBytes 1 kind ++ leBytes 1 sev ++ leBytes 2 code ++ leBytes 8 ts ++
    leBytes 4 cycle ++ slice data 0 40
  let rec_ := slice record 0 64
  head ++ leBytes 4 (crc32c (head ++ rec_)) ++ rec_

/-- Append to the event log: 32,768 entries, the oldest sector of 32 erased before reuse; at most
1,000 a second (R453). -/
def Dev.logEvent (d : Dev) (kind sev code : Nat) (data record : List Byte) : Dev :=
  if 1000 ≤ d.logRate then d.bump16 F.SHL_LOG_STATE_DROPPED else
  let seq := d.shell.logSeq
  let e : LogEntry := ⟨seq, logBytes seq kind sev code d.logTime d.shell.powerCycle data record⟩
  let kept := if seq % 32 = 0 then d.shell.log.filter fun x => decide (seq < x.seq + 32768 - 31)
    else d.shell.log
  ({ d with shell := { d.shell with log := e :: kept, logSeq := seq + 1 } }).put
    F.SHL_LOG_STATE_HEAD_SEQ seq

/-- An engine is enabled and not fenced (R163, R164). -/
def Dev.engineOn (d : Dev) (e : Nat) : Bool :=
  (d.get F.CMP_CTRL_ENG_EN).testBit e && d.get F.CMP_ENG_STATUS_FENCED e == 0

/-- Every engine is disabled or fenced: the stage that waits for a job stalls (R164). -/
def Dev.enginesOff (d : Dev) : Bool := (List.range 8).all fun e => !d.engineOn e

/-- What an error record says beyond its class (R476); every default is the field's "none". -/
structure ErrInfo where
  cls : Nat
  pod : Option Nat := none
  srcKind : Nat := 0
  source : Nat := 0
  tile : Nat := 0xFF
  status : Nat := 0
  run : Bool := false
  ring : Nat := 0xFFFF
  index : Nat := 0
  pipe : Nat := 0xFF
  stage : Nat := 0xFF
  handle : Nat := 0
  tag : Nat := 0
  addr : Nat := 0
  info : Nat := 0
  toolkit : Nat := 0
  fence : Bool := false
  injected : Bool := false
  fatal : Bool := false
  managerOnly : Bool := false
  /-- A corrected error of a class that R470 does not list (R209). -/
  corrected : Bool := false
  deriving DecidableEq, Repr

/-- Severity of a class (R470); 3 where a row says so for the case at hand. -/
def severity (e : ErrInfo) : Nat :=
  if e.fatal then 3
  else if e.corrected || [0x01, 0x07, 0x0A, 0x0D, 0x14, 0x1C].contains e.cls then 1
  else if [0x06, 0x17, 0x18, 0x19, 0x1D].contains e.cls then 0
  else 2

/-- The 64 bytes of a record (R476). -/
def recordBytes (e : ErrInfo) (seq ts : Nat) (lost : Bool) : List Byte :=
  let flags := e.injected.toNat + 2 * e.fence.toNat + 4 * e.run.toNat + 8 * lost.toNat
  leBytes 4 seq ++ leBytes 1 e.cls ++ leBytes 1 (severity e) ++ leBytes 1 flags ++
    leBytes 1 (e.pod.getD 0xFF) ++ leBytes 8 ts ++ leBytes 1 e.srcKind ++ leBytes 1 e.tile ++
    leBytes 2 e.source ++ leBytes 2 e.status ++ leBytes 2 e.ring ++ leBytes 2 e.index ++
    leBytes 1 e.pipe ++ leBytes 1 e.stage ++ leBytes 4 e.handle ++ leBytes 8 e.tag ++
    leBytes 8 e.addr ++ leBytes 8 e.info ++ leBytes 8 e.toolkit

/-- Send a ring's vector with holdoff of so many µs (R309, R478). Ring numbers 1024 and 1025 + p
stand for the manager's and pod p's error ring in `host.holdoff`. -/
def Dev.ringVec (d : Dev) (id vec holdoff : Nat) : Dev :=
  if d.host.holdoff.any (fun h => h.1 == id) then
    let l := mapIf (fun h => h.1 == id) (fun h => (h.1, true, h.2.2)) d.host.holdoff
    { d with host := { d.host with holdoff := l } }
  else
    let d := d.sendVec false vec
    if holdoff = 0 then d
    else { d with host := { d.host with holdoff := (id, false, d.now + 1000 * holdoff) :: d.host.holdoff } }

/-- A record that its ring cannot take is dropped: the next one carries FLAGS.LOST (R478). -/
def Dev.markLost (d : Dev) (who : Option Nat) : Dev :=
  if d.errs.lost.contains who then d
  else { d with errs := { d.errs with lost := who :: d.errs.lost } }

/-- A record was written: FLAGS.LOST has been delivered. -/
def Dev.clearLost (d : Dev) (who : Option Nat) : Dev :=
  { d with errs := { d.errs with lost := d.errs.lost.filter (· != who) } }

/-- A record cannot be stored at `a` of an error ring: no translation, or a poisoned line
(log entry 15: an unmapped page counts as failed at once). -/
def Dev.recordBlocked (d : Dev) (host : Bool) (pasid a : Nat) : Bool :=
  if host then d.xlate pasid a 64 != .ok else d.poisonAt a != .clean && a % 64 != 0

/-- Store a record in host or device memory. -/
def Dev.recordStore (d : Dev) (host : Bool) (pasid a : Nat) (bs : List Byte) : Dev :=
  if host then d.hst pasid a bs else d.st a bs

/-- The manager's ring drops a record. -/
def Dev.managerDrop (d : Dev) : Dev := (d.bump16 F.ERR_STATUS_DROPPED).markLost none

/-- Write a record to the manager's error ring (R478). -/
def Dev.managerRecord (d : Dev) (e : ErrInfo) (seq : Nat) : Dev :=
  let k := d.get F.ERR_RING_CFG_SIZE_LOG2
  let tail := d.get F.ERR_RING_PTR_TAIL
  let full := (tail + 1) % 2 ^ k == d.get F.ERR_RING_PTR_HEAD % 2 ^ k
  if d.get F.ERR_RING_CFG_EN == 0 || full then d.managerDrop
  else
    let a := d.get F.ERR_RING_BASE_ADDR * 4096 + 64 * tail
    let host := d.get F.ERR_RING_BASE_HOST == 1
    if d.recordBlocked host 0 a then
      ((d.put F.ERR_RING_CFG_EN 0).managerDrop).logEvent 1 0 0x18 []
        (recordBytes { cls := 0x18, addr := a } seq d.now false)
    else
      let d := d.recordStore host 0 a (recordBytes e seq d.now (d.errs.lost.contains none))
      ((d.clearLost none).put F.ERR_RING_PTR_TAIL ((tail + 1) % 2 ^ k)).ringVec 1024
        (d.get F.ERR_RING_CFG_VEC) (d.get F.ERR_RING_CFG_HOLDOFF_US)

/-- Take the next record number: it wraps and skips 0 (R476). -/
def Dev.nextSeq (d : Dev) : Nat × Dev :=
  let n := (d.errs.seq + 1) % 2 ^ 32
  let n := if n = 0 then 1 else n
  (n, { d with errs := { d.errs with seq := n } })

/-- Write a numbered record to the manager's ring, the event log and LAST_SEQ (R477). -/
def Dev.recordManager (d : Dev) (e : ErrInfo) (seq : Nat) : Dev :=
  let d := (d.managerRecord e seq).put F.ERR_STATUS_LAST_SEQ seq
  let d := if severity e = 3 then d.put F.ERR_STATUS_FATAL 1 else d
  if 2 ≤ severity e ∨ (severity e = 1 ∧ d.get F.ERR_CFG_LOG_CE = 1) then
    d.logEvent 1 (severity e) e.cls [] (recordBytes e seq d.now false)
  else d

/-- A record that goes to the manager's ring only (R477, R478). -/
def Dev.reportManager (d : Dev) (e : ErrInfo) : Dev :=
  let (n, d) := d.nextSeq
  d.recordManager { e with managerOnly := true } n

/-- Pod `p`'s ring drops a record. -/
def Dev.podDrop (d : Dev) (p : Nat) : Dev := (d.bump16 F.ERR_POD_STATUS_DROPPED p).markLost (some p)

/-- Announce a record in pod `p`'s error ring (R299, R478). -/
def Dev.podRecordVec (d : Dev) (p : Nat) : Dev :=
  let vec := d.get F.ERR_POD_RING_CFG_VEC p
  if vec < d.get F.POD_SHARES_VEC_COUNT p then
    d.ringVec (1025 + p) (d.get F.POD_SHARES_VEC_BASE p + vec)
      (d.get F.ERR_POD_RING_CFG_HOLDOFF_US p)
  else d.reportManager { cls := 0x18, pod := some p }

/-- Write a record to a pod's error ring (R478). -/
def Dev.podRecord (d : Dev) (p : Nat) (e : ErrInfo) (seq : Nat) : Dev :=
  let k := d.get F.ERR_POD_RING_CFG_SIZE_LOG2 p
  let tail := d.get F.ERR_POD_RING_PTR_TAIL p
  let d := d.put F.ERR_POD_STATUS_LAST_SEQ seq p
  let full := (tail + 1) % 2 ^ k == d.get F.ERR_POD_RING_PTR_HEAD p % 2 ^ k
  if d.get F.ERR_POD_RING_CFG_EN p == 0 || full then d.podDrop p
  else
    let a := d.get F.ERR_POD_RING_BASE_ADDR p * 4096 + 64 * tail
    let pasid := d.get F.POD_PASID_PASID p
    let host := d.get F.ERR_POD_RING_BASE_HOST p == 1
    if d.recordBlocked host pasid a then
      ((d.put F.ERR_POD_RING_CFG_EN 0 p).podDrop p).reportManager
        { cls := 0x18, pod := some p, addr := a }
    else
      let d := d.recordStore host pasid a (recordBytes e seq d.now (d.errs.lost.contains (some p)))
      ((d.clearLost (some p)).put F.ERR_POD_RING_PTR_TAIL ((tail + 1) % 2 ^ k) p).podRecordVec p

/-- A corrected class, recorded at most once a second for each source (R477). -/
def ErrInfo.limited (e : ErrInfo) : Bool := [0x01, 0x07, 0x0A, 0x0D].contains e.cls

/-- The source of a record, as one number. -/
def ErrInfo.sourceKey (e : ErrInfo) : Nat := e.srcKind * 65536 + e.source

/-- An error of this class and source was recorded within the last second, so that no record is written. -/
def Dev.reportHeld (d : Dev) (e : ErrInfo) : Bool :=
  e.limited && d.errs.recent.any fun r =>
    r.1 == e.cls && r.2.1 == e.sourceKey && decide (d.now < r.2.2 + 10 ^ 9)

/-- The number that the record of an error will carry, 0 when none is written. -/
def Dev.reportSeq (d : Dev) (e : ErrInfo) : Nat := if d.reportHeld e then 0 else d.nextSeq.1

/-- Report an error (R470, R476, R477): the corrected classes at most once a second for each
source, every record to the manager's ring, one with a pod also to the pod's. -/
def Dev.report (d : Dev) (e : ErrInfo) : Dev :=
  if d.reportHeld e then d
  else
    let d := if e.limited then { d with errs := { d.errs with
        recent := upsert (fun r => r.1 == e.cls && r.2.1 == e.sourceKey) (e.cls, e.sourceKey, d.now)
          d.errs.recent } } else d
    let (n, d) := d.nextSeq
    let d := d.recordManager e n
    match e.pod with
    | some p => d.podRecord p e n
    | none => d

/-- A register-access error at an address, concerning a pod when a pod's window was used (R12, R15,
R476; log entry 54). -/
def Dev.regError (d : Dev) (a : Nat) (pod : Option Nat := none) : Dev :=
  d.report { cls := 0x17, addr := a, pod := pod }

/-- An access-violation error against a pod (R18). -/
def Dev.violation (d : Dev) (p a : Nat) : Dev := d.report { cls := 0x18, pod := some p, addr := a }

/-- Interrupt a pod by vector index; an index beyond its vectors sends nothing and records a
violation (R299). -/
def Dev.podVec (d : Dev) (p idx : Nat) : Dev :=
  if idx < d.get F.POD_SHARES_VEC_COUNT p then d.sendVec false (d.get F.POD_SHARES_VEC_BASE p + idx)
  else d.violation p 0

/-- A 48-bit counter grows by `n`: it saturates, and OVF going from 0 to 1 writes a COUNTER_SAT
record when SAT_REC is set (R479). -/
def Dev.count (d : Dev) (k : RegKind) (n : Nat) (i : Nat := 0) (j : Nat := 0) : Dev :=
  let r : RegRef := ⟨k, i, j⟩
  let v := d.rd r
  let c := bitsOf v 0 48
  if c + n < 2 ^ 48 then d.wr r (setBits v 0 48 (c + n))
  else
    let d' := d.wr r (setBits (setBits v 0 48 (2 ^ 48 - 1)) 63 1 1)
    if v.testBit 63 = false ∧ d.get F.ERR_CFG_SAT_REC = 1 then d'.report { cls := 0x1D, addr := r.addr }
    else d'

/-! ### Answers -/

/-- A command that the device takes whatever its clocks do. -/
def State.always (s : State) (f : Dev → Dev) : Host.Outcome State Fault Refusal :=
  .next { s with dev := f s.dev }

/-- A command that changes the device and completes; it changes nothing while the clocks stand still. -/
def State.act (s : State) (f : Dev → Dev) : Host.Outcome State Fault Refusal :=
  s.always fun d => if d.halted then d else f d

/-- An instruction of a control core whose word is legal. A word with a field set that its instruction does
not use is illegal (R386) and so never the instruction at a PC: nothing is executed (log entry 73). -/
def State.legal (s : State) (ok : Bool) (f : Dev → Dev) : Host.Outcome State Fault Refusal :=
  s.act fun d => if ok then f d else d

/-- A holdoff ends: what came during it is announced by one vector, which begins a new one (R309). -/
def Dev.endHoldoff (d : Dev) (id vec us : Nat) : Dev :=
  match d.host.holdoff.find? fun h => h.1 == id with
  | none => d
  | some h =>
    let d := { d with host := { d.host with holdoff := d.host.holdoff.filter fun x => x.1 != id } }
    if h.2.1 then d.ringVec id vec us else d

/-- The vector and holdoff of an error ring. -/
def Dev.errRingVec (d : Dev) (id : Nat) : Nat × Nat :=
  if id = 1024 then (d.get F.ERR_RING_CFG_VEC, d.get F.ERR_RING_CFG_HOLDOFF_US)
  else
    (d.get F.POD_SHARES_VEC_BASE (id - 1025) + d.get F.ERR_POD_RING_CFG_VEC (id - 1025),
      d.get F.ERR_POD_RING_CFG_HOLDOFF_US (id - 1025))

/-- Holdoffs of error rings end at their time. -/
def Dev.endErrHoldoffs (d : Dev) : Dev :=
  (d.host.holdoff.filter fun h => decide (1024 ≤ h.1 ∧ h.2.2 ≤ d.now)).foldl (fun d h =>
    let v := d.errRingVec h.1
    d.endHoldoff h.1 v.1 v.2) d

/-- One nanosecond of the correction closes, and ends it with the offset. -/
def HostSt.closed (h : HostSt) (mode : Nat) : HostSt :=
  { h with ptmLeft := h.ptmLeft - 1, ptmMode := if h.ptmLeft ≤ 1 then 0 else mode }

/-- The timestamp counts one nanosecond of the reference (R428), corrected under R300: one more in 5,000
or one fewer in 5,001 (at most 200 ppm), or every other one at half rate. -/
def Dev.countNs (d : Dev) : Dev :=
  let h := d.host
  let go := fun (n : Nat) (h : HostSt) => { d.put F.CLK_TIMESTAMP_NS (d.now + n) with host := h }
  match h.ptmMode with
  | 0 => go 1 h
  | 1 => if d.now % 5001 = 0 then go 2 (h.closed 1) else go 1 h
  | 2 => if d.now % 5000 = 0 then go 0 (h.closed 4) else go 1 h
  | 3 => go 0 (h.closed 5)
  | 4 => go 1 { h with ptmMode := 2 }
  | _ => go 1 { h with ptmMode := 3 }

/-- A doorbell, push, mailbox command, DMA tail write or host access to memory takes the device out of P1
(R419). -/
def Dev.leaveP1 (d : Dev) : Dev := if d.get F.PWR_STATE_STATE = 1 then d.put F.PWR_STATE_STATE 0 else d

/-- The Shell processor runs: it is halted in S2 and Off (R418, R449). -/
def Dev.shellRuns (d : Dev) : Bool := d.shell.running && !d.pw.off

end Sys2Proof.Machine
end

