-- ==== Sys2Proof/Machine/RegAccess.lean ====
section
/-! DEFINITION. How a register write reaches its register: who may write it (R17, R18, R353), what
it covers (R10, R12), and the staged lower half. Every command that is a register write goes
through `Dev.access`. -/

namespace Sys2Proof.Machine

/-- Registers of a pod that are numbered by the pod (R353). -/
def podNumbered (k : RegKind) : Bool :=
  [.JDR_POD_RGN_STATE, .JDR_POD_RGN_ROWS, .JDR_POD_RGN_ENTRIES, .JDR_POD_RGN_SPILLED, .JDR_POD_CLEAR,
    .RDR_POD_RGN_CFG, .RDR_POD_RGN_STATE, .RDR_POD_CLEAR, .POD_STATUS, .POD_TILES, .POD_SHARES,
    .POD_DDR, .CTL_MBX_CMD, .CTL_MBX_RSP, .CTL_MBX_CTRL, .ERR_POD_RING_BASE, .ERR_POD_RING_CFG,
    .ERR_POD_RING_PTR, .ERR_POD_STATUS].contains k

/-- Registers of a tile. -/
def tileNumbered (k : RegKind) : Bool :=
  [.TIL_PIPE_SLOT, .TIL_PIPE_PROG, .TIL_BP_STALL, .TIL_INTENSITY_EVT, .TIL_ARITH_FAULT].contains k

/-- Registers of a work ring. -/
def ringNumbered (k : RegKind) : Bool :=
  [.RNG_BASE, .RNG_CFG, .RNG_DB, .RNG_HEAD, .RNG_STATUS, .RNG_DONE, .RNG_PUSH].contains k

/-- Registers of a DMA channel. -/
def chanNumbered (k : RegKind) : Bool :=
  [.DMA_CH_RING, .DMA_CH_CFG, .DMA_CH_TAIL, .DMA_CH_HEAD, .DMA_CH_STATUS, .DMA_CH_CTRL,
    .DMA_CH_BYTES].contains k

/-- Ring `n` belongs to pod `p`. -/
def Dev.ringOf (d : Dev) (p n : Nat) : Bool :=
  d.get F.RNG_OWNER_ASSIGNED n == 1 && d.get F.RNG_OWNER_POD n == p

/-- DMA channel `n` belongs to pod `p`. -/
def Dev.chanOf (d : Dev) (p n : Nat) : Bool :=
  d.get F.DMA_CH_OWNER_ASSIGNED n == 1 && d.get F.DMA_CH_OWNER_POD n == p

/-- Pod `p`'s window shows the register (R17, R18, R353). -/
def Dev.inWindow (d : Dev) (p : Nat) (r : RegRef) : Bool :=
  r.kind.viewU &&
    (if podNumbered r.kind then r.i == p
    else if tileNumbered r.kind then d.podTile p r.i
    else if ringNumbered r.kind then d.ringOf p r.i
    else if chanNumbered r.kind then d.chanOf p r.i
    else if r.kind = .CCH_STASH_POD then r.j == p
    else true)

/-- The source may write the register. -/
def Dev.reaches (d : Dev) (src : RegFrom) (r : RegRef) : Bool :=
  match src with
  | .window p => d.inWindow p.val r
  | .pf1 => false
  | .bar0 => true
  | .shell => true
  | .exec => true

/-- A pod window access to what is not its own (R18). ADDR is the register's address in PF0 BAR0: an
instance that a window does not show has no offset in it (DESIGN CHOICE, log entry 54). -/
def Dev.refuseAccess (d : Dev) (src : RegFrom) (r : RegRef) : Dev :=
  match src with
  | .window p => d.violation p.val r.addr
  | .pf1 => d
  | .bar0 => d
  | .shell => d
  | .exec => d

/-- The pod whose window a register access came through. -/
def windowPod (src : RegFrom) : Option Nat :=
  match src with
  | .window p => some p.val
  | .pf1 => none
  | .bar0 => none
  | .shell => none
  | .exec => none

/-- The staged lower half of a register (R10). -/
def Dev.staged (d : Dev) (a : Nat) : Option Nat :=
  (d.staging.find? fun x => x.1 == a).map fun x => x.2.toNat

/-- Stage a lower half. -/
def Dev.stageLow (d : Dev) (a v : Nat) : Dev :=
  { d with staging := (a, BitVec.ofNat 32 v) :: (d.unstage a).staging }

/-- A register write: `apply` gets the device, the 64-bit value, and whether fields of the lower
half keep their values (R10). A push window takes none of these writes (R303). Where R12 and R18 both
apply, to partial byte enables through a window that does not show the register, the register-access error
alone is recorded (DESIGN CHOICE, log entry 54). -/
def Dev.access (d : Dev) (a : RegAccess) (r : RegRef) (apply : Dev → Nat → Bool → Dev) : Dev :=
  if a.lanes = .partialBytes then d.regError r.addr (windowPod a.src)
  else if !d.reaches a.src r then d.refuseAccess a.src r
  else if r.kind = .RNG_PUSH then d.regError r.addr (windowPod a.src)
  else match a.lanes with
    | .full => apply (d.unstage r.addr) a.value.toNat false
    | .lower => d.stageLow r.addr a.value.toNat
    | .upper =>
      let hi := a.value.toNat % 2 ^ 32 * 2 ^ 32
      match d.staged r.addr with
      | some lo => apply (d.unstage r.addr) (hi + lo) false
      | none => apply d hi true
    | .partialBytes => d

/-- The register after a write that only its access codes shape (R13, R14). -/
def Dev.applyPlain (d : Dev) (r : RegRef) (v : Nat) (keepLow : Bool) : Dev :=
  d.wr r (regAfter r.kind.fields (d.rd r) v false keepLow)

/-- The same, with its lock bit as given. -/
def Dev.applyLocked (d : Dev) (r : RegRef) (v : Nat) (locked keepLow : Bool) : Dev :=
  d.wr r (regAfter r.kind.fields (d.rd r) v locked keepLow)

/-- The value of field `f` in a written value; in a lower half that is kept it reads zero. -/
def fieldIn (f : Fld) (v : Nat) : Nat := bitsOf v f.lo f.width

end Sys2Proof.Machine
end

