-- ==== Sys2Proof/Machine/Inject.lean ====
section
/-! DEFINITION. Fault injection (R482): the armed injection, its firing, and the faults it plants. -/

namespace Sys2Proof.Machine

/-- Plant a fault of target 1, 4, 5 or 6 when the armed one names this event. -/
def Dev.plantIf (d : Dev) (target index a : Nat) : Dev :=
  let e := d.errs
  if d.get F.ERR_INJ_ARMED = 1 ∧ e.inj.target = target ∧ (target = 6 ∨ e.inj.index = index) ∧ e.inj.addr = a then
    { d.fire with errs := { e with planted := (target, index, a, e.inj.mode) :: e.planted } }
  else d

/-- The mode of a planted fault, 0 for none. -/
def Dev.plantedMode (d : Dev) (target index a : Nat) : Nat :=
  ((d.errs.planted.find? fun x => x.1 == target && x.2.1 == index && x.2.2.1 == a).map fun x => x.2.2.2).getD 0

/-- A planted fault is gone. -/
def Dev.unplant (d : Dev) (target index a : Nat) : Dev :=
  let e := d.errs
  { d with errs := { e with planted := e.planted.filter fun x => !(x.1 == target && x.2.1 == index && x.2.2.1 == a) } }

end Sys2Proof.Machine
end

