-- ==== Sys2Proof/Machine/CacheOps.lean ====
section
/-! DEFINITION. The structures of a column cache: its lines, miss registers and stream entries (R225 to R230),
the streaming detector (R231), DZ4400 mode (R233) and the training of the stride prefetcher (R235). -/

namespace Sys2Proof.Machine

/-- The set of a line (R226). -/
def cacheSet (a : Nat) : Nat :=
  bitsOf a 6 14 ^^^ bitsOf a 20 14 ^^^ bitsOf a 34 14 ^^^ bitsOf a 48 4

/-- A line in an agent's cache. -/
def Dev.findLine (d : Dev) (agent a : Nat) : Option CLine :=
  d.lines.find? fun l => l.agent == agent && l.addr == a

/-- Put a line in its cache. -/
def Dev.setLine (d : Dev) (l : CLine) : Dev :=
  { d with lines := upsert (fun x => x.agent == l.agent && x.addr == l.addr) l d.lines }

/-- Invalidate a line of a cache. -/
def Dev.dropLine (d : Dev) (agent a : Nat) : Dev :=
  { d with lines := d.lines.filter fun l => !(l.agent == agent && l.addr == a) }

/-- A busy miss register for a line. -/
def Dev.findMiss (d : Dev) (c a : Nat) : Option MissReg :=
  d.misses.find? fun m => m.cluster == c && m.addr == a

/-- Change the miss register of a line. -/
def Dev.onMiss (d : Dev) (c a : Nat) (f : MissReg → MissReg) : Dev :=
  { d with misses := mapIf (fun m => m.cluster == c && m.addr == a) f d.misses }

/-- Busy miss registers of a cluster. -/
def Dev.missCount (d : Dev) (c : Nat) : Nat := (d.misses.filter fun m => m.cluster == c).length

/-- Miss registers that prefetches hold. -/
def Dev.prefetchCount (d : Dev) (c : Nat) : Nat :=
  (d.misses.filter fun m => m.cluster == c && m.prefetch).length

/-- The pod's accesses in the cluster are cached (R227, R238). -/
def Dev.cachedFor (d : Dev) (c p : Nat) : Bool :=
  d.get F.CCH_CTRL_EN c == 1 && d.get F.CCH_POD_WAYS_WAYS c p != 0

/-- Accesses of the cluster's tiles are stalled (R238). -/
def Dev.cacheStalled (d : Dev) (c : Nat) : Bool := d.get F.CCH_CTRL_EN c == 2

/-- A new miss may be issued: a register is free, one in DZ4400 mode, and no mode switch waits
(R229, R233, R234). -/
def Dev.missRoom (d : Dev) (c : Nat) : Bool :=
  d.get F.CCH_CTRL_MODE c == d.get F.CCH_CTRL_MODE_REQ c &&
    decide (d.missCount c < if d.get F.CCH_CTRL_MODE c = 1 then 1 else 128)

/-- The stream entry of a reader. -/
def Dev.streamOf (d : Dev) (q : Reader) : Option PfStream :=
  d.pfs.find? fun x => x.cluster == q.cluster && x.tile == q.tile && x.slot == q.slot &&
    x.stage == q.stage && x.col == q.col

/-- An untrained stream entry. -/
def PfStream.fresh (q : Reader) : PfStream :=
  { cluster := q.cluster, tile := q.tile, slot := q.slot, stage := q.stage, col := q.col,
    lastMiss := none, stride := 0, confirmed := false, lastStore := none, storeRun := 0, noAlloc := false }

/-- Use a stream entry: 64 for each cluster, the least recently used one leaves (R231, R235). -/
def Dev.putStream (d : Dev) (x : PfStream) : Dev :=
  let same := fun (y : PfStream) => y.cluster == x.cluster && y.tile == x.tile &&
    y.slot == x.slot && y.stage == x.stage && y.col == x.col
  let mine := (d.pfs.filter fun y => y.cluster == x.cluster && !same y).take 63
  { d with pfs := x :: mine ++ d.pfs.filter fun y => y.cluster != x.cluster }

/-- Train an entry with a demand miss (R235). -/
def PfStream.missed (x : PfStream) (a : Nat) : PfStream :=
  match x.lastMiss with
  | none => { x with lastMiss := some a }
  | some last =>
    let s : Int := (a / 64 : Nat) - (last / 64 : Nat)
    let x := { x with lastMiss := some a }
    if s = 0 ∨ s < -16 ∨ 16 < s then { x with stride := 0, confirmed := false }
    else if s = x.stride then { x with confirmed := true }
    else { x with stride := if x.confirmed then 0 else s, confirmed := false }

/-- The streaming detector sees a store (R231): the entry after it and whether it allocates. -/
def PfStream.stored (x : PfStream) (a : Nat) (full on : Bool) : PfStream × Bool :=
  let seq := full && x.lastStore.any fun l => a == l + 64
  let run := if seq then x.storeRun + 1 else 0
  let stopped := on && seq && x.noAlloc
  let last := if full then some a else x.lastStore
  ({ x with lastStore := last, storeRun := run, noAlloc := on && decide (8 ≤ run) }, !stopped)

/-- The lines of [a, a + n). -/
def linesOf (a n : Nat) : List Nat :=
  if n = 0 then [] else (List.range ((a + n - 1) / 64 - a / 64 + 1)).map fun k => lineOf a + 64 * k

/-- Send a stash to the cluster a hint names (R247); code 3 is SnpStash. -/
def Dev.sendStash (d : Dev) (hint a : Nat) : Dev :=
  if 8 ≤ hint ∧ hint < 16 then d.emit (.coh (hint - 8) 3 a) else d

end Sys2Proof.Machine
end

