-- ==== Sys2Proof/WellFormed.lean ====
section
/-! DEFINITION. Which operands the spec gives a command, where the operand's type does not already
say so. No command stops on others: a push that is not 64 bytes is R303's register-access error, a
control word with an unused field set is illegal and never at a PC (R386), and the rest are read within
the spec's own bounds (log entry 73). -/

namespace Sys2Proof

/-- A pushed work-ring entry is 64 bytes (R302, R304). -/
def entryOk (e : List Byte) : Bool := e.length == 64

/-- Unused register fields of an R-format instruction are zero (R386). -/
def noRd (f : RFmt) : Bool := f.rd == 0

/-- RA is unused and zero (R386). -/
def noRa (f : RFmt) : Bool := f.ra == 0

/-- RB is unused and zero (R386). -/
def noRb (f : RFmt) : Bool := f.rb == 0

/-- CSRR and CSRW have no RA (R386). -/
def iNoRa (f : IFmt) : Bool := f.ra == 0

/-- A member names at most four neighbours in a LINKSTATE, one for each port (R368). -/
def nbrsOk (ns : List (Fin 4 × Fin 8)) : Bool :=
  (ns.map fun n => n.1).eraseDups.length == ns.length

/-- The counts of a JOIN: one for each pipeline of an image (R374). -/
def countsOk (cs : List (BitVec 8)) : Bool := decide (cs.length ≤ 8)

/-- A DIMM thermal poll reads at most two DIMMs (R264). -/
def tempsOk (ts : List (BitVec 8)) : Bool := decide (ts.length ≤ 2)

/-- A write through BAR4 carries 1 to 4,096 bytes (R298). -/
def burstOk (bs : List Byte) : Bool := decide (1 ≤ bs.length ∧ bs.length ≤ 4096)

/-- The rows of an exchange packet have one value for each stream of the group (R378). -/
def rowsOk (rs : List XRow) : Bool :=
  match rs with
  | [] => true
  | r :: rest => rest.all fun x => x.cols.length == r.cols.length

/-- A firmware transfer moves at most 1,024 bytes (R447). -/
def chunkOk (bs : List Byte) : Bool := decide (bs.length ≤ 1024)

/-- A mailbox command has at most eight words (R403). -/
def wordsOk (ws : List Word) : Bool := decide (ws.length ≤ 8)

/-- The command's operands are ones the spec gives it. -/
def Instr.wellFormed (c : Instr) : Bool :=
  match c with
  | .ringPush _ _ e => entryOk e
  | .dimmThermalPoll _ ts => tempsOk ts
  | .exchangePacket _ rows => rowsOk rows
  | .bar4Write _ data _ => burstOk data
  | .linkstate _ ns => nbrsOk ns
  | .join _ _ _ _ cs => countsOk cs
  | .requestFirmwareData _ bs => chunkOk bs
  | .badCommand _ ws => wordsOk ws
  | .ctlCsrr f => iNoRa f
  | .ctlCsrw f => iNoRa f
  | .ctlSleep f => noRd f && noRb f
  | .ctlWait f => noRb f
  | .ctlSetpri f => noRb f
  | .ctlSelf f => noRa f && noRb f
  | .ctlNow f => noRa f && noRb f
  | .ctlLock f => noRb f
  | .ctlTrylock f => noRb f
  | .ctlUnlock f => noRb f
  | .ctlClrpoison f => noRb f
  | _ => true

end Sys2Proof
end

