-- ==== Sys2Proof/Machine/Ddr.lean ====
section
/-! DEFINITION. The memory controllers (R253 to R280): training, the address mapping, the channel
queues, arbitration with its time-slot table and panic, refresh, calibration, retraining and the
patrol scrub. The queues hold addresses; the data is the coherent view (log entry 16). -/

namespace Sys2Proof.Machine

/-! ### Mapping (R256, R257) -/

/-- Channel of a device offset. -/
def memChanOf (o : Nat) : Nat := bitsOf o 12 4 ^^^ bitsOf o 16 4 ^^^ bitsOf o 20 4 ^^^ bitsOf o 24 4

/-- Channel-local offset of a device offset. -/
def localOf (o : Nat) : Nat := o / 65536 * 4096 + o % 4096

/-- The device offset of a channel-local offset. -/
def offsetOf (ch c : Nat) : Nat :=
  let h := c / 4096
  h * 65536 + (ch ^^^ bitsOf h 0 4 ^^^ bitsOf h 4 4 ^^^ bitsOf h 8 4) * 4096 + c % 4096

/-- Where a line lies in the DRAM. -/
structure DramAt where
  sub : Nat
  bank : Nat
  row : Nat
  col : Nat
  deriving DecidableEq, Repr

/-- Two lines lie in one row. -/
def DramAt.sameRow (x y : DramAt) : Bool := x.sub == y.sub && x.bank == y.bank && x.row == y.row

/-- The subchannel, bank (with rank and bank group), row and column burst of a device offset (R257). -/
def Dev.dramAt (d : Dev) (o : Nat) : DramAt :=
  let c := localOf o
  let r := if d.get F.MEM_CFG_DEVW = 4 then 13 else 12
  let q := Nat.log2 (d.get F.MEM_CFG_RANKS)
  let s := c / 128 * 64 + c % 64
  let row := s >>> (r + 5 + q)
  { sub := bitsOf c 6 1, row := row, col := bitsOf s 6 (r - 6),
    bank := bitsOf s (r + 5) q * 32 + (bitsOf s r 3 ^^^ bitsOf row 0 3) * 4 + (bitsOf s (r + 3) 2 ^^^ bitsOf row 3 2) }

/-! ### Channels and ports -/

/-- A memory channel. -/
def Dev.memCh (d : Dev) (n : Nat) : MemCh := d.chans.getD n MemCh.reset

/-- Change a memory channel. -/
def Dev.onCh (d : Dev) (n : Nat) (f : MemCh → MemCh) : Dev := { d with chans := d.chans.set n (f (d.memCh n)) }

/-- Device memory is available. -/
def Dev.memReady (d : Dev) : Bool := d.get F.MEM_TRAIN_STATE == 3

/-- The port of a coherence agent (R239, R274). -/
def portOf (agent : Nat) : Nat := if agent < 8 then agent else if agent < 16 then 10 else if agent = 16 then 8 else 9

/-- Lines waiting in the ingress buffer of a real-time port (R279). -/
def Dev.portLines (d : Dev) (port : Nat) : Nat :=
  (d.chans.flatMap fun c => c.ports.filter fun q => q.port == port).foldl (fun n q => n + q.lines.length) 0

/-- A real-time port enters or leaves panic (R279). -/
def Dev.settlePort (d : Dev) (port on off : Nat) (f : Fld) : Dev :=
  let n := d.portLines port
  let v := if on ≤ n then 1 else if n ≤ off then 0 else d.get f
  if v = d.get f then d else (List.range 16).foldl (fun d k => d.put f v k) d

/-- Both real-time ports. -/
def Dev.settlePanic (d : Dev) : Dev :=
  (d.settlePort 8 (d.get F.MEM_RT_CFG_IO_ON) (d.get F.MEM_RT_CFG_IO_OFF) F.MEM_CH_STATUS_PANIC_IO).settlePort 9
    (d.get F.MEM_RT_CFG_LNK_ON) (d.get F.MEM_RT_CFG_LNK_OFF) F.MEM_CH_STATUS_PANIC_LNK

/-- The ingress buffer of a real-time port has room for the lines of a request (R279). -/
def Dev.ingressRoom (d : Dev) (q : PortReq) : Bool :=
  !(q.port == 8 || q.port == 9) || decide (d.portLines q.port + q.lines.length ≤ 1024)

/-- A request stands at its channel's port. -/
def Dev.atPort (d : Dev) (q : PortReq) : Dev :=
  (d.onCh (memChanOf (q.lines.headD 0)) fun c => { c with ports := c.ports ++ [q] }).settlePanic

/-- A request for lines of one sector reaches its channel's port, or waits before a full ingress buffer, behind
those of its port that wait already. -/
def Dev.memAsk (d : Dev) (port : Nat) (write part openHint : Bool) (lines : List Nat) (reply : Option Reply := none) :
    Dev :=
  match lines with
  | [] => d
  | o :: _ =>
    let q : PortReq :=
      { port := port, pod := (d.podOfAddr o).getD 64, write := write, part := part, openHint := openHint,
        lines := lines, reply := reply }
    if d.ingressRoom q && !(d.memWait.any fun x => x.port == port) then d.atPort q
    else { d with memWait := d.memWait ++ [q] }

/-- Requests that waited for an ingress buffer enter it, in order for each port. -/
def Dev.admitWaiting (d : Dev) : Dev :=
  d.memWait.foldl (fun d q =>
    if d.ingressRoom q && !(d.memWait.any fun x => x.port == q.port) then d.atPort q
    else { d with memWait := d.memWait ++ [q] }) { d with memWait := [] }

/-- Queue a write: it merges into a queued write of its line (R271). -/
def MemCh.addWrite (c : MemCh) (e : QEnt) : MemCh :=
  if c.wq.any fun x => x.addr == e.addr then
    { c with wq := mapIf (fun (x : QEnt) => x.addr == e.addr) (fun x => { x with part := x.part && e.part }) c.wq }
  else { c with wq := c.wq ++ [e] }

/-- A write that a directory slice makes itself enters the queue of 64, or waits for room in it (R268, R274). -/
def MemCh.addSlice (c : MemCh) (e : QEnt) : MemCh :=
  if c.slices.isEmpty && (decide (c.wq.length < 64) || c.wq.any fun x => x.addr == e.addr) then c.addWrite e
  else { c with slices := c.slices ++ [e] }

/-- Slice writes enter the room that a drain has made. -/
def MemCh.refill (c : MemCh) : MemCh := c.slices.foldl MemCh.addSlice { c with slices := [] }

/-- A write that a directory slice makes itself goes ahead of any grant (R274). -/
def Dev.sliceWrite (d : Dev) (o : Nat) : Dev :=
  d.onCh (memChanOf o) fun c => c.addSlice
    { addr := o, port := 14, pod := 64, write := true, part := false, openHint := false, aged := false, reply := none }

/-! ### Rows and the DRAM -/

/-- A column access: an OPEN request, or a CLOSE one with another queued for the row, leaves the row
open (R273). -/
def Dev.rowAccess (d : Dev) (n : Nat) (e : QEnt) : Dev :=
  let a := d.dramAt e.addr
  let c := d.memCh n
  let queued := (c.rq ++ c.wq).any fun x => (d.dramAt x.addr).sameRow a
  let rest := c.openRows.filter fun x => !(x.1 == a.sub && x.2.1 == a.bank)
  d.onCh n fun c => { c with openRows := if e.openHint || queued then (a.sub, a.bank, a.row) :: rest else rest }

/-- The row of an entry is open. -/
def Dev.rowHit (d : Dev) (n : Nat) (e : QEnt) : Bool :=
  let a := d.dramAt e.addr
  (d.memCh n).openRows.contains (a.sub, a.bank, a.row)

/-- An uncorrectable line is found at a device offset (R265). -/
def Dev.memUe (d : Dev) (n o : Nat) (injected : Bool) : Dev :=
  let d := (d.setPoison o .ue).bump16 F.MEM_CH_ECC_UE_COUNT n
  let d := if d.get F.MEM_CH_ECC_ADDR_VALID n = 1 then d
    else (d.put F.MEM_CH_ECC_ADDR_OFFSET (o / 64) n).put F.MEM_CH_ECC_ADDR_VALID 1 n
  d.report { cls := 0x0E, pod := d.podOfAddr o, srcKind := 2, source := n, addr := o, injected := injected }

/-- A correctable error is found. -/
def Dev.memCe (d : Dev) (n o : Nat) (injected : Bool) : Dev :=
  (d.bump16 F.MEM_CH_ECC_CE_COUNT n).report
    { cls := 0x0D, pod := d.podOfAddr o, srcKind := 2, source := n, addr := o, injected := injected }

/-- A read of a line, with what its check finds (R265); the scrub rewrites what it corrects (R267). -/
def Dev.lineCheck (d : Dev) (n o : Nat) (e : Ecc) (scrub : Bool) : Dev :=
  let planted := d.plantedMode 6 0 o
  let e := if planted = 1 then Ecc.corrected else if planted = 2 then Ecc.uncorrectable else e
  if d.poisonAt o ≠ .clean then d
  else match e with
    | .good => d
    | .corrected =>
      let d := d.memCe n o (planted == 1)
      if scrub then d.unplant 6 0 o else d
    | .uncorrectable => (d.unplant 6 0 o).memUe n o (planted == 2)

/-- A requester takes the data of a line from the coherent view: an uncorrectable error that an injection planted
in it is found now, so that the line is delivered as POISON_UE (R265, R482; log entry 16). -/
def Dev.findUe (d : Dev) (o : Nat) : Dev :=
  if d.plantedMode 6 0 o = 2 ∧ d.poisonAt o = .clean then (d.unplant 6 0 o).memUe (memChanOf o) o true else d

/-- A write of a line: an injection of target 6 fires at it, and a whole line has fresh check bytes (R266, R482). -/
def Dev.lineWritten (d : Dev) (o : Nat) (full : Bool) : Dev := (if full then d.unplant 6 0 o else d).plantIf 6 0 o

/-! ### Maintenance (R262 to R264) -/

/-- MCLK in MHz (R255). -/
def Dev.mclk (d : Dev) : Nat := [0, 1200, 1400, 1600, 1800, 2000].getD (d.get F.MEM_CFG_SPEED) 0

/-- Count the MCLK cycles of a stall of so many ns. -/
def Dev.stallNs (d : Dev) (n ns : Nat) : Dev := d.count .MEM_CH_STALL (ns * d.mclk / 1000) n

/-- A maintenance operation is due. -/
def MemCh.due (c : MemCh) : Bool := c.zqDue || c.retrainDue

/-- No request is pending at the channel. -/
def MemCh.quiet (c : MemCh) : Bool := c.ports.isEmpty && c.rq.isEmpty && c.wq.isEmpty && c.slices.isEmpty

/-- A subchannel refreshes (R262). -/
def Dev.refreshing (d : Dev) (n sub : Nat) : Bool :=
  (d.memCh n).refresh.any fun x => x.1 == sub && decide (d.now < x.2)

/-- A ZQ calibration or a retraining pass stalls the channel (R264). -/
def Dev.maintRuns (d : Dev) (n : Nat) : Bool := decide (d.now < (d.memCh n).stalledTo)

/-- The channel stalls for `ns` more. -/
def Dev.stall (d : Dev) (n ns : Nat) : Dev :=
  (d.onCh n fun c => { c with stalledTo := max d.now c.stalledTo + ns }).stallNs n ns

/-- Run a due operation, ZQ calibration before retraining; one that meets a refresh waits for its end (R264). -/
def Dev.runMaint (d : Dev) (n : Nat) : Dev :=
  if d.refreshing n 0 || d.refreshing n 1 then d
  else if (d.memCh n).zqDue then (d.onCh n fun c => { c with zqDue := false }).stall n 1000
  else if (d.memCh n).retrainDue then
    (d.onCh n fun c => { c with retrainDue := false, lastTemp := c.temp }).stall n 600
  else d

/-- With no request pending, due operations run at once (R264). -/
def Dev.maintIfQuiet (d : Dev) (n : Nat) : Dev :=
  if (d.memCh n).due && (d.memCh n).quiet then (d.runMaint n).runMaint n else d

/-- Due operations that no request or refresh holds up any more run (R264). -/
def Dev.maintWaiting (d : Dev) : Dev :=
  if d.chans.any MemCh.due then (List.range 16).foldl Dev.maintIfQuiet d else d

/-- An empty queue: a nanosecond passes, the holdoffs of error rings end at their time (R478), and due maintenance
of the memory channels that nothing holds up any more runs (R264; log entry 11). -/
def idle (s : State) : Host.Outcome State Fault Refusal :=
  s.always fun d =>
    let d := if d.shellRuns then { d with shell := { d.shell with ns := d.shell.ns + 1 } } else d
    if d.halted then d else d.countNs.endErrHoldoffs.maintWaiting

/-- Every channel leaves self-refresh: ZQ calibration and one retraining pass before it accepts requests (R261). -/
def Dev.leaveSelfRefresh (d : Dev) : Dev :=
  (List.range 16).foldl (fun d n =>
    ((d.onCh n fun c => { c with zqDue := true, retrainDue := true, refresh := [] }).runMaint n).runMaint n) d

/-- REFRESH (R262): every bank of the subchannel is precharged; `trfc` is tRFC1 in ns. -/
def execRefresh (n : Fin 16) (sub : Fin 2) (trfc : BitVec 16) (s : State) : Host.Outcome State Fault Refusal :=
  s.act fun d =>
    if d.memReady then
      (d.onCh n.val fun c =>
        { c with openRows := c.openRows.filter fun x => x.1 != sub.val,
                 refresh := upsert (fun x => x.1 == sub.val) (sub.val, d.now + trfc.toNat) c.refresh }).stallNs
        n.val trfc.toNat
    else d

/-- The hottest of some readings. -/
def hottest (ts : List (BitVec 8)) : Nat := ts.foldl (fun m t => max m t.toNat) 0

/-- The retraining that a change of temperature makes due (R264). -/
def Dev.noteTemp (d : Dev) (n t : Nat) : Dev :=
  let c := d.memCh n
  let far := decide (d.get F.MEM_MAINT_CFG_TEMP_DELTA ≤ max t c.lastTemp - min t c.lastTemp)
  (d.onCh n fun c => { c with temp := t, retrainDue := c.retrainDue || far }).maintIfQuiet n

/-- DIMM_THERMAL_POLL (R263, R411). -/
def execDimmThermalPoll (n : Fin 16) (temps : List (BitVec 8)) (s : State) : Host.Outcome State Fault Refusal :=
  s.act fun d =>
    if !d.memReady || temps.isEmpty then d
    else
      let t := hottest temps
      let d := if 85 < t then d.put F.MEM_CH_STATUS_HOT 1 n.val
        else if t ≤ 82 then d.put F.MEM_CH_STATUS_HOT 0 n.val else d
      let bits := d.get F.PWR_THERMAL_DIMM_THROTTLE
      let d := if 95 < t then d.put F.PWR_THERMAL_DIMM_THROTTLE (setBits bits n.val 1 1)
        else if t ≤ 92 then d.put F.PWR_THERMAL_DIMM_THROTTLE (setBits bits n.val 1 0) else d
      d.noteTemp n.val t

/-- ZQ_CALIBRATION (R264). -/
def execZqCalibration (n : Fin 16) (s : State) : Host.Outcome State Fault Refusal :=
  s.act fun d =>
    if d.memReady then (d.onCh n.val fun c => { c with zqDue := true }).maintIfQuiet n.val else d

/-- RETRAIN_PASS (R264). -/
def execRetrainPass (n : Fin 16) (s : State) : Host.Outcome State Fault Refusal :=
  s.act fun d =>
    if d.memReady then (d.onCh n.val fun c => { c with retrainDue := true }).maintIfQuiet n.val else d

/-! ### Arbitration (R274 to R279) -/

/-- The channel's queue has room for every line of the request. -/
def MemCh.eligible (c : MemCh) (q : PortReq) : Bool :=
  if q.write then c.slices.isEmpty && decide (c.wq.length + q.lines.length ≤ 64) else decide (c.rq.length + q.lines.length ≤ 64)

/-- The oldest eligible request of a port, of one pod where given. -/
def MemCh.oldest (c : MemCh) (port : Nat) (pod : Option Nat) : Option PortReq :=
  c.ports.find? fun q => q.port == port && c.eligible q && (pod.map fun p => q.pod == p).getD true

/-- Entry of a request for one line. -/
def PortReq.entry (q : PortReq) (o : Nat) : QEnt :=
  { addr := o, port := q.port, pod := q.pod, write := q.write, part := q.part, openHint := q.openHint, aged := false,
    reply := q.reply }

/-- A grant moves the whole request into the channel's queue. -/
def MemCh.grant (c : MemCh) (q : PortReq) : MemCh :=
  let c := { c with ports := c.ports.erase q, grants := c.grants + 1 }
  if q.write then q.lines.foldl (fun c o => c.addWrite (q.entry o)) c
  else { c with rq := c.rq ++ q.lines.map q.entry }

/-- What an opportunity is given to. -/
inductive Pick where
  | req (q : PortReq) (panic : Bool)
  | maint
  | none

/-- Lines a channel holds. -/
def Dev.chanLines (d : Dev) : Nat := d.capacity / 1024

/-- A scrub read may be made (R267). -/
def Dev.scrubDue (d : Dev) (n : Nat) : Bool :=
  d.get F.MEM_SCRUB_EN == 1 && decide (0 < d.chanLines) && decide ((d.memCh n).rq.length < 64) &&
    !((d.memCh n).rq.any fun e => e.port == 14)

/-- The background order (R276). -/
def MemCh.background (c : MemCh) : Option PortReq := [8, 9, 10, 0, 1, 2, 3, 4, 5, 6, 7].findSome? fun p => c.oldest p none

/-- The eligible request of a port in panic, IO before DzLink. -/
def Dev.panicReq (d : Dev) (n : Nat) : Option PortReq :=
  let c := d.memCh n
  let io := if d.get F.MEM_CH_STATUS_PANIC_IO n = 1 then c.oldest 8 none else none
  match io with
  | some q => some q
  | none => if d.get F.MEM_CH_STATUS_PANIC_LNK n = 1 then c.oldest 9 none else none

/-- The decision of R276. -/
def Dev.pick (d : Dev) (n : Nat) : Pick :=
  let c := d.memCh n
  let e := (c.table.getD c.ptr 0).toNat
  let owner := e % 16
  let pod := if e.testBit 15 then some (bitsOf e 8 6) else none
  let bg := match c.background with
    | some q => Pick.req q false
    | none => Pick.none
  match d.panicReq n with
  | some q => .req q true
  | none =>
    if owner ≤ 10 then (match c.oldest owner pod with
      | some q => .req q false
      | none => bg)
    else if owner = 14 ∧ (c.due = true ∨ d.scrubDue n = true) then .maint
    else bg

/-- Issue a scrub read at the channel's scrub position. -/
def Dev.scrubRead (d : Dev) (n : Nat) : Dev :=
  let c := d.memCh n
  let o := offsetOf n c.scrubC
  d.onCh n fun c =>
    { c with
      rq := c.rq ++ [{ addr := o, port := 14, pod := 64, write := false, part := false, openHint := false, aged := false,
                       reply := none }],
      scrubC := if (c.scrubC + 64) / 64 < d.chanLines then c.scrubC + 64 else 0 }

/-- The shadow table of a channel. -/
def Dev.shadow (d : Dev) (n : Nat) : List (BitVec 16) :=
  (List.range 64).map fun k => BitVec.ofNat 16 (bitsOf (d.get F.MEM_CH_SLOT_ENTRY n (k / 4)) (16 * (k % 4)) 16)

/-- An entry is legal under R275. -/
def slotLegal (e : BitVec 16) : Bool :=
  let v := e.toNat
  let owner := v % 16
  !v.testBit 14 && bitsOf v 4 4 == 0 && !(decide (11 ≤ owner ∧ owner ≤ 13)) &&
    (if v.testBit 15 then decide (owner ≤ 8) else bitsOf v 8 6 == 0)

/-- A table that a commit may install: every entry legal, and a MAINT entry among them (R278). -/
def tableOk (t : List (BitVec 16)) : Bool := t.all slotLegal && t.any fun e => e.toNat % 16 == 14

/-- The pending commit is made when ptr is 0, or refused then when writes since have broken the shadow (R278). -/
def Dev.applyCommit (d : Dev) (n : Nat) : Dev :=
  if d.get F.MEM_CH_STATUS_COMMIT_PEND n = 1 ∧ (d.memCh n).ptr = 0 then
    let t := d.shadow n
    let d := d.put F.MEM_CH_STATUS_COMMIT_PEND 0 n
    if tableOk t then d.onCh n fun c => { c with table := t } else d.put F.MEM_CH_STATUS_CFG_REJ 1 n
  else d

/-- A throttled channel has had its 32 grants of the window of 64 (R411). -/
def Dev.throttled (d : Dev) (n : Nat) : Bool :=
  (d.get F.PWR_THERMAL_DIMM_THROTTLE).testBit n && decide (32 ≤ (d.memCh n).grants)

/-- The pointer and the throttle window move on. -/
def MemCh.advance (c : MemCh) : MemCh :=
  { c with ptr := (c.ptr + 1) % 64, opps := (c.opps + 1) % 64, grants := if c.opps = 63 then 0 else c.grants }

/-- One opportunity. -/
def Dev.opportunity (d : Dev) (n : Nat) : Dev :=
  let d := d.applyCommit n
  let d := if d.throttled n then d
    else match d.pick n with
      | .req q panic =>
        let d := d.onCh n fun c => c.grant q
        (if panic then d.count .MEM_CH_PANIC 1 n else d).admitWaiting.settlePanic
      | .maint => if (d.memCh n).due then d.runMaint n else d.scrubRead n
      | .none => d
  d.onCh n MemCh.advance

/-- GRANT_OPPORTUNITY (R276): it arises with an eligible request or a due operation; with both queues
empty the scrub reads (R267). -/
def execGrantOpportunity (n : Fin 16) (s : State) : Host.Outcome State Fault Refusal :=
  s.act fun d =>
    let c := d.memCh n.val
    if !d.memReady then d
    else if c.due || c.ports.any c.eligible then d.opportunity n.val
    else if c.rq.isEmpty && c.wq.isEmpty && d.scrubDue n.val then d.scrubRead n.val
    else d

/-! ### Reads and writes (R269 to R273) -/

/-- A read that matches a queued write waits (R270). -/
def MemCh.matched (c : MemCh) (e : QEnt) : Bool := c.wq.any fun x => x.addr == e.addr

/-- Entries no younger than the oldest aged one, or all. -/
def agedFirst (l : List QEnt) : List QEnt :=
  match l.findIdx? fun e => e.aged with
  | some i => l.take (i + 1)
  | none => l

/-- Writes from the oldest up to the last that a queued read matches. -/
def MemCh.matchedCount (c : MemCh) : Nat :=
  c.wq.zipIdx.foldl (fun m (x : QEnt × Nat) => if c.rq.any fun r => r.addr == x.1.addr then x.2 + 1 else m) 0

/-- The panicking port whose queued writes drain, IO first. -/
def Dev.panicWrites (d : Dev) (n : Nat) : Option Nat :=
  let has := fun (p : Nat) => (d.memCh n).wq.any fun e => e.port == p
  if d.get F.MEM_CH_STATUS_PANIC_IO n = 1 ∧ has 8 = true then some 8
  else if d.get F.MEM_CH_STATUS_PANIC_LNK n = 1 ∧ has 9 = true then some 9
  else none

/-- The channel drains writes ahead of reads: a high queue, a matched write, or the writes of a port in panic
(R269, R279). -/
def Dev.draining (d : Dev) (n : Nat) : Bool :=
  let c := d.memCh n
  decide (d.get F.MEM_CH_WM_HIGH n ≤ c.wq.length ∨ 0 < c.matchedCount) || (d.panicWrites n).isSome

/-- The entry's subchannel may be accessed: it does not refresh, and the channel is not stalled (R262, R264). -/
def Dev.canAccess (d : Dev) (n : Nat) (e : QEnt) : Bool := !d.maintRuns n && !d.refreshing n (d.dramAt e.addr).sub

/-- The read that issues next; none while the channel drains writes (R269, R272). -/
def Dev.nextRead (d : Dev) (n : Nat) : Option QEnt :=
  let c := d.memCh n
  let ready := agedFirst (c.rq.filter fun e => !c.matched e && d.canAccess n e)
  if d.draining n then none
  else match ready.find? (d.rowHit n) with
    | some e => some e
    | none => ready.head?

/-- The data of a read goes to the agent that asked, with the poison of the line (R244, R266). -/
def Dev.sendReply (d : Dev) (q : QEnt) : Dev :=
  match q.reply with
  | some r => d.emit (.coh r.agent r.code r.addr r.group (d.poisonAt q.addr))
  | none => d

/-- READ_ISSUE (R272, R265): the data is delivered with what its check finds. -/
def execReadIssue (n : Fin 16) (e : Ecc) (s : State) : Host.Outcome State Fault Refusal :=
  s.act fun d =>
    match d.nextRead n.val with
    | some q =>
      let d := d.onCh n.val fun c => { c with rq := c.rq.erase q }
      (((d.rowAccess n.val q).lineCheck n.val q.addr e (q.port == 14)).sendReply q).maintIfQuiet n.val
    | none => d

/-- READ_AGING (R272): the oldest read that has not aged. -/
def execReadAging (n : Fin 16) (s : State) : Host.Outcome State Fault Refusal :=
  s.act fun d =>
    match (d.memCh n.val).rq.findIdx? fun e => !e.aged with
    | some i => d.onCh n.val fun c =>
        { c with rq := c.rq.zipIdx.map fun (x : QEnt × Nat) => if x.2 = i then { x.1 with aged := true } else x.1 }
    | none => d

/-- A queued write is carried out: a partial one, or an atomic, reads the line, merges and writes (R268, R270). -/
def Dev.issueWrite (d : Dev) (n : Nat) (e : QEnt) : Dev :=
  let d := if e.part then (d.rowAccess n e).lineCheck n e.addr .good false else d
  d.rowAccess n e

/-- Issue the writes that meet `p`, in age order; those of a subchannel that cannot be accessed stay. -/
def Dev.drain (d : Dev) (n : Nat) (p : QEnt × Nat → Bool) : Dev :=
  let go := fun (x : QEnt × Nat) => p x && d.canAccess n x.1
  let out := ((d.memCh n).wq.zipIdx.filter go).map fun x => x.1
  let left := ((d.memCh n).wq.zipIdx.filter fun x => !go x).map fun x => x.1
  let d := out.foldl (fun d e => d.issueWrite n e) (d.onCh n fun c => { c with wq := left })
  (d.onCh n MemCh.refill).maintIfQuiet n

/-- WRITE_DRAIN (R269): the first row of its table that applies. -/
def execWriteDrain (n : Fin 16) (s : State) : Host.Outcome State Fault Refusal :=
  s.act fun d =>
    let c := d.memCh n.val
    if d.get F.MEM_CH_WM_HIGH n.val ≤ c.wq.length then
      d.drain n.val fun x => decide (x.2 < c.wq.length - d.get F.MEM_CH_WM_LOW n.val)
    else if 0 < c.matchedCount then d.drain n.val fun x => decide (x.2 < c.matchedCount)
    else match d.panicWrites n.val with
      | some p => d.drain n.val fun x => x.1.port == p
      | none => d

/-- READ_IDLE_DRAIN (R269). -/
def execReadIdleDrain (n : Fin 16) (s : State) : Host.Outcome State Fault Refusal :=
  s.act fun d => if (d.memCh n.val).rq.isEmpty then d.drain n.val fun _ => true else d

/-- ROW_IDLE_CLOSE (R273). -/
def execRowIdleClose (n : Fin 16) (sub : Fin 2) (bank : Fin 128) (s : State) : Host.Outcome State Fault Refusal :=
  s.act fun d => d.onCh n.val fun c =>
    { c with openRows := c.openRows.filter fun x => !(x.1 == sub.val && x.2.1 == bank.val) }

/-! ### The time-slot table (R275, R278) and watermarks -/

/-- A write to MEM_CHn_SLOT_COMMIT (R278). -/
def Dev.slotCommitWrite (d : Dev) (n v : Nat) : Dev :=
  if fieldIn F.MEM_CH_SLOT_COMMIT_COMMIT v = 0 then d
  else
    let t := d.shadow n
    if tableOk t then d.put F.MEM_CH_STATUS_COMMIT_PEND 1 n
    else d.put F.MEM_CH_STATUS_CFG_REJ 1 n

/-- SLOT_COMMIT (R278). -/
def execSlotCommit (n : Fin 16) (a : RegAccess) (s : State) : Host.Outcome State Fault Refusal :=
  s.act fun d => d.access a ⟨.MEM_CH_SLOT_COMMIT, n.val, 0⟩ fun d v k => if k then d else d.slotCommitWrite n.val v

/-- SLOT_COMMIT_APPLY (R278). -/
def execSlotCommitApply (n : Fin 16) (s : State) : Host.Outcome State Fault Refusal :=
  s.act fun d => d.applyCommit n.val

/-- A write to MEM_CHn_WM (R291). -/
def Dev.watermarkWrite (d : Dev) (n v : Nat) (keepLow : Bool) : Dev :=
  let new := d.applyPlain ⟨.MEM_CH_WM, n, 0⟩ v keepLow
  if new.get F.MEM_CH_WM_LOW n < new.get F.MEM_CH_WM_HIGH n ∧ new.get F.MEM_CH_WM_HIGH n ≤ 64 then new
  else d.put F.MEM_CH_STATUS_CFG_REJ 1 n

/-- WATERMARK_WRITE (R291). -/
def execWatermarkWrite (n : Fin 16) (a : RegAccess) (s : State) : Host.Outcome State Fault Refusal :=
  s.act fun d => d.access a ⟨.MEM_CH_WM, n.val, 0⟩ fun d v k => d.watermarkWrite n.val v k

/-! ### Training (R253 to R260) -/

/-- An organisation of R253: capacity in GB, device width, density in Gb, ranks. -/
def dimmsKnown (x : Dimms) : Bool :=
  [(16, 8, 16, 1), (32, 8, 16, 2), (32, 4, 16, 1), (64, 4, 16, 2), (64, 4, 32, 1), (128, 4, 32, 2)].contains
    (x.capacity.toNat, x.devw.toNat, x.density.toNat, x.ranks.val)

/-- The data rate in MT/s of a SPEED code. -/
def rateOf (code : Nat) : Nat := [0, 4800, 5600, 6400, 7200, 8000].getD code 0

/-- The SPEED code that R255 chooses; 0 for none. -/
def dimmsSpeed (x : Dimms) (speedMax : Nat) : Nat :=
  let top := min (if x.perChannel.val = 2 then 6400 else 8000) (min x.maxRate.toNat (rateOf speedMax))
  ([5, 4, 3, 2, 1].find? fun c => decide (rateOf c ≤ top)).getD 0

/-- Step 1 accepts the population (R253 to R255). -/
def dimmsGood (x : Dimms) (speedMax : Nat) : Bool :=
  x.kind == .registered && dimmsKnown x && x.uniform && x.slotOk && decide (1 ≤ x.perChannel.val) && dimmsSpeed x speedMax != 0

/-- MEM_CFG as step 1 sets it (R291). -/
def Dev.setDimms (d : Dev) (x : Dimms) : Dev :=
  let d := d.put F.MEM_CFG_CAP_GIB (16 * x.perChannel.val * x.capacity.toNat)
  let d := d.put F.MEM_CFG_SPEED (dimmsSpeed x (d.get F.MEM_CFG_SPEED_MAX))
  let d := d.put F.MEM_CFG_DPC2 (if x.perChannel.val = 2 then 1 else 0)
  let d := d.put F.MEM_CFG_RANKS (x.perChannel.val * x.ranks.val)
  let d := (d.put F.MEM_CFG_DEVW x.devw.toNat).put F.MEM_CFG_DENSITY x.density.toNat
  { d with dimms := some x }

/-- Sprout starts training: step 1 is in progress (R258; log entry 87). -/
def Dev.beginTraining (d : Dev) : Dev := (d.put F.MEM_TRAIN_STATE 1).put F.MEM_TRAIN_STEP 1

/-- What the trained values in flash are keyed by (R260). -/
def Dev.trainKeyOf (d : Dev) (x : Dimms) : List (BitVec 32) × Nat := (x.serials, dimmsSpeed x (d.get F.MEM_CFG_SPEED_MAX))

/-- Training has yet to end. -/
def Dev.trainable (d : Dev) : Bool := decide (d.get F.MEM_TRAIN_STATE < 3)

/-- Training fails (R259); CSTS.CFS is set (R324). -/
def Dev.trainFailed (d : Dev) (ch step : Nat) (x : Dimms) : Dev :=
  let d := if 1 < step ∧ dimmsGood x (d.get F.MEM_CFG_SPEED_MAX) = true then d.setDimms x else d
  let d := (d.put F.MEM_TRAIN_FAIL_CH ch).put F.MEM_TRAIN_FAIL_STEP step
  let d := { d with nvme := { d.nvme with cfs := true } }
  ((d.put F.MEM_TRAIN_STEP step).put F.MEM_TRAIN_STATE 4).logEvent 5 2 (Config.eventCode 0) (leBytes 1 ch ++ leBytes 1 step) []

/-- Training ends: every line is zero with valid check bytes (R258 step 9), and an enabled NVMe
controller is ready (R324). -/
def Dev.trained (d : Dev) (x : Dimms) (verified : Bool) : Dev :=
  let key := d.trainKeyOf x
  let fast := d.shell.trainKey == some key && verified
  let d := d.setDimms x
  let d := (d.put F.MEM_TRAIN_FAST fast.toNat).put F.MEM_TRAIN_STEP 9
  let d := d.put F.MEM_TRAIN_STATE 3
  { d with mem := [], poison := d.poison.filter fun y => decide (2 ^ 44 ≤ y.1),
           nvme := { d.nvme with rdy := d.nvme.enabled },
           shell := if fast then d.shell else { d.shell with trainKey := some key },
           errs := { d.errs with planted := d.errs.planted.filter fun y => y.1 != 6 } }

/-- TRAINING_COMPLETE (R258, R260). -/
def execTrainingComplete (x : Dimms) (verified : Bool) (s : State) : Host.Outcome State Fault Refusal :=
  s.act fun d =>
    if !d.trainable then d
    else if dimmsGood x (d.get F.MEM_CFG_SPEED_MAX) then d.trained x verified
    else d.trainFailed 0 1 x

/-- TRAINING_FAIL (R259). -/
def execTrainingFail (ch : Fin 16) (step : Fin 10) (x : Dimms) (s : State) : Host.Outcome State Fault Refusal :=
  s.act fun d => if d.trainable && step.val != 0 then d.trainFailed ch.val step.val x else d

end Sys2Proof.Machine
end

