-- ==== Sys2Proof/Machine/Home.lean ====
section
/-! DEFINITION. The coherence directory (R239 to R248): entries, requests at a home, snoops and their
answers, crossing write-backs, directory evictions and retries, stashes, and the scrub of a dead
agent. Memory is the coherent view: a grant carries no data here (log entry 16). In the `coh` outputs
the kinds are 1 SnpShared, 2 SnpInv, 3 SnpStash, 4 DataS, 5 DataE, 6 Cmp, 7 WbAck, 8 RspData,
9 RspClean, 10 RspMiss, 11 the data of a RdOnce, 12 an address error, 13 HOST_FAULT, 20 to 27 the
requests RdShared, RdUnique, Upgrade, RdOnce, WrFull, WrPart, Atomic and WrBack, 28 a poisoned WrBack, 29 and
30 a clean and a flush at a remote home; destination 32 + n is slice n, below 24 an agent. The data of a read
leaves when its channel has read the line (READ_ISSUE). -/

namespace Sys2Proof.Machine

/-! ### Homes, slices and entries -/

/-- The sector of a line (R240). -/
def sectorOf (a : Nat) : Nat := a / 256 * 256

/-- The set of a sector (R240). -/
def dirSet (a : Nat) : Nat := bitsOf a 8 11 ^^^ bitsOf a 19 11 ^^^ bitsOf a 30 11 ^^^ bitsOf a 41 11

/-- The agent number of the peer with a span number (R239). -/
def Dev.peerAgent (d : Dev) (k : Nat) : Nat := 17 + (k + 15 - d.get F.LNK_SPAN_CFG_SPAN_NO) % 8

/-- The agent that is the home of an address in local form: `none` for this device. -/
def Dev.homeAgent (d : Dev) (a : Nat) : Option Nat :=
  let sel := bitsOf a 44 8
  if sel = 0 then none
  else if 0x80 ≤ sel then some 16
  else some (d.peerAgent (sel - 0x10))

/-- The slice of a sector in local form: the channel of a home sector, or the hash of a filter one. -/
def Dev.sliceOf (d : Dev) (a : Nat) : Nat :=
  if (d.homeAgent a).isNone then memChanOf a else bitsOf a 8 4 ^^^ bitsOf a 12 4

/-- The entry of a sector. -/
def Dev.findDir (d : Dev) (sector : Nat) : Option DirEnt := d.dir.find? fun e => e.sector == sector

/-- Write an entry; an injection of target 5 plants its fault (R482). -/
def Dev.setDir (d : Dev) (e : DirEnt) : Dev :=
  { d with dir := upsert (fun x => x.sector == e.sector) e d.dir }.plantIf 5 e.slice e.sector

/-- The entry is I again. -/
def Dev.dropDir (d : Dev) (sector : Nat) : Dev := { d with dir := d.dir.filter fun e => e.sector != sector }

/-- The agent is live (R252). -/
def Dev.live (d : Dev) (x : Nat) : Bool := (d.get F.DIR_AGENT_LIVE_LIVE).testBit x

/-- The holders of an entry but agent `x` (R244). -/
def Dev.holders (d : Dev) (e : DirEnt) (x : Nat) : List Nat :=
  ((if e.bcast then List.range (if e.filter then 16 else 24) else e.ptrs).filter d.live).filter (· != x)

/-- An agent joins an S entry (R242). -/
def DirEnt.join (e : DirEnt) (x : Nat) : DirEnt :=
  if e.ptrs.contains x then e
  else if e.ptrs.length < 3 then { e with ptrs := e.ptrs ++ [x] }
  else { e with bcast := true }

/-- The entry in state E with owner `x`. -/
def DirEnt.owned (e : DirEnt) (x : Nat) : DirEnt := { e with ptrs := [x], bcast := false, excl := true }

/-- The entry in state S, the owner it had still a sharer. -/
def DirEnt.shared (e : DirEnt) : DirEnt := { e with excl := false }

/-- The open transaction of a sector (PIN). -/
def Dev.openTxn (d : Dev) (sector : Nat) : Option HomeTxn := d.txns.find? fun t => t.opened && t.sector == sector

/-- The sector is pinned, or leaves through a victim slot. -/
def Dev.sectorBusy (d : Dev) (sector : Nat) : Bool :=
  (d.openTxn sector).isSome || d.victims.any fun v => v.sector == sector

/-- Send a snoop to each of some agents; those a set BCAST asks for are counted (R252). -/
def Dev.snoop (d : Dev) (slice sector : Nat) (inv bcast : Bool) (xs : List Nat) : Dev :=
  let d := xs.foldl (fun d x => d.emit (.coh x (if inv then 2 else 1) sector)) d
  if bcast then d.count .DIR_SLICE_BCAST xs.length slice else d

/-! ### Lost sectors and bad entries (R241, R248) -/

/-- Every line of a sector is lost: written to its home with the poison mark (R248 step 4). -/
def Dev.loseLines (d : Dev) (sector : Nat) : Dev :=
  let d := (List.range 4).foldl (fun d k => d.setPoison (sector + 64 * k) .lost) d
  let d := d.count .DIR_POISONED 4
  match d.homeAgent sector with
  | none => (List.range 4).foldl (fun d k => d.sliceWrite (sector + 64 * k)) d
  | some h => (List.range 4).foldl (fun d k => d.emit (.coh h 28 (sector + 64 * k) 0 .lost)) d

/-- The sector of an entry is lost. -/
def Dev.loseSector (d : Dev) (e : DirEnt) : Dev := d.loseLines e.sector

/-- An entry that a planted fault made uncorrectable is found at its next use and treated as a dead agent's: every
agent that it could name is told to invalidate, and every line of the sector is lost (R241, R248, R470). -/
def Dev.checkDir (d : Dev) (slice sector : Nat) : Dev :=
  let mode := d.plantedMode 5 slice sector
  match d.findDir sector with
  | none => d
  | some e =>
    if mode = 0 then d
    else
      let d := d.unplant 5 slice sector
      if mode = 1 then d
      else
        let d := d.snoop slice sector true false (d.holders { e with bcast := true } 24)
        let d := { d with lines := d.lines.filter (fun l => sectorOf l.addr != sector),
                          wbb := d.wbb.filter fun w => sectorOf w.2 != sector }
        let d := (d.loseSector e).dropDir sector
        d.report { cls := 0x0C, srcKind := 13, source := slice, addr := sector, injected := true }

/-! ### New entries (R246) -/

/-- The rotating pointer of a set. -/
def Dev.rotOf (d : Dev) (slice set : Nat) : Nat :=
  ((d.rot.find? fun x => x.1 == (slice, set)).map fun x => x.2).getD 0

/-- Move an entry into a victim slot; one found bad is lost instead. -/
def Dev.evictDir (d : Dev) (e : DirEnt) : Dev :=
  if d.plantedMode 5 e.slice e.sector = 2 then d.checkDir e.slice e.sector else
  let hs := d.holders e 24
  let rot := upsert (fun (x : (Nat × Nat) × Nat) => x.1 == (e.slice, e.set)) ((e.slice, e.set), (e.way + 1) % 16) d.rot
  let d := ({ d.dropDir e.sector with rot := rot }).count .DIR_SLICE_BACKINV 1 e.slice
  let d := d.snoop e.slice e.sector true e.bcast hs
  if hs.isEmpty then d
  else { d with victims := d.victims ++
           [{ slice := e.slice, sector := e.sector, filter := e.filter, excl := e.excl, waits := hs }] }

/-- A way of the set for a new entry, or `none` when the request must be retried. -/
def Dev.dirWay (d : Dev) (slice set : Nat) : Option (Dev × Nat) :=
  let mine := d.dir.filter fun e => e.slice == slice && e.set == set
  match (List.range 16).find? fun w => !(mine.any fun e => e.way == w) with
  | some w => some (d, w)
  | none =>
    let p := d.rotOf slice set
    let order := (List.range 16).map fun k => (p + k) % 16
    match order.findSome? fun w => mine.find? fun e => e.way == w && (d.openTxn e.sector).isNone with
    | some e =>
      if 2 ≤ (d.victims.filter fun v => v.slice == slice).length then none else some (d.evictDir e, e.way)
    | none => none

/-- A new entry for a sector. -/
def Dev.newDir (d : Dev) (sector : Nat) (x : Nat) (excl : Bool) : Option Dev :=
  let slice := d.sliceOf sector
  let set := dirSet sector
  (d.dirWay slice set).map fun r => r.1.setDir
    { slice := slice, set := set, way := r.2, sector := sector, filter := (d.homeAgent sector).isSome,
      bcast := false, ptrs := [x], excl := excl }

/-! ### What a request does once it is granted (R244) -/

/-- Write bytes of a line without touching its poison mark. -/
def Dev.rawWrite (d : Dev) (a : Nat) (bs : List Byte) : Dev :=
  match d.target a with
  | .home off => { d with mem := memWrite d.mem off bs }
  | _ => d.anyWrite a bs

/-- Lines as they stood before the stage stores to line `a` that have yet to reach the home. -/
def Dev.pendingOld (d : Dev) (a : Nat) : List Line :=
  ((d.misses.filter fun m => m.store && m.addr == a).map fun m => m.old) ++
    ((d.missWait.filter fun w => w.store && w.addr == a).map fun w => w.old) ++
    (d.txns.filter fun t => lineOf t.addr == a).filterMap fun t => match t.kind with
      | .stageWr _ _ old => some old
      | _ => none

/-- Dirty data that a holder gives up, under the stage stores that came after it and are in the coherent view
already (log entry 16). -/
def Dev.underStores (d : Dev) (a : Nat) (data : Line) : Line :=
  let olds := d.pendingOld a
  if olds.isEmpty then data
  else
    let cur := d.anyRead a 64
    (List.range 64).map fun i =>
      if olds.any fun o => o.getD i 0 != cur.getD i 0 then cur.getD i 0 else data.getD i 0

/-- Poison of a line of any target. -/
def Dev.markLine (d : Dev) (a : Nat) (p : Poison) : Dev := d.setPoison (d.localForm a) p

/-- The line with the enabled bytes of a partial write. -/
def mergeLine (old new : Line) (be : Nat) : Line :=
  (List.range 64).map fun i => if be.testBit i then new.getD i 0 else old.getD i 0

/-- The result of an atomic on a word (R386). -/
def atomicResult (op : AtomicOp) (old operand compare : Nat) : Nat :=
  match op with
  | .swap => operand
  | .add => (old + operand) % 2 ^ 64
  | .and => old &&& operand
  | .or => old ||| operand
  | .cas => if old = compare then operand else old

/-- The write of a request at its home. A partial write to a poisoned line is discarded (R266). -/
def Dev.homeWrite (d : Dev) (k : ReqKind) (a : Nat) : Dev :=
  let line := lineOf a
  let old := d.anyRead line 64
  match k with
  | .wrFull data p =>
    if p = .clean then (d.anyWrite line data).lineWritten line true else (d.rawWrite line data).markLine line p
  | .wrPart data be =>
    if d.poisonAt line = .clean then (d.anyWrite line (mergeLine old data be)).lineWritten line false else d
  | .atomic op x y false =>
    let w := fieldAt old (a % 64 / 8 * 8) 8
    if d.poisonAt line = .clean then
      (d.anyWrite (a / 8 * 8) (leBytes 8 (atomicResult op w x.toNat y.toNat))).lineWritten line false
    else d
  | .stageWr code _ _ => d.lineWritten line (code == 24)
  | _ => d

/-- The request writes memory at the home. -/
def ReqKind.writes (k : ReqKind) : Bool :=
  match k with
  | .wrFull _ _ => true
  | .wrPart _ _ => true
  | .atomic _ _ _ cached => !cached
  | .stageWr _ _ _ => true
  | _ => false

/-- The request writes a whole line. -/
def ReqKind.whole (k : ReqKind) : Bool :=
  match k with
  | .wrFull _ _ => true
  | .stageWr code _ _ => code == 24
  | _ => false

/-- The request asks for ownership. -/
def ReqKind.owns (k : ReqKind) : Bool :=
  match k with
  | .rdUnique => true
  | .upgrade => true
  | .atomic _ _ _ cached => cached
  | _ => false

/-- The request reads memory; `keeps`: the agent's own copy serves it. -/
def ReqKind.reads (k : ReqKind) (keeps : Bool) : Bool :=
  match k with
  | .rdShared => true
  | .rdOnce => true
  | k => k.owns && !keeps

/-- The request invalidates every other holder. -/
def ReqKind.invalidates (k : ReqKind) : Bool :=
  match k with
  | .flush => true
  | .snpInv => true
  | k => k.owns || k.writes

/-- The message that carries a request to a remote home. -/
def ReqKind.code (k : ReqKind) : Nat :=
  match k with
  | .rdShared => 20
  | .rdUnique => 21
  | .upgrade => 22
  | .rdOnce => 23
  | .wrFull _ _ => 24
  | .wrPart _ _ => 25
  | .atomic _ _ _ cached => if cached then 21 else 26
  | .stageWr code _ _ => code
  | .clean => 29
  | .flush => 30
  | _ => 0

/-- The entry was E with the requester as owner. -/
def HomeTxn.owner (t : HomeTxn) (e : Option DirEnt) : Bool := e.any fun e => e.excl && e.ptrs.contains t.agent

/-- The requester still holds the line: it said so, and the entry is in S and names it (R244). -/
def HomeTxn.keeps (t : HomeTxn) (e : Option DirEnt) : Bool :=
  t.holds && e.any fun e => !e.excl && (e.bcast || e.ptrs.contains t.agent)

/-- The reply of this home (R244), from the entry before the grant. -/
def HomeTxn.reply (t : HomeTxn) (owner keeps : Bool) : Nat :=
  match t.kind with
  | .rdShared => if owner then 5 else 4
  | .rdOnce => if owner then 5 else 11
  | .snpShared => if t.gotDirty then 8 else if t.gotClean then 9 else 10
  | .snpInv => if t.gotDirty then 8 else if t.gotClean then 9 else 10
  | k => if k.owns then (if keeps then 6 else 5) else 6

/-- A snoop from a remote home. -/
def ReqKind.isSnoop (k : ReqKind) : Bool := k == .snpShared || k == .snpInv

/-- Maintenance at the home. -/
def ReqKind.isMaint (k : ReqKind) : Bool := k == .clean || k == .flush

/-- The page hint of a request (R273): a fill takes that of its miss register, and a whole line that a cache does
not allocate is OPEN. -/
def Dev.pageHint (d : Dev) (t : HomeTxn) : Bool :=
  if t.kind.writes then t.kind.whole && decide (t.agent < 8) && d.get F.CCH_CTRL_EN t.agent == 1
  else decide (t.agent < 8) && ((d.findMiss t.agent (lineOf t.addr)).map fun m => m.openHint).getD false

/-- The hint of a stage's store, which the home follows once the write has completed (R247). -/
def Dev.stashAfter (d : Dev) (t : HomeTxn) : Dev :=
  match t.kind with
  | .stageWr _ hint _ => d.sendStash hint (lineOf t.addr)
  | _ => d

/-- The memory access and the messages of a granted request; `e` is the entry before the grant. Data follows the
read of the line. -/
def Dev.grantMsgs (d : Dev) (t : HomeTxn) (e : Option DirEnt) : Dev :=
  let keeps := t.keeps e
  let code := t.reply (t.owner e) keeps
  let line := lineOf t.addr
  match d.homeAgent t.addr with
  | none =>
    if t.kind.reads keeps then
      let r : Reply := { agent := t.agent, code := code, addr := t.addr, group := t.group }
      d.memAsk (portOf t.agent) false false (d.pageHint t) [line] (if t.agent < 24 then some r else none)
    else
      let d := if t.kind.writes then
          (d.memAsk (portOf t.agent) true (!t.kind.whole) (d.pageHint t) [line]).stashAfter t
        else d
      if t.agent < 24 then d.emit (.coh t.agent code t.addr t.group) else d
  | some h =>
    if t.kind.isSnoop then
      let p := if t.gotDirty then d.poisonIn t.sector 256 else Poison.clean
      d.emit (.coh h code t.addr t.group p t.lines)
    else
      let d := d.emit (.coh h t.kind.code t.addr t.group (if t.kind.writes then d.poisonAt t.addr else .clean))
      if t.kind.isMaint && decide (t.agent < 24) then d.emit (.coh t.agent 6 t.addr) else d

/-- The entry after a request, from the entry before it (R244); `none` is I. -/
def DirEnt.after (e : DirEnt) (t : HomeTxn) : Option DirEnt :=
  match t.kind with
  | .rdShared => if e.excl && e.ptrs.contains t.agent then some e else some (e.shared.join t.agent)
  | .rdOnce => if e.excl && e.ptrs.contains t.agent then some e else some e.shared
  | .clean => some e.shared
  | .snpShared => some e.shared
  | k => if k.owns then some (e.owned t.agent) else none

/-- Grant a request whose snoops are answered. -/
def Dev.finishTxn (d : Dev) (t : HomeTxn) : Dev :=
  let before := d.findDir t.sector
  let d := match before with
    | none => d
    | some e => match e.after t with
      | some e' => d.setDir e'
      | none => d.dropDir t.sector
  (d.homeWrite t.kind t.addr).grantMsgs t before

/-! ### Serving requests -/

/-- A request that cannot be served or queued waits and tries again (R246). -/
def Dev.retryTxn (d : Dev) (t : HomeTxn) : Dev :=
  ({ d with txns := d.txns ++ [{ t with opened := false, retries := t.retries + 1 }] }).count .DIR_SLICE_RETRY 1 t.slice

/-- The agents a request must snoop. -/
def Dev.toSnoop (d : Dev) (e : DirEnt) (t : HomeTxn) : List Nat :=
  let hs := d.holders e (if t.kind.isMaint || t.kind.isSnoop then 24 else t.agent)
  if t.kind.invalidates || t.kind.isMaint || t.kind.isSnoop then hs
  else if e.excl then hs else []

/-- Serve a request whose sector is free of transactions (R244). -/
def Dev.serveTxn (d : Dev) (t : HomeTxn) : Dev :=
  let d := d.checkDir t.slice t.sector
  match d.findDir t.sector with
  | none =>
    if t.kind == .rdShared || t.kind.owns then
      match d.newDir t.sector t.agent t.kind.owns with
      | some d' => d'.grantMsgs t none
      | none => d.retryTxn t
    else d.finishTxn t
  | some e =>
    let hs := d.toSnoop e t
    if hs.isEmpty then d.finishTxn t
    else
      let d := d.snoop t.slice t.sector t.kind.invalidates e.bcast hs
      { d with txns := d.txns ++ [{ t with opened := true, waits := hs }] }

/-- Queued requests of a slice. -/
def Dev.queuedTxns (d : Dev) (slice : Nat) : List HomeTxn :=
  d.txns.filter fun t => t.slice == slice && !t.opened && t.retries == 0

/-- A request reaches its slice: served, queued behind its sector's transaction, or retried. -/
def Dev.admitTxn (d : Dev) (t : HomeTxn) : Dev :=
  if d.sectorBusy t.sector || (d.queuedTxns t.slice).any fun x => x.sector == t.sector then
    (if 64 ≤ (d.queuedTxns t.slice).length then d.retryTxn t else { d with txns := d.txns ++ [t] })
  else d.serveTxn t

/-- Serve the requests that waited for a sector, in arrival order. -/
def Dev.serveQueued (d : Dev) (slice sector : Nat) : Nat → Dev
  | 0 => d
  | fuel + 1 =>
    if d.sectorBusy sector then d
    else match (d.queuedTxns slice).find? fun t => t.sector == sector with
      | some t => (({ d with txns := d.txns.erase t }).serveTxn t).serveQueued slice sector fuel
      | none => d

/-- The pod of a span group has the line in its ranges (R357). -/
def Dev.groupHas (d : Dev) (group a : Nat) : Bool :=
  (List.range 64).any fun p => d.podState p != 0 && d.get F.LNK_POD_SPAN_GROUP p == group && d.inPod p (lineOf a) 64

/-- The span group of the pod for which an agent of this device asks for a line: that of its miss register, or of
the thread on the core (R357, R370). -/
def Dev.groupOf (d : Dev) (x a : Nat) : Nat :=
  let pod : Option Nat :=
    if x < 8 then (d.findMiss x (lineOf a)).map fun m => m.pod
    else if x < 16 then ((d.cores[x - 8]?).bind fun c => c.cur).bind fun slot =>
      (d.threads.find? fun t => t.slot == slot).map fun t => t.pod
    else none
  (pod.map fun p => d.get F.LNK_POD_SPAN_GROUP p).getD 0

/-- A fresh request. -/
def Dev.txnOf (d : Dev) (agent a : Nat) (holds : Bool) (k : ReqKind) : HomeTxn :=
  { slice := d.sliceOf (sectorOf a), sector := sectorOf a, agent := agent, addr := a, holds := holds, kind := k,
    waits := [], opened := false, retries := 0, gotDirty := false, gotClean := false, heldWb := [],
    group := d.groupOf agent a, lines := 0 }

/-- An agent's request reaches a home (R244, R296, R356, R357). -/
def Dev.homeRequest (d : Dev) (q : HomeReq) (k : ReqKind) : Dev :=
  let x := q.agent.val
  let a := d.localForm q.addr.toNat
  let h := d.homeAgent a
  if !d.live x then d
  else if d.target a == .nowhere || (decide (17 ≤ x) && (h.isSome || !d.groupHas q.group.toNat a)) then
    d.emit (.coh x 12 a)
  else if h == some 16 && k.writes && k.code == 26 then d.emit (.coh x 13 a)
  else
    let t := d.txnOf x a q.holds k
    d.admitTxn (if 17 ≤ x then { t with group := q.group.toNat } else t)

/-- RDSHARED (R244). -/
def execRdshared (q : HomeReq) (s : State) : Host.Outcome State Fault Refusal :=
  s.act fun d => d.homeRequest q .rdShared

/-- RDUNIQUE (R244). -/
def execRdunique (q : HomeReq) (s : State) : Host.Outcome State Fault Refusal :=
  s.act fun d => d.homeRequest q .rdUnique

/-- UPGRADE (R244). -/
def execUpgrade (q : HomeReq) (s : State) : Host.Outcome State Fault Refusal :=
  s.act fun d => d.homeRequest q .upgrade

/-- RDONCE (R244). -/
def execRdonce (q : HomeReq) (s : State) : Host.Outcome State Fault Refusal :=
  s.act fun d => d.homeRequest q .rdOnce

/-- WRFULL (R244). -/
def execWrfull (q : HomeReq) (data : Bytes64) (s : State) : Host.Outcome State Fault Refusal :=
  s.act fun d => d.homeRequest q (.wrFull data.toList .clean)

/-- WRPART (R244). -/
def execWrpart (q : HomeReq) (data : Bytes64) (be : BitVec 64) (s : State) : Host.Outcome State Fault Refusal :=
  s.act fun d => d.homeRequest q (.wrPart data.toList be.toNat)

/-- ATOMIC (R244, R232). -/
def execAtomic (q : HomeReq) (op : AtomicOp) (operand compare : BitVec 64) (cached : Bool) (s : State) :
    Host.Outcome State Fault Refusal :=
  s.act fun d => d.homeRequest q (.atomic op operand compare cached)

/-- DIR_RETRY: the backoff of the slice's first retried request ends (R246). -/
def execDirRetry (n : Fin 16) (s : State) : Host.Outcome State Fault Refusal :=
  s.act fun d =>
    match d.txns.find? fun t => t.slice == n.val && !t.opened && t.retries != 0 with
    | some t => ({ d with txns := d.txns.erase t }).admitTxn { t with retries := 0 }
    | none => d

/-! ### Write-backs (R244, R245) -/

/-- Write a written-back line to its home. -/
def Dev.writeBack (d : Dev) (x a : Nat) (data : Line) (p : Poison) : Dev :=
  let data := d.underStores a data
  let d := if p = .clean then (d.anyWrite a data).lineWritten a true else (d.rawWrite a data).markLine a p
  match d.homeAgent a with
  | none => d.memAsk (portOf x) true false false [a]
  | some h => d.emit (.coh h (if p = .clean then 27 else 28) a (d.groupOf x a) p)

/-- A write-back reaches its home. -/
def Dev.writeBackMsg (d : Dev) (x addr : Nat) (data : Line) (poison : Poison) : Dev :=
    let a := lineOf (d.localForm addr)
    let sector := sectorOf a
    let d := d.checkDir (d.sliceOf sector) sector
    if !d.live x || d.target a == .nowhere then d
    else match d.txns.find? fun t => t.opened && t.sector == sector && t.waits.contains x with
      | some t =>
        let t' := { t with heldWb := t.heldWb ++ [(x, a)] }
        { d with txns := d.txns.map fun y => if y = t then t' else y }
      | none =>
        let mine := ((d.findDir sector).map fun e => !e.excl || e.ptrs.contains x).getD true
        (if mine then d.writeBack x a data poison else d).emit (.coh x 7 a)

/-- WRBACK (R244, R245). -/
def execWrback (q : HomeReq) (data : Bytes64) (poison : Poison) (s : State) : Host.Outcome State Fault Refusal :=
  s.act fun d => d.writeBackMsg q.agent.val q.addr.toNat data.toList poison

/-! ### Snoops at this device's agents (R243) -/

/-- The agent holds a dirty line of the sector, in its cache or its write-back buffer. -/
def Dev.dirtyIn (d : Dev) (x sector : Nat) : Bool :=
  (d.lines.any fun l => l.agent == x && sectorOf l.addr == sector && l.st == .m) ||
    d.wbb.any fun w => w.1 == x && sectorOf w.2 == sector

/-- The agent holds a line of the sector. -/
def Dev.holdsIn (d : Dev) (x sector : Nat) : Bool := d.lines.any fun l => l.agent == x && sectorOf l.addr == sector

/-- The agent's lines of a sector are invalidated, or become S. -/
def Dev.downgrade (d : Dev) (x sector : Nat) (inv : Bool) : Dev :=
  let mine := fun (l : CLine) => l.agent == x && sectorOf l.addr == sector
  if inv then { d with lines := d.lines.filter fun l => !mine l }
  else { d with lines := mapIf mine (fun l => { l with st := .s, stale := none }) d.lines }

/-- Dirty lines of the sector that the agent holds. -/
def Dev.dirtyCount (d : Dev) (x sector : Nat) : Nat :=
  (d.lines.filter fun l => l.agent == x && sectorOf l.addr == sector && l.st == .m).length +
    (d.wbb.filter fun w => w.1 == x && sectorOf w.2 == sector).length

/-- A snoop reaches an agent. -/
def Dev.snooped (d : Dev) (x a : Nat) (inv : Bool) : Dev :=
  let sector := sectorOf (d.localForm a)
  if x < 16 then
    let dirty := d.dirtyIn x sector
    let code := if dirty then 8 else if d.holdsIn x sector then 9 else 10
    (d.downgrade x sector inv).emit (.coh (32 + d.sliceOf sector) code sector 0
      (if dirty then d.poisonIn sector 256 else .clean) (d.dirtyCount x sector))
  else if d.homeAgent sector == some x then
    d.admitTxn (d.txnOf x sector false (if inv then .snpInv else .snpShared))
  else d.emit (.coh x (if inv then 2 else 1) sector)

/-- SNPSHARED (R243, R371). -/
def execSnpshared (agent : Fin 24) (sector : BitVec 52) (s : State) : Host.Outcome State Fault Refusal :=
  s.act fun d => d.snooped agent.val sector.toNat false

/-- SNPINV (R243, R371). -/
def execSnpinv (agent : Fin 24) (sector : BitVec 52) (s : State) : Host.Outcome State Fault Refusal :=
  s.act fun d => d.snooped agent.val sector.toNat true

/-! ### Answers (R244 to R246) -/

/-- The write-backs of agent `x` held against its snoop are satisfied (R245). -/
def Dev.ackHeld (d : Dev) (t : HomeTxn) (x : Nat) : Dev :=
  (t.heldWb.filter fun w => w.1 == x).foldl (fun d w => d.emit (.coh x 7 w.2)) d

/-- An answer to the snoop of an open transaction, with `n` dirty lines. -/
def Dev.answerTxn (d : Dev) (t : HomeTxn) (x : Nat) (dirty clean : Bool) (n : Nat := 0) : Dev :=
  let t' := { t with waits := t.waits.filter (· != x), gotDirty := t.gotDirty || dirty, gotClean := t.gotClean || clean,
                     lines := t.lines + n }
  let d := d.ackHeld t x
  if t'.waits.isEmpty then
    (({ d with txns := d.txns.erase t }).finishTxn t').serveQueued t.slice t.sector (d.txns.length + 1)
  else { d with txns := d.txns.map fun y => if y = t then t' else y }

/-- An answer to the snoop of a victim slot. -/
def Dev.answerVictim (d : Dev) (v : Victim) (x : Nat) : Dev :=
  let left := v.waits.filter (· != x)
  if left.isEmpty then
    ({ d with victims := d.victims.erase v }).serveQueued v.slice v.sector (d.txns.length + 1)
  else { d with victims := d.victims.map fun y => if y = v then { v with waits := left } else y }

/-- Dirty data received at the home: written once; to a remote home it goes as a WrBack, or with the answer to that
home's own snoop (R246, R371). -/
def Dev.answerData (d : Dev) (sector : Nat) (snoop : Bool) (ls : List (Fin 4 × Line)) : Dev :=
  ls.foldl (fun d l =>
    let a := sector + 64 * l.1.val
    let d := d.rawWrite a (d.underStores a l.2)
    match d.homeAgent a with
    | none => d.sliceWrite a
    | some h => if snoop then d else d.emit (.coh h (if d.poisonAt a = .clean then 27 else 28) a 0 (d.poisonAt a))) d

/-- An answer reaches the home. -/
def Dev.answered (d : Dev) (x a : Nat) (ls : List (Fin 4 × Line)) (dirty clean : Bool) : Dev :=
  let sector := sectorOf (d.localForm a)
  match d.txns.find? fun t => t.opened && t.sector == sector && t.waits.contains x with
  | some t => (d.answerData sector t.kind.isSnoop ls).answerTxn t x dirty clean ls.length
  | none =>
    match d.victims.find? fun v => v.sector == sector && v.waits.contains x with
    | some v => (d.answerData sector false ls).answerVictim v x
    | none => d

/-- The lines of a sector that a response carries. -/
def sectorLines (ls : Vector (Option Bytes64) 4) : List (Fin 4 × Line) :=
  (List.finRange 4).filterMap fun i => ls[i].map fun b => (i, b.toList)

/-- RSPDATA (R243 to R246). -/
def execRspdata (agent : Fin 24) (sector : BitVec 52) (ls : Vector (Option Bytes64) 4) (s : State) :
    Host.Outcome State Fault Refusal :=
  s.act fun d => d.answered agent.val sector.toNat (sectorLines ls) true false

/-- RSPCLEAN (R243 to R246). -/
def execRspclean (agent : Fin 24) (sector : BitVec 52) (s : State) : Host.Outcome State Fault Refusal :=
  s.act fun d => d.answered agent.val sector.toNat [] false true

/-- RSPMISS (R243 to R246). -/
def execRspmiss (agent : Fin 24) (sector : BitVec 52) (s : State) : Host.Outcome State Fault Refusal :=
  s.act fun d => d.answered agent.val sector.toNat [] false false

/-! ### Accesses of the IO die (R290) -/

/-- The sectors of [a, a + n). -/
def sectorsOf (a n : Nat) : List Nat :=
  if n = 0 then [] else (List.range ((a + n - 1) / 256 - a / 256 + 1)).map fun k => sectorOf a + 256 * k

/-- The requests of an IO-die access at its channels: whole lines, and parts of lines (R268, R274). -/
def Dev.ioAsk (d : Dev) (write openHint : Bool) (sector a n : Nat) : Dev :=
  let ls := (linesOf a n).filter fun l => sectorOf l == sector
  let whole := fun (l : Nat) => decide (a ≤ l ∧ l + 64 ≤ a + n)
  if write then
    (d.memAsk 8 true false openHint (ls.filter whole)).memAsk 8 true true openHint (ls.filter fun l => !whole l)
  else d.memAsk 8 false false openHint ls

/-- A write at the home by the DMA engine, the rings, the ingest controller or the compression
engines: every holder is invalidated at once (log entry 16). The DMA engine's hint is OPEN (R273). -/
def Dev.ioWrote (d : Dev) (a n : Nat) (openHint : Bool := false) : Dev :=
  (sectorsOf a n).foldl (fun d sector =>
    let d := d.checkDir (d.sliceOf sector) sector
    let d := match d.findDir sector with
      | some e => (d.snoop e.slice sector true e.bcast ((d.holders e 24).filter fun x => decide (16 ≤ x))).dropDir sector
      | none => d
    let d := { d with lines := d.lines.filter fun l => sectorOf l.addr != sector }
    d.ioAsk true openHint sector a n) d

/-- A read at the home by the same, before its data is taken: an owner keeps a clean copy, and an uncorrectable
line is found (R265). -/
def Dev.ioRead (d : Dev) (a n : Nat) (openHint : Bool := false) : Dev :=
  (sectorsOf a n).foldl (fun d sector =>
    let d := d.checkDir (d.sliceOf sector) sector
    let d := match d.findDir sector with
      | some e =>
        if e.excl then
          ((d.snoop e.slice sector false false ((d.holders e 24).filter fun x => decide (16 ≤ x))).setDir e.shared)
        else d
      | none => d
    let lines := mapIf (fun (l : CLine) => sectorOf l.addr == sector) (fun l => { l with st := .s, stale := none }) d.lines
    ({ d with lines := lines } : Dev).ioAsk false openHint sector a n) ((linesOf a n).foldl Dev.findUe d)

/-- Store bytes at a device offset from the IO die. -/
def Dev.ioStore (d : Dev) (a : Nat) (bs : List Byte) (openHint : Bool := false) : Dev :=
  (linesOf a bs.length).foldl (fun d l => d.lineWritten l (decide (a ≤ l ∧ l + 64 ≤ a + bs.length)))
    ((d.st a bs).ioWrote a bs.length openHint)

/-! ### Dead agents (R248) -/

/-- The walk reaches an entry: steps 3 and 4. -/
def Dev.scrubEntry (d : Dev) (x : Nat) (e : DirEnt) : Dev :=
  if d.plantedMode 5 e.slice e.sector = 2 then d.checkDir e.slice e.sector else
  let pinned := (d.openTxn e.sector).isSome
  if !e.ptrs.contains x then d
  else if e.excl then
    let d := d.loseSector e
    if pinned then d.setDir { e with excl := false, ptrs := [] } else d.dropDir e.sector
  else
    let ptrs := e.ptrs.filter (· != x)
    if ptrs.isEmpty && !e.bcast && !pinned then d.dropDir e.sector else d.setDir { e with ptrs := ptrs }

/-- Step 5: a filter entry whose home has died; dirty lines in caches and write-back buffers are discarded. -/
def Dev.orphanEntry (d : Dev) (x : Nat) (e : DirEnt) : Dev :=
  if d.homeAgent e.sector ≠ some x then d
  else
    let dirty := (d.lines.filter fun l => sectorOf l.addr == e.sector && l.st == .m).length +
      (d.wbb.filter fun w => sectorOf w.2 == e.sector).length
    let d := d.snoop e.slice e.sector true e.bcast (d.holders e 24)
    let d := { d with lines := d.lines.filter (fun l => sectorOf l.addr != e.sector),
                      wbb := d.wbb.filter fun w => sectorOf w.2 != e.sector }
    (if dirty = 0 then d else d.count .DIR_POISONED dirty).dropDir e.sector

/-- A transaction of the dead agent ends with no grant. -/
def HomeTxn.orphan (t : HomeTxn) : HomeTxn :=
  { t with agent := 24, kind := if t.kind.invalidates then .flush else .clean }

/-- An agent dies: its bit clears, its snoops are answered and the directory is scrubbed. -/
def Dev.killAgent (d : Dev) (x : Nat) : Dev :=
  if !d.live x then d
  else
    let d := d.put F.DIR_AGENT_LIVE_LIVE (setBits (d.get F.DIR_AGENT_LIVE_LIVE) x 1 0)
    let d := (d.put F.DIR_SCRUB_ACTIVE 1).put F.DIR_SCRUB_AGENT x
    let txns := (d.txns.filter fun t => t.opened || t.agent != x).map fun t => if t.agent = x then t.orphan else t
    let d := { d with scrubs := d.scrubs ++ [x], txns := txns }
    let d := d.dir.foldl (fun d e => (d.scrubEntry x e).orphanEntry x e) d
    let d := { d with lines := d.lines.filter fun l => l.agent != x,
                      misses := d.misses.filter fun m => m.cluster != x,
                      missWait := d.missWait.filter fun m => m.reader.cluster != x,
                      hints := d.hints.filter fun h => h.1 != x,
                      wbb := d.wbb.filter fun w => w.1 != x, maint := d.maint.filter fun m => m.1 != x }
    let d := d.txns.foldl (fun d t => if t.opened && t.waits.contains x then d.answerTxn t x false false else d) d
    d.victims.foldl (fun d v =>
      if !v.waits.contains x then d
      else if v.excl then (d.loseLines v.sector).answerVictim v x
      else d.answerVictim v x) d

/-- An agent is readmitted after its scrub (R248, R381, R473). -/
def Dev.reviveAgent (d : Dev) (x : Nat) : Dev :=
  d.put F.DIR_AGENT_LIVE_LIVE (setBits (d.get F.DIR_AGENT_LIVE_LIVE) x 1 1)

/-- The scrub for a fenced peer is complete (R380). -/
def Dev.markScrubbed (d : Dev) (x : Nat) : Dev :=
  if x < 17 then d
  else
    let k := (x - 16 + d.get F.LNK_SPAN_CFG_SPAN_NO) % 8
    d.put F.LNK_SPAN_STATUS_SCRUBBED (setBits (d.get F.LNK_SPAN_STATUS_SCRUBBED) k 1 1)

/-- SCRUB_COMPLETE (R248). -/
def execScrubComplete (s : State) : Host.Outcome State Fault Refusal :=
  s.act fun d =>
    match d.scrubs with
    | [] => d
    | x :: rest =>
      let d := ({ d with scrubs := rest }.bump16 F.DIR_SCRUB_COUNT).markScrubbed x
      match rest.head? with
      | none => d.put F.DIR_SCRUB_ACTIVE 0
      | some y => d.put F.DIR_SCRUB_AGENT y

end Sys2Proof.Machine
end

