-- ==== Sys2Proof/Machine/Demand.lean ====
section
/-! DEFINITION. What an access of a tile does at its cluster's column cache: hits, misses, merged and waiting
requests (R225 to R230), non-allocating and uncached accesses (R227, R231, R232, R238), and prefetches (R235). The
data itself is the coherent view of memory (log entry 16). -/

namespace Sys2Proof.Machine

/-! ### Requests to the home -/

/-- The span group of a pod. -/
def Dev.spanGroup (d : Dev) (pod : Nat) : Nat := d.get F.LNK_POD_SPAN_GROUP pod

/-- Send the request of a miss register: RdShared, RdUnique, or Upgrade for a line held in S (R243). -/
def Dev.sendMiss (d : Dev) (m : MissReg) : Dev :=
  let code := if !m.store then 20 else if (d.findLine m.cluster m.addr).isSome then 22 else 21
  d.emit (.coh (32 + d.sliceOf m.addr) code m.addr (d.spanGroup m.pod))

/-- Take a miss register. -/
def Dev.takeMiss (d : Dev) (q : Reader) (a : Nat) (store pf : Bool) (old : Line) : Dev :=
  let m : MissReg :=
    { cluster := q.cluster, addr := a, pod := q.pod, store := store, prefetch := pf,
      secondaries := [], maint := 0, fill := 0, fillPoison := .clean, way := 0,
      openHint := q.openHint, old := old }
  { d with misses := d.misses ++ [m] }.sendMiss m

/-- An access of a tile that goes to the home uncached: RdOnce, or the write of a stage (R227, R238). -/
def Dev.uncached (d : Dev) (c pod a : Nat) (k : ReqKind) : Dev :=
  if d.target a == .nowhere then d else d.admitTxn { d.txnOf c a false k with group := d.spanGroup pod }

/-! ### Prefetches (R235) -/

/-- Issue one prefetch: not for a line cached or pending, within PF_MR_MAX. -/
def Dev.prefetchLine (d : Dev) (q : Reader) (a : Nat) (b : Int) : Dev :=
  if b < 0 ∨ b / 2 ^ 30 ≠ (a / 2 ^ 30 : Nat) then d else
  let b := b.toNat
  if (d.findLine q.cluster b).isSome || (d.findMiss q.cluster b).isSome || !d.missRoom q.cluster ||
      decide (d.get F.CCH_CTRL_PF_MR_MAX q.cluster ≤ d.prefetchCount q.cluster) then d
  else d.takeMiss q b false true []

/-- A confirmed entry keeps PF_DEPTH lines in flight. -/
def Dev.prefetch (d : Dev) (q : Reader) (a : Nat) : Dev :=
  if d.get F.CCH_CTRL_PF_EN q.cluster = 0 ∨ d.get F.CCH_CTRL_MODE q.cluster = 1 then d else
  match d.streamOf q with
  | some x =>
    if !x.confirmed then d else
    (List.range (d.get F.CCH_CTRL_PF_DEPTH q.cluster)).foldl (fun d (k : Nat) =>
      d.prefetchLine { q with openHint := x.stride == 1 || x.stride == -1 } a
        ((a : Int) + x.stride * 64 * ((k : Int) + 1))) d
  | none => d

/-- A demand miss trains its stream. -/
def Dev.train (d : Dev) (q : Reader) (a : Nat) : Dev :=
  d.putStream (((d.streamOf q).getD (PfStream.fresh q)).missed a)

/-! ### Errors met at a use (R225, R265, R482) -/

/-- A planted cache fault is found at the next use of its line (R225, R470): corrected; a clean line is invalidated,
to be fetched again; a dirty line is poisoned. -/
def Dev.cacheCheck (d : Dev) (l : CLine) : Dev :=
  let mode := d.plantedMode 4 l.agent l.addr
  if mode = 0 then d
  else
    let d := d.unplant 4 l.agent l.addr
    let e : ErrInfo :=
      { cls := 0x07, pod := d.podOfAddr l.addr, srcKind := 1, source := l.agent, addr := l.addr, injected := true }
    if mode = 1 then d.report e
    else if l.st = .m then ((d.setLine { l with poison := .ue }).setPoison l.addr .ue).report { e with cls := 0x08 }
    else (d.dropLine l.agent l.addr).report e

/-- What the use of a line finds: an error of the cached copy, or of the memory that a miss reads. -/
def Dev.lookLine (d : Dev) (q : Reader) (a : Nat) : Dev :=
  match if d.cachedFor q.cluster q.pod then d.findLine q.cluster a else none with
  | some l => d.cacheCheck l
  | none => d.findUe a

/-- What reading [a, a + n) finds, before its data is used. -/
def Dev.look (d : Dev) (q : Reader) (a n : Nat) : Dev :=
  if d.errs.planted.isEmpty then d else (linesOf a n).foldl (fun d l => d.lookLine q l) d

/-! ### Demand accesses (R229, R231, R242) -/

/-- A demand hit: counted, and a prefetched line's first one is useful (R235, R251). -/
def Dev.demandHit (d : Dev) (l : CLine) : Dev :=
  let d := d.count .CCH_HIT 1 l.agent
  if l.prefetched then (d.count .CCH_PF_USEFUL 1 l.agent).setLine { l with prefetched := false } else d

/-- A demand miss (R229): it merges into a pending register, up to 8 secondaries, or takes a free register; a ninth
request, one that meets an attached operation (R237) and one with no register wait in arrival order. -/
def Dev.demandMiss (d : Dev) (r : CacheReq) : Dev :=
  let c := r.reader.cluster
  match d.findMiss c r.addr with
  | some m =>
    if m.maint != 0 || decide (8 ≤ m.secondaries.length) then { d with missWait := d.missWait ++ [r] }
    else d.onMiss c r.addr fun m =>
      { m with secondaries := m.secondaries ++ [r], store := m.store || r.store,
               old := if m.store || !r.store then m.old else r.old }
  | none =>
    if d.missRoom c then (d.takeMiss r.reader r.addr r.store false r.old).count .CCH_MISS 1 c
    else { d with missWait := d.missWait ++ [r] }

/-- The first miss of a line by its stream: the prefetcher is trained unless the line is pending already. -/
def Dev.firstMiss (d : Dev) (r : CacheReq) : Dev :=
  (if (d.findMiss r.reader.cluster r.addr).isSome then d else d.train r.reader r.addr).demandMiss r

/-- One line read by a stage. -/
def Dev.demandRead (d : Dev) (q : Reader) (a : Nat) : Dev :=
  let d := d.lookLine q a
  if !d.cachedFor q.cluster q.pod then d.uncached q.cluster q.pod a .rdOnce
  else
    let d := match d.findLine q.cluster a with
      | some l => d.demandHit l
      | none => d.firstMiss { reader := q, addr := a, store := false, old := [] }
    d.prefetch q a

/-- A store that hits: an owned line becomes M, a shared one asks for ownership (R242, R244). -/
def Dev.storeHit (d : Dev) (r : CacheReq) (l : CLine) : Dev :=
  let d := d.demandHit l
  match l.st with
  | .s => d.demandMiss r
  | .e => d.setLine { l with prefetched := false, st := .m, stale := some r.old }
  | .m => d

/-- A cached store's hint waits for the line to reach its home (R247). -/
def Dev.keepHint (d : Dev) (c a hint : Nat) : Dev :=
  if 8 ≤ hint then { d with hints := (c, a, hint) :: d.hints.filter fun h => !(h.1 == c && h.2.1 == a) } else d

/-- A stage's store: its write hint, whether it is an atomic (R232), and whether it fills the line. -/
structure StoreKind where
  hint : Nat
  atomic : Bool
  full : Bool
  deriving DecidableEq, Repr

/-- The message of an uncached store. -/
def StoreKind.code (k : StoreKind) : Nat := if k.atomic then 26 else if k.full then 24 else 25

/-- One line stored by a stage; `old` is the line before. -/
def Dev.demandStore (d : Dev) (q : Reader) (a : Nat) (k : StoreKind) (old : Line) : Dev :=
  let r : CacheReq := { reader := q, addr := a, store := true, old := old }
  if !d.cachedFor q.cluster q.pod then d.uncached q.cluster q.pod a (.stageWr k.code k.hint old)
  else
    let x := ((d.streamOf q).getD (PfStream.fresh q)).stored a k.full (d.get F.CCH_CTRL_SD_EN q.cluster == 1)
    let d := d.putStream x.1
    let d := match d.findLine q.cluster a with
      | some l => (d.storeHit r l).keepHint q.cluster a k.hint
      | none =>
        if x.2 then (d.firstMiss r).keepHint q.cluster a k.hint
        else (d.count .CCH_NOALLOC 1 q.cluster).uncached q.cluster q.pod a (.stageWr 24 k.hint old)
    d.prefetch q a

/-- A request that waited tries again; it does not train the prefetcher twice. -/
def Dev.retryAccess (d : Dev) (r : CacheReq) : Dev :=
  let q := r.reader
  if !d.cachedFor q.cluster q.pod then
    d.uncached q.cluster q.pod r.addr (if r.store then .stageWr 25 0 r.old else .rdOnce)
  else match d.findLine q.cluster r.addr with
    | some l => if r.store then d.storeHit r l else d.demandHit l
    | none => d.demandMiss r

/-- The requests that wait at a cluster's crossbar try again, in arrival order. -/
def Dev.serveWaiting (d : Dev) (c : Nat) : Dev :=
  if d.cacheStalled c then d else
  (d.missWait.filter fun r => r.reader.cluster == c).foldl Dev.retryAccess
    { d with missWait := d.missWait.filter fun r => r.reader.cluster != c }

/-- A stage reads [a, a + n) of device memory through the column cache. -/
def Dev.touch (d : Dev) (q : Reader) (a n : Nat) : Dev :=
  (linesOf a n).foldl (fun d l => d.demandRead q l) d

/-- A stage writes bytes to device memory at offset `a`. -/
def Dev.stageStore (d : Dev) (q : Reader) (hint : Nat) (atomic : Bool) (a : Nat) (bs : List Byte) : Dev :=
  ((linesOf a bs.length).foldl (fun d l =>
    d.demandStore q l { hint := hint, atomic := atomic, full := decide (a ≤ l ∧ l + 64 ≤ a + bs.length) } (d.ld l 64))
    d).st a bs

end Sys2Proof.Machine
end

