-- ==== Sys2Proof/Machine/Cache.lean ====
section
/-! DEFINITION. The column caches as agents (R225 to R238): fills and their victims, the write-back
buffer, maintenance, disabling, DZ4400 mode, stashes (R247), and the tile store's patrol scrub and
zeroing (R222 to R224). -/

namespace Sys2Proof.Machine

/-! ### Replacement (R227, R228) -/

/-- One step of the replacement LFSR (R228). -/
def lfsrStep (v : Nat) : Nat :=
  let b := (v.testBit 15 ^^ v.testBit 13 ^^ v.testBit 12 ^^ v.testBit 10).toNat
  (v * 2 + b) % 2 ^ 16

/-- Lines of a cluster's set. -/
def Dev.setLines (d : Dev) (c a : Nat) : List CLine := d.lines.filter fun l => l.agent == c && cacheSet l.addr == cacheSet a

/-- Candidate ways of a pod in the set of a line: not waiting on a fill. -/
def Dev.wayCandidates (d : Dev) (c pod a : Nat) : List Nat :=
  (List.range 16).filter fun w =>
    (d.get F.CCH_POD_WAYS_WAYS c pod).testBit w &&
      !(d.misses.any fun m => m.cluster == c && m.fill != 0 && m.way == w && cacheSet m.addr == cacheSet a)

/-- What R227 chooses: a way and the line that must leave it, with the device after the LFSR's step. -/
structure Choice where
  d : Dev
  way : Nat
  victim : Option CLine

/-- Choose among candidate ways; `none` without one. -/
def Dev.chooseWay (d : Dev) (c a : Nat) (ws : List Nat) : Option Choice :=
  let lines := d.setLines c a
  match ws.find? fun w => !(lines.any fun l => l.way == w) with
  | some w => some { d := d, way := w, victim := none }
  | none =>
    if ws.isEmpty then none
    else
      let v := lfsrStep (d.get F.CCH_LFSR_VALUE c)
      let w := ws.getD (v % ws.length) 0
      some { d := d.put F.CCH_LFSR_VALUE v c, way := w, victim := lines.find? fun l => l.way == w }

/-! ### The write-back buffer (R230) -/

/-- The buffer of a cluster holds a line. -/
def Dev.wbbBusy (d : Dev) (c : Nat) : Bool := d.wbb.any fun w => w.1 == c

/-- A dirty line moves into the buffer and its write-back goes to the home; the cache keeps it as E or
loses it. -/
def Dev.toBuffer (d : Dev) (l : CLine) (keep : Bool) : Dev :=
  let d := if keep then d.setLine { l with st := .e, stale := none } else d.dropLine l.agent l.addr
  let d := { d with wbb := d.wbb ++ [(l.agent, l.addr)] }.count .CCH_WB 1 l.agent
  d.emit (.coh (32 + d.sliceOf l.addr) (if l.poison = .clean then 27 else 28) l.addr 0 l.poison)

/-! ### Maintenance by address at a line (R236, R237) -/

/-- DISCARD_LINE: memory keeps its older contents. -/
def Dev.discardLine (d : Dev) (l : CLine) : Dev :=
  let d := match l.stale with
    | some old => d.rawWrite l.addr old
    | none => d
  d.dropLine l.agent l.addr

/-- Apply an operation to a line of the cache; a dirty line that must be written back waits for the
buffer. -/
def Dev.maintLine (d : Dev) (c op a : Nat) : Dev :=
  match d.findLine c a with
  | none => d
  | some l =>
    if op = 3 then d.discardLine l
    else if l.st = .m then (if d.wbbBusy c then d else d.toBuffer l (op == 1))
    else if op = 2 then d.dropLine c a
    else d

/-- The dirty line that the cluster's operation writes back next. -/
def Dev.maintNext (d : Dev) (c : Nat) : Option (CLine × Bool) :=
  let dirty := d.lines.filter fun l => l.agent == c && l.st == .m
  if d.get F.CCH_CTRL_EN c = 2 then dirty.head?.map fun l => (l, false)
  else match d.maint.find? fun m => m.1 == c && !m.2.2.2 with
    | some (_, op, a, _) =>
      if op = 4 ∨ op = 5 then dirty.head?.map fun l => (l, op == 4)
      else if op = 3 ∨ (d.findMiss c a).isSome = true then none
      else (dirty.find? fun l => l.addr == a).map fun l => (l, op == 1)
    | none => none

/-! ### Fills (R227, R229, R230, R237) -/

/-- The register of a fill is freed and its line installed in a way. The primary request and the merged ones are
served: a store needs ownership, so a clean fill is followed by an Upgrade for the stores among them. Then an attached
operation is applied, and requests that waited try again (R229, R237). -/
def Dev.install (d : Dev) (m : MissReg) (kind : Nat) (p : Poison) (way : Nat) : Dev :=
  let c := m.cluster
  let d := { d with misses := d.misses.filter fun x => !(x.cluster == c && x.addr == m.addr) }
  let dirty := kind == 2 && m.store
  let d := d.setLine
    { agent := c, addr := m.addr, way := way, st := if dirty then .m else if kind = 2 then .e else .s,
      prefetched := m.prefetch, poison := p, stale := if dirty then some m.old else none }
  if kind = 1 && m.store then
    let up := { m with prefetch := false, secondaries := m.secondaries.filter (fun r => r.store), fill := 0 }
    ({ d with misses := d.misses ++ [up] }.sendMiss up).serveWaiting c
  else (if m.maint = 0 then d else d.maintLine c m.maint m.addr).serveWaiting c

/-- A fill that allocates nothing: its requests proceed uncached (R227 step 3, R238). -/
def Dev.deliver (d : Dev) (m : MissReg) : Dev :=
  let c := m.cluster
  let d := { d with misses := d.misses.filter fun x => !(x.cluster == c && x.addr == m.addr) }
  let ask := fun (d : Dev) (store : Bool) (old : Line) =>
    d.uncached c m.pod m.addr (if store then .stageWr 25 0 old else .rdOnce)
  let merged := m.secondaries.any fun r => r.store
  let d := if m.prefetch then d else ask d (m.store && !merged) m.old
  (m.secondaries.foldl (fun d r => ask d r.store r.old) d).serveWaiting c

/-- A fill arrives: `kind` 1 clean, 2 with ownership. -/
def Dev.fill (d : Dev) (m : MissReg) (kind : Nat) (p : Poison) : Dev :=
  let c := m.cluster
  match d.findLine c m.addr with
  | some l => d.install m kind p l.way
  | none =>
    let ws := if d.get F.CCH_CTRL_EN c = 1 then d.wayCandidates c m.pod m.addr else []
    match d.chooseWay c m.addr ws with
    | none => d.deliver m
    | some x =>
      match x.victim with
      | none => x.d.install m kind p x.way
      | some v =>
        if v.st ≠ .m then (x.d.dropLine c v.addr).install m kind p x.way
        else if x.d.wbbBusy c then
          x.d.onMiss c m.addr fun m => { m with fill := kind, fillPoison := p, way := x.way }
        else (x.d.toBuffer v false).install m kind p x.way

/-- A waiting fill takes the buffer for its victim. -/
def Dev.resumeFill (d : Dev) (m : MissReg) : Dev :=
  match (d.setLines m.cluster m.addr).find? fun l => l.way == m.way with
  | some v =>
    (if v.st = .m then d.toBuffer v false else d.dropLine m.cluster v.addr).install m m.fill m.fillPoison m.way
  | none => d.install m m.fill m.fillPoison m.way

/-- The buffer is free: a waiting fill goes first, then maintenance or disabling. -/
def Dev.pump (d : Dev) (c : Nat) : Dev :=
  if d.wbbBusy c then d
  else match d.misses.find? fun m => m.cluster == c && m.fill != 0 with
    | some m => d.resumeFill m
    | none =>
      match d.maintNext c with
      | some (l, keep) => d.toBuffer l keep
      | none => d

/-- A fill for an agent (R229). A control core's data cache installs the line as it is; ownership of a
host line is logged for the pod (R350). -/
def Dev.filled (d : Dev) (x a kind : Nat) (p : Poison) : Dev :=
  let a := lineOf (d.localForm a)
  let d := if p = .clean then d else d.markLine a p
  if 8 ≤ x then
    d.setLine { agent := x, addr := a, way := 0, st := if kind = 2 then .e else .s, prefetched := false, poison := p, stale := none }
  else match d.findMiss x a with
    | some m =>
      if m.fill ≠ 0 then d
      else
        let d := if kind = 2 && d.homeAgent a == some 16 && decide (m.pod < 64) then d.logPage m.pod (a % 2 ^ 51 / 4096) else d
        (d.plantIf 4 x a).fill m kind p
    | none => d

/-- DATAS (R229). -/
def execDatas (agent : Fin 16) (addr : BitVec 52) (poison : Poison) (s : State) : Host.Outcome State Fault Refusal :=
  s.act fun d => d.filled agent.val addr.toNat 1 poison

/-- DATAE (R229). -/
def execDatae (agent : Fin 16) (addr : BitVec 52) (poison : Poison) (s : State) : Host.Outcome State Fault Refusal :=
  s.act fun d => d.filled agent.val addr.toNat 2 poison

/-- A completion gives write permission for a line held in S (R243, R244). -/
def Dev.completedLine (d : Dev) (x a : Nat) : Dev :=
  match d.findLine x a with
  | none => d
  | some l =>
    if 8 ≤ x then d.setLine { l with st := if l.st = .m then .m else .e }
    else match d.findMiss x a with
      | some m => d.install m 2 l.poison l.way
      | none => d

/-- CMP (R243). -/
def execCmp (agent : Fin 16) (addr : BitVec 52) (s : State) : Host.Outcome State Fault Refusal :=
  s.act fun d => d.completedLine agent.val (lineOf (d.localForm addr.toNat))

/-- The write of a line has completed at its home: the hint of the store goes there (R247). -/
def Dev.stashHeld (d : Dev) (c a : Nat) : Dev :=
  match d.hints.find? fun h => h.1 == c && h.2.1 == a with
  | some h => ({ d with hints := d.hints.filter fun h => !(h.1 == c && h.2.1 == a) }).sendStash h.2.2 a
  | none => d

/-- WBACK (R230). -/
def execWback (c : Fin 8) (addr : BitVec 52) (s : State) : Host.Outcome State Fault Refusal :=
  s.act fun d =>
    let a := lineOf (d.localForm addr.toNat)
    if d.wbb.contains (c.val, a) then (({ d with wbb := d.wbb.erase (c.val, a) }).stashHeld c.val a).pump c.val else d

/-! ### Maintenance (R236, R237) -/

/-- A maintenance write is refused. -/
def Dev.maintReject (d : Dev) (c : Nat) : Dev := d.put F.CCH_STATUS_MAINT_REJ 1 c

/-- An operation of this cache starts. -/
def Dev.maintLocal (d : Dev) (c op a : Nat) : Dev :=
  let d := { d with maint := d.maint ++ [(c, op, a, false)] }
  if op ≤ 3 then
    match d.findMiss c a with
    | some _ => d.onMiss c a fun m => { m with maint := op }
    | none => d.maintLine c op a
  else
    let d := if op = 5 then { d with lines := d.lines.filter fun l => !(l.agent == c && l.st != .m) } else d
    d.pump c

/-- An operation at the home starts. -/
def Dev.maintGlobal (d : Dev) (c op a : Nat) : Dev :=
  let d := { d with maint := d.maint ++ [(c, op, a, true)] }
  if d.target a == .nowhere then d else d.admitTxn (d.txnOf c a false (if op = 1 then .clean else .flush))

/-- A write to CCH_MAINT with the address register as it stands. -/
def Dev.maintWrite (d : Dev) (c op : Nat) (global : Bool) : Dev :=
  let a := d.localForm (d.get F.CCH_MAINT_ADDR_ADDR c * 64)
  if d.maint.any fun m => m.1 == c then d.maintReject c
  else
    if global && decide (3 ≤ op ∧ op ≤ 5) then d.maintReject c
    else
    let d := d.put F.CCH_MAINT_GLOBAL global.toNat c
    if op = 0 ∨ 6 ≤ op then d
    else if global then d.maintGlobal c op a
    else d.maintLocal c op a

/-- The two writes that start an operation by address. -/
def Dev.maintAt (d : Dev) (c op : Nat) (global : Bool) (a : Nat) : Dev :=
  (d.put F.CCH_MAINT_ADDR_ADDR (a / 64) c).maintWrite c op global

/-- CLEAN_LINE (R236). -/
def execCleanLine (c : Fin 8) (global : Bool) (addr : BitVec 52) (s : State) : Host.Outcome State Fault Refusal :=
  s.act fun d => d.maintAt c.val 1 global addr.toNat

/-- FLUSH_LINE (R236). -/
def execFlushLine (c : Fin 8) (global : Bool) (addr : BitVec 52) (s : State) : Host.Outcome State Fault Refusal :=
  s.act fun d => d.maintAt c.val 2 global addr.toNat

/-- DISCARD_LINE (R236). -/
def execDiscardLine (c : Fin 8) (global : Bool) (addr : BitVec 52) (s : State) : Host.Outcome State Fault Refusal :=
  s.act fun d => d.maintAt c.val 3 global addr.toNat

/-- CLEAN_ALL (R236). -/
def execCleanAll (c : Fin 8) (global : Bool) (s : State) : Host.Outcome State Fault Refusal :=
  s.act fun d => d.maintWrite c.val 4 global

/-- FLUSH_ALL (R236). -/
def execFlushAll (c : Fin 8) (global : Bool) (s : State) : Host.Outcome State Fault Refusal :=
  s.act fun d => d.maintWrite c.val 5 global

/-- The operation has nothing left to do. -/
def Dev.maintDone (d : Dev) (c op a : Nat) (global : Bool) : Bool :=
  if global then !(d.txns.any fun t => t.agent == c && t.kind.isMaint)
  else if 4 ≤ op then (d.maintNext c).isNone && !d.wbbBusy c
  else !(d.misses.any fun m => m.cluster == c && m.addr == a && m.maint != 0) && (d.maintNext c).isNone &&
    !d.wbb.contains (c, a)

/-- MAINT_COMPLETE (R237). -/
def execMaintComplete (c : Fin 8) (s : State) : Host.Outcome State Fault Refusal :=
  s.act fun d =>
    match d.maint.find? fun m => m.1 == c.val with
    | some (_, op, a, global) =>
      if d.maintDone c.val op a global then { d with maint := d.maint.filter fun m => m.1 != c.val } else d.pump c.val
    | none => d

/-! ### CCH_CTRL (R233, R234, R238, R251) -/

/-- A write to CCH_CTRL. -/
def Dev.cchCtrlWrite (d : Dev) (c v : Nat) (keepLow : Bool) : Dev :=
  if keepLow then d
  else
    let en := d.get F.CCH_CTRL_EN c
    let d := d.applyPlain ⟨.CCH_CTRL, c, 0⟩ (setBits v 0 2 en) false
    let want := fieldIn F.CCH_CTRL_EN v
    if en = 1 ∧ want = 0 then
      let d := d.put F.CCH_CTRL_EN 2 c
      ({ d with lines := d.lines.filter fun (l : CLine) => !(l.agent == c && l.st != CState.m) }).pump c
    else if en = 0 ∧ want = 1 then
      ({ d with lines := d.lines.filter fun l => l.agent != c }).put F.CCH_CTRL_EN 1 c
    else d

/-- DZ4400_MODE_REQUEST (R234). -/
def execDz4400ModeRequest (c : Fin 8) (a : RegAccess) (s : State) : Host.Outcome State Fault Refusal :=
  s.act fun d => d.access a ⟨.CCH_CTRL, c.val, 0⟩ fun d v k => d.cchCtrlWrite c.val v k

/-- DZ4400_MODE_SWITCH (R234). -/
def execDz4400ModeSwitch (c : Fin 8) (s : State) : Host.Outcome State Fault Refusal :=
  s.act fun d =>
    if d.missCount c.val = 0 then (d.put F.CCH_CTRL_MODE (d.get F.CCH_CTRL_MODE_REQ c.val) c.val).serveWaiting c.val
    else d

/-- CACHE_DISABLE (R238). -/
def execCacheDisable (c : Fin 8) (a : RegAccess) (s : State) : Host.Outcome State Fault Refusal :=
  s.act fun d => d.access a ⟨.CCH_CTRL, c.val, 0⟩ fun d v k => d.cchCtrlWrite c.val v k

/-- CACHE_ENABLE (R238). -/
def execCacheEnable (c : Fin 8) (a : RegAccess) (s : State) : Host.Outcome State Fault Refusal :=
  s.act fun d => d.access a ⟨.CCH_CTRL, c.val, 0⟩ fun d v k => d.cchCtrlWrite c.val v k

/-- CACHE_DISABLE_COMPLETE (R238): no line is left and the last write-back is acknowledged. -/
def execCacheDisableComplete (c : Fin 8) (s : State) : Host.Outcome State Fault Refusal :=
  s.act fun d =>
    if d.get F.CCH_CTRL_EN c.val ≠ 2 then d
    else if d.wbbBusy c.val || (d.maintNext c.val).isSome then d.pump c.val
    else (({ d with lines := d.lines.filter fun l => l.agent != c.val }).put F.CCH_CTRL_EN 0 c.val).serveWaiting c.val

/-! ### Stashes (R247) -/

/-- The cluster becomes a sharer of a stashed line's sector, if the directory can hold it. -/
def Dev.stashDir (d : Dev) (c a : Nat) : Option Dev :=
  match d.findDir (sectorOf a) with
  | none => d.newDir (sectorOf a) c false
  | some e => if e.excl then (if e.ptrs.contains c then some d else none) else some (d.setDir (e.join c))

/-- Install a stashed line for a pod, or drop it. -/
def Dev.stashFor (d : Dev) (c pod a : Nat) : Dev :=
  let dirty := (d.setLines c a).filter fun (l : CLine) => l.st == CState.m
  let ws := (d.wayCandidates c pod a).filter fun w => !(dirty.any fun l => l.way == w)
  match d.chooseWay c a ws with
  | none => d
  | some x =>
    match x.d.stashDir c a with
    | none => x.d
    | some d =>
      let d := match x.victim with
        | some v => d.dropLine c v.addr
        | none => d
      d.setLine { agent := c, addr := a, way := x.way, st := .s, prefetched := false, poison := d.poisonAt a, stale := none }

/-- SNPSTASH (R247). -/
def execSnpstash (c : Fin 8) (addr : BitVec 52) (s : State) : Host.Outcome State Fault Refusal :=
  s.act fun d =>
    let a := lineOf (d.localForm addr.toNat)
    if d.get F.CCH_CTRL_EN c.val ≠ 1 || d.target a == .nowhere || (d.homeAgent a).isSome ||
        (d.findLine c.val a).isSome || d.sectorBusy (sectorOf a) then d
    else match d.podOfAddr a with
      | some p => d.stashFor c.val p a
      | none => d

/-! ### The tile store (R222 to R224) -/

/-- An uncorrectable word of a tile store is poisoned and counted. -/
def Dev.tsUe (d : Dev) (t off : Nat) (injected : Bool) : Dev :=
  let d := { d with tsPoison := (t, off) :: d.tsPoison.filter (· != (t, off)) }.bump16 F.TIL_TS_ECC_UE_COUNT t
  let d := if d.get F.TIL_TS_ECC_ADDR_VALID t = 1 then d
    else (d.put F.TIL_TS_ECC_ADDR_OFFSET off t).put F.TIL_TS_ECC_ADDR_VALID 1 t
  d.report { cls := 0x02, pod := d.podOfTile t, source := t, addr := off, injected := injected }

/-- The scrub reads one line: `off` lies in the word that its check finds bad. -/
def Dev.tsScrub (d : Dev) (t off : Nat) (e : Ecc) : Dev :=
  let hit := d.errs.planted.find? fun x => x.1 == 1 && x.2.1 == t && x.2.2.1 / 64 == off / 64
  let off := ((hit.map fun x => x.2.2.1).getD off) / 8 * 8
  let e := match hit with
    | some x => if x.2.2.2 = 1 then Ecc.corrected else Ecc.uncorrectable
    | none => e
  let d := match hit with
    | some x => d.unplant 1 t x.2.2.1
    | none => d
  if d.tsPoison.contains (t, off) then d
  else match e with
    | .good => d
    | .corrected =>
      (d.bump16 F.TIL_TS_ECC_CE_COUNT t).report
        { cls := 0x01, pod := d.podOfTile t, source := t, addr := off, injected := hit.isSome }
    | .uncorrectable => d.tsUe t off hit.isSome

/-- TS_PATROL_SCRUB (R223). -/
def execTsPatrolScrub (t : Fin 64) (off : BitVec 22) (e : Ecc) (s : State) : Host.Outcome State Fault Refusal :=
  s.act fun d => if d.get F.TIL_TS_SCRUB_EN t.val = 1 then d.tsScrub t.val off.toNat e else d

/-- Every word of a tile's store is zero with fresh check bits (R224); an injection of target 1 fires at
the write of its word (R482). -/
def Dev.zeroStore (d : Dev) (t : Nat) : Dev :=
  let d := { d with tsPoison := d.tsPoison.filter fun x => x.1 != t,
                    slotMarks := d.slotMarks.filter fun x => x.1 != t,
                    errs := { d.errs with planted := d.errs.planted.filter fun x => !(x.1 == 1 && x.2.1 == t) } }
  d.plantIf 1 t d.errs.inj.addr

/-- Zeroing of a tile ends: its store belongs to the pod that owns it, or to none. -/
def Dev.zeroed (d : Dev) (t : Nat) : Dev :=
  let d := (d.zeroStore t).put F.TIL_TS_SCRUB_ZEROING 0 t
  let rest := d.lastPod.filter fun x => x.1 != t
  match d.podOfTile t with
  | some p => { d with lastPod := (t, p) :: rest }
  | none => { d with lastPod := rest }

/-- TILE_ZEROING_DONE (R224). -/
def execTileZeroingDone (t : Fin 64) (s : State) : Host.Outcome State Fault Refusal :=
  s.act fun d => if d.get F.TIL_TS_SCRUB_ZEROING t.val = 1 then d.zeroed t.val else d

end Sys2Proof.Machine
end

