-- ==== Sys2Proof/Machine/Values.lean ====
section
/-! DEFINITION. The value types of R92 with their lane forms, orders and ranges; integer, decimal
and IEEE 754 arithmetic with the overflow modes of R106; casts, dates and timestamps. -/

namespace Sys2Proof.Machine

/-! ### Types -/

/-- A decimal type code (R92). -/
def isDec (t : Nat) : Bool := decide (0x80 ≤ t ∧ t ≤ 0xA6)

/-- The scale of a decimal type. -/
def scaleOf (t : Nat) : Nat := if isDec t then t - 0x80 else 0

/-- Signed integer types. -/
def isSInt (t : Nat) : Bool := decide (0x02 ≤ t ∧ t ≤ 0x06)

/-- Unsigned integer types. -/
def isUInt (t : Nat) : Bool := decide (0x0A ≤ t ∧ t ≤ 0x0D)

/-- Class INT (R104). -/
def isInt (t : Nat) : Bool := isSInt t || isUInt t

/-- Class FLT. -/
def isFlt (t : Nat) : Bool := t == 0x10 || t == 0x11

/-- Class NUM. -/
def isNum (t : Nat) : Bool := isInt t || isDec t || isFlt t

/-- Class TIME. -/
def isTime (t : Nat) : Bool := t == 0x18 || t == 0x19

/-- Class ORD. -/
def isOrd (t : Nat) : Bool := isNum t || isTime t || t == 0x01 || t == 0x20

/-- A type code of R92, dcode included. -/
def typeOk (t : Nat) : Bool := isOrd t || t == 0x21

/-- Bits of an integer-like type (integers, dates, dcode). -/
def intBits (t : Nat) : Nat :=
  if t = 0x02 ∨ t = 0x0A then 8
  else if t = 0x03 ∨ t = 0x0B then 16
  else if t = 0x04 ∨ t = 0x0C ∨ t = 0x18 ∨ t = 0x21 ∨ t = 0x10 then 32
  else if t = 0x06 ∨ isDec t then 128
  else if t = 0x01 then 1
  else 64

/-- Width in bytes of a decoded value, 0 for a string, 1 for a boolean outside packed storage
(R92; dcode counts 4). -/
def byteWidth (t : Nat) : Nat :=
  if t = 0x20 then 0 else if t = 0x01 then 1 else intBits t / 8

/-- The type takes two lanes (R93). -/
def wide (t : Nat) : Bool := t == 0x06 || isDec t

/-- A type with a fixed width (every type but string). -/
def fixedWidth (t : Nat) : Bool := typeOk t && t != 0x20

/-- The greatest unscaled decimal (R92). -/
def decMax : Int := 10 ^ 38 - 1

/-- The range of an integer, date, boolean, dcode or decimal type (R92). -/
def typeMin (t : Nat) : Int :=
  if isDec t then -decMax
  else if isSInt t || isTime t then -(2 ^ (intBits t - 1) : Nat)
  else 0

/-- The upper end of the range. -/
def typeMax (t : Nat) : Int :=
  if isDec t then decMax
  else if isSInt t || isTime t then ((2 ^ (intBits t - 1) : Nat) : Int) - 1
  else ((2 ^ intBits t : Nat) : Int) - 1

/-- A value of a non-string, non-float type is in range. -/
def inRange (t : Nat) (v : Int) : Bool := decide (typeMin t ≤ v ∧ v ≤ typeMax t)

/-- Whether stored bits are read as signed. -/
def signedType (t : Nat) : Bool := isSInt t || isTime t || isDec t

/-! ### IEEE 754 (R111) -/

/-- A float value: NaN, an infinity, or `±n × 2^e`. -/
inductive FV where
  | nan
  | inf (neg : Bool)
  | fin (neg : Bool) (n : Nat) (e : Int)
  deriving DecidableEq, Repr

/-- Significand bits. -/
def fltP (t : Nat) : Nat := if t = 0x10 then 24 else 53

/-- Total bits. -/
def fltBits (t : Nat) : Nat := if t = 0x10 then 32 else 64

/-- Exponent of the least subnormal. -/
def fltEmin (t : Nat) : Int := if t = 0x10 then -149 else -1074

/-- The bit pattern of +∞. -/
def fltInf (t : Nat) : Nat := if t = 0x10 then 0x7F800000 else 0x7FF0000000000000

/-- The canonical quiet NaN (R111). -/
def fltNaN (t : Nat) : Nat := if t = 0x10 then 0x7FC00000 else 0x7FF8000000000000

/-- The sign bit. -/
def fltSign (t : Nat) : Nat := 2 ^ (fltBits t - 1)

/-- Read a bit pattern. -/
def fltDecode (t bits : Nat) : FV :=
  let neg := (bits / fltSign t) % 2 == 1
  let m := bits % fltSign t
  if fltInf t < m then .nan
  else if m = fltInf t then .inf neg
  else
    let q := 2 ^ (fltP t - 1)
    let x := m / q
    if x = 0 then .fin neg m (fltEmin t)
    else .fin neg (m % q + q) (fltEmin t + (x : Int) - 1)

/-- The pattern with a sign put on. -/
def withSign (t : Nat) (neg : Bool) (m : Nat) : Nat := if neg then m + fltSign t else m

/-- `n / d` rounded to an integer, ties to even. -/
def divEven (n d : Nat) : Nat :=
  let q := n / d
  let r := n % d
  if d < 2 * r ∨ (2 * r = d ∧ q % 2 = 1) then q + 1 else q

/-- Divide `n / d` by `2^e` and round to an integer, ties to even. -/
def scaleEven (n d : Nat) (e : Int) : Nat :=
  if 0 ≤ e then divEven n (d * 2 ^ e.toNat) else divEven (n * 2 ^ (-e).toNat) d

/-- The non-negative rational `n / d` rounded to nearest, ties to even; overflow gives +∞. -/
def fltRoundMag (t n d : Nat) : Nat :=
  if n = 0 then 0 else
  let p := fltP t
  let e0 : Int := (Nat.log2 n : Int) - (Nat.log2 d : Int) - (p : Int)
  let big := if 0 ≤ e0 then d * 2 ^ e0.toNat * 2 ^ p ≤ n else d * 2 ^ p ≤ n * 2 ^ (-e0).toNat
  let e1 := if big then e0 + 1 else e0
  let e := if e1 < fltEmin t then fltEmin t else e1
  let m := scaleEven n d e + (e - fltEmin t).toNat * 2 ^ (p - 1)
  if fltInf t ≤ m then fltInf t else m

/-- A signed rational rounded; a zero keeps the sign given. -/
def fltRound (t : Nat) (neg : Bool) (n d : Nat) : Nat := withSign t neg (fltRoundMag t n d)

/-- Signed numerator and denominator of a finite value. -/
def ratOf (neg : Bool) (n : Nat) (e : Int) : Int × Nat :=
  let s : Int := if neg then -(n : Int) else n
  if 0 ≤ e then (s * (2 ^ e.toNat : Nat), 1) else (s, 2 ^ (-e).toNat)

/-- Round a signed rational; an exact zero takes `zneg` as its sign. -/
def fltOfRat (t : Nat) (n : Int) (d : Nat) (zneg : Bool) : Nat :=
  if n = 0 then withSign t zneg 0 else fltRound t (decide (n < 0)) n.natAbs d

/-- The bits of a value. -/
def fltEncode (t : Nat) : FV → Nat
  | .nan => fltNaN t
  | .inf neg => withSign t neg (fltInf t)
  | .fin neg n e => let r := ratOf neg n e; fltOfRat t r.1 r.2 neg

/-- A pattern with every NaN made canonical. -/
def fltCanon (t bits : Nat) : Nat :=
  match fltDecode t bits with
  | .nan => fltNaN t
  | _ => bits

/-- Addition. -/
def fltAdd (t a b : Nat) : Nat :=
  match fltDecode t a, fltDecode t b with
  | .nan, _ => fltNaN t
  | _, .nan => fltNaN t
  | .inf x, .inf y => if x == y then withSign t x (fltInf t) else fltNaN t
  | .inf x, _ => withSign t x (fltInf t)
  | _, .inf y => withSign t y (fltInf t)
  | .fin x n e, .fin y m f =>
    let p := ratOf x n e
    let q := ratOf y m f
    fltOfRat t (p.1 * q.2 + q.1 * p.2) (p.2 * q.2) (x && y)

/-- The sign flipped. -/
def fltNeg (t a : Nat) : Nat :=
  match fltDecode t a with
  | .nan => fltNaN t
  | _ => if fltSign t ≤ a then a - fltSign t else a + fltSign t

/-- The sign cleared. -/
def fltAbs (t a : Nat) : Nat :=
  match fltDecode t a with
  | .nan => fltNaN t
  | _ => a % fltSign t

/-- Multiplication. -/
def fltMul (t a b : Nat) : Nat :=
  match fltDecode t a, fltDecode t b with
  | .nan, _ => fltNaN t
  | _, .nan => fltNaN t
  | .inf x, .inf y => withSign t (x != y) (fltInf t)
  | .inf x, .fin y m _ => if m = 0 then fltNaN t else withSign t (x != y) (fltInf t)
  | .fin x n _, .inf y => if n = 0 then fltNaN t else withSign t (x != y) (fltInf t)
  | .fin x n e, .fin y m f =>
    let p := ratOf false n e
    let q := ratOf false m f
    fltRound t (x != y) (p.1.natAbs * q.1.natAbs) (p.2 * q.2)

/-- Division. -/
def fltDiv (t a b : Nat) : Nat :=
  match fltDecode t a, fltDecode t b with
  | .nan, _ => fltNaN t
  | _, .nan => fltNaN t
  | .inf _, .inf _ => fltNaN t
  | .inf x, .fin y _ _ => withSign t (x != y) (fltInf t)
  | .fin x _ _, .inf y => withSign t (x != y) 0
  | .fin x n e, .fin y m f =>
    if m = 0 then (if n = 0 then fltNaN t else withSign t (x != y) (fltInf t))
    else
      let p := ratOf false n e
      let q := ratOf false m f
      fltRound t (x != y) (p.1.natAbs * q.2) (p.2 * q.1.natAbs)

/-- Remainder of truncated division: exact, with the sign of A (R111). -/
def fltMod (t a b : Nat) : Nat :=
  match fltDecode t a, fltDecode t b with
  | .nan, _ => fltNaN t
  | _, .nan => fltNaN t
  | .inf _, _ => fltNaN t
  | .fin _ _ _, .inf _ => a
  | .fin x n e, .fin _ m f =>
    if m = 0 then fltNaN t
    else
      let p := ratOf false n e
      let q := ratOf false m f
      fltRound t x ((p.1.natAbs * q.2) % (q.1.natAbs * p.2)) (p.2 * q.2)

/-- Order of floats (R121): numbers, then +∞, then NaN; −0 equals +0. -/
def fltCmp (t a b : Nat) : Ordering :=
  match fltDecode t a, fltDecode t b with
  | .nan, .nan => .eq
  | .nan, _ => .gt
  | _, .nan => .lt
  | .inf x, .inf y => if x == y then .eq else if x then .lt else .gt
  | .inf x, _ => if x then .lt else .gt
  | _, .inf y => if y then .gt else .lt
  | .fin x n e, .fin y m f =>
    let p := ratOf x n e
    let q := ratOf y m f
    compare (p.1 * q.2) (q.1 * p.2)

/-! ### Comparison (R121) -/

/-- ASCII case folding of a byte. -/
def foldByte (b : Byte) : Byte := if 0x41 ≤ b.toNat ∧ b.toNat ≤ 0x5A then b + 32 else b

/-- ASCII case folding of a string. -/
def foldCase (cf : Bool) (s : List Byte) : List Byte := if cf then s.map foldByte else s

/-- Byte-by-byte order; a proper prefix sorts first. -/
def bytesCmp : List Byte → List Byte → Ordering
  | [], [] => .eq
  | [], _ :: _ => .lt
  | _ :: _, [] => .gt
  | a :: as, b :: bs => if a.toNat < b.toNat then .lt else if b.toNat < a.toNat then .gt
    else bytesCmp as bs

/-- Compare a value of type `ta` with one of type `tb` (decimals exactly, across scales). -/
def valCmp (ta tb : Nat) (cf : Bool) (a b : Val) : Ordering :=
  match a, b with
  | .str x, .str y => bytesCmp (foldCase cf x) (foldCase cf y)
  | .flt x, .flt y => fltCmp ta x y
  | .int x, .int y => compare (x * 10 ^ scaleOf tb) (y * 10 ^ scaleOf ta)
  | _, _ => .eq

/-! ### Lane forms (R93) -/

/-- The value as stored little-endian at its decoded width (strings have none). -/
def valBytes (t : Nat) : Val → List Byte
  | .int v => leBytes (byteWidth t) (ofSigned (8 * byteWidth t) v)
  | .flt b => leBytes (byteWidth t) b
  | .str s => s

/-- The lane form: 8 bytes, or 16 for the wide types. -/
def laneBytes (t : Nat) : Val → List Byte
  | .int v => if wide t then leBytes 16 (ofSigned 128 v) else leBytes 8 (ofSigned 64 v)
  | .flt b => leBytes 8 b
  | .str s => s

/-- Read a value of a fixed-width type from the low bytes of `n`. -/
def valOfNat (t n : Nat) : Val :=
  if isFlt t then .flt (n % 2 ^ fltBits t)
  else if signedType t then .int (toSigned (intBits t) n)
  else .int ((n % 2 ^ intBits t : Nat) : Int)

/-- The 64-bit number in a single-lane value. -/
def laneNat (t : Nat) (v : Val) : Nat := leNat (laneBytes t v)

/-! ### Overflow modes (R105, R106) -/

/-- What an operation gives for one row: a value, null, or the code of TIL_ARITH_FAULT
(1 ARITH_OVERFLOW, 2 DIV_ZERO, 3 STRING_LIMIT). -/
inductive Res where
  | val (v : Val)
  | null
  | err (code : Nat)
  deriving DecidableEq, Repr

/-- The nearer end of the range. -/
def clampTo (lo hi v : Int) : Int := if v < lo then lo else if hi < v then hi else v

/-- Integer results: modes 0 FAIL, 1 NULL, 2 SATURATE, 3 WRAP. -/
def fitInt (t mode : Nat) (v : Int) : Res :=
  if inRange t v then .val (.int v)
  else if mode = 1 then .null
  else if mode = 2 then .val (.int (clampTo (typeMin t) (typeMax t) v))
  else if mode = 3 then .val (valOfNat t (ofSigned (intBits t) v))
  else .err 1

/-- Results whose WRAP acts as FAIL (dates, floats to integers). -/
def fitHard (t mode : Nat) (v : Int) : Res :=
  if inRange t v then .val (.int v)
  else if mode = 1 then .null
  else if mode = 2 then .val (.int (clampTo (typeMin t) (typeMax t) v))
  else .err 1

/-- Decimal results against the bound ±b (R106, R110). -/
def fitDec (b : Int) (mode : Nat) (v : Int) : Res :=
  if -b ≤ v ∧ v ≤ b then .val (.int v)
  else if mode = 1 then .null
  else if mode = 2 then .val (.int (clampTo (-b) b v))
  else .err 1

/-- `n / d` (d > 0) rounded to an integer, ties to even. -/
def divEvenInt (n : Int) (d : Nat) : Int :=
  if n < 0 then -((divEven n.natAbs d : Nat) : Int) else ((divEven n.natAbs d : Nat) : Int)

/-- `n / d` for a signed divisor, rounded, ties to even. -/
def quotEven (n d : Int) : Int := if d < 0 then divEvenInt (-n) d.natAbs else divEvenInt n d.natAbs

/-- A decimal brought from scale `s` to scale `t`: rounded once, ties to even (R109). -/
def rescaleTo (s t : Nat) (v : Int) : Int :=
  if s ≤ t then v * 10 ^ (t - s) else divEvenInt v (10 ^ (s - t))

/-- A zero divisor of integer or decimal DIV and MOD (R106). -/
def divZero (mode : Nat) : Res := if mode = 1 then .null else .err 2

/-! ### Dates (R114 to R116) -/

/-- Days from 1970-01-01 of a proleptic Gregorian date. -/
def daysOfCivil (y m d : Int) : Int :=
  let y' := if m ≤ 2 then y - 1 else y
  let era := y' / 400
  let yoe := y' - era * 400
  let mp := if 2 < m then m - 3 else m + 9
  let doy := (153 * mp + 2) / 5 + d - 1
  let doe := yoe * 365 + yoe / 4 - yoe / 100 + doy
  era * 146097 + doe - 719468

/-- Year, month and day of a day number. -/
def civilOfDays (z : Int) : Int × Int × Int :=
  let z := z + 719468
  let era := z / 146097
  let doe := z - era * 146097
  let yoe := (doe - doe / 1460 + doe / 36524 - doe / 146096) / 365
  let doy := doe - (365 * yoe + yoe / 4 - yoe / 100)
  let mp := (5 * doy + 2) / 153
  let d := doy - (153 * mp + 2) / 5 + 1
  let m := if mp < 10 then mp + 3 else mp - 9
  (yoe + era * 400 + (if m ≤ 2 then 1 else 0), m, d)

/-- Leap years. -/
def leapYear (y : Int) : Bool := y % 4 == 0 && (y % 100 != 0 || y % 400 == 0)

/-- Days in a month. -/
def monthDays (y m : Int) : Int :=
  if m = 2 then (if leapYear y then 29 else 28)
  else if m = 4 ∨ m = 6 ∨ m = 9 ∨ m = 11 then 30 else 31

/-- Add calendar months to a day number (R115). -/
def addMonths (z b : Int) : Int :=
  let c := civilOfDays z
  let n := c.1 * 12 + (c.2.1 - 1) + b
  let y := n / 12
  let m := n % 12 + 1
  daysOfCivil y m (if monthDays y m < c.2.2 then monthDays y m else c.2.2)

/-- Nanoseconds in a day. -/
def dayNs : Int := 86400000000000

/-- Day number of a date or timestamp. -/
def dayOf (t : Nat) (v : Int) : Int := if t = 0x19 then v / dayNs else v

/-- ISO day of week, Monday 1 (1970-01-01 was a Thursday). -/
def isoDow (z : Int) : Int := (z + 3) % 7 + 1

/-- The ISO week-numbering year and week of a day. -/
def isoWeek (z : Int) : Int × Int :=
  let thursday := z - isoDow z + 4
  let y := (civilOfDays thursday).1
  (y, (thursday - daysOfCivil y 1 1) / 7 + 1)

/-- EXTRACT (R116). -/
def extractField (t aux : Nat) (v : Int) : Int :=
  let z := dayOf t v
  let ns := if t = 0x19 then v % dayNs else 0
  let c := civilOfDays z
  match aux with
  | 0 => c.1
  | 1 => (c.2.1 - 1) / 3 + 1
  | 2 => c.2.1
  | 3 => c.2.2
  | 4 => isoDow z
  | 5 => z - daysOfCivil c.1 1 1 + 1
  | 6 => (isoWeek z).2
  | 7 => (isoWeek z).1
  | 8 => ns / 3600000000000
  | 9 => ns / 60000000000 % 60
  | 10 => ns / 1000000000 % 60
  | _ => ns % 1000000000

/-- The day a TRUNC to a day unit or coarser gives. -/
def truncDay (aux : Nat) (z : Int) : Int :=
  let c := civilOfDays z
  match aux with
  | 0 => daysOfCivil c.1 1 1
  | 1 => daysOfCivil c.1 ((c.2.1 - 1) / 3 * 3 + 1) 1
  | 2 => daysOfCivil c.1 c.2.1 1
  | 3 => z - isoDow z + 1
  | _ => z

/-- TRUNC (R116), before the range check. -/
def truncTime (t aux : Nat) (v : Int) : Int :=
  if aux ≤ 4 then (if t = 0x19 then truncDay aux (v / dayNs) * dayNs else truncDay aux v)
  else if t = 0x18 then v
  else
    let u : Int := if aux = 5 then 3600000000000 else if aux = 6 then 60000000000 else 1000000000
    v - v % u

/-! ### Arithmetic micro-ops on one row (R104, R108, R109) -/

/-- Exact scaled value of A op B in units of 10^-s, rounded once (R109). -/
def decArith (op s t : Nat) (a b : Int) : Int :=
  let k := max s t
  let x := a * 10 ^ (k - s)
  let y := b * 10 ^ (k - t)
  match op with
  | 0x10 => rescaleTo k s (x + y)
  | 0x11 => rescaleTo k s (x - y)
  | 0x12 => rescaleTo (s + t) s (a * b)
  | 0x13 => quotEven (a * 10 ^ t) b
  | _ => rescaleTo k s (x - y * Int.tdiv x y)

/-- ADD to MOD, NEG and ABS on floats. -/
def fltArith (t op a b : Nat) : Nat :=
  match op with
  | 0x10 => fltAdd t a b
  | 0x11 => fltAdd t a (fltNeg t b)
  | 0x12 => fltMul t a b
  | 0x13 => fltDiv t a b
  | 0x14 => fltMod t a b
  | 0x15 => fltNeg t a
  | _ => fltAbs t a

/-- ADD to MOD, NEG and ABS on integers. -/
def intArith (t op mode : Nat) (a b : Int) : Res :=
  match op with
  | 0x10 => fitInt t mode (a + b)
  | 0x11 => fitInt t mode (a - b)
  | 0x12 => fitInt t mode (a * b)
  | 0x13 => if b = 0 then divZero mode else fitInt t mode (Int.tdiv a b)
  | 0x14 => if b = 0 then divZero mode else .val (.int (Int.tmod a b))
  | 0x15 => fitInt t mode (-a)
  | _ => fitInt t mode a.natAbs

/-- ADD to ABS (R104): `t` is TYPE and `aux` the scale of operand B. -/
def arith (t aux op mode : Nat) (a b : Val) : Res :=
  match a, b with
  | .flt x, .flt y => .val (.flt (fltArith t op x y))
  | .int x, .int y =>
    if isDec t then
      if op = 0x15 then fitDec decMax mode (-x)
      else if op = 0x16 then fitDec decMax mode x.natAbs
      else if (op = 0x13 ∨ op = 0x14) ∧ y = 0 then divZero mode
      else fitDec decMax mode (decArith op (scaleOf t) aux x y)
    else intArith t op mode x y
  | _, _ => .null

/-- AND to SHR on integers (R108). -/
def bitwise (t op : Nat) (a b : Int) : Val :=
  let w := intBits t
  let x := ofSigned w a
  let y := ofSigned w b
  match op with
  | 0x1A => valOfNat t (x &&& y)
  | 0x1B => valOfNat t (x ||| y)
  | 0x1C => valOfNat t (x ^^^ y)
  | 0x1D => valOfNat t (2 ^ w - 1 - x)
  | 0x1E => if b < 0 ∨ (w : Int) ≤ b then .int 0 else valOfNat t (x * 2 ^ b.toNat)
  | _ =>
    if b < 0 ∨ (w : Int) ≤ b then (if isSInt t && decide (a < 0) then .int (-1) else .int 0)
    else .int (a / (2 ^ b.toNat : Nat))

/-! ### Conversions (R113) -/

/-- A float rounded to an integer at a decimal scale, ties to even; `none` for NaN, and the sign
of an infinity. -/
def fltToInt (t s bits : Nat) : Option (Int ⊕ Bool) :=
  match fltDecode t bits with
  | .nan => none
  | .inf neg => some (.inr neg)
  | .fin neg n e =>
    let r := ratOf neg n e
    some (.inl (divEvenInt (r.1 * 10 ^ s) r.2))

/-- CAST from float to an integer or decimal type (R106). -/
def castFlt (t u mode bits : Nat) : Res :=
  match fltToInt t (scaleOf u) bits with
  | none => if mode = 1 then .null else if mode = 2 then .val (.int 0) else .err 1
  | some (.inr neg) =>
    if mode = 1 then .null
    else if mode = 2 then .val (.int (if neg then typeMin u else typeMax u)) else .err 1
  | some (.inl v) => fitHard u mode v

/-- CAST of an integer-like value. -/
def castInt (t u mode : Nat) (v : Int) : Res :=
  if isFlt u then
    .val (.flt (fltOfRat u v (10 ^ scaleOf t) false))
  else if isDec u then
    (if isDec t then fitDec decMax mode (rescaleTo (scaleOf t) (scaleOf u) v)
     else fitDec decMax mode (v * 10 ^ scaleOf u))
  else if isDec t then fitInt u mode (divEvenInt v (10 ^ scaleOf t))
  else if u = 0x01 then .val (.int (if v = 0 then 0 else 1))
  else if t = 0x18 ∧ u = 0x19 then fitHard u mode (v * dayNs)
  else if t = 0x19 ∧ u = 0x18 then .val (.int (v / dayNs))
  else fitInt u mode v

/-- CAST from type `t` to type `u`. -/
def castVal (t u mode : Nat) (v : Val) : Res :=
  match v with
  | .int x => castInt t u mode x
  | .flt b =>
    if isFlt u then
      match fltDecode t b with
      | .fin neg n e => let r := ratOf neg n e; .val (.flt (fltOfRat u r.1 r.2 neg))
      | x => .val (.flt (fltEncode u x))
    else castFlt t u mode b
  | .str _ => .null

/-- The pairs CAST accepts (R113). -/
def castOk (t u : Nat) : Bool :=
  (isInt t && (isInt u || isDec u || isFlt u || u == 0x01)) ||
  (isDec t && (isInt u || isDec u || isFlt u)) ||
  (isFlt t && (isInt u || isDec u || isFlt u)) ||
  (t == 0x01 && isInt u) || (t == 0x04 && u == 0x18) || (t == 0x18 && u == 0x04) ||
  (t == 0x05 && u == 0x19) || (t == 0x19 && u == 0x05) || (t == 0x18 && u == 0x19) ||
  (t == 0x19 && u == 0x18) || (t == 0x21 && u == 0x0C)

end Sys2Proof.Machine
end

