-- ==== Sys2Proof/Machine/Microcode.lean ====
section
/-! DEFINITION. Expression microcode: string references and patterns (R94, R95, R119, R120), the
micro-op encoding and its legality (R101 to R104), and the run of a micro-op sequence over the rows
of a block with its faults (R97 to R107, R502). -/

namespace Sys2Proof.Machine

/-! ### String references and patterns -/

/-- What the microcode of a stage reads besides its rows: K registers, the constant pool, the
parameter area and the stage's overflow mode. -/
structure UCtx where
  k : List Word
  consts : List Byte
  params : List Byte
  ovf : Nat
  deriving DecidableEq, Repr

/-- K register `i`. -/
def kReg (k : List Word) (i : Nat) : Nat := (k.getD i 0).toNat

/-- The bytes of heap 8 or 9 (R94). -/
def UCtx.heap (c : UCtx) (h : Nat) : List Byte :=
  if h = 8 then c.consts else if h = 9 then c.params else []

/-- The bytes a reference names. -/
def UCtx.deref (c : UCtx) (w : Nat) : List Byte :=
  slice (c.heap (bitsOf w 48 4)) (bitsOf w 0 32) (bitsOf w 32 16)

/-- The reference meets R95: heap 8 or 9, reserved bits zero, bytes inside the heap. -/
def UCtx.refOk (c : UCtx) (w : Nat) : Bool :=
  (bitsOf w 48 4 == 8 || bitsOf w 48 4 == 9) && bitsOf w 52 12 == 0 &&
    decide (bitsOf w 0 32 + bitsOf w 32 16 ≤ (c.heap (bitsOf w 48 4)).length)

/-- The value of type `t` in K register `i` (R93). -/
def UCtx.kVal (c : UCtx) (t i : Nat) : Val :=
  if t = 0x20 then .str (c.deref (kReg c.k i))
  else if wide t then valOfNat t (kReg c.k i + kReg c.k (i + 1) * 2 ^ 64)
  else valOfNat t (kReg c.k i)

/-- A pattern element (R119). -/
inductive Tok where
  | any
  | one
  | lit (b : Byte)
  deriving DecidableEq, Repr

/-- Read a pattern with an escape byte, 0 for none (R119). -/
def tokens (esc : Byte) : List Byte → List Tok
  | [] => []
  | [b] =>
    if esc ≠ 0 ∧ b = esc then [.lit b]
    else if b = 0x25 then [.any] else if b = 0x5F then [.one] else [.lit b]
  | b :: c :: rest =>
    if esc ≠ 0 ∧ b = esc then .lit c :: tokens esc rest
    else (if b = 0x25 then .any else if b = 0x5F then .one else .lit b) :: tokens esc (c :: rest)

/-- Every suffix of a string, itself first. -/
def suffixes : List Byte → List (List Byte)
  | [] => [[]]
  | b :: bs => (b :: bs) :: suffixes bs

/-- The whole string is consumed by the pattern (R119). -/
def tokMatch (cf : Bool) : List Tok → List Byte → Bool
  | [], s => s.isEmpty
  | .any :: ts, s => (suffixes s).any fun r => tokMatch cf ts r
  | .one :: ts, s => match s with
    | [] => false
    | _ :: r => tokMatch cf ts r
  | .lit b :: ts, s => match s with
    | [] => false
    | c :: r => (if cf then foldByte c == foldByte b else c == b) && tokMatch cf ts r

/-- LIKE and ILIKE. -/
def likeMatch (cf : Bool) (esc : Byte) (pat s : List Byte) : Bool :=
  tokMatch cf (tokens esc pat) s

/-- A pattern within R118: 1,024 bytes after escapes are dropped and 16 wildcard %. -/
def patternOk (esc : Byte) (pat : List Byte) : Bool :=
  let ts := tokens esc pat
  decide (ts.length ≤ 1024) && decide ((ts.filter (· == Tok.any)).length ≤ 16)

/-- The patterns of a set (R120), given the set's own bytes and reference. -/
def UCtx.setRefs (c : UCtx) (w : Nat) : List Nat :=
  let bs := c.deref w
  (List.range (fieldAt bs 0 2)).map fun i => fieldAt bs (8 + 8 * i) 8

/-- The patterns themselves. -/
def UCtx.setPatterns (c : UCtx) (w : Nat) : List (List Byte) := (c.setRefs w).map c.deref

/-- Escape byte of a set. -/
def UCtx.setEsc (c : UCtx) (w : Nat) : Byte := BitVec.ofNat 8 (fieldAt (c.deref w) 2 1)

/-- Case folding of a set. -/
def UCtx.setFold (c : UCtx) (w : Nat) : Bool := fieldAt (c.deref w) 3 1 % 2 == 1

/-- One reference of a set names bytes of the set itself. -/
def insideSet (w r : Nat) : Bool :=
  bitsOf r 48 4 == bitsOf w 48 4 && bitsOf r 52 12 == 0 &&
    decide (bitsOf w 0 32 ≤ bitsOf r 0 32 ∧
      bitsOf r 0 32 + bitsOf r 32 16 ≤ bitsOf w 0 32 + bitsOf w 32 16)

/-- A pattern set meets R118 and R120. -/
def UCtx.setOk (c : UCtx) (w : Nat) : Bool :=
  let len := bitsOf w 32 16
  let bs := c.deref w
  let n := fieldAt bs 0 2
  c.refOk w && decide (8 ≤ len ∧ len ≤ 16384) && decide (1 ≤ n ∧ n ≤ 64) &&
    decide (8 + 8 * n ≤ len) && fieldAt bs 0 8 / 2 ^ 25 == 0 &&
    (c.setRefs w).all (fun r => insideSet w r && patternOk (c.setEsc w) (c.deref r))

/-! ### The micro-op (R102) -/

/-- A decoded micro-op. -/
structure UOp where
  typ : Nat
  aux : Nat
  kb : Nat
  bk : Bool
  rsv : Nat
  ovm : Nat
  srcc : Nat
  srcb : Nat
  srca : Nat
  dst : Nat
  opc : Nat
  deriving DecidableEq, Repr

/-- Read the fields of a word; `rsv` collects the reserved bits. -/
def UOp.ofWord (w : Word) : UOp :=
  let v := w.toNat
  { typ := bitsOf v 56 8, aux := bitsOf v 48 8, kb := bitsOf v 42 6, bk := v.testBit 41,
    rsv := bitsOf v 35 6 + bitsOf v 8 8, ovm := bitsOf v 32 3, srcc := bitsOf v 28 4,
    srcb := bitsOf v 24 4, srca := bitsOf v 20 4, dst := bitsOf v 16 4, opc := bitsOf v 0 8 }

/-- What an operand must be: absent, a V register of a type, a K register, or a mask. For operand
B, `v` also admits a K register (R102). -/
inductive Opd where
  | no
  | v (t : Nat)
  | k (t : Nat)
  | m
  deriving DecidableEq, Repr

/-- The shape of a micro-op: operands A, B and C, and its result, a mask or a V type. -/
structure Sig where
  ok : Bool
  a : Opd
  b : Opd
  c : Opd
  dst : Opd
  deriving DecidableEq, Repr

/-- An ordering comparison or distinctness test: EQ to NDF. -/
def isCmp (opc : Nat) : Bool := decide (0x30 ≤ opc ∧ opc ≤ 0x37)

/-- Type of operand B where it is of TYPE: decimals carry scale AUX. -/
def bType (u : UOp) : Nat := if isDec u.typ then 0x80 + u.aux else u.typ

/-- AUX of a binary operation over TYPE: a scale for decimals, the fold bit for strings where it
has one, else zero. -/
def auxBin (u : UOp) (fold : Bool) : Bool :=
  if isDec u.typ then decide (u.aux ≤ 38)
  else if fold && u.typ == 0x20 then decide (u.aux ≤ 1) else u.aux == 0

/-- The shape of moves and conversions, 0x01 to 0x09. -/
def sigMove (u : UOp) : Sig :=
  let t := u.typ
  let z := u.aux == 0
  match u.opc with
  | 0x01 => ⟨typeOk t && z, .v t, .no, .no, .v t⟩
  | 0x02 => ⟨typeOk t && z, .no, .k t, .no, .v t⟩
  | 0x03 => ⟨typeOk t && z, .no, .no, .no, .v t⟩
  | 0x04 => ⟨typeOk t && auxBin u false, .v t, .v (bType u), .m, .v t⟩
  | 0x05 => ⟨typeOk t && auxBin u false, .v t, .v (bType u), .no, .v t⟩
  | 0x06 => ⟨typeOk t && z, .v t, .no, .no, .m⟩
  | 0x07 => ⟨castOk t u.aux, .v t, .no, .no, .v u.aux⟩
  | 0x08 => ⟨isDec t && decide (u.aux ≤ 38), .v t, .no, .no, .v (0x80 + u.aux)⟩
  | 0x09 => ⟨isDec t && decide (1 ≤ u.aux ∧ u.aux ≤ 38), .v t, .no, .no, .v t⟩
  | _ => ⟨false, .no, .no, .no, .no⟩

/-- The shape of arithmetic and bitwise operations, 0x10 to 0x1F. -/
def sigArith (u : UOp) : Sig :=
  let t := u.typ
  let z := u.aux == 0
  if 0x10 ≤ u.opc ∧ u.opc ≤ 0x14 then
    ⟨isNum t && auxBin u false, .v t, .v (bType u), .no, .v t⟩
  else if u.opc = 0x15 ∨ u.opc = 0x16 then ⟨isNum t && z, .v t, .no, .no, .v t⟩
  else if u.opc = 0x17 ∨ u.opc = 0x18 then
    ⟨isOrd t && auxBin u true, .v t, .v (bType u), .no, .v t⟩
  else if 0x1A ≤ u.opc ∧ u.opc ≤ 0x1C then ⟨isInt t && z, .v t, .v t, .no, .v t⟩
  else if u.opc = 0x1D then ⟨isInt t && z, .v t, .no, .no, .v t⟩
  else if u.opc = 0x1E ∨ u.opc = 0x1F then ⟨isInt t && z, .v t, .v 0x05, .no, .v t⟩
  else ⟨false, .no, .no, .no, .no⟩

/-- The shape of comparisons and mask operations, 0x30 to 0x3D. -/
def sigMask (u : UOp) : Sig :=
  let t := u.typ
  let b := t == 0x01 && u.aux == 0
  if isCmp u.opc then
    ⟨(isOrd t || t == 0x21) && auxBin u true, .v t, .v (bType u), .no, .m⟩
  else match u.opc with
    | 0x38 => ⟨b, .m, .m, .no, .m⟩
    | 0x39 => ⟨b, .m, .m, .no, .m⟩
    | 0x3A => ⟨b, .m, .no, .no, .m⟩
    | 0x3B => ⟨b, .m, .no, .no, .m⟩
    | 0x3C => ⟨b, .m, .no, .no, .v 0x01⟩
    | 0x3D => ⟨b, .v 0x01, .no, .no, .m⟩
    | _ => ⟨false, .no, .no, .no, .no⟩

/-- The shape of date and string operations, 0x40 to 0x59. -/
def sigText (u : UOp) : Sig :=
  let t := u.typ
  let z := u.aux == 0
  let s := t == 0x20
  match u.opc with
  | 0x40 => ⟨t == 0x18 && z, .v t, .v 0x04, .no, .v t⟩
  | 0x41 => ⟨t == 0x18 && z, .v t, .v t, .no, .v 0x04⟩
  | 0x42 => ⟨isTime t && z, .v t, .v 0x04, .no, .v t⟩
  | 0x43 => ⟨t == 0x19 && z, .v t, .v 0x05, .no, .v t⟩
  | 0x44 => ⟨t == 0x19 && z, .v t, .v t, .no, .v 0x05⟩
  | 0x45 => ⟨isTime t && decide (u.aux ≤ 11), .v t, .no, .no, .v 0x04⟩
  | 0x46 => ⟨isTime t && decide (u.aux ≤ 7), .v t, .no, .no, .v t⟩
  | 0x50 => ⟨s && z, .v t, .no, .no, .v 0x04⟩
  | 0x51 => ⟨s && z, .v t, .v 0x05, .v 0x05, .v t⟩
  | 0x52 => ⟨s && z, .v t, .v t, .no, .v t⟩
  | 0x53 => ⟨s && z, .v t, .no, .no, .v t⟩
  | 0x54 => ⟨s && z, .v t, .no, .no, .v t⟩
  | 0x55 => ⟨s && decide (u.aux ≤ 1), .v t, .v t, .no, .m⟩
  | 0x56 => ⟨s, .v t, .k t, .no, .m⟩
  | 0x57 => ⟨s, .v t, .k t, .no, .m⟩
  | 0x58 => ⟨s && z, .v t, .k t, .no, .m⟩
  | 0x59 => ⟨s && z, .v t, .k t, .no, .v 0x04⟩
  | _ => ⟨false, .no, .no, .no, .no⟩

/-- The shape of a micro-op (R104). -/
def UOp.sig (u : UOp) : Sig :=
  if u.opc < 0x10 then sigMove u else if u.opc < 0x20 then sigArith u
  else if u.opc < 0x40 then sigMask u else sigText u

/-- A register operand that is read as it must be (R101): `ts` are the V types so far. -/
def opdOk (ts : List (Option Nat)) (o : Opd) (f : Nat) : Bool :=
  match o with
  | .no => f == 0
  | .v t => (ts.getD f none).any fun x => x == t || !typeOk x
  | .k _ => false
  | .m => decide (f < 8)

/-- Operand B, a register or K[KB] (R102). -/
def opdBOk (ts : List (Option Nat)) (u : UOp) : Bool :=
  match u.sig.b with
  | .no => u.srcb == 0 && !u.bk && u.kb == 0
  | .m => decide (u.srcb < 8) && !u.bk && u.kb == 0
  | .k t => u.bk && u.srcb == 0 && (!wide t || decide (u.kb ≤ 62))
  | .v t =>
    if u.bk then u.srcb == 0 && (!wide t || decide (u.kb ≤ 62))
    else u.kb == 0 && (ts.getD u.srcb none).any fun x => x == t || !typeOk x

/-- A micro-op is legal after the types `ts`; the types it leaves (R101, R103). -/
def UOp.check (ts : List (Option Nat)) (u : UOp) : Option (List (Option Nat)) :=
  let g := u.sig
  if g.ok && u.rsv == 0 && (u.ovm == 0 || decide (4 ≤ u.ovm)) && opdOk ts g.a u.srca &&
      opdBOk ts u && opdOk ts g.c u.srcc then
    match g.dst with
    | .v t => some (ts.set u.dst (some t))
    | .m => if u.dst < 8 then some ts else none
    | _ => none
  else none

/-- Types after a run of micro-ops, `none` at the first illegal one. -/
def checkUOps (us : List UOp) (ts : List (Option Nat)) : Option (List (Option Nat)) :=
  us.foldl (fun acc u => acc.bind fun t => u.check t) (some ts)

/-! ### Execution -/

/-- The registers of one row (R99). `live`: the row is inside the selection (R80). `err`: the
first fault the row met, as (micro-op, code). -/
structure URow where
  v : List (Option Val)
  m : List (Option Bool)
  live : Bool
  err : Option (Nat × Nat)
  deriving DecidableEq, Repr

/-- Three-valued and (R98). -/
def and3 : Option Bool → Option Bool → Option Bool
  | some false, _ => some false
  | _, some false => some false
  | some true, some true => some true
  | _, _ => none

/-- Three-valued or. -/
def or3 : Option Bool → Option Bool → Option Bool
  | some true, _ => some true
  | _, some true => some true
  | some false, some false => some false
  | _, _ => none

/-- The outcome of a comparison operation on an ordering. -/
def cmpHolds (opc : Nat) (o : Ordering) : Bool :=
  match opc with
  | 0x30 => o == .eq
  | 0x31 => o != .eq
  | 0x32 => o == .lt
  | 0x33 => o != .gt
  | 0x34 => o == .gt
  | _ => o != .lt

/-- Operand A, B and C values of a row. -/
def UOp.opB (u : UOp) (c : UCtx) (r : URow) : Option Val :=
  if u.bk then
    match u.sig.b with
    | .v t => some (c.kVal t u.kb)
    | .k t => some (c.kVal t u.kb)
    | _ => none
  else r.v.getD u.srcb none

/-- Mode of a micro-op (R105): 0 FAIL, 1 NULL, 2 SATURATE, 3 WRAP. -/
def UOp.mode (u : UOp) (c : UCtx) : Nat := if u.ovm = 0 then c.ovf else u.ovm - 4

/-- A string result within 65,535 bytes (R106). -/
def fitStr (mode : Nat) (s : List Byte) : Res :=
  if s.length ≤ 65535 then .val (.str s)
  else if mode = 1 then .null
  else if mode = 2 then .val (.str (s.take 65535)) else .err 3

/-- SUBSTR (R117). -/
def substr (s : List Byte) (b c : Int) : List Byte :=
  let first := if b < 1 then 1 else b
  let last := if b + c - 1 < s.length then b + c - 1 else s.length
  if c < 0 ∨ last < first then [] else (s.drop (first.toNat - 1)).take (last - first + 1).toNat

/-- Unwrap the integer of a value. -/
def Val.toInt : Val → Int
  | .int v => v
  | .flt b => b
  | .str _ => 0

/-- Unwrap the bytes of a value. -/
def Val.toBytes : Val → List Byte
  | .str s => s
  | _ => []

/-- Take operand B, converting a decimal to scale `s` (R109). -/
def takeB (u : UOp) (mode : Nat) (b : Val) : Res :=
  match b with
  | .int y => if isDec u.typ then fitDec decMax mode (rescaleTo u.aux (scaleOf u.typ) y) else .val b
  | _ => .val b

/-- Present operands only: the V results that R97 governs, with A present. -/
def UOp.unary (u : UOp) (mode : Nat) (a : Val) : Res :=
  match u.opc with
  | 0x01 => .val a
  | 0x07 => castVal u.typ u.aux mode a
  | 0x08 => fitDec decMax mode (rescaleTo (scaleOf u.typ) u.aux a.toInt)
  | 0x09 => fitDec (10 ^ u.aux - 1) mode a.toInt
  | 0x15 => arith u.typ 0 0x15 mode a a
  | 0x16 => arith u.typ 0 0x16 mode a a
  | 0x1D => .val (bitwise u.typ 0x1D a.toInt 0)
  | 0x45 => .val (.int (extractField u.typ u.aux a.toInt))
  | 0x46 => fitHard u.typ mode (truncTime u.typ u.aux a.toInt)
  | 0x50 => .val (.int a.toBytes.length)
  | 0x53 => .val (.str (a.toBytes.map fun b =>
      if 0x61 ≤ b.toNat ∧ b.toNat ≤ 0x7A then b - 32 else b))
  | 0x54 => .val (.str (foldCase true a.toBytes))
  | _ => .null

/-- MADD (R115). -/
def maddVal (t : Nat) (a b : Int) : Int :=
  if t = 0x19 then addMonths (a / dayNs) b * dayNs + a % dayNs else addMonths a b

/-- V results of two present operands. -/
def UOp.binary (u : UOp) (mode : Nat) (a b : Val) : Res :=
  let cf := u.aux % 2 == 1
  if u.opc = 0x17 then (if valCmp u.typ (bType u) cf a b = .gt then takeB u mode b else .val a)
  else if u.opc = 0x18 then (if valCmp u.typ (bType u) cf a b = .lt then takeB u mode b else .val a)
  else if u.opc < 0x17 then arith u.typ u.aux u.opc mode a b
  else if u.opc < 0x20 then .val (bitwise u.typ u.opc a.toInt b.toInt)
  else match u.opc with
    | 0x40 => fitHard u.typ mode (a.toInt + b.toInt)
    | 0x41 => fitInt 0x04 mode (a.toInt - b.toInt)
    | 0x42 => fitHard u.typ mode (maddVal u.typ a.toInt b.toInt)
    | 0x43 => fitHard u.typ mode (a.toInt + b.toInt)
    | 0x44 => fitInt 0x05 mode (a.toInt - b.toInt)
    | 0x52 => fitStr mode (a.toBytes ++ b.toBytes)
    | _ => .null

/-- LIKEFIRST: the lowest matching pattern (R120). -/
def UCtx.firstMatch (c : UCtx) (w : Nat) (s : List Byte) : Option Nat :=
  (c.setPatterns w).findIdx? fun p => likeMatch (c.setFold w) (c.setEsc w) p s

/-- A V result for one row. -/
def UOp.evalV (u : UOp) (c : UCtx) (r : URow) : Res :=
  let mode := u.mode c
  let a := r.v.getD u.srca none
  let b := u.opB c r
  let ofOpt : Option Val → Res := fun x => match x with
    | some v => .val v
    | none => .null
  let ofB : Res := match b with
    | some y => takeB u mode y
    | none => .null
  match u.opc with
  | 0x02 => ofOpt b
  | 0x03 => .null
  | 0x04 => if r.m.getD u.srcc none = some true then ofOpt a else ofB
  | 0x05 => if a.isSome then ofOpt a else ofB
  | 0x3C => match r.m.getD u.srca none with
    | some x => .val (.int (if x then 1 else 0))
    | none => .null
  | 0x51 => match a, b, r.v.getD u.srcc none with
    | some x, some y, some z => .val (.str (substr x.toBytes y.toInt z.toInt))
    | _, _, _ => .null
  | 0x59 => match a with
    | some x => match c.firstMatch (kReg c.k u.kb) x.toBytes with
      | some i => .val (.int i)
      | none => .null
    | none => .null
  | _ =>
    match u.sig.b with
    | .no => match a with
      | some x => u.unary mode x
      | none => .null
    | _ => match a, b with
      | some x, some y => u.binary mode x y
      | _, _ => .null

/-- A mask result for one row. -/
def UOp.evalM (u : UOp) (c : UCtx) (r : URow) : Option Bool :=
  let a := r.v.getD u.srca none
  let b := u.opB c r
  let cf := u.aux % 2 == 1
  let ma := r.m.getD u.srca none
  match u.opc with
  | 0x06 => some a.isNone
  | 0x36 => match a, b with
    | none, none => some false
    | some x, some y => some (valCmp u.typ (bType u) cf x y != .eq)
    | _, _ => some true
  | 0x37 => match a, b with
    | none, none => some true
    | some x, some y => some (valCmp u.typ (bType u) cf x y == .eq)
    | _, _ => some false
  | 0x38 => and3 ma (r.m.getD u.srcb none)
  | 0x39 => or3 ma (r.m.getD u.srcb none)
  | 0x3A => ma.map fun x => !x
  | 0x3B => some (ma == some true)
  | 0x3D => a.map fun x => x.toInt != 0
  | 0x55 => match a, b with
    | some x, some y => some ((foldCase cf y.toBytes).isPrefixOf (foldCase cf x.toBytes))
    | _, _ => none
  | 0x56 => a.map fun x =>
      likeMatch false (BitVec.ofNat 8 u.aux) (c.deref (kReg c.k u.kb)) x.toBytes
  | 0x57 => a.map fun x =>
      likeMatch true (BitVec.ofNat 8 u.aux) (c.deref (kReg c.k u.kb)) x.toBytes
  | 0x58 => a.map fun x => (c.firstMatch (kReg c.k u.kb) x.toBytes).isSome
  | opc => match a, b with
    | some x, some y => some (cmpHolds opc (valCmp u.typ (bType u) cf x y))
    | _, _ => none

/-- Every NaN result is the canonical one (R111). -/
def canonNaN (t : Nat) (v : Val) : Val :=
  match v with
  | .flt b => .flt (fltCanon t b)
  | _ => v

/-- CONCAT, UPPER and LOWER write the string scratch (R117). -/
def scratchOp (opc : Nat) : Bool := opc == 0x52 || opc == 0x53 || opc == 0x54

/-- Limit of the string scratch and of a decoded block (R118, R19). -/
def blockLimit : Nat := 262144

/-- Note a fault unless the row has one. -/
def URow.fail (r : URow) (i code : Nat) : URow :=
  { r with err := if r.err.isSome then r.err else some (i, code) }

/-- Micro-op `i` on one row, with the scratch used so far. -/
def UOp.row (u : UOp) (c : UCtx) (i : Nat) (r : URow) (used : Nat) : URow × Nat :=
  match u.sig.dst with
  | .m => ({ r with m := r.m.set u.dst (if r.live then u.evalM c r else none) }, used)
  | .v t =>
    if !r.live then ({ r with v := r.v.set u.dst none }, used)
    else match u.evalV c r with
      | .null => ({ r with v := r.v.set u.dst none }, used)
      | .err code => (({ r with v := r.v.set u.dst none }).fail i code, used)
      | .val x =>
        let r := { r with v := r.v.set u.dst (some (canonNaN t x)) }
        if scratchOp u.opc then
          let n := used + x.toBytes.length
          (if used ≤ blockLimit ∧ blockLimit < n then r.fail i 3 else r, n)
        else (r, used)
  | _ => (r, used)

/-- Micro-op `i` over every row, in row order. -/
def UOp.rows (u : UOp) (c : UCtx) (i : Nat) : List URow → Nat → List URow × Nat
  | [], used => ([], used)
  | r :: rs, used =>
    let x := u.row c i r used
    let y := UOp.rows u c i rs x.2
    (x.1 :: y.1, y.2)

/-- The micro-ops in order, from index `i`. -/
def runUOps (c : UCtx) : List UOp → Nat → List URow → Nat → List URow
  | [], _, rows, _ => rows
  | u :: us, i, rows, used =>
    let x := u.rows c i rows used
    runUOps c us (i + 1) x.1 x.2

/-- The reported fault: the lowest row, its earliest micro-op (R107), as (row, micro-op, code). -/
def firstFault : List URow → Nat → Option (Nat × Nat × Nat)
  | [], _ => none
  | r :: rs, i => match r.err with
    | some e => some (i, e.1, e.2)
    | none => firstFault rs (i + 1)

/-- The last micro-op that writes V register `d`. -/
def lastWriter (us : List UOp) (d : Nat) : Nat :=
  (((us.zipIdx).filter fun x => x.1.dst == d && (match x.1.sig.dst with
    | .v _ => true
    | _ => false)).getLast?.map fun x => x.2).getD 0

/-- Bytes of value data and offsets as string output grows (R502): the row at which it first
passes the limit. -/
def stringOverRow : List URow → Nat → Nat → Nat → Option Nat
  | [], _, _, _ => none
  | r :: rs, d, i, used =>
    let n := used + 4 + (match r.v.getD d none with
      | some x => x.toBytes.length
      | none => 0)
    if blockLimit < n then some i else stringOverRow rs d (i + 1) n

/-- Note an outcome at micro-op `i`, unless the row met an earlier one. -/
def URow.charge (r : URow) (i code : Nat) : URow :=
  match r.err with
  | some e => if e.1 ≤ i then r else { r with err := some (i, code) }
  | none => { r with err := some (i, code) }

/-- Charge an over-long string output to its row (R502). -/
def chargeOutput (us : List UOp) (d : Nat) (rows : List URow) : List URow :=
  match stringOverRow rows d 0 4 with
  | some i => rows.zipIdx.map fun x => if x.2 = i then x.1.charge (lastWriter us d) 3 else x.1
  | none => rows

end Sys2Proof.Machine
end

