-- ==== Sys2Proof/Machine/Keys.lean ====
section
/-! DEFINITION. KH64 and the fields each consumer takes of a hash (R165 to R168), Bloom positions
(R180), and the ordered key bytes of sorts and the range directory (R195, R196). -/

namespace Sys2Proof.Machine

/-- The constants of R166. -/
def kc1 : Nat := 0xB7E45A1D3C926F0B

/-- KC2. -/
def kc2 : Nat := 0x8F31D6C52A7BE469

/-- KC3. -/
def kc3 : Nat := 0xE3A907F5B46C1D2D

/-- Arithmetic modulo 2^64. -/
def m64 (x : Nat) : Nat := x % 2 ^ 64

/-- Rotate left. -/
def rotl (x n : Nat) : Nat := m64 ((x <<< n) ||| (x >>> (64 - n)))

/-- The loop of R166 over the words of the key. -/
def kh64Words : Nat → List Byte → Nat → Nat
  | 0, _, h => h
  | fuel + 1, k, h =>
    if k.isEmpty then h else
      let a := m64 (rotl (h ^^^ fieldAt k 0 8) 27 * kc2)
      kh64Words fuel (k.drop 8) (a ^^^ (a >>> 31))

/-- KH64 (R166). -/
def kh64 (seed : Nat) (k : List Byte) : Nat :=
  let h := kh64Words (k.length / 8 + 1) k (seed ^^^ m64 (k.length * kc1))
  let h := m64 ((h ^^^ (h >>> 32)) * kc3)
  let h := m64 ((h ^^^ (h >>> 29)) * kc1)
  h ^^^ (h >>> 32)

/-- −0 as +0 and every NaN canonical (R165, R195). -/
def normFlt (t b : Nat) : Nat :=
  match fltDecode t b with
  | .nan => fltNaN t
  | .fin _ 0 _ => 0
  | _ => b

/-- Normalised key bytes (R165). -/
def normKey (t : Nat) (cf : Bool) (v : Val) : List Byte :=
  match v with
  | .str s => leBytes 2 s.length ++ foldCase cf s
  | .flt b => leBytes 8 (normFlt t b)
  | .int _ => laneBytes t v

/-- Hash of a row's key columns (R167): 0 where one is null. -/
def hashKey (seed : Nat) (cf : Bool) (ks : List (Nat × Option Val)) : Nat :=
  if ks.any (fun k => k.2.isNone) then 0
  else kh64 seed (ks.flatMap fun k => match k.2 with
    | some v => normKey k.1 cf v
    | none => [])

/-- FP of a hash (R168). -/
def hashFp (h : Nat) : Nat := bitsOf h 32 16

/-- Spill partition. -/
def hashPart (h : Nat) : Nat := bitsOf h 24 8

/-- Spill sub-range value. -/
def hashSub (h : Nat) : Nat := bitsOf h 47 8

/-- Directory slice. -/
def hashSlice (h : Nat) : Nat := bitsOf h 0 3

/-- First bucket among `b`. -/
def bucket1 (h b : Nat) : Nat := (bitsOf h 3 20 * b) >>> 20

/-- Second bucket. -/
def bucket2 (h b : Nat) : Nat :=
  if b ≤ 1 then bucket1 h b else (bucket1 h b + 1 + hashFp h % (b - 1)) % b

/-- Exchange destination among `n` (R88). -/
def hashDest (h n : Nat) : Nat := (bitsOf h 32 32 * n) >>> 32

/-- Byte offset and bit of each of the `n` Bloom positions (R180). -/
def bloomBits (h log2 n : Nat) : List (Nat × Nat) :=
  let line := bitsOf h 0 (log2 - 9)
  let a := bitsOf h 47 9
  let b := bitsOf h 38 9 ||| 1
  (List.range n).map fun i => let p := (a + i * b) % 512; (line * 64 + p / 8, p % 8)

/-! ### Ordered key bytes -/

/-- The low `n` bytes of `v`, most significant first. -/
def beBytes (n v : Nat) : List Byte := (leBytes n v).reverse

/-- String bytes with each 0x00 doubled as 0x00 0xFF, ended by 0x00 0x00 (R195). -/
def escapeStr (s : List Byte) : List Byte :=
  (s.flatMap fun b => if b = 0 then [0, 0xFF] else [b]) ++ [0, 0]

/-- Ordered value bytes (R195). -/
def orderedBytes (t : Nat) (cf : Bool) (v : Val) : List Byte :=
  match v with
  | .str s => escapeStr (foldCase cf s)
  | .flt b =>
    let n := normFlt t b
    let w := fltBits t
    beBytes (w / 8) (if 2 ^ (w - 1) ≤ n then 2 ^ w - 1 - n else n + 2 ^ (w - 1))
  | .int x =>
    if t = 0x01 then [BitVec.ofNat 8 x.toNat]
    else
      let w := intBits t
      if signedType t then beBytes (w / 8) ((ofSigned w x + 2 ^ (w - 1)) % 2 ^ w)
      else beBytes (w / 8) (ofSigned w x)

/-- The sort key of one column (R196). -/
def columnKey (t : Nat) (cf desc nullsLast : Bool) (v : Option Val) : List Byte :=
  match v with
  | none => [if nullsLast then 2 else 0]
  | some x =>
    let bs := orderedBytes t cf x
    1 :: (if desc then bs.map (fun b => b ^^^ 0xFF) else bs)

/-- The sort key of a row over its first `keys` columns, with the ORDER field (R196, SORTRUN). -/
def sortKey (types : List Nat) (cf : Bool) (order keys : Nat) (row : List (Option Val)) : List Byte :=
  ((types.zip row).zipIdx.take keys).flatMap fun x =>
    columnKey x.1.1 cf (order.testBit x.2) (order.testBit (4 + x.2)) x.1.2

end Sys2Proof.Machine
end

