-- ==== Sys2Proof/Machine/Zstd.lean ====
section
/-! DEFINITION. Decompression of Zstandard frames under RFC 8878 within the subset of R151, and of
LZ4 blocks (R152). The RFC and the LZ4 block format are cited by the spec; their bit layouts are
PRESUMED from those documents (log entry 3). -/

namespace Sys2Proof.Machine

/-! ### Bit readers -/

/-- A forward bit reader: the stream as a number, the next bit and the length in bits. -/
structure FwdBits where
  v : Nat
  pos : Nat
  len : Nat
  deriving DecidableEq, Repr

/-- A backward bit reader: the stream as a number, and how many bits are left below. -/
structure BackBits where
  v : Nat
  left : Nat
  past : Bool
  deriving DecidableEq, Repr

/-- Start a backward stream: the highest set bit of the last byte is the end mark. -/
def BackBits.start (bs : List Byte) : Option BackBits :=
  let v := leNat bs
  match bs.getLast? with
  | some b => if b = 0 then none else some ⟨v, Nat.log2 v, false⟩
  | none => none

/-- Look at `k` bits; bits past the start read zero. -/
def BackBits.peek (b : BackBits) (k : Nat) : Nat :=
  if k ≤ b.left then bitsOf b.v (b.left - k) k else (b.v % 2 ^ b.left) * 2 ^ (k - b.left)

/-- Consume `k` bits. -/
def BackBits.drop (b : BackBits) (k : Nat) : BackBits :=
  if k ≤ b.left then { b with left := b.left - k } else { b with left := 0, past := true }

/-- Read `k` bits. -/
def BackBits.read (b : BackBits) (k : Nat) : Nat × BackBits := (b.peek k, b.drop k)

/-! ### FSE tables -/

/-- One state of an FSE table: symbol, bits to read and base of the next state. -/
structure FseCell where
  sym : Nat
  bits : Nat
  base : Nat
  deriving DecidableEq, Repr

/-- An FSE decoding table and its accuracy log. -/
structure FseTable where
  log : Nat
  cells : Array FseCell
  deriving DecidableEq, Repr

/-- Zero-probability run after a zero count: two-bit flags. -/
def fseZeros (v len : Nat) : Nat → Nat → Nat × Nat
  | 0, pos => (0, pos)
  | fuel + 1, pos =>
    let f := bitsOf v pos 2
    if f = 3 ∧ pos + 2 ≤ len then let r := fseZeros v len fuel (pos + 2); (3 + r.1, r.2)
    else (f, pos + 2)

/-- Shrink the threshold while the remaining count is below it. -/
def fseShrink (remaining : Nat) : Nat → Nat → Nat → Nat × Nat
  | 0, nb, th => (nb, th)
  | fuel + 1, nb, th => if remaining < th then fseShrink remaining fuel (nb - 1) (th / 2) else (nb, th)

/-- The normalised counts (−1 for "less than one") and the bit position after them. -/
def fseCounts (v len : Nat) : Nat → Nat → Nat → Nat → Nat → List Int → Option (List Int × Nat)
  | 0, _, _, _, _, _ => none
  | fuel + 1, pos, remaining, nb, th, acc =>
    if remaining ≤ 1 then (if remaining = 1 then some (acc, pos) else none)
    else if len + 8 < pos then none
    else
      let mx := 2 * th - 1 - remaining
      let small := bitsOf v pos (nb - 1)
      let full := bitsOf v pos nb
      let c := if small < mx then (small, nb - 1) else if full < th then (full, nb) else (full - mx, nb)
      let count : Int := (c.1 : Int) - 1
      let pos := pos + c.2
      if remaining < count.natAbs then none
      else
        let remaining := remaining - count.natAbs
        let z := if count = 0 then fseZeros v len 64 pos else (0, pos)
        let s := fseShrink remaining 16 nb th
        fseCounts v len fuel z.2 remaining s.1 s.2 (acc ++ [count] ++ List.replicate z.1 0)

/-- Place symbols in table order: the ends first for "less than one", then by the step walk. -/
def fsePlace (size high : Nat) : Nat → Nat → Nat → Nat
  | 0, pos, _ => pos
  | fuel + 1, pos, step =>
    let p := (pos + step) % size
    if high < p then fsePlace size high fuel p step else p

/-- Put `n` copies of a symbol along the walk. -/
def fseSpread (size high step sym : Nat) : Nat → Nat × Array Nat → Nat × Array Nat
  | 0, x => x
  | n + 1, x => fseSpread size high step sym n (fsePlace size high size x.1 step, x.2.set! x.1 sym)

/-- Build a decoding table from counts. -/
def fseBuild (log : Nat) (counts : List Int) : FseTable :=
  let size := 2 ^ log
  let lows := (counts.zipIdx.filter fun x => x.1 == -1).map fun x => x.2
  let high := size - 1 - lows.length
  let t0 : Array Nat := (lows.zipIdx).foldl (fun a x => a.set! (size - 1 - x.2) x.1)
    (Array.replicate size 0)
  let step := size / 2 + size / 8 + 3
  let t := (counts.zipIdx.foldl (fun x c =>
    if 0 < c.1 then fseSpread size high step c.2 c.1.toNat x else x) (0, t0)).2
  let next0 : Array Nat := (counts.map fun c => if c = -1 then 1 else c.toNat).toArray
  let r := t.foldl (fun (x : Array FseCell × Array Nat) s =>
    let n := x.2.getD s 1
    let b := log - Nat.log2 n
    (x.1.push ⟨s, b, n * 2 ^ b - size⟩, x.2.set! s (n + 1))) (#[], next0)
  ⟨log, r.1⟩

/-- A table of one symbol that reads no bits (RLE mode). -/
def fseRle (sym : Nat) : FseTable := ⟨0, #[⟨sym, 0, 0⟩]⟩

/-- Read a table description: the table and the bytes used. -/
def fseRead (bs : List Byte) (maxLog maxSym : Nat) : Option (FseTable × Nat) :=
  let v := leNat bs
  let len := 8 * bs.length
  let log := v % 16 + 5
  if maxLog < log ∨ bs.isEmpty then none else
  match fseCounts v len 300 4 (2 ^ log + 1) (log + 1) (2 ^ log) [] with
  | some (cs, pos) =>
    if len < pos ∨ maxSym + 1 < cs.length then none else some (fseBuild log cs, (pos + 7) / 8)
  | none => none

/-- Predefined literal-length distribution. -/
def llDefault : FseTable := fseBuild 6
  [4, 3, 2, 2, 2, 2, 2, 2, 2, 2, 2, 2, 2, 1, 1, 1, 2, 2, 2, 2, 2, 2, 2, 2, 2, 3, 2, 1, 1, 1, 1, 1,
   -1, -1, -1, -1]

/-- Predefined match-length distribution. -/
def mlDefault : FseTable := fseBuild 6
  ([1, 4, 3, 2, 2, 2, 2, 2, 2] ++ List.replicate 37 1 ++ List.replicate 7 (-1))

/-- Predefined offset distribution. -/
def ofDefault : FseTable := fseBuild 5
  ([1, 1, 1, 1, 1, 1, 2, 2, 2] ++ List.replicate 15 1 ++ List.replicate 5 (-1))

/-- Base and extra bits of a literal-length code. -/
def llCode (c : Nat) : Nat × Nat :=
  if c < 16 then (c, 0) else
    [(16, 1), (18, 1), (20, 1), (22, 1), (24, 2), (28, 2), (32, 3), (40, 3), (48, 4), (64, 6),
     (128, 7), (256, 8), (512, 9), (1024, 10), (2048, 11), (4096, 12), (8192, 13), (16384, 14),
     (32768, 15), (65536, 16)].getD (c - 16) (0, 0)

/-- Base and extra bits of a match-length code. -/
def mlCode (c : Nat) : Nat × Nat :=
  if c < 32 then (c + 3, 0) else
    [(35, 1), (37, 1), (39, 1), (41, 1), (43, 2), (47, 2), (51, 3), (59, 3), (67, 4), (83, 4),
     (99, 5), (131, 7), (259, 8), (515, 9), (1027, 10), (2051, 11), (4099, 12), (8195, 13),
     (16387, 14), (32771, 15), (65539, 16)].getD (c - 32) (0, 0)

/-! ### Huffman literals -/

/-- A Huffman table: maximum bits, and for every code of that many bits its symbol and length. -/
structure HufTable where
  bits : Nat
  cells : Array (Nat × Nat)
  deriving DecidableEq, Repr

/-- Build the table from all weights but the last, which is implied. -/
def hufBuild (ws : List Nat) : Option HufTable :=
  let sum := (ws.map fun w => if w = 0 then 0 else 2 ^ (w - 1)).foldl (· + ·) 0
  if sum = 0 ∨ 255 < ws.length then none else
  let mb := Nat.log2 sum + 1
  let left := 2 ^ mb - sum
  if 11 < mb ∨ left ≠ 2 ^ Nat.log2 left then none else
  let all := (ws ++ [Nat.log2 left + 1]).zipIdx
  let cells := (List.range mb).foldl (fun (acc : Array (Nat × Nat)) i =>
    all.foldl (fun acc x =>
      if x.1 = i + 1 then (List.range (2 ^ i)).foldl (fun a _ => a.push (x.2, mb - i)) acc
      else acc) acc) #[]
  some ⟨mb, cells⟩

/-- Weights from the two interleaved FSE states. -/
def fseWeights (t : FseTable) : Nat → Nat → Nat → BackBits → List Nat → Option (List Nat)
  | 0, _, _, _, _ => none
  | fuel + 1, s1, s2, b, acc =>
    let c := t.cells.getD s1 ⟨0, 0, 0⟩
    let acc := acc ++ [c.sym]
    if b.left < c.bits then
      some (acc ++ [(t.cells.getD s2 ⟨0, 0, 0⟩).sym])
    else
      let r := b.read c.bits
      fseWeights t fuel s2 (c.base + r.1) r.2 acc

/-- Read a Huffman tree description: the table and the bytes used. -/
def hufRead (bs : List Byte) : Option (HufTable × Nat) :=
  match bs with
  | [] => none
  | h :: rest =>
    let n := h.toNat
    if 128 ≤ n then
      let count := n - 127
      let used := (count + 1) / 2
      if rest.length < used then none else
      let ws := ((rest.take used).flatMap fun b => [b.toNat / 16, b.toNat % 16]).take count
      (hufBuild ws).map fun t => (t, 1 + used)
    else if rest.length < n then none else
      let body := rest.take n
      match fseRead body 6 255 with
      | none => none
      | some (t, used) =>
        match BackBits.start (body.drop used) with
        | none => none
        | some b =>
          let r1 := b.read t.log
          let r2 := r1.2.read t.log
          if r2.2.past then none else
          match fseWeights t 256 r1.1 r2.1 r2.2 [] with
          | some ws => if ws.any (fun w => 11 < w) then none
            else (hufBuild ws).map fun h => (h, 1 + n)
          | none => none

/-- Decode `n` literals from one stream, which must end exactly. -/
def hufStream (t : HufTable) : Nat → BackBits → Array Byte → Option (Array Byte)
  | 0, b, acc => if b.left = 0 ∧ !b.past then some acc else none
  | n + 1, b, acc =>
    let c := t.cells.getD (b.peek t.bits) (0, 0)
    if b.left < c.2 then none
    else hufStream t n (b.drop c.2) (acc.push (BitVec.ofNat 8 c.1))

/-- Decode one stream of bytes. -/
def hufOne (t : HufTable) (bs : List Byte) (n : Nat) (acc : Array Byte) : Option (Array Byte) :=
  match BackBits.start bs with
  | some b => hufStream t n b acc
  | none => none

/-- Decode the four streams behind their jump table. -/
def hufFour (t : HufTable) (bs : List Byte) (regen : Nat) : Option (Array Byte) :=
  let a := fieldAt bs 0 2
  let b := fieldAt bs 2 2
  let c := fieldAt bs 4 2
  if bs.length < 6 + a + b + c then none else
  let q := (regen + 3) / 4
  if regen < 3 * q then none else
  let body := bs.drop 6
  (hufOne t (body.take a) q #[]).bind fun x =>
  (hufOne t ((body.drop a).take b) q x).bind fun x =>
  (hufOne t ((body.drop (a + b)).take c) q x).bind fun x =>
  hufOne t (body.drop (a + b + c)) (regen - 3 * q) x

/-! ### Blocks -/

/-- What a frame carries from block to block. -/
structure ZState where
  huf : Option HufTable
  ll : Option FseTable
  off : Option FseTable
  ml : Option FseTable
  r1 : Nat
  r2 : Nat
  r3 : Nat
  out : Array Byte
  /-- The shortest match so far. -/
  shortest : Nat
  deriving DecidableEq, Repr

/-- State at the start of a frame. -/
def ZState.init : ZState := ⟨none, none, none, none, 1, 4, 8, #[], 131075⟩

/-- The literals section: literals, the new Huffman table and the bytes used. -/
def zLiterals (huf : Option HufTable) (bs : List Byte) :
    Option (Array Byte × Option HufTable × Nat) :=
  let h := fieldAt bs 0 5
  let typ := h % 4
  let sf := h / 4 % 4
  if typ < 2 then
    let d : Nat × Nat := if sf % 2 = 0 then (1, bitsOf h 3 5)
      else if sf = 1 then (2, bitsOf h 4 12) else (3, bitsOf h 4 20)
    let need := d.1 + (if typ = 0 then d.2 else 1)
    if bs.length < need ∨ 131072 < d.2 then none
    else if typ = 0 then some (((bs.drop d.1).take d.2).toArray, huf, need)
    else some (Array.replicate d.2 (bs.getD d.1 0), huf, need)
  else
    let w := if sf < 2 then 10 else if sf = 2 then 14 else 18
    let hl := if sf < 2 then 3 else if sf = 2 then 4 else 5
    let regen := bitsOf h 4 w
    let comp := bitsOf h (4 + w) w
    if bs.length < hl + comp ∨ 131072 < regen then none else
    let body := (bs.drop hl).take comp
    let tree : Option (HufTable × Nat) :=
      if typ = 2 then hufRead body else huf.map fun t => (t, 0)
    match tree with
    | none => none
    | some (t, used) =>
      let s := body.drop used
      (if sf = 0 then hufOne t s regen #[] else hufFour t s regen).map fun l => (l, some t, hl + comp)

/-- One of the three tables of a sequences section: the table and the bytes used. -/
def zTable (mode : Nat) (prev : Option FseTable) (dflt : FseTable) (bs : List Byte)
    (maxLog maxSym : Nat) : Option (FseTable × Nat) :=
  match mode with
  | 0 => some (dflt, 0)
  | 1 => match bs with
    | [] => none
    | b :: _ => if maxSym < b.toNat then none else some (fseRle b.toNat, 1)
  | 2 => fseRead bs maxLog maxSym
  | _ => prev.map fun t => (t, 0)

/-- Append `n` bytes from `off` back. -/
def copyMatch (off : Nat) : Nat → Array Byte → Array Byte
  | 0, out => out
  | n + 1, out => copyMatch off n (out.push (out.getD (out.size - off) 0))

/-- The offset a sequence names and the repeat offsets after it. -/
def zOffset (z : ZState) (ov ll : Nat) : Nat × ZState :=
  let k := if ll = 0 then ov + 1 else ov
  if 3 < ov then (ov - 3, { z with r1 := ov - 3, r2 := z.r1, r3 := z.r2 })
  else if k = 1 then (z.r1, z)
  else if k = 2 then (z.r2, { z with r1 := z.r2, r2 := z.r1 })
  else if k = 3 then (z.r3, { z with r1 := z.r3, r2 := z.r1, r3 := z.r2 })
  else (z.r1 - 1, { z with r1 := z.r1 - 1, r2 := z.r1, r3 := z.r2 })

/-- Execute `n` sequences of a block whose output ends at `most` or before. A fault leaves the output of the
sequences before it, and the literals of its own where its match is at fault (R157; log entry 45). -/
def zSequences (ll off ml : FseTable) (lits : Array Byte) (window most : Nat) :
    Nat → Nat → Nat → Nat → BackBits → Nat → ZState → Except ZState (ZState × Nat)
  | 0, _, _, _, b, used, z => if b.left = 0 ∧ !b.past then .ok (z, used) else .error z
  | n + 1, sl, so, sm, b, used, z =>
    let cl := ll.cells.getD sl ⟨0, 0, 0⟩
    let co := off.cells.getD so ⟨0, 0, 0⟩
    let cm := ml.cells.getD sm ⟨0, 0, 0⟩
    let o := b.read co.sym
    let m := o.2.read (mlCode cm.sym).2
    let l := m.2.read (llCode cl.sym).2
    let mlen := (mlCode cm.sym).1 + m.1
    let llen := (llCode cl.sym).1 + l.1
    let x := zOffset z (2 ^ co.sym + o.1) llen
    let out := z.out ++ lits.extract used (used + llen)
    if l.2.past ∨ lits.size < used + llen then .error z
    else if x.1 = 0 ∨ out.size < x.1 ∨ window < x.1 ∨ most < out.size + mlen then
      .error { z with out := out.extract 0 most }
    else
      let z' := { x.2 with out := copyMatch x.1 mlen out, shortest := min z.shortest mlen }
      if n = 0 then zSequences ll off ml lits window most n 0 0 0 l.2 (used + llen) z'
      else
        let a := l.2.read cl.bits
        let c := a.2.read cm.bits
        let d := c.2.read co.bits
        if d.2.past then .error z'
        else zSequences ll off ml lits window most n (cl.base + a.1) (co.base + d.1)
          (cm.base + c.1) d.2 (used + llen) z'

/-- Number of sequences and header length, without the modes byte. -/
def zCount (bs : List Byte) : Nat × Nat :=
  let b0 := fieldAt bs 0 1
  if b0 < 128 then (b0, 1)
  else if b0 < 255 then ((b0 - 128) * 256 + fieldAt bs 1 1, 2)
  else (fieldAt bs 1 2 + 0x7F00, 3)

/-- Block_Maximum_Size. -/
def zMost (window : Nat) : Nat := min window 131072

/-- Append the literals after the last sequence of a block, whose output ends at `most` or before. -/
def ZState.close (z : ZState) (lits : Array Byte) (most : Nat) : Except ZState ZState :=
  let out := z.out ++ lits
  if most < out.size then .error { z with out := out.extract 0 most } else .ok { z with out := out }

/-- The tables of a sequences section and its bit stream. -/
def zTables (z : ZState) (modes : Nat) (body : List Byte) : Option (FseTable × FseTable × FseTable × BackBits) :=
  if modes % 4 ≠ 0 then none else
  (zTable (modes / 64) z.ll llDefault body 9 35).bind fun tl =>
  (zTable (modes / 16 % 4) z.off ofDefault (body.drop tl.2) 8 31).bind fun to_ =>
  (zTable (modes / 4 % 4) z.ml mlDefault (body.drop (tl.2 + to_.2)) 9 52).bind fun tm =>
  (BackBits.start (body.drop (tl.2 + to_.2 + tm.2))).map fun b => (tl.1, to_.1, tm.1, b)

/-- A compressed block; a fault leaves the output before it. -/
def zBlock (z : ZState) (bs : List Byte) (window : Nat) : Except ZState ZState :=
  let most := z.out.size + zMost window
  match zLiterals z.huf bs with
  | none => .error z
  | some (lits, huf, used) =>
    let z := { z with huf := huf }
    let s := bs.drop used
    let c := zCount s
    if s.length < c.2 then .error z
    else if c.1 = 0 then (if s.length = c.2 then z.close lits most else .error z)
    else
      match zTables z (fieldAt s c.2 1) (s.drop (c.2 + 1)) with
      | none => .error z
      | some (tl, to_, tm, b) =>
        let a := b.read tl.log
        let d := a.2.read to_.log
        let e := d.2.read tm.log
        if e.2.past then .error z
        else match zSequences tl to_ tm lits window most c.1 a.1 d.1 e.1 e.2 0
            { z with ll := some tl, off := some to_, ml := some tm } with
          | .error z => .error z
          | .ok r => r.1.close (lits.extract r.2 lits.size) most

/-! ### xxHash64 (Content_Checksum) -/

/-- Rotate left in 64 bits. -/
def rotl64 (x n : Nat) : Nat := ((x <<< n) ||| (x >>> (64 - n))) % 2 ^ 64

/-- The primes of xxHash64. -/
def xxP (i : Nat) : Nat :=
  [0, 11400714785074694791, 14029467366897019727, 1609587929392839161, 9650029242287828579,
   2870177450012600261].getD i 0

/-- One lane round. -/
def xxRound (acc x : Nat) : Nat :=
  rotl64 ((acc + x * xxP 2) % 2 ^ 64) 31 * xxP 1 % 2 ^ 64

/-- The 32-byte stripes. -/
def xxStripes : Nat → List Byte → Nat × Nat × Nat × Nat → (Nat × Nat × Nat × Nat) × List Byte
  | 0, bs, v => (v, bs)
  | fuel + 1, bs, v =>
    if bs.length < 32 then (v, bs) else
      xxStripes fuel (bs.drop 32) (xxRound v.1 (fieldAt bs 0 8), xxRound v.2.1 (fieldAt bs 8 8),
        xxRound v.2.2.1 (fieldAt bs 16 8), xxRound v.2.2.2 (fieldAt bs 24 8))

/-- The tail: eights, a four and bytes. -/
def xxTail : Nat → List Byte → Nat → Nat
  | 0, _, h => h
  | fuel + 1, bs, h =>
    if 8 ≤ bs.length then
      xxTail fuel (bs.drop 8)
        ((rotl64 (h ^^^ xxRound 0 (fieldAt bs 0 8)) 27 * xxP 1 + xxP 4) % 2 ^ 64)
    else if 4 ≤ bs.length then
      xxTail fuel (bs.drop 4)
        ((rotl64 (h ^^^ (fieldAt bs 0 4 * xxP 1 % 2 ^ 64)) 23 * xxP 2 + xxP 3) % 2 ^ 64)
    else match bs with
      | [] => h
      | b :: rest => xxTail fuel rest (rotl64 (h ^^^ (b.toNat * xxP 5 % 2 ^ 64)) 11 * xxP 1 % 2 ^ 64)

/-- xxHash64 with seed 0. -/
def xxh64 (bs : List Byte) : Nat :=
  let n := bs.length
  let r := xxStripes (n / 32 + 1) bs
    ((xxP 1 + xxP 2) % 2 ^ 64, xxP 2, 0, (2 ^ 64 - xxP 1) % 2 ^ 64)
  let v := r.1
  let merge := fun (h x : Nat) => ((h ^^^ xxRound 0 x) * xxP 1 + xxP 4) % 2 ^ 64
  let h0 := if 32 ≤ n then
      merge (merge (merge (merge ((rotl64 v.1 1 + rotl64 v.2.1 7 + rotl64 v.2.2.1 12 +
        rotl64 v.2.2.2 18) % 2 ^ 64) v.1) v.2.1) v.2.2.1) v.2.2.2
    else xxP 5
  let h := xxTail (r.2.length + 1) r.2 ((h0 + n) % 2 ^ 64)
  let h := (h ^^^ (h >>> 33)) * xxP 2 % 2 ^ 64
  let h := (h ^^^ (h >>> 29)) * xxP 3 % 2 ^ 64
  h ^^^ (h >>> 32)

/-! ### Frames -/

/-- What a decompression gives: the status code of R156, the source bytes consumed, the output, the window of the
last frame or block, and the shortest match of a frame. -/
structure Unpacked where
  status : Nat
  consumed : Nat
  out : List Byte
  window : Nat
  shortest : Nat
  deriving DecidableEq, Repr

/-- The blocks of a frame from `pos`: the position after the last block, or the start of the block
in which a fault was found (R157) with `none`. -/
def zBlocks (src : Array Byte) (window : Nat) : Nat → Nat → ZState → Option Nat × Nat × ZState
  | 0, pos, z => (none, pos, z)
  | fuel + 1, pos, z =>
    let h := leNat (src.extract pos (pos + 3)).toList
    let n := h / 8
    let kind := h / 2 % 4
    let size := if kind = 1 then 1 else n
    let next := pos + 3 + size
    if src.size < next ∨ zMost window < n then (none, pos, z) else
    let body := (src.extract (pos + 3) next).toList
    let r : Except ZState ZState := match kind with
      | 0 => .ok { z with out := z.out ++ body.toArray }
      | 1 => .ok { z with out := z.out ++ Array.replicate n (body.headD 0) }
      | 2 => zBlock z body window
      | _ => .error z
    match r with
    | .error z' => (none, pos, z')
    | .ok z' => if h % 2 = 1 then (some next, next, z') else zBlocks src window fuel next z'

/-- The status of a source that ends inside a frame: CORRUPT, unless more of it is to come (R156). -/
def zShort : Nat := 0x15

/-- The block at `pos` runs past the end of the source. -/
def zCut (src : Array Byte) (pos : Nat) : Bool :=
  let h := leNat (src.extract pos (pos + 3)).toList
  decide (src.size < pos + 3 ∨ (h / 2 % 4 ≠ 3 ∧ src.size < pos + 3 + (if h / 2 % 4 = 1 then 1 else h / 8)))

/-- One frame at `pos`: its status, the position after it or where it stopped, its output, window and shortest
match. Skippable frames are passed over where `many` allows them. -/
def zFrame (src : Array Byte) (pos : Nat) (many : Bool) : Unpacked :=
  let f := fun (o n : Nat) => leNat (src.extract o (o + n)).toList
  let magic := f pos 4
  let stop := fun status at_ => (⟨status, at_, [], 0, 131075⟩ : Unpacked)
  if src.size < pos + 5 then stop zShort pos
  else if magic / 16 = 0x184D2A5 then
    (if many && decide (pos + 8 + f (pos + 4) 4 ≤ src.size) then stop 0 (pos + 8 + f (pos + 4) 4)
     else stop (if many then zShort else 5) pos)
  else if magic ≠ 0xFD2FB528 then stop 5 pos
  else
    let d := f (pos + 4) 1
    let single := d / 32 % 2 = 1
    let wl := if single then 0 else 1
    let wb := f (pos + 5) 1
    let dl := [0, 1, 2, 4].getD (d % 4) 0
    let fl := if d / 64 = 0 then (if single then 1 else 0) else [0, 2, 4, 8].getD (d / 64) 0
    let p1 := pos + 5 + wl
    let p2 := p1 + dl
    let fcs := f p2 fl + (if d / 64 = 1 then 256 else 0)
    let window := if single then fcs else 2 ^ (10 + wb / 8) + 2 ^ (10 + wb / 8) / 8 * (wb % 8)
    let start := p2 + fl
    if d / 8 % 2 = 1 then stop 5 pos
    else if src.size < start then stop zShort pos
    else if 2 ^ 23 < window ∨ f p1 dl ≠ 0 then stop 6 pos
    else match zBlocks src window (src.size + 1) start ZState.init with
      | (none, at_, z) => ⟨if zCut src at_ then zShort else 5, at_, z.out.toList, window, z.shortest⟩
      | (some next, _, z) =>
        let out := z.out.toList
        let check := d / 4 % 2 = 1
        let last := if check then next + 4 else next
        let done := fun status at_ => (⟨status, at_, out, window, z.shortest⟩ : Unpacked)
        if (0 < fl) ∧ fcs ≠ out.length then done 5 next
        else if src.size < last then done zShort next
        else if check ∧ f next 4 ≠ xxh64 out % 2 ^ 32 then done 7 next
        else done 0 last

/-- Every frame of a source, in order; with `many` false exactly one. -/
def zFrames (src : Array Byte) (many : Bool) : Nat → Nat → List Byte → Unpacked
  | 0, pos, acc => ⟨5, pos, acc, 0, 0⟩
  | fuel + 1, pos, acc =>
    let r := zFrame src pos many
    let u := { r with out := acc ++ r.out }
    if r.status ≠ 0 ∨ r.consumed = src.size then u
    else if many then zFrames src many fuel r.consumed u.out
    else { u with status := 5 }

/-- Decompress Zstandard (R151). -/
def unzstd (src : List Byte) (many : Bool) : Unpacked :=
  zFrames src.toArray many (src.length + 1) 0 []

/-! ### LZ4 blocks (R152) -/

/-- A length with its 255-continuation bytes: the total and the position after it. -/
def lz4Len (src : Array Byte) : Nat → Nat → Nat → Option (Nat × Nat)
  | 0, _, _ => none
  | fuel + 1, pos, acc =>
    if src.size ≤ pos then none else
    let b := (src.getD pos 0).toNat
    if b = 255 then lz4Len src fuel (pos + 1) (acc + 255) else some (acc + b, pos + 1)

/-- An LZ4 block at work: its output, and where its last match starts and ends in it. -/
structure Lz4Out where
  out : Array Byte
  start : Nat
  stop : Nat
  deriving DecidableEq, Repr

/-- The sequences of a block; `.error` where the input is corrupt, with the output before the fault (R157; log
entry 45). A block that ends with a match is accepted (R152). -/
def lz4Seqs (src : Array Byte) : Nat → Nat → Lz4Out → Except Lz4Out Lz4Out
  | 0, _, z => .error z
  | fuel + 1, pos, z =>
    if src.size ≤ pos then (if pos = 0 then .error z else .ok z) else
    let t := (src.getD pos 0).toNat
    let l := if t / 16 = 15 then lz4Len src (src.size + 1) (pos + 1) 15 else some (t / 16, pos + 1)
    match l with
    | none => .error z
    | some (n, p) =>
      if src.size < p + n then .error z else
      let z := { z with out := z.out ++ src.extract p (p + n) }
      let p := p + n
      if p = src.size then .ok z
      else if src.size < p + 2 then .error z else
      let off := leNat (src.extract p (p + 2)).toList
      let m := if t % 16 = 15 then lz4Len src (src.size + 1) (p + 2) 15 else some (t % 16, p + 2)
      match m with
      | none => .error z
      | some (k, p) =>
        if off = 0 ∨ z.out.size < off then .error z
        else lz4Seqs src fuel p ⟨copyMatch off (k + 4) z.out, z.out.size, z.out.size + k + 4⟩

/-- The sequences of a whole block. -/
def lz4Block (src : List Byte) : Except Lz4Out Lz4Out := lz4Seqs src.toArray (src.length + 1) 0 ⟨#[], 0, 0⟩

/-- Decompress one LZ4 block: the whole source is always consumed. -/
def unlz4 (src : List Byte) : Unpacked :=
  match lz4Block src with
  | .ok z => ⟨0, src.length, z.out.toList, 65536, 4⟩
  | .error z => ⟨5, 0, z.out.toList, 65536, 4⟩

/-- The end-of-block conditions: the last five bytes are literals, and the last match starts at least twelve bytes
before the end (R152, R153). -/
def lz4Ends (src : List Byte) : Bool :=
  match lz4Block src with
  | .ok z => z.stop == 0 || decide (z.stop + 5 ≤ z.out.size ∧ z.start + 12 ≤ z.out.size)
  | .error _ => false

/-- Decompress by format code: 1 Zstandard, 2 LZ4 (R126); a source that ends early is told apart. -/
def unpackRaw (fmt : Nat) (src : List Byte) (many : Bool) : Unpacked :=
  if fmt = 1 then unzstd src many else unlz4 src

/-- Decompress; a source that ends early is CORRUPT. -/
def unpack (fmt : Nat) (src : List Byte) (many : Bool) : Unpacked :=
  let u := unpackRaw fmt src many
  if u.status = zShort then { u with status := 5 } else u

/-! ### What a compressor writes (R153, R154) -/

/-- The Zstandard window of a level, as a power of two. -/
def levelLog (level : Nat) : Nat := if level ≤ 3 then 20 else if level ≤ 6 then 22 else 23

/-- The window of a frame of `n` source bytes, as a power of two: the level's, reduced to the smallest one not
less than `n` and not below 1 KiB. -/
def frameLog (level n : Nat) : Nat := min (levelLog level) (max 10 (Nat.log2 (2 * (max n 1) - 1)))

/-- Minimum match of a level. -/
def minMatch (level : Nat) : Nat := if level ≤ 6 then 4 else 3

/-- The header of a frame: Single_Segment_Flag 0, no Dictionary_ID; `fcs` the code of Frame_Content_Size and its
value. -/
def zHeader (checksum : Bool) (log fcs n : Nat) : List Byte :=
  leBytes 4 0xFD2FB528 ++ leBytes 1 (64 * fcs + 4 * checksum.toNat) ++ leBytes 1 (8 * (log - 10)) ++
    leBytes ([0, 2, 4, 8].getD fcs 0) (if fcs = 1 then n - 256 else if fcs = 0 then 0 else n)

/-- The codes of Frame_Content_Size that can hold `n`. -/
def fcsCodes (n : Nat) : List Nat :=
  (if 256 ≤ n ∧ n < 65792 then [1] else []) ++ (if n < 2 ^ 32 then [2] else []) ++ [3]

/-- Raw blocks of at most `most` bytes, the last one marked. -/
def zRaw (most : Nat) : Nat → List Byte → List Byte
  | 0, _ => []
  | fuel + 1, l =>
    let fin := decide (l.length ≤ most)
    leBytes 3 (8 * min l.length most + fin.toNat) ++ l.take most ++ if fin then [] else zRaw most fuel (l.drop most)

/-- A frame that stores its source. -/
def zStored (level : Nat) (checksum : Bool) (src : List Byte) : List Byte :=
  let log := frameLog level src.length
  zHeader checksum log ((fcsCodes src.length).headD 3) src.length ++ zRaw (zMost (2 ^ log)) (src.length + 1) src ++
    if checksum then leBytes 4 (xxh64 src) else []

/-- A block that stores its source. -/
def lz4Stored (src : List Byte) : List Byte :=
  let n := src.length
  (if n < 15 then leBytes 1 (16 * n)
    else [0xF0] ++ List.replicate ((n - 15) / 255) 0xFF ++ leBytes 1 ((n - 15) % 255)) ++ src

/-- Bytes that R153 and R154 allow as the compression of a source: one frame with the stated header that decodes
to it with matches no shorter than the level's, or one block that does and meets the end-of-block conditions. -/
def packOk (fmt level : Nat) (checksum : Bool) (src c : List Byte) : Bool :=
  let u := unpackRaw fmt c false
  u.status == 0 && u.consumed == c.length && u.out == src &&
    (if fmt = 1 then
      decide (minMatch level ≤ u.shortest) && (fcsCodes src.length).any fun k =>
        (zHeader checksum (frameLog level src.length) k src.length).isPrefixOf c
    else lz4Ends c)

/-- The compression of a source: bytes that R153 and R154 allow, and no more is known of them (log entry 3). -/
def packed (fmt level : Nat) (checksum : Bool) (src : List Byte) : List Byte :=
  let c := Config.compressed fmt level checksum src
  if packOk fmt level checksum src c then c
  else if fmt = 1 then zStored level checksum src else lz4Stored src

end Sys2Proof.Machine
end

