-- ==== Sys2Proof/Machine/Blocks.lean ====
section
/-! DEFINITION. Column blocks: the husk (R125 to R129), encodings (R130 to R133), dictionary blocks
(R134, R135), Parquet page encodings (R146, R147), the checks of R148, the zone test (R78, R128) and
the writing of plain and packed blocks (R81, R124, R149). -/

namespace Sys2Proof.Machine

/-- A failure of a stage or a submission: STATUS and DETAIL of R312. -/
structure Fail where
  status : Nat
  detail : Nat
  deriving DecidableEq, Repr

/-- BLOCK_MALFORMED at a check of R148. -/
def malformed (check : Nat) : Fail := ⟨0x20, check⟩

/-- What reading marked data ends with (R266, R469): UNCORRECTABLE_DATA of class MEM_UE, or
LOST_LINE. -/
def poisonFail (p : Poison) : Fail := if p = .lost then ⟨0x52, 0⟩ else ⟨0xF0, 0x0E⟩

/-- ADDR_FAULT. -/
def addrFault : Fail := ⟨0x50, 0⟩

/-- The fields of a husk (R125). -/
structure Husk where
  magic : Nat
  typ : Nat
  enc : Nat
  rows : Nat
  nulls : Nat
  payloadLen : Nat
  width : Nat
  flags : Nat
  runs : Nat
  base : Nat
  rawLen : Nat
  crc : Nat
  zmin : List Byte
  zmax : List Byte
  deriving DecidableEq, Repr

/-- Read a husk. -/
def Husk.ofBytes (b : List Byte) : Husk :=
  { magic := fieldAt b 0 2, typ := fieldAt b 2 1, enc := fieldAt b 3 1, rows := fieldAt b 4 2,
    nulls := fieldAt b 6 2, payloadLen := fieldAt b 8 4, width := fieldAt b 12 1,
    flags := fieldAt b 13 1, runs := fieldAt b 14 2, base := fieldAt b 16 8,
    rawLen := fieldAt b 24 4, crc := fieldAt b 28 4, zmin := slice b 32 16, zmax := slice b 48 16 }

/-- The bytes of a husk. -/
def Husk.bytes (h : Husk) : List Byte :=
  leBytes 2 h.magic ++ leBytes 1 h.typ ++ leBytes 1 h.enc ++ leBytes 2 h.rows ++ leBytes 2 h.nulls ++
    leBytes 4 h.payloadLen ++ leBytes 1 h.width ++ leBytes 1 h.flags ++ leBytes 2 h.runs ++
    leBytes 8 h.base ++ leBytes 4 h.rawLen ++ leBytes 4 h.crc ++ slice h.zmin 0 16 ++
    slice h.zmax 0 16

/-- FLAGS.COMP (R126). -/
def Husk.comp (h : Husk) : Nat := bitsOf h.flags 5 2

/-- FLAGS.ZONE. -/
def Husk.zone (h : Husk) : Bool := h.flags.testBit 0

/-- FLAGS.DICTBLOCK. -/
def Husk.dictBlock (h : Husk) : Bool := h.flags.testBit 1

/-- FLAGS.SORTED. -/
def Husk.sorted (h : Husk) : Bool := h.flags.testBit 2

/-- FLAGS.SORTED_CF. -/
def Husk.sortedCf (h : Husk) : Bool := h.flags.testBit 3

/-- The block is dictionary-encoded. -/
def Husk.isDict (h : Husk) : Bool := h.enc == 0x05 || h.enc == 0x12

/-- The CRC of a block (R129). -/
def blockCrc (husk payload : List Byte) : Nat :=
  crc32c (husk.take 28 ++ [0, 0, 0, 0] ++ husk.drop 32 ++ payload)

/-- A husk with its CRC over the payload filled in. -/
def Husk.seal (h : Husk) (payload : List Byte) : Husk :=
  { h with crc := blockCrc ({ h with crc := 0 }).bytes payload }

/-- Round up to a multiple of 8 (R131). -/
def pad8 (n : Nat) : Nat := roundUp n 8

/-- Types of a Parquet PLAIN or DELTA_BINARY_PACKED page held as INT32 (R146). -/
def pqInt32 (t : Nat) : Bool := [0x02, 0x03, 0x04, 0x0A, 0x0B, 0x0C, 0x18].contains t

/-- Types held as INT64. -/
def pqInt64 (t : Nat) : Bool := [0x05, 0x0D, 0x19].contains t

/-- An encoding is allowed for a type (R130, R146). -/
def encAllowed (enc t : Nat) : Bool :=
  let time := isTime t
  match enc with
  | 0x00 => typeOk t && t != 0x21
  | 0x01 => isInt t || time
  | 0x02 => isInt t || isDec t || time
  | 0x03 => (isInt t && t != 0x06) || time
  | 0x04 => fixedWidth t && t != 0x21
  | 0x05 => typeOk t && t != 0x01 && t != 0x21
  | 0x10 => t == 0x01 || pqInt32 t || pqInt64 t || isFlt t || t == 0x20 || isDec t
  | 0x11 => t == 0x01
  | 0x12 => typeOk t && t != 0x01 && t != 0x21
  | 0x13 => pqInt32 t || pqInt64 t || isDec t
  | 0x14 => t == 0x20
  | _ => false

/-- WIDTH is legal for the encoding (R130). -/
def widthOk (enc t w : Nat) : Bool :=
  match enc with
  | 0x01 => decide (1 ≤ w ∧ w ≤ min (intBits t) 64)
  | 0x02 => decide (w ≤ 64)
  | 0x03 => decide (w ≤ 64)
  | 0x05 => decide (1 ≤ w ∧ w ≤ 14)
  | 0x00 => w == 0
  | 0x04 => w == 0
  | _ => decide (w ≤ 1)

/-- RUNS is legal: 1 to ROWS for RLE (0 in a zero-row block), else 0. -/
def runsOk (h : Husk) : Bool :=
  if h.enc = 0x04 then (if h.rows = 0 then h.runs == 0 else decide (1 ≤ h.runs ∧ h.runs ≤ h.rows))
  else h.runs == 0

/-! ### Contents (R131 to R133) -/

/-- Length of the validity bitmap. -/
def Husk.bitmapLen (h : Husk) : Nat := if h.nulls = 0 then 0 else pad8 ((h.rows + 7) / 8)

/-- Presence of each row. -/
def Husk.present (h : Husk) (raw : List Byte) : List Bool :=
  if h.nulls = 0 then List.replicate h.rows true
  else let n := leNat (raw.take h.bitmapLen); (List.range h.rows).map fun i => n.testBit i

/-- The bitmap holds exactly NULLS zeros and zeros beyond ROWS. -/
def Husk.bitmapOk (h : Husk) (raw : List Byte) : Bool :=
  h.nulls == 0 ||
    (((h.present raw).filter (fun b => !b)).length == h.nulls &&
      leNat (raw.take h.bitmapLen) / 2 ^ h.rows == 0)

/-- Length of the raw payload (R132); 0 when ROWS is 0. -/
def Husk.rawLenFor (h : Husk) (raw : List Byte) : Nat :=
  let b := h.bitmapLen
  if h.rows = 0 then 0 else
  match h.enc with
  | 0x00 =>
    if h.typ = 0x01 then b + pad8 ((h.rows + 7) / 8)
    else if h.typ = 0x20 then
      b + pad8 (4 * (h.rows + 1)) + pad8 (fieldAt raw (b + 4 * h.rows) 4)
    else b + pad8 (h.rows * byteWidth h.typ)
  | 0x03 => 8 + pad8 (((h.rows - 1) * h.width + 7) / 8)
  | 0x04 => b + pad8 (2 * h.runs) + pad8 (h.runs * byteWidth h.typ)
  | _ => b + pad8 ((h.rows * h.width + 7) / 8)

/-- The packed section as one number. -/
def Husk.packed (h : Husk) (raw : List Byte) : Nat := leNat (raw.drop h.bitmapLen)

/-- A slot of a null row holds zero, and the value of a present row is in range. -/
def slotVal (t : Nat) (p zero : Bool) (v : Val) : Option (Option Val) :=
  if !p then (if zero then some none else none)
  else match v with
    | .int x => if inRange t x then some (some v) else none
    | _ => some (some v)

/-- Collect options. -/
def allSome {α : Type} : List (Option α) → Option (List α)
  | [] => some []
  | none :: _ => none
  | some x :: xs => (allSome xs).map fun l => x :: l

/-- The stored base of FOR and DELTA in the type's signedness (R133). -/
def Husk.baseInt (h : Husk) : Int := if isUInt h.typ then (h.base : Int) else toSigned 64 h.base

/-- PLAIN of a fixed width. -/
def Husk.plainFixed (h : Husk) (raw : List Byte) : Option Col :=
  let w := byteWidth h.typ
  let b := h.bitmapLen
  if !allZero (raw.drop (b + h.rows * w)) then none else
  allSome ((h.present raw).zipIdx.map fun p =>
    let n := fieldAt raw (b + p.2 * w) w
    slotVal h.typ p.1 (n == 0) (valOfNat h.typ n))

/-- PLAIN booleans. -/
def Husk.plainBool (h : Husk) (raw : List Byte) : Option Col :=
  let n := h.packed raw
  if n / 2 ^ h.rows ≠ 0 then none else
  allSome ((h.present raw).zipIdx.map fun p =>
    slotVal 1 p.1 (!n.testBit p.2) (.int (if n.testBit p.2 then 1 else 0)))

/-- PLAIN strings: offsets start at 0 and never decrease. -/
def Husk.plainStr (h : Husk) (raw : List Byte) : Option Col :=
  let b := h.bitmapLen
  let o := fun i => fieldAt raw (b + 4 * i) 4
  let v := b + pad8 (4 * (h.rows + 1))
  if o 0 ≠ 0 ∨ !allZero ((raw.take v).drop (b + 4 * (h.rows + 1))) ∨
      !allZero (raw.drop (v + o h.rows)) then none else
  allSome ((h.present raw).zipIdx.map fun p =>
    let lo := o p.2
    let hi := o (p.2 + 1)
    if hi < lo ∨ 65535 < hi - lo then none
    else slotVal 0x20 p.1 (lo == hi) (.str (slice raw (v + lo) (hi - lo))))

/-- BITPACK and FOR. -/
def Husk.packedInts (h : Husk) (raw : List Byte) : Option Col :=
  let n := h.packed raw
  let w := h.width
  if n / 2 ^ (h.rows * w) ≠ 0 then none else
  allSome ((h.present raw).zipIdx.map fun p =>
    let x := bitsOf n (p.2 * w) w
    let v : Int := if h.enc = 0x02 then h.baseInt + x
      else if signedType h.typ then toSigned w x else x
    slotVal h.typ p.1 (x == 0) (.int v))

/-- DELTA: running sums from BASE. -/
def deltaSums (min : Int) (n w : Nat) : Nat → Nat → Int → List Int
  | 0, _, _ => []
  | k + 1, i, v => let v' := v + min + (bitsOf n (i * w) w : Nat); v' :: deltaSums min n w k (i + 1) v'

/-- DELTA. -/
def Husk.delta (h : Husk) (raw : List Byte) : Option Col :=
  if h.nulls ≠ 0 then none else if h.rows = 0 then some [] else
  let n := leNat (raw.drop 8)
  if n / 2 ^ ((h.rows - 1) * h.width) ≠ 0 then none else
  allSome ((h.baseInt :: deltaSums (toSigned 64 (fieldAt raw 0 8)) n h.width (h.rows - 1) 0
    h.baseInt).map fun v => slotVal h.typ true false (.int v))

/-- The run of RLE that covers each row, from ascending run ends. -/
def runOfRow (ends : List Nat) (r : Nat) : Nat := (ends.filter fun e => decide (e ≤ r)).length

/-- Run ends ascend strictly from 0. -/
def ascending : List Nat → Nat → Bool
  | [], _ => true
  | e :: es, p => decide (p < e) && ascending es e

/-- RLE. -/
def Husk.rle (h : Husk) (raw : List Byte) : Option Col :=
  let b := h.bitmapLen
  let w := byteWidth h.typ
  let ends := (List.range h.runs).map fun j => fieldAt raw (b + 2 * j) 2
  let vo := b + pad8 (2 * h.runs)
  if !ascending ends 0 ∨ ends.getLast?.getD 0 ≠ h.rows ∨
      !allZero ((raw.take vo).drop (b + 2 * h.runs)) ∨ !allZero (raw.drop (vo + h.runs * w)) then none
  else allSome ((h.present raw).zipIdx.map fun p =>
    let n := fieldAt raw (vo + runOfRow ends p.2 * w) w
    if h.typ = 0x01 ∧ p.1 ∧ 1 < n then none
    else slotVal h.typ p.1 true (valOfNat h.typ n))

/-- DICT: codes below the entry count. -/
def Husk.codes (h : Husk) (raw : List Byte) (entries : Nat) : Option (List (Option Nat)) :=
  let n := h.packed raw
  let w := h.width
  if n / 2 ^ (h.rows * w) ≠ 0 then none else
  allSome ((h.present raw).zipIdx.map fun p =>
    let x := bitsOf n (p.2 * w) w
    if !p.1 then (if x = 0 then some none else none)
    else if x < entries then some (some x) else none)

/-! ### Parquet pages (R146, R147) -/

/-- Why the parsing of a page ends: it runs past the page or leaves some of it, which is check 8 of R148, or
the contents break another limit of R147, which is check 9. -/
inductive PageErr where
  | consumption
  | contents
  deriving DecidableEq, Repr

/-- An unsigned varint at `pos`: value and position after it. -/
def uvarint (raw : Array Byte) : Nat → Nat → Nat → Nat → Except PageErr (Nat × Nat)
  | 0, _, _, _ => .error .contents
  | fuel + 1, pos, sh, acc =>
    if raw.size ≤ pos then .error .consumption else
    let b := (raw.getD pos 0).toNat
    let acc := acc + (b % 128) * 2 ^ sh
    if b < 128 then .ok (acc, pos + 1) else uvarint raw fuel (pos + 1) (sh + 7) acc

/-- Zigzag. -/
def zigzag (n : Nat) : Int := if n % 2 = 0 then (n / 2 : Nat) else -((n / 2 : Nat) : Int) - 1

/-- Values of the RLE / bit-packed hybrid from `pos` up to `stop`: exactly `count` values and the
position after the runs that hold them. -/
def hybrid (raw : Array Byte) (w stop : Nat) : Nat → Nat → Nat → List Nat → Except PageErr (List Nat × Nat)
  | 0, _, _, _ => .error .contents
  | fuel + 1, pos, count, acc =>
    if count = 0 then .ok (acc, pos) else
    match uvarint raw 6 pos 0 0 with
    | .error e => .error e
    | .ok (hd, p) =>
      if hd % 2 = 0 then
        let n := hd / 2
        let bw := (w + 7) / 8
        let v := leNat (raw.extract p (p + bw)).toList
        if stop < p + bw then .error .consumption
        else if n = 0 ∨ 2 ^ w ≤ v ∨ count < n then .error .contents
        else hybrid raw w stop fuel (p + bw) (count - n) (acc ++ List.replicate n v)
      else
        let bytes := hd / 2 * w
        let n := min count (hd / 2 * 8)
        if stop < p + bytes then .error .consumption
        else if hd / 2 = 0 then .error .contents
        else
          let x := leNat (raw.extract p (p + bytes)).toList
          hybrid raw w stop fuel (p + bytes) (count - n)
            (acc ++ (List.range n).map fun i => bitsOf x (i * w) w)

/-- Definition levels: presence and the position of the values. -/
def Husk.levels (h : Husk) (raw : Array Byte) : Except PageErr (List Bool × Nat) :=
  if h.width = 0 then .ok (List.replicate h.rows true, 0)
  else
    let n := leNat (raw.extract 0 4).toList
    if raw.size < 4 + n then .error .consumption else
    match hybrid raw 1 (4 + n) (raw.size + 1) 4 h.rows [] with
    | .ok (l, p) => if p = 4 + n then .ok (l.map (· == 1), 4 + n) else .error .consumption
    | .error e => .error e

/-- One miniblock of deltas. -/
def miniblock (raw : Array Byte) (pos w n : Nat) : List Nat :=
  let x := leNat (raw.extract pos (pos + n * w / 8)).toList
  (List.range n).map fun i => bitsOf x (i * w) w

/-- The miniblocks of one block, stopping once `need` values are read: values and position. -/
def miniblocks (raw : Array Byte) (per : Nat) : List Nat → Nat → Nat → List Nat →
    Except PageErr (List Nat × Nat)
  | [], pos, _, acc => .ok (acc, pos)
  | w :: ws, pos, need, acc =>
    if need = 0 then .ok (acc, pos)
    else if 64 < w then .error .contents
    else if raw.size < pos + per * w / 8 then .error .consumption
    else miniblocks raw per ws (pos + per * w / 8) (need - per) (acc ++ miniblock raw pos w per)

/-- The blocks of DELTA_BINARY_PACKED after the header. -/
def deltaBlocks (raw : Array Byte) (bs minis bits : Nat) :
    Nat → Nat → Nat → Int → List Int → Except PageErr (List Int × Nat)
  | 0, _, _, _, _ => .error .contents
  | fuel + 1, pos, need, last, acc =>
    if need = 0 then .ok (acc, pos) else
    match uvarint raw 10 pos 0 0 with
    | .error e => .error e
    | .ok (z, p) =>
      let ws := ((raw.extract p (p + minis)).toList).map BitVec.toNat
      if ws.length < minis then .error .consumption else
      match miniblocks raw (bs / minis) ws (p + minis) need [] with
      | .error e => .error e
      | .ok (ds, p') =>
        let ds := ds.take need
        let r := ds.foldl (fun (x : Int × List Int) (d : Nat) =>
          let v := toSigned bits (ofSigned bits (x.1 + zigzag z + d)); (v, v :: x.2)) (last, [])
        deltaBlocks raw bs minis bits fuel p' (need - ds.length) r.1 (acc ++ r.2.reverse)

/-- DELTA_BINARY_PACKED of `count` values at `pos` within `bits`-bit arithmetic; the first value, which is
stored whole, lies in that range too. -/
def deltaPacked (raw : Array Byte) (pos count bits : Nat) : Except PageErr (List Int × Nat) :=
  (uvarint raw 10 pos 0 0).bind fun b =>
  (uvarint raw 10 b.2 0 0).bind fun m =>
  (uvarint raw 10 m.2 0 0).bind fun n =>
  (uvarint raw 10 n.2 0 0).bind fun f =>
  if b.1 % 128 ≠ 0 ∨ b.1 = 0 ∨ 1024 < b.1 ∨ m.1 = 0 ∨ 8 < m.1 ∨ b.1 / m.1 % 32 ≠ 0 ∨
      b.1 % m.1 ≠ 0 ∨ n.1 ≠ count ∨ toSigned bits (ofSigned bits (zigzag f.1)) ≠ zigzag f.1 then .error .contents
  else if count = 0 then .ok ([], f.2)
  else deltaBlocks raw b.1 m.1 bits (count + 1) f.2 (count - 1) (zigzag f.1) [zigzag f.1]

/-- PLAIN BYTE_ARRAY values. -/
def byteArrays (raw : Array Byte) : Nat → Nat → List Val → Except PageErr (List Val × Nat)
  | 0, pos, acc => .ok (acc, pos)
  | n + 1, pos, acc =>
    let l := leNat (raw.extract pos (pos + 4)).toList
    if raw.size < pos + 4 + l then .error .consumption
    else byteArrays raw n (pos + 4 + l) (acc ++ [.str (raw.extract (pos + 4) (pos + 4 + l)).toList])

/-- DELTA_BYTE_ARRAY strings from their shared lengths and suffixes. -/
def deltaStrings (raw : Array Byte) : List (Int × Int) → Nat → List Byte → List Val →
    Except PageErr (List Val × Nat)
  | [], pos, _, acc => .ok (acc, pos)
  | (p, l) :: rest, pos, last, acc =>
    if p < 0 ∨ l < 0 ∨ (last.length : Int) < p then .error .contents
    else if raw.size < pos + l.toNat then .error .consumption
    else
      let s := last.take p.toNat ++ (raw.extract pos (pos + l.toNat)).toList
      deltaStrings raw rest (pos + l.toNat) s (acc ++ [.str s])

/-- Width in bytes of a PLAIN number: for a decimal, the width that consumes the page (log
entry 12). -/
def pqWidth (t left count : Nat) : Nat :=
  if isDec t then (if count = 0 then 0 else left / count)
  else if pqInt32 t ∨ t = 0x10 then 4 else 8

/-- A PLAIN number of `w` bytes. -/
def pqNumber (t w : Nat) (bs : List Byte) : Val :=
  if isFlt t then .flt (leNat bs)
  else if isDec t then
    (if w = 16 then .int (toSigned 128 (leNat bs.reverse)) else .int (toSigned (8 * w) (leNat bs)))
  else if isUInt t then
    (if t = 0x0D ∨ t = 0x0C then .int (leNat bs : Nat) else .int (toSigned (8 * w) (leNat bs)))
  else .int (toSigned (8 * w) (leNat bs))

/-- The values of a page and the position after them. `codes`: dictionary codes stay integers. -/
def Husk.pageVals (h : Husk) (raw : Array Byte) (pos count : Nat) : Except PageErr (List Val × Nat) :=
  match h.enc with
  | 0x10 =>
    if h.typ = 0x01 then
      let n := leNat (raw.extract pos (pos + (count + 7) / 8)).toList
      if raw.size < pos + (count + 7) / 8 then .error .consumption
      else .ok ((List.range count).map fun i => Val.int (if n.testBit i then 1 else 0),
        pos + (count + 7) / 8)
    else if h.typ = 0x20 then byteArrays raw count pos []
    else
      let w := pqWidth h.typ (raw.size - pos) count
      if (isDec h.typ && decide (0 < count) && w != 4 && w != 8 && w != 16) ||
          decide (raw.size < pos + count * w) then .error .consumption
      else .ok ((List.range count).map fun i =>
        pqNumber h.typ w (raw.extract (pos + i * w) (pos + (i + 1) * w)).toList, pos + count * w)
  | 0x11 =>
    let n := leNat (raw.extract pos (pos + 4)).toList
    (hybrid raw 1 (pos + 4 + n) (raw.size + 1) (pos + 4) count []).bind fun r =>
      if r.2 = pos + 4 + n then .ok (r.1.map fun x => Val.int (x : Nat), r.2) else .error .consumption
  | 0x12 =>
    let w := (raw.getD pos 0).toNat
    if raw.size ≤ pos then .error .consumption
    else if w = 0 ∨ 14 < w then .error .contents
    else (hybrid raw w raw.size (raw.size + 1) (pos + 1) count []).map fun r =>
      (r.1.map fun x => Val.int (x : Nat), r.2)
  | 0x13 =>
    (deltaPacked raw pos count (if pqInt32 h.typ then 32 else 64)).map fun r =>
      (r.1.map fun x => if h.typ = 0x0C then Val.int (x % 2 ^ 32) else
        if h.typ = 0x0D then Val.int (x % 2 ^ 64) else Val.int x, r.2)
  | _ =>
    (deltaPacked raw pos count 32).bind fun p =>
    (deltaPacked raw p.2 count 32).bind fun l =>
    deltaStrings raw (p.1.zip l.1) l.2 [] []

/-- Put values on the present rows. -/
def spreadVals : List Bool → List Val → Col
  | [], _ => []
  | false :: ps, vs => none :: spreadVals ps vs
  | true :: ps, v :: vs => some v :: spreadVals ps vs
  | true :: ps, [] => none :: spreadVals ps []

/-- A wrapped page (R147): its rows, codes as integers. It is consumed exactly, and it has as many level-0
entries as NULLS, none without levels. -/
def Husk.page (h : Husk) (raw : List Byte) : Except PageErr Col :=
  if h.rows = 0 then .ok [] else
  let a := raw.toArray
  (h.levels a).bind fun l =>
  (h.pageVals a l.2 (l.1.filter id).length).bind fun v =>
    if v.2 ≠ raw.length then .error .consumption
    else if (l.1.filter not).length ≠ h.nulls then .error .contents
    else .ok (spreadVals l.1 v.1)

/-- Every value of a page is in the range of the type and no string is too long. -/
def pageRangeOk (t : Nat) (c : Col) : Bool :=
  c.all fun v => match v with
    | some (.int x) => inRange t x
    | some (.str s) => decide (s.length ≤ 65535)
    | _ => true

/-! ### Whole blocks -/

/-- Codes of a dictionary-encoded block, DICT or Parquet. -/
def Husk.codeCol (h : Husk) (raw : List Byte) (entries : Nat) : Option (List (Option Nat)) :=
  if h.enc = 0x05 then h.codes raw entries
  else (h.page raw).toOption.bind fun c =>
    allSome (c.map fun v => match v with
      | some (.int x) => if x.toNat < entries then some (some x.toNat) else none
      | _ => some none)

/-- The rows of a block that is not dictionary-encoded, checked under check 9 but for the zone. -/
def Husk.rowsOf (h : Husk) (raw : List Byte) : Option Col :=
  if h.rows = 0 then some []
  else if 0x10 ≤ h.enc then
    (h.page raw).toOption.bind fun c => if pageRangeOk h.typ c then some c else none
  else if !h.bitmapOk raw then none
  else match h.enc with
    | 0x00 => if h.typ = 0x01 then h.plainBool raw
      else if h.typ = 0x20 then h.plainStr raw else h.plainFixed raw
    | 0x03 => h.delta raw
    | 0x04 => h.rle raw
    | _ => h.packedInts raw

/-- The zone bound of a fixed-width type. -/
def zoneVal (t : Nat) (z : List Byte) : Val := valOfNat t (leNat (if wide t then z else z.take 8))

/-- The stored part of a string bound. -/
def zoneStr (z : List Byte) : List Byte := z.take ((z.getD 15 0).toNat % 16)

/-- A value is at or above ZMIN (R127, R128). -/
def aboveMin (t : Nat) (z : List Byte) (v : Val) : Bool :=
  match v with
  | .str s => bytesCmp (zoneStr z) s != .gt
  | _ => valCmp t t false (zoneVal t z) v != .gt

/-- A value is at or below ZMAX: a truncated string bound extends with 0xFF without end. -/
def belowMax (t : Nat) (z : List Byte) (v : Val) : Bool :=
  match v with
  | .str s =>
    if (z.getD 15 0).toNat ≥ 128 then bytesCmp (s.take (zoneStr z).length) (zoneStr z) != .gt
    else bytesCmp s (zoneStr z) != .gt
  | _ => valCmp t t false v (zoneVal t z) != .gt

/-- Every non-null value lies in the zone, where there is one (R148 check 9). -/
def Husk.zoneOk (h : Husk) (c : Col) : Bool :=
  !h.zone || c.all fun v => match v with
    | some x => aboveMin h.typ h.zmin x && belowMax h.typ h.zmax x
    | none => true

/-- may_hold (R78, R128): the block can hold a value between the bounds. -/
def Husk.mayHold (h : Husk) (lo hi : Val) : Bool :=
  if h.nulls = h.rows then false
  else if !h.zone then true
  else belowMax h.typ h.zmax lo && aboveMin h.typ h.zmin hi

/-- Checks 1 to 6 of R148 for a block on a stream of type `t`: the first that fails. -/
def Husk.headCheck (h : Husk) (t addr : Nat) (crcOk : Bool) : Option Nat :=
  if addr % 64 ≠ 0 ∨ h.magic ≠ 0x4B48 then some 1
  else if 131072 < h.payloadLen then some 2
  else if !crcOk then some 3
  else if !(typeOk h.typ && h.typ != 0x21) || h.typ != (if t = 0x21 then 0x20 else t) ||
      (t == 0x21 && h.rows != 0 && !h.isDict) then some 4
  else if !(encAllowed h.enc h.typ && widthOk h.enc h.typ h.width && runsOk h) ||
      h.flags.testBit 7 || h.flags.testBit 4 || h.comp == 3 || h.dictBlock then some 5
  else if 16384 < h.rows ∨ h.rows < h.nulls ∨
      (h.rows = 0 ∧ (h.payloadLen ≠ 0 ∨ h.zone = true ∨ h.nulls ≠ 0)) then some 6
  else none

/-- Check 8: RAW_LEN is the length of the contents, or the page is consumed exactly; other limits of R147 are
check 9's. -/
def Husk.lengthOk (h : Husk) (raw : List Byte) : Bool :=
  if 0x10 ≤ h.enc ∧ h.rows ≠ 0 then
    (match h.page raw with
    | .error .consumption => false
    | _ => true)
  else h.rawLen == h.rawLenFor raw

/-- The raw payload of a compressed block, of exactly RAW_LEN bytes (check 7; log entry 32). -/
def Husk.inflate (h : Husk) (payload : List Byte) : Option (List Byte) :=
  if h.comp = 0 then (if h.rawLen = h.payloadLen then some payload else none)
  else
    let u := unpack h.comp payload false
    if u.status = 0 ∧ u.out.length = h.rawLen ∧ h.rawLen ≤ 131072 then some u.out else none

/-! ### Dictionaries (R134, R135) -/

/-- Strictly ascending strings or values. -/
def strictly (t : Nat) (cf : Bool) : List Val → Bool
  | [] => true
  | [_] => true
  | a :: b :: rest => valCmp t t cf a b == .lt && strictly t cf (b :: rest)

/-- No two entries are equal. -/
def distinct (t : Nat) (cf : Bool) : List Val → Bool
  | [] => true
  | a :: rest => rest.all (fun b => valCmp t t cf a b != .eq) && distinct t cf rest

/-- The entries of a dictionary block whose CRC, structure and distinctness hold (R134). -/
def dictContents (husk payload : List Byte) : Option (List Val) :=
  let h := Husk.ofBytes husk
  if h.magic = 0x4B48 ∧ h.payloadLen ≤ 131072 ∧ h.crc = blockCrc husk payload ∧ h.dictBlock = true ∧
      h.enc = 0 ∧ h.nulls = 0 ∧ h.zone = false ∧ 1 ≤ h.rows ∧ h.rows ≤ 16384 ∧ h.comp ≠ 3 ∧
      h.width = 0 ∧ h.runs = 0 ∧ h.base = 0 ∧ typeOk h.typ = true ∧
      h.typ ≠ 0x21 ∧ h.flags.testBit 7 = false ∧ h.flags.testBit 4 = false then
    (h.inflate payload).bind fun raw =>
      if h.rawLen ≠ h.rawLenFor raw then none
      else (h.rowsOf raw).bind fun c => (allSome c).bind fun es =>
        if distinct h.typ false es && (!h.sortedCf || distinct h.typ true es) then some es else none
  else none

/-- The entries of a dictionary block that a stage verifies: the order of each flag that is set holds as well
(R126, R134, R135). -/
def dictEntries (husk payload : List Byte) : Option (List Val) :=
  let h := Husk.ofBytes husk
  (dictContents husk payload).filter fun es =>
    (!h.sorted || strictly h.typ false es) && (!h.sortedCf || strictly h.typ true es)

/-- The entries of a dictionary block that a binding resolves against: the one flag that its kind needs is set
and holds (R24, R25, R135); DICT_EQ needs none. -/
def bindEntries (kind : Nat) (cf : Bool) (husk payload : List Byte) : Option (List Val) :=
  let h := Husk.ofBytes husk
  (dictContents husk payload).filter fun es =>
    decide (kind < 2) || ((if cf then h.sortedCf else h.sorted) && strictly h.typ cf es)

/-- Read a dictionary block at a device address for a pod, verified by `verify`: ADDR_FAULT outside its ranges,
a poison status, or BLOCK_MALFORMED at check 9. -/
def Dev.dictBy (d : Dev) (verify : List Byte → List Byte → Option (List Val)) (p a : Nat) :
    Except Fail (Husk × List Val) :=
  if !d.inPod p a 64 then .error addrFault
  else if a % 64 ≠ 0 then .error (malformed 9)
  else
    let o := d.localForm a
    let husk := d.ld o 64
    let h := Husk.ofBytes husk
    let n := min h.payloadLen 131072
    if !d.inPod p a (64 + n) then .error addrFault
    else if d.poisonIn o (64 + n) ≠ .clean then .error (poisonFail (d.poisonIn o (64 + n)))
    else match verify husk (d.ld (o + 64) n) with
      | some es => .ok (h, es)
      | none => .error (malformed 9)

/-- The dictionary block that a stage reads. -/
def Dev.dictAt (d : Dev) (p a : Nat) : Except Fail (Husk × List Val) := d.dictBy dictEntries p a

/-! ### Writing blocks -/

/-- Pad with zero bytes to a multiple of `n`. -/
def padTo (n : Nat) (bs : List Byte) : List Byte := bs ++ List.replicate (roundUp bs.length n - bs.length) 0

/-- A bitmap of flags, least significant bit first. -/
def bitmap (l : List Bool) : Nat := l.foldr (fun b n => b.toNat + 2 * n) 0

/-- Validity bitmap section, absent where every row is present. -/
def validity (c : Col) : List Byte :=
  if c.all Option.isSome then [] else padTo 8 (leBytes ((c.length + 7) / 8) (bitmap (c.map Option.isSome)))

/-- Offsets of strings. -/
def offsets : List (Option Val) → Nat → List Nat
  | [], n => [n]
  | v :: vs, n => n :: offsets vs (n + match v with
    | some (.str s) => s.length
    | _ => 0)

/-- Bytes of a value or of a null slot. -/
def slotBytes (t : Nat) (v : Option Val) : List Byte :=
  match v with
  | some x => valBytes t x
  | none => List.replicate (byteWidth t) 0

/-- The PLAIN raw payload of a column (R132). -/
def plainRaw (t : Nat) (c : Col) : List Byte :=
  if c.isEmpty then [] else
  validity c ++
    (if t = 0x01 then
      padTo 8 (leBytes ((c.length + 7) / 8) (bitmap (c.map fun v => v == some (.int 1))))
    else if t = 0x20 then
      padTo 8 ((offsets c 0).flatMap (leBytes 4)) ++ padTo 8 (c.flatMap (slotBytes t))
    else padTo 8 (c.flatMap (slotBytes t)))

/-- Null rows of a column. -/
def nullCount (c : Col) : Nat := (c.filter Option.isNone).length

/-- The husk of a plain block with no zone (R149 for zero rows). -/
def plainHusk (t : Nat) (c : Col) (raw : List Byte) : Husk :=
  { magic := 0x4B48, typ := t, enc := 0, rows := c.length, nulls := nullCount c,
    payloadLen := raw.length, width := 0, flags := 0, runs := 0, base := 0, rawLen := raw.length,
    crc := 0, zmin := List.replicate 16 0, zmax := List.replicate 16 0 }

/-- A plain block: sealed husk and payload. A dcode column has no plain form but its zero-row
block, typed string. -/
def plainBlock (t : Nat) (c : Col) : List Byte × List Byte :=
  let t := if t = 0x21 then 0x20 else t
  let raw := plainRaw t c
  (((plainHusk t c raw).seal raw).bytes, raw)

/-- A zero-row block (R149). -/
def emptyBlock (t : Nat) : List Byte × List Byte := plainBlock t []

/-! ### Packed blocks (R81) -/

/-- The packed section of `w`-bit values, with its bitmap (R131). -/
def packedRaw (w : Nat) (c : List (Option Nat)) : List Byte :=
  let n := c.foldr (fun v acc => v.getD 0 % 2 ^ w + acc * 2 ^ w) 0
  let present := c.map fun v => v.map fun (x : Nat) => Val.int x
  if c.isEmpty then [] else validity present ++ padTo 8 (leBytes ((c.length * w + 7) / 8) n)

/-- A block of packed values under the shape of `h`, ZONE clear. -/
def packedBlock (h : Husk) (w : Nat) (c : List (Option Nat)) : Husk × List Byte :=
  let raw := packedRaw w c
  ({ h with rows := c.length, nulls := (c.filter fun v => v.isNone).length, payloadLen := raw.length, rawLen := raw.length,
            width := w, flags := 0, runs := 0, zmin := List.replicate 16 0, zmax := List.replicate 16 0 }, raw)

/-- Bits a code takes. -/
def codeBits (c : List (Option Nat)) : Nat :=
  c.foldl (fun m v => max m (if v.getD 0 = 0 then 1 else Nat.log2 (v.getD 0) + 1)) 1

/-- Codes as a DICT block of the dictionary at `base`. -/
def dictBlockOf (base w : Nat) (c : List (Option Nat)) : Husk × List Byte :=
  let h := plainHusk 0x20 [] []
  packedBlock { h with enc := 0x05, base := base } (max w (codeBits c)) c

/-- Zone bytes of a value (R127). -/
def zoneBytes (t : Nat) (v : Val) : List Byte :=
  match v with
  | .str s =>
    let n := min s.length 15
    slice s 0 n ++ List.replicate (15 - n) 0 ++
      [BitVec.ofNat 8 (n + if 15 < s.length then 128 else 0)]
  | _ => slice (laneBytes t v) 0 16

/-- The least and greatest present values of a column. -/
def extremes (t : Nat) (c : Col) : Option (Val × Val) :=
  c.foldl (fun acc v => match v, acc with
    | none, _ => acc
    | some x, none => some (x, x)
    | some x, some (lo, hi) =>
      some (if valCmp t t false x lo = .lt then x else lo,
        if valCmp t t false x hi = .gt then x else hi)) none

/-- A plain block with its zone set where it holds a value (R199); one of a dcode column is typed string. -/
def zonedBlock (t : Nat) (c : Col) : List Byte × List Byte :=
  let t := if t = 0x21 then 0x20 else t
  let raw := plainRaw t c
  let h := plainHusk t c raw
  match extremes t c with
  | none => ((h.seal raw).bytes, raw)
  | some (lo, hi) =>
    let h := { h with flags := 1, zmin := zoneBytes t lo, zmax := zoneBytes t hi }
    ((h.seal raw).bytes, raw)

/-- Size of the decoded block: value data and offsets (R19, R21). -/
def decodedSize (t : Nat) (c : Col) : Nat :=
  if t = 0x20 then 4 * (c.length + 1) + (c.map fun v => match v with
    | some (.str s) => s.length
    | _ => 0).foldl (· + ·) 0
  else if t = 0x01 then (c.length + 7) / 8 else c.length * byteWidth t

end Sys2Proof.Machine
end

