-- ==== Sys2Proof/Machine/Runs.lean ====
section
/-! DEFINITION. Runs, pipeline instances and tile slots: finding and replacing them, recording a
failure and its record (R50, R311, R470, R477), and ending an instance (R49). -/

namespace Sys2Proof.Machine

/-- The run of an entry. -/
def Dev.findRun (d : Dev) (ring index : Nat) : Option Run :=
  d.runs.find? fun r => r.ring == ring && r.index == index

/-- Put a run back. -/
def Dev.setRun (d : Dev) (r : Run) : Dev :=
  { d with runs := upsert (fun x => x.ring == r.ring && x.index == r.index) r d.runs }

/-- Change the run of an entry. -/
def Dev.onRun (d : Dev) (ring index : Nat) (f : Run → Run) : Dev :=
  { d with runs := mapIf (fun x => x.ring == ring && x.index == index) f d.runs }

/-- The instance in a tile slot that has not left it. -/
def Dev.findInst (d : Dev) (t slot : Nat) : Option Inst :=
  d.insts.find? fun i => i.tile == t && i.slot == slot

/-- The same instance: its run, pipeline and number. -/
def Inst.same (i j : Inst) : Bool :=
  i.ring == j.ring && i.index == j.index && i.pipe == j.pipe && i.number == j.number

/-- Put an instance back. -/
def Dev.setInst (d : Dev) (i : Inst) : Dev := { d with insts := upsert (Inst.same i) i d.insts }

/-- Instances of a run. -/
def Dev.instsOf (d : Dev) (ring index : Nat) : List Inst :=
  d.insts.filter fun i => i.ring == ring && i.index == index

/-- Instances of a pipeline of a run. -/
def Dev.pipeInsts (d : Dev) (ring index pipe : Nat) : List Inst :=
  d.insts.filter fun i => i.ring == ring && i.index == index && i.pipe == pipe

/-- A run uses a tile (R475). -/
def Dev.useTile (d : Dev) (i : Inst) : Dev :=
  if d.errs.used.contains (i.tile, i.ring, i.index) then d
  else { d with errs := { d.errs with used := (i.tile, i.ring, i.index) :: d.errs.used } }

/-- What a tile slot holds. -/
def Dev.findSlot (d : Dev) (t slot : Nat) : Option SlotSt :=
  d.slots.find? fun x => x.tile == t && x.slot == slot

/-- Change a slot. -/
def Dev.onSlot (d : Dev) (t slot : Nat) (f : SlotSt → SlotSt) : Dev :=
  { d with slots := mapIf (fun x => x.tile == t && x.slot == slot) f d.slots }

/-- Free a slot (R49). -/
def Dev.freeSlot (d : Dev) (t slot : Nat) : Dev :=
  { d with slots := d.slots.filter fun x => !(x.tile == t && x.slot == slot) }

/-- An instance and its slot enter a lifecycle state (R48). -/
def Dev.setLife (d : Dev) (i : Inst) (l : Life) : Dev :=
  (d.setInst { i with life := l }).onSlot i.tile i.slot fun x => { x with life := l }

/-- The pipeline descriptor of a run. -/
def Run.pipeAt (r : Run) (p : Nat) : Option Pipe := r.image.bind fun m => m.pipes[p]?

/-- KIND, EFLAGS, HANDLE and TAG of an entry (R304). -/
def Run.handle (r : Run) : Nat := fieldAt r.entry 4 4

/-- TAG of an entry. -/
def Run.tag (r : Run) : Nat := fieldAt r.entry 8 8

/-- EFLAGS of an entry. -/
def Run.flag (r : Run) (b : Nat) : Bool := (fieldAt r.entry 1 1).testBit b

/-- The instance count of a pipeline of a run. -/
def Dev.instCount (d : Dev) (i : Inst) : Nat := (d.pipeInsts i.ring i.index i.pipe).length

/-- Code of a lifecycle state (R48). -/
def Life.code : Life → Nat
  | .free => 0
  | .placed => 1
  | .starting => 2
  | .running => 3
  | .migrating => 4
  | .parked => 5
  | .quiesced => 6
  | .done => 7
  | .failed => 8

/-- The class of the record of a run failure (R470). -/
def failClass (f : Fail) : Nat :=
  if 0xF0 ≤ f.status then f.detail % 256
  else if f.status = 0x21 then 0x10
  else if f.status = 0x52 then 0x0F
  else if f.status = 0x60 then 0x13
  else if f.status = 0x01 ∨ f.status = 0x02 then 0x16
  else 0x19

/-- Where a failure happened: tile, pipeline and stage (0xFF for none), block, INFO and fence. -/
structure Site where
  tile : Nat := 0xFF
  pipe : Nat := 0xFF
  stage : Nat := 0xFF
  seq : Nat := 0
  info : Nat := 0
  fence : Bool := false
  injected : Bool := false
  /-- The failure came in an ABORT (R375). -/
  received : Bool := false
  deriving DecidableEq, Repr

/-- The record of a run failure (R476). -/
def Run.errInfo (r : Run) (f : Fail) (w : Site) : ErrInfo :=
  { cls := failClass f, pod := some r.pod, srcKind := if w.tile = 0xFF then 6 else 0,
    source := if w.tile = 0xFF then r.ring else w.tile, tile := w.tile, status := f.status,
    run := true, ring := r.ring, index := r.index, pipe := w.pipe, stage := w.stage,
    handle := r.handle, tag := r.tag, info := w.info, fence := w.fence, injected := w.injected,
    toolkit := (r.image.map fun m => m.tag.toNat).getD 0 }

/-- Other members of the run's span group (R373). -/
def Dev.runPeers (d : Dev) (r : Run) : List Nat :=
  if !((r.image.map fun m => m.span).getD false) then []
  else (List.range 8).filter fun k =>
    (d.get F.LNK_POD_SPAN_MEMBERS r.pod).testBit k && k != d.get F.LNK_SPAN_CFG_SPAN_NO

/-- Send a span control message about a run to every other member that is live (R372, R375, R380). -/
def Dev.tellPeers (d : Dev) (r : Run) (opc : Nat) (body : List Nat) : Dev :=
  ((d.runPeers r).filter fun k => (d.get F.LNK_SPAN_STATUS_LIVE).testBit k).foldl (fun d k =>
    d.emit (.span k opc (d.get F.LNK_POD_SPAN_GROUP r.pod :: r.tag :: body))) d

/-- Record a failure of a run: an error record for each, and the first is the run's (R50); a first
failure of a span run that is this member's own goes to the others in an ABORT (R375). -/
def Dev.recordFailure (d : Dev) (ring index : Nat) (f : Fail) (w : Site) : Dev :=
  match d.findRun ring index with
  | none => d
  | some r =>
    let seq := d.reportSeq (r.errInfo f w)
    let d := d.report (r.errInfo f w)
    let d := if r.failure.isSome || w.received then d else d.tellPeers r 0x4A [f.status, f.detail]
    d.onRun ring index fun r =>
      if r.failure.isSome then r
      else { r with failure := some ⟨f.status, f.detail, w.tile, w.pipe, w.stage, w.seq, seq⟩ }

/-- The stream buffers of an instance are freed. -/
def Inst.buffersFreed (i : Inst) : Inst := { i with chans := [] }

/-- The selections of a slot are freed with it. -/
def Dev.dropSels (d : Dev) (t slot : Nat) : Dev :=
  { d with sels := d.sels.filter fun x => !(x.1 == t && x.2.slot == slot) }

/-- Compression jobs of a slot whose instance has ended: waiting ones go, and a running one's result
is wanted by no stage any more (tile number 64 names none). -/
def Dev.dropJobs (d : Dev) (t slot : Nat) : Dev :=
  let mine := fun (j : Job) => j.stageJob && j.tile == t && j.slot == slot
  let orphan := fun (e : EngJob) => { e with job := { e.job with tile := 64 } }
  { d with stageJobs := d.stageJobs.filter (fun j => !mine j),
           engJobs := mapIf (fun (e : EngJob) => mine e.job) orphan d.engJobs,
           jobResults := d.jobResults.filter fun x => !(x.tile == t && x.slot == slot) }

/-- Buffers of a slot are freed. -/
def Dev.freePairs (d : Dev) (i : Inst) : Dev :=
  ((d.onSlot i.tile i.slot fun x => { x with pairs := 0, stalls := [] }).dropSels i.tile i.slot).dropJobs
    i.tile i.slot

/-- Every instance of a run is DONE or FAILED. -/
def Dev.runSettled (d : Dev) (ring index : Nat) : Bool :=
  (d.instsOf ring index).all fun i => i.life == .done || i.life == .failed

/-! ### Declared intensity and ballast (R33, R34, R416) -/

/-- The class a stage counts with: the largest measured one once it replaces the declaration. -/
def classInEffect (declared : Nat) (st : StageSt) : Nat :=
  if 4 ≤ st.exceeded then max declared st.measured else declared

/-- An instance's forecast increment in account units of 1/32000 A: the sum of its classes, each
125 for every 50 MHz of CCLK (R33). -/
def Dev.increment (d : Dev) (p : Pipe) (i : Inst) : Nat :=
  let cs := (List.range p.stages.length).map fun n =>
    match i.stages[n]? with
    | some st => classInEffect (p.intens.getD n 0) st
    | none => p.intens.getD n 0
  cs.foldl (· + ·) 0 * 125 * (d.get F.CLK_CCLK_STATUS_MHZ / 50)

/-- Ballast of a tile still running now: it decays at SLEW A/µs (R416). -/
def Dev.ballastOf (d : Dev) (t : Nat) : Nat :=
  match d.pw.ballast.find? fun x => x.1 == t with
  | some x => x.2.1 - 32 * d.get F.PWR_GOV_CFG_SLEW * (d.now - x.2.2)
  | none => 0

/-- Ballast of a tile replaced. -/
def Dev.setBallast (d : Dev) (t x : Nat) : Dev :=
  let rest := d.pw.ballast.filter fun y => y.1 != t
  { d with pw := { d.pw with ballast := if x = 0 then rest else (t, x, d.now) :: rest } }

/-- A tile replaces the switching of an instance that ends, parks or quiesces (R416). -/
def Dev.startBallast (d : Dev) (p : Pipe) (i : Inst) : Dev :=
  if d.get F.PWR_GOV_CFG_BALLAST_EN = 0 then d
  else d.setBallast i.tile (d.ballastOf i.tile + d.increment p i)

/-! ### The end of an instance (R49) -/

/-- The switching of an instance that runs is replaced when it ends (R416). -/
def Dev.ballastAfter (d : Dev) (i : Inst) : Dev :=
  match (d.findRun i.ring i.index).bind fun r => r.pipeAt i.pipe with
  | some p => if i.life == .running || i.life == .migrating then d.startBallast p i else d
  | none => d

/-- A slot of an instance's pipeline and number that it has been given and does not stand in yet (R56 step 2). -/
def SlotSt.keptFor (x : SlotSt) (i : Inst) : Bool :=
  x.life == .starting && x.ring == i.ring && x.index == i.index && x.pipe == i.pipe && x.number == i.number &&
    !(x.tile == i.tile && x.slot == i.slot)

/-- The slot reserved for a leaving instance fails with it (R49). -/
def Dev.failReserved (d : Dev) (i : Inst) : Dev :=
  { d with slots := mapIf (fun x => x.keptFor i) (fun x => { x with life := .failed, pairs := 0, stalls := [] }) d.slots }

/-- An instance enters FAILED: buffers and region are freed (R48). -/
def Dev.instFailed (d : Dev) (i : Inst) : Dev :=
  (((d.ballastAfter i).setLife { i.buffersFreed with stages := [], accs := [] } .failed).freePairs i).failReserved i

/-- A run is stopped: its DONE instances, which execute nothing, enter FAILED at once, and every other one
stops at its next block boundary (R49, R50). -/
def Dev.stopRun (d : Dev) (ring index : Nat) : Dev :=
  let d := ((d.instsOf ring index).filter fun i => i.life == .done).foldl Dev.instFailed d
  { d with insts := mapIf (fun i => i.ring == ring && i.index == index &&
      i.life != .done && i.life != .failed) (fun i => { i with stop := true }) d.insts }

/-- Join regions a run builds and range regions it updates become INVALID when it fails (R181,
R216). -/
def Dev.spoilRegions (d : Dev) (r : Run) : Dev :=
  let d := r.jlocks.foldl (fun d g =>
    if (d.jrgns.any fun x => x.pod == r.pod && x.rgn == g && x.forBuild) &&
        [2, 4].contains (d.get F.JDR_POD_RGN_STATE_STATE r.pod g)
    then d.put F.JDR_POD_RGN_STATE_STATE 7 r.pod g else d) d
  r.rlocks.foldl (fun d g => d.put F.RDR_POD_RGN_STATE_STATE 3 r.pod g) d

/-- A failure of a run stops it. -/
def Dev.failRun (d : Dev) (ring index : Nat) (f : Fail) (w : Site) : Dev :=
  let d := d.recordFailure ring index f w
  match d.findRun ring index with
  | some r => (d.stopRun ring index).spoilRegions r
  | none => d

/-- A stage of an instance ends with an error (R49, R50). -/
def Dev.failInst (d : Dev) (i : Inst) (stage : Nat) (f : Fail) (seq info : Nat) : Dev :=
  (d.instFailed i).failRun i.ring i.index f
    { tile := i.tile, pipe := i.pipe, stage := stage, seq := seq, info := info }

/-! ### Residue and watchdog faults of a tile (R465, R466, R471, R475) -/

/-- A tile that has had no test. -/
def TileTest.fresh (t : Nat) : TileTest :=
  { tile := t, lastPass := 0, late := false, claimed := false, testing := false, immediate := false, retest := false,
    firstTested := false, lastFault := none }

/-- A tile's self-test state. -/
def Dev.tileTest (d : Dev) (t : Nat) : TileTest := (d.errs.tests.find? fun x => x.tile == t).getD (TileTest.fresh t)

/-- Put it back. -/
def Dev.setTest (d : Dev) (x : TileTest) : Dev :=
  { d with errs := { d.errs with tests := upsert (fun y => y.tile == x.tile) x d.errs.tests } }

/-- A tile waits for an immediate test or a retest, behind those requested before it (R466). -/
def Dev.queueTest (d : Dev) (x : TileTest) : Dev :=
  let d := d.setTest x
  if d.errs.waitTests.contains x.tile then d
  else { d with errs := { d.errs with waitTests := d.errs.waitTests ++ [x.tile] } }

/-- A tile waits for an immediate test. -/
def Dev.wantTest (d : Dev) (t : Nat) : Dev := d.queueTest { d.tileTest t with immediate := true }

/-- A tile is fenced: its test stops and it waits for none. -/
def Dev.fenceTile (d : Dev) (t : Nat) : Dev :=
  let d := d.put F.ERR_FENCE_TILE_FENCED (setBits (d.get F.ERR_FENCE_TILE_FENCED) t 1 1)
  let d := d.setTest { d.tileTest t with claimed := false, testing := false, immediate := false, retest := false }
  { d with errs := { d.errs with waitTests := d.errs.waitTests.filter (· != t) } }

/-- The instances on a tile that have not ended. -/
def Dev.onTile (d : Dev) (t : Nat) : List Inst :=
  d.insts.filter fun i => i.tile == t && i.life != .done && i.life != .failed

/-- Stop every instance of a tile at once and fail its run; the one in `slot` at a stage and block. -/
def Dev.stopTile (d : Dev) (t : Nat) (f : Fail) (w : Site) (at_ : Option (Nat × Nat × Nat)) : Dev :=
  (d.onTile t).foldl (fun d i =>
    let w := { w with tile := t, pipe := i.pipe }
    let w := match at_ with
      | some x => if x.1 = i.slot then { w with stage := x.2.1, seq := x.2.2 } else w
      | none => w
    (d.instFailed i).failRun i.ring i.index f w) d

/-- A second fault of the tile within REPEAT_MIN minutes. -/
def Dev.repeated (d : Dev) (t : Nat) : Bool :=
  (d.tileTest t).lastFault.any fun x => decide (d.now ≤ x + d.get F.ERR_CFG_REPEAT_MIN * 60 * 10 ^ 9)

/-- ALU_RESIDUE and TILE_WDT: the tile's instances stop, and the tile is claimed for an immediate test, or
fenced on repeat. -/
def Dev.tileFault (d : Dev) (t cls info : Nat) (inj : Bool) (at_ : Option (Nat × Nat × Nat)) : Dev :=
  let again := d.repeated t
  let d := d.setTest { d.tileTest t with lastFault := some d.now }
  let d := if (d.onTile t).isEmpty then
      d.report { cls := cls, srcKind := 0, source := t, pod := d.podOfTile t, info := info, fence := again, injected := inj }
    else d.stopTile t ⟨0xF1, cls⟩ { info := info, fence := again, injected := inj } at_
  if again then d.fenceTile t else d.wantTest t

/-! ### Where a run stands -/

/-- Every instance of a pipeline of a run is DONE on this device. -/
def Dev.pipeDoneHere (d : Dev) (ring index pipe : Nat) : Bool :=
  let l := d.pipeInsts ring index pipe
  !l.isEmpty && l.all fun i => i.life == .done

/-- Stage words of a pipeline with an opcode, as (index, word). -/
def Pipe.stagesWith (p : Pipe) (opc : Nat) : List (Nat × Nat) :=
  ((p.stages.zipIdx).map fun x => (x.2, x.1.toNat)).filter fun x => bitsOf x.2 0 8 == opc

/-- The regions a pipeline builds. -/
def Pipe.builds (p : Pipe) : List Nat := (p.stagesWith 0x09).map fun x => bitsOf x.2 48 8 % 16

/-- A join region of a pod. -/
def Dev.findRegion (d : Dev) (p g : Nat) : Option JRegion :=
  d.jrgns.find? fun x => x.pod == p && x.rgn == g

/-- The state of a join region (R181). -/
def Dev.jstate (d : Dev) (p g : Nat) : Nat := d.get F.JDR_POD_RGN_STATE_STATE p g

/-- The region's unload still runs, so its builders are held short of DONE (R182 step 4). -/
def Dev.unloading (d : Dev) (pod : Nat) (p : Pipe) : Bool :=
  p.builds.any fun g => d.jstate pod g == 4 &&
    !((d.findRegion pod g).map fun x => x.unloaded).getD true

/-- A region whose builders are all DONE becomes COMPLETE, or SPILLED (R181, R182). -/
def Dev.settleBuild (d : Dev) (i : Inst) (p : Pipe) : Dev :=
  if !d.pipeDoneHere i.ring i.index i.pipe then d else
  p.builds.foldl (fun d g =>
    if d.jstate i.pod g = 2 then d.put F.JDR_POD_RGN_STATE_STATE 3 i.pod g
    else if d.jstate i.pod g = 4 then d.put F.JDR_POD_RGN_STATE_STATE 5 i.pod g
    else d) d

/-- PIPE_DONE goes out once a pipeline is DONE here. -/
def Dev.announceDone (d : Dev) (i : Inst) : Dev :=
  match d.findRun i.ring i.index with
  | some r => if d.pipeDoneHere i.ring i.index i.pipe then d.tellPeers r 0x49 [i.pipe] else d
  | none => d

/-- An instance whose stages have all ended enters DONE: its buffers are freed and its region
held (R44, R49). Builders wait for an unload, and a MIGRATING instance for its new slot, since R49 leads from
MIGRATING to no DONE. -/
def Dev.instDone (d : Dev) (i : Inst) (p : Pipe) : Dev :=
  if d.unloading i.pod p || i.life == .migrating then d.setInst i
  else
    let d := d.startBallast p i
    let d := (d.setLife i.buffersFreed .done).freePairs i
    (d.settleBuild i p).announceDone i

end Sys2Proof.Machine
end

