-- ==== Sys2Proof/Machine/Streams.lean ====
section
/-! DEFINITION. Streams and stages: the fields of a stage word (R62, R63), taps (R69), annotations
(R70), the selection store (R71), the acceptance of blocks (R27 to R30, R58), the reading of a
block's rows (R68, R148 check 9), and one activation of a stage. -/

namespace Sys2Proof.Machine

/-! ### Stage words and stream tables -/

/-- The 8-bit field of a stage word at bit `lo`. -/
def swField (w lo : Nat) : Nat := bitsOf w lo 8

/-- OPCODE. -/
def swOp (w : Nat) : Nat := swField w 0

/-- MODE bit `n`. -/
def swMode (w n : Nat) : Bool := w.testBit (40 + n)

/-- The input fields of a stage word (R63, and each opcode's layout). -/
def inFields (w : Nat) : List Nat :=
  let two := [swField w 8, swField w 16]
  match swOp w with
  | 0x04 => two ++ [swField w 48, swField w 56]
  | 0x05 => two ++ [swField w 48, swField w 56]
  | 0x06 => two ++ [swField w 48, swField w 56]
  | 0x0C => two ++ [swField w 48, swField w 56]
  | 0x0D => two ++ [swField w 48, swField w 56]
  | 0x10 => two ++ [swField w 48, swField w 56]
  | 0x18 => two ++ [swField w 48, swField w 56]
  | 0x20 => two ++ [swField w 48, swField w 56]
  | 0x12 => two ++ [swField w 48]
  | _ => two

/-- The output fields of a stage word. -/
def outFields (w : Nat) : List Nat :=
  let two := [swField w 24, swField w 32]
  match swOp w with
  | 0x01 => two ++ [swField w 48, swField w 56]
  | 0x06 => two ++ [swField w 64, swField w 72]
  | 0x20 => two ++ [swField w 64, swField w 72]
  | 0x11 => two ++ [swField w 80]
  | 0x12 => two ++ [swField w 80]
  | _ => two

/-- The named fields. -/
def named (l : List Nat) : List Nat := l.filter (· != 0xFF)

/-- The stream an input or output field names. -/
def streamNo (v : Nat) : Nat := v % 64

/-- The input field taps its stream. -/
def isTap (v : Nat) : Bool := decide (0x40 ≤ v ∧ v < 0x80)

/-- The word of stage `n`. -/
def Pipe.word (p : Pipe) (n : Nat) : Nat := (p.stages.getD n 0).toNat

/-- The descriptor of a stream. -/
def Pipe.desc (p : Pipe) (s : Nat) : Option StreamDesc := p.streams.find? fun x => x.stream == s

/-- The type of a stream. -/
def Pipe.typeOf (p : Pipe) (s : Nat) : Nat := ((p.desc s).map fun x => x.typ).getD 0

/-- The stream carries decoded blocks. -/
def Pipe.decodedForm (p : Pipe) (s : Nat) : Bool := ((p.desc s).map fun x => x.form == 1).getD false

/-- The alignment group of a stream; a stream in no group stands alone (DEDUCED, log entry 18). -/
def StreamDesc.key (x : StreamDesc) : Nat := if x.group = 0xFF then 0x100 + x.stream else x.group

/-- The group of a stream of a pipeline. -/
def Pipe.groupOf (p : Pipe) (s : Nat) : Nat := ((p.desc s).map StreamDesc.key).getD (0x100 + s)

/-- The stages that tap a stream, ascending (R69). -/
def Pipe.tappers (p : Pipe) (s : Nat) : List Nat :=
  (List.range p.stages.length).filter fun m => (inFields (p.word m)).contains (0x40 + s)

/-- FILTER, PROBE and BLOOMTEST write selections (R71). -/
def isWriter (w : Nat) : Bool := swOp w == 0x04 || swOp w == 0x0A || swOp w == 0x23

/-- Streams of a stage's IN0 group. -/
def Pipe.groupOfStage (p : Pipe) (n : Nat) : Nat := p.groupOf (streamNo (swField (p.word n) 8))

/-! ### The context of an activation -/

/-- A stage at work: the device, its instance, run and pipeline, its index and registers. -/
structure Act where
  d : Dev
  i : Inst
  r : Run
  p : Pipe
  n : Nat
  st : StageSt

/-- Its stage word. -/
def Act.w (a : Act) : Nat := a.p.word a.n

/-- Named inputs. -/
def Act.ins (a : Act) : List Nat := named (inFields a.w)

/-- Named outputs. -/
def Act.outs (a : Act) : List Nat := named (outFields a.w)

/-- A K register, zero beyond K63. -/
def Act.k (a : Act) (n : Nat) : Nat := kReg a.st.k n

/-- The requesting stream of input column `col`. -/
def Act.reader (a : Act) (col : Nat) : Reader :=
  { cluster := a.i.tile / 8, tile := a.i.tile, slot := a.i.slot, stage := a.n, col := col, pod := a.i.pod,
    openHint := swOp a.w == 0x01 && swMode a.w 0 }

/-- Read through the column cache. -/
def Act.touch (a : Act) (col addr n : Nat) : Act := { a with d := a.d.touch (a.reader col) addr n }

/-- What reading [addr, addr + n) of device memory finds, before its data is used (R225, R265). -/
def Act.look (a : Act) (addr n : Nat) : Act := { a with d := a.d.look (a.reader 0) (a.d.localForm addr) n }

/-- What reading a block finds: its husk, then its payload. -/
def Act.lookBlock (a : Act) (addr : Nat) : Act :=
  if a.d.errs.planted.isEmpty then a else
  let a := a.look addr 64
  a.look addr (64 + min (Husk.ofBytes (a.d.ld (a.d.localForm addr) 64)).payloadLen 131072)

/-- The number of the pipeline's instances on this device. -/
def Act.count (a : Act) : Nat := (a.d.pipeInsts a.i.ring a.i.index a.i.pipe).length

/-- Rows a block that the stage sizes itself may hold: 16,384, or 8,192 for a translated version-2
image (R19, R59). A stage that gives one block for each input block keeps its rows (DEDUCED, log entry 80). -/
def Act.maxRows (a : Act) : Nat := if (a.r.image.map fun m => m.v2).getD false then 8192 else 16384

/-- The write hint of the pipeline in its cluster; only EMIT, SPILL, PART, SORTRUN and MERGE write with one (R247). -/
def Act.hint (a : Act) : Nat :=
  if [0x18, 0x0D, 0x0C, 0x10, 0x11].contains (swOp a.w) then
    bitsOf (a.d.get F.CCH_STASH_POD_HINT (a.i.tile / 8) a.i.pod) (4 * a.i.pipe) 4
  else 0

/-- Microcode context of the stage. -/
def Act.uctx (a : Act) (ovf : Nat) : UCtx :=
  { k := a.st.k, consts := (a.r.image.map fun m => m.consts).getD [], params := a.r.params, ovf := ovf }

/-- A value of type `t` from a K register (R93, R94). -/
def Act.kVal (a : Act) (t n : Nat) : Val := (a.uctx 0).kVal t n

/-- What an activation comes to. -/
inductive Turn where
  /-- Its enabling condition does not hold: nothing changes. -/
  | hold
  /-- It stalls under R27 or R71. -/
  | stall
  /-- It stalls, and the device has changed. -/
  | back (a : Act)
  /-- The stage ends with an error. -/
  | fail (a : Act) (f : Fail) (seq info : Nat)
  /-- It works a block, or part of one; its input blocks are finished when `take` is set. -/
  | done (a : Act) (take : Bool)
  /-- Registers and streams change, but no block is worked. -/
  | quiet (a : Act)

/-! ### Channels -/

/-- The channel of a stream. -/
def Inst.chan (i : Inst) (s : Nat) : Chan :=
  (i.chans.find? fun c => c.stream == s).getD { stream := s, blocks := [], ended := false }

/-- Replace a channel. -/
def Inst.setChan (i : Inst) (c : Chan) : Inst :=
  { i with chans := upsert (fun x => x.stream == c.stream) c i.chans }

/-- Change a channel. -/
def Inst.onChan (i : Inst) (s : Nat) (f : Chan → Chan) : Inst := i.setChan (f (i.chan s))

/-- Rows of a body. -/
def Body.rowCount : Body → Nat
  | .encoded h _ => (Husk.ofBytes h).rows
  | .decoded c => c.length

/-- A PROBE before the stage whose replay may still feed the stream (R185): the end mark of its
producer does not count yet. -/
def Act.replayOpen (a : Act) (s : Nat) : Bool :=
  (List.range a.n).any fun m =>
    swOp (a.p.word m) == 0x0A && a.p.groupOfStage m == a.p.groupOf s &&
      decide (((a.p.desc s).map fun x => x.producer).getD 0 < m) &&
      !((a.i.stages[m]?).map fun x => x.ended).getD true

/-- The block an input field reads next: the head of a consumed stream once every tapping stage has
finished it, or a tap's first block that it has not finished and lower taps have (R69). -/
def Act.inBlock (a : Act) (v : Nat) : Option Block :=
  let s := streamNo v
  let bs := (a.i.chan s).blocks
  let taps := a.p.tappers s
  if isTap v then
    (bs.find? fun b => !b.tapped.contains a.n).filter fun b =>
      taps.all fun m => decide (a.n ≤ m) || b.tapped.contains m
  else bs.head?.filter fun b => taps.all fun m => b.tapped.contains m

/-- No block will come on an input any more. -/
def Act.inEnded (a : Act) (v : Nat) : Bool :=
  let c := a.i.chan (streamNo v)
  c.ended && !a.replayOpen (streamNo v) &&
    (if isTap v then c.blocks.all fun b => b.tapped.contains a.n else c.blocks.isEmpty)

/-- A block leaves an input. -/
def Act.finishIn (a : Act) (v : Nat) (b : Block) : Act :=
  let mark := mapIf (fun (x : Block) => x.seq == b.seq && !x.tapped.contains a.n)
    fun x => { x with tapped := a.n :: x.tapped }
  let i := a.i.onChan (streamNo v) fun c =>
    { c with blocks := if isTap v then mark c.blocks else c.blocks.drop 1 }
  { a with i := i }

/-- Every output has a free buffer (R27); the outputs of an EXCHANGE are the receivers'. -/
def Act.outRoom (a : Act) : Bool :=
  swOp a.w == 0x20 || a.outs.all fun v => decide ((a.i.chan (streamNo v)).blocks.length < 2)

/-- The current placement epoch of the pipeline. -/
def Act.epoch (a : Act) : Nat := a.r.epochs.getD a.i.pipe 0

/-- Put a block on an output stream. -/
def Act.putBody (a : Act) (v seq : Nat) (b : Body) (ann : Option (List Word)) : Act :=
  let blk : Block :=
    { seq := seq % 2 ^ 32, epoch := a.epoch, tile := a.i.tile, slot := a.i.slot, body := b, ann := ann, tapped := [] }
  { a with i := a.i.onChan (streamNo v) fun c => { c with blocks := c.blocks ++ [blk] } }

/-- The body of rows on a stream: decoded, a plain block with no zone (R81, R149), or the codes of
the dictionary at `base`. -/
def Pipe.bodyOf (p : Pipe) (s base : Nat) (c : Col) : Body :=
  if p.decodedForm s then .decoded c
  else if p.typeOf s = 0x21 ∧ !c.isEmpty then
    let x := dictBlockOf base 1 (c.map fun y => y.map fun z => z.toInt.toNat)
    .encoded (x.1.seal x.2).bytes x.2
  else let b := plainBlock (p.typeOf s) c; .encoded b.1 b.2

/-- Put rows on an output stream. Codes refer to the dictionary `dict`; where the spec names none, to a
free address (log entry 21). -/
def Act.putCol (a : Act) (v seq : Nat) (dict : Option Nat) (c : Col) : Act :=
  match dict with
  | some base => a.putBody v seq (a.p.bodyOf (streamNo v) base c) none
  | none =>
    ({ a with d := { a.d with fresh := a.d.fresh + 1 } }).putBody v seq
      (a.p.bodyOf (streamNo v) (Config.freeWord a.d.fresh).toNat c) none

/-- Put rows on an output stream; codes name no known dictionary. -/
def Act.put (a : Act) (v seq : Nat) (c : Col) : Act :=
  a.putCol v seq (if a.p.typeOf (streamNo v) = 0x21 then none else some 0) c

/-- The values that stand in a PLAIN block: a dcode value has no plain form, so it is a free string (log
entry 55). -/
def Act.plainRows (a : Act) (types : List Nat) (rows : List (List (Option Val))) :
    Act × List (List (Option Val)) :=
  if !types.contains 0x21 then (a, rows)
  else
    let n := types.length
    let free := fun (x : Option Val × Nat) (r : Nat) => if types.getD x.2 0 = 0x21 then
      x.1.map fun _ => Val.str (Config.freeText (a.d.fresh + r * n + x.2)) else x.1
    ({ a with d := { a.d with fresh := a.d.fresh + n * rows.length } },
      rows.zipIdx.map fun r => r.1.zipIdx.map fun x => free x r.2)

/-- Mark the end of every output and end the stage (R30). -/
def Act.finish (a : Act) : Act :=
  let i := a.outs.foldl (fun i v => i.onChan (streamNo v) fun c => { c with ended := true }) a.i
  { a with i := i, st := { a.st with ended := true } }

/-- Change the stage registers. -/
def Act.onSt (a : Act) (f : StageSt → StageSt) : Act := { a with st := f a.st }

/-! ### Selections (R71, R72) -/

/-- The selection of a block. -/
def Act.sel (a : Act) (group seq : Nat) : Option (List Bool) :=
  (a.d.sels.find? fun x => x.1 == a.i.tile && x.2.slot == a.i.slot && x.2.group == group &&
    x.2.seq == seq).map fun x => x.2.bits

/-- The selection an APPLY stage reads; without an entry every row passes. -/
def Act.selected (a : Act) (seq rows : Nat) : List Bool :=
  if a.w.testBit 46 then
    (a.sel (a.p.groupOfStage a.n) seq).getD (List.replicate rows true)
  else List.replicate rows true

/-- A writer of a selection can go on: its entry exists or one is free. -/
def Act.selRoom (a : Act) (group seq : Nat) : Bool :=
  (a.sel group seq).isSome || decide ((a.d.sels.filter fun x => x.1 == a.i.tile).length < 16)

/-- AND a result into the selection of a block, creating the entry with every bit 1. -/
def Act.writeSel (a : Act) (group seq : Nat) (bits : List Bool) : Act :=
  let old := (a.sel group seq).getD (bits.map fun _ => true)
  let e : SelEntry :=
    { slot := a.i.slot, group := group, seq := seq, bits := (old.zip bits).map fun x => x.1 && x.2 }
  let same := fun (x : Nat × SelEntry) => x.1 == a.i.tile && x.2.slot == a.i.slot &&
    x.2.group == group && x.2.seq == seq
  { a with d := { a.d with sels := upsert same (a.i.tile, e) a.d.sels } }

/-- Free the selection entry of a block. -/
def Act.freeSel (a : Act) (group seq : Nat) : Act :=
  let rest := a.d.sels.filter fun x => !(x.1 == a.i.tile && x.2.slot == a.i.slot &&
    x.2.group == group && x.2.seq == seq)
  { a with d := { a.d with sels := rest } }

/-- Lower writers of the group have finished this block (R71): they have finished more blocks than
this stage, or have ended. -/
def Act.writersDone (a : Act) : Bool :=
  !a.w.testBit 46 || (List.range a.n).all fun m =>
    !(isWriter (a.p.word m) && a.p.groupOfStage m == a.p.groupOfStage a.n) ||
      ((a.i.stages[m]?).map fun x => x.ended || decide (a.st.finished < x.finished)).getD true

/-! ### Reading rows (R68, R148) -/

/-- Dictionary entries for a stage: a dictionary it has verified is not verified again (R135). -/
def Dev.entriesFor (d : Dev) (pod addr : Nat) (known : Bool) : Except Fail (Husk × List Val) :=
  match d.dictAt pod addr with
  | .ok x => .ok x
  | .error e =>
    if known && e.status == 0x20 then
      let o := d.localForm addr
      let h := Husk.ofBytes (d.ld o 64)
      let raw := (h.inflate (d.ld (o + 64) (min h.payloadLen 131072))).getD []
      .ok (h, ((h.rowsOf raw).getD []).filterMap id)
    else .error e

/-- Rows of a dictionary-encoded block: codes on a dcode stream, entries otherwise. -/
def dictRows (t : Nat) (h : Husk) (raw : List Byte) (dict : Husk × List Val) : Except Fail Col :=
  match h.codeCol raw dict.2.length with
  | none => .error (malformed 9)
  | some cs =>
    let vals : Col := cs.map fun c => c.bind fun x => dict.2[x]?
    if dict.1.typ != h.typ || !h.zoneOk vals then .error (malformed 9)
    else .ok (if t = 0x21 then cs.map fun c => c.map fun x => Val.int (x : Nat) else vals)

/-- A stage decodes an encoded block of a stream of type `t`, with a replacing dictionary when
`dict` names one (R133, R135, R148 check 9). -/
def Act.decodeBlock (a : Act) (t : Nat) (husk raw : List Byte) (dict : Option Nat) :
    Except Fail (Act × Col) :=
  let h := Husk.ofBytes husk
  if h.rows = 0 then .ok (a, [])
  else if h.isDict then
    let addr := dict.getD h.base
    match a.d.entriesFor a.i.pod addr (a.st.dicts.contains addr) with
    | .error e => .error e
    | .ok x =>
      let a := (a.touch 4 (a.d.localForm addr) (64 + x.1.payloadLen)).onSt fun st =>
        { st with dicts := if st.dicts.contains addr then st.dicts else addr :: st.dicts }
      (dictRows t h raw x).map fun c => (a, c)
  else match h.rowsOf raw with
    | some c => if h.zoneOk c then .ok (a, c) else .error (malformed 9)
    | none => .error (malformed 9)

/-- The rows of a block on an input. -/
def Act.readBlock (a : Act) (v : Nat) (b : Block) : Except Fail (Act × Col) :=
  match b.body with
  | .decoded c => .ok (a, c)
  | .encoded h raw => a.decodeBlock (a.p.typeOf (streamNo v)) h raw none

/-- The rows of several inputs taken together. -/
def Act.readAll (a : Act) : List (Nat × Block) → Except Fail (Act × List Col)
  | [] => .ok (a, [])
  | (v, b) :: rest =>
    match a.readBlock v b with
    | .error e => .error e
    | .ok (a, c) =>
      match a.readAll rest with
      | .error e => .error e
      | .ok (a, cs) => .ok (a, c :: cs)

/-- The annotation of row `r` of a block. -/
def Block.annAt (b : Block) (r : Nat) : Nat := ((b.ann.getD []).getD r 0).toNat

/-- The annotation of IN0 where no stage has attached one: free values (log entry 20). -/
def Act.fillAnn (a : Act) (bs : List (Nat × Block)) : Act × List (Nat × Block) :=
  match bs with
  | [] => (a, [])
  | (v, b) :: rest =>
    if b.ann.isSome then (a, bs)
    else
      let n := b.body.rowCount
      let ann := (List.range n).map fun r => Config.freeWord (a.d.fresh + r)
      ({ a with d := { a.d with fresh := a.d.fresh + n } }, (v, { b with ann := some ann }) :: rest)

/-- Attach an annotation to the block an input reads (R70). -/
def Act.annotate (a : Act) (v : Nat) (b : Block) (ann : List Word) : Act :=
  let i := a.i.onChan (streamNo v) fun c =>
    { c with blocks := mapIf (fun x => x.seq == b.seq) (fun x => { x with ann := some ann }) c.blocks }
  { a with i := i }

/-- Row numbers of a block (R82). -/
def rowNumber (seq r : Nat) : Nat := seq * 16384 + r

/-- The rows of a list that a selection keeps. -/
def keepRows {α : Type} (sel : List Bool) (l : List α) : List α :=
  ((l.zip sel).filter fun x => x.2).map fun x => x.1

/-- Rows of several columns, row by row. -/
def rowsOfCols (n : Nat) (cols : List Col) : List (List (Option Val)) :=
  (List.range n).map fun r => cols.map fun c => c.getD r none

/-- Column `c` of a list of rows. -/
def colOfRows (rows : List (List (Option Val))) (c : Nat) : Col := rows.map fun r => r.getD c none

/-! ### One activation -/

/-- The stages whose own work accesses memory through the column cache (R238). -/
def memoryOp (opc : Nat) : Bool :=
  [0x01, 0x03, 0x09, 0x0A, 0x0B, 0x0C, 0x0D, 0x10, 0x11, 0x18, 0x22, 0x23].contains opc

/-- A block at an input is dictionary-encoded, so that decoding it reads a dictionary (R133). -/
def Act.readsDict (a : Act) : Bool :=
  !([0x02, 0x19, 0x1A, 0x20].contains (swOp a.w)) && a.ins.any fun v =>
    match (a.inBlock v).map Block.body with
    | some (Body.encoded h _) => (Husk.ofBytes h).isDict
    | _ => false

/-- What reading the dictionaries of its input blocks finds. -/
def Act.lookDicts (a : Act) (bs : List (Nat × Block)) : Act :=
  if a.d.errs.planted.isEmpty then a else
  bs.foldl (fun a x =>
    match x.2.body with
    | .encoded h _ => if (Husk.ofBytes h).isDict then a.lookBlock (Husk.ofBytes h).base else a
    | .decoded _ => a) a

/-- Its accesses are stalled while its cluster's cache is DISABLING or fenced (R238). -/
def Act.cacheWaits (a : Act) : Bool :=
  a.d.cacheStalled (a.i.tile / 8) && (memoryOp (swOp a.w) || a.readsDict)

/-- The stage a reference names, when its instance runs, or, while it migrates, still finishes
blocks in its buffers (R56), and the stage has not ended. -/
def Dev.actOf (d : Dev) (q : StageRef) : Option Act :=
  (d.findInst q.tile.val q.slot.val).bind fun i =>
  (d.findRun i.ring i.index).bind fun r =>
  (r.pipeAt i.pipe).bind fun p =>
  (i.stages[q.stage.val]?).bind fun st =>
    let a : Act := { d := d, i := i, r := r, p := p, n := q.stage.val, st := st }
    if (i.life == .running || i.life == .migrating) && !i.stop && !st.ended && !a.cacheWaits then some a else none

/-- KWR writes take effect at a block boundary of the stage (R391). -/
def Act.applyK (a : Act) : Act :=
  a.onSt fun st => { st with k := st.kPend.foldl (fun k x => k.set x.1 x.2) st.k, kPend := [] }

/-- The block at an input has been accepted: it is not accepted again while the stage keeps it. -/
def Act.takeIn (a : Act) (v : Nat) (b : Block) : Act :=
  { a with i := a.i.onChan (streamNo v) fun c =>
      { c with blocks := mapIf (fun (x : Block) => x.seq == b.seq) (fun x => { x with taken := true }) c.blocks } }

/-- R58: a consumed block is of the current epoch, or of the one before with a drain count, which it lowers
once. A block that a stage has accepted and keeps stays accepted. -/
def Act.accept (a : Act) : List (Nat × Block) → Option Act
  | [] => some a
  | (v, b) :: rest =>
    if isTap v || b.taken then a.accept rest
    else if b.epoch == a.epoch then (a.takeIn v b).accept rest
    else if (b.epoch + 1) % 2 ^ 16 == a.epoch &&
        ((a.d.findSlot b.tile b.slot).map fun x => decide (0 < x.drain)).getD false then
      let d := a.d.onSlot b.tile b.slot fun x => { x with drain := x.drain - 1 }
      (({ a with d := d }).takeIn v b).accept rest
    else none

/-- Blocks taken together agree in sequence number and row count (R29). -/
def aligned : List (Nat × Block) → Bool
  | [] => true
  | (_, b) :: rest => rest.all fun x => x.2.seq == b.seq && x.2.body.rowCount == b.body.rowCount

/-- The measured class is compared with the declared one after a block (R34). -/
def Act.measure (a : Act) (m : Nat) : Act :=
  let c := a.p.intens.getD a.n 0
  let hit := decide (c + 2 ≤ m)
  let run := if 4 ≤ a.st.exceeded then 4 else if hit then a.st.exceeded + 1 else 0
  let d := if run = 4 ∧ a.st.exceeded = 3 then a.d.count .TIL_INTENSITY_EVT 1 a.i.tile else a.d
  { a with d := d, st := { a.st with exceeded := run, measured := max m a.st.measured } }

/-- Input blocks are finished: they leave, RELEASE frees the selection, and the stage counts one
more block. -/
def Act.takeBlocks (a : Act) (bs : List (Nat × Block)) : Act :=
  let a := bs.foldl (fun a x => a.finishIn x.1 x.2) a
  let a := match bs with
    | (_, b) :: _ => if a.w.testBit 47 then a.freeSel (a.p.groupOfStage a.n) b.seq else a
    | [] => a
  a.onSt fun st => { st with finished := st.finished + 1 }

/-- The activation's results stand in the device; an instance whose stages have all ended is DONE. -/
def Act.commit (a : Act) : Dev :=
  let i := { a.i with stages := a.i.stages.set a.n a.st }
  let d := a.d.onSlot i.tile i.slot fun x => { x with stalls := x.stalls.filter (· != a.n) }
  if i.stages.all fun st => st.ended then d.instDone i a.p else d.setInst i

/-- A stall: the stage is among the stalled ones (R27, R52, R71), and TIL_BP_STALL grows by 1 for each stalled
activation: the model's stages keep no CCLK cycles to count (R53; DESIGN CHOICE, log entry 62). -/
def Act.stalled (a : Act) : Dev :=
  (a.d.onSlot a.i.tile a.i.slot fun x => { x with stalls := a.n :: x.stalls.filter (· != a.n) }).count .TIL_BP_STALL 1
    a.i.tile

/-- Close an activation. -/
def Act.close (a : Act) (m : Nat) (bs : List (Nat × Block)) : Turn → Dev
  | .hold => a.d.setInst { a.i with stages := a.i.stages.set a.n a.st }
  | .stall => a.stalled
  | .back b => b.stalled
  | .fail b f seq info => b.d.failInst b.i b.n f seq info
  | .done b take => ((if take then b.takeBlocks bs else b).measure m).commit
  | .quiet b => b.commit

/-- One activation of a stage that reads streams. `whole`: it needs a free buffer on every output.
`body` works a set of blocks, `final` the end of the inputs. One input that has ended while another still
holds a block is a misalignment (R29; DESIGN CHOICE, log entry 77). -/
def Act.streamTurn (a : Act) (whole : Bool) (body : Act → List (Nat × Block) → Turn) (final : Act → Turn) :
    List (Nat × Block) × Turn :=
  let got := a.ins.map fun v => (v, a.inBlock v)
  if got.all fun x => x.2.isSome then
    let bs := got.filterMap fun x => x.2.map fun b => (x.1, b)
    let seq := (bs.head?.map fun x => x.2.seq).getD 0
    match a.accept bs with
    | none => (bs, .fail a ⟨0x25, 0⟩ seq 0)
    | some b =>
      if !aligned bs then (bs, .fail b ⟨0x23, 0⟩ seq 0)
      else if !a.writersDone then (bs, .hold)
      else if whole && !a.outRoom then (bs, .stall)
      else (bs, body (b.lookDicts bs) bs)
  else if a.ins.all fun v => a.inEnded v then ([], final a)
  else if got.any (fun x => x.2.isSome) && got.any (fun x => x.2.isNone && a.inEnded x.1) then
    ([], .fail a ⟨0x23, 0⟩ 0 0)
  else ([], .hold)

/-- A stage that reads or builds a join region (R472). -/
def joinStage (w : Nat) : Bool := swOp w == 0x09 || swOp w == 0x0A || (swOp w == 0x14 && !swMode w 0)

/-! ### An injected residue fault (R482) -/

/-- The microcode of the stage uses the pattern unit. -/
def Act.usesPtu (a : Act) : Bool :=
  (swOp a.w == 0x04 || swOp a.w == 0x05) &&
    let code := (a.r.image.map fun m => m.ucode).getD []
    ((code.drop (bitsOf a.w 112 16)).take (swField a.w 104)).any fun u =>
      decide (0x56 ≤ (UOp.ofWord u).opc ∧ (UOp.ofWord u).opc ≤ 0x59)

/-- While a residue fault is armed on the tile, every activation takes a free value. -/
def Act.armedBit (a : Act) : Act :=
  if a.d.armed 2 a.i.tile then { a with d := { a.d with fresh := a.d.fresh + 1 } } else a

/-- A FILTER may work in the encoded domain: every input is encoded (R67, R137). -/
def Act.encodedFilter (a : Act) : Bool :=
  swOp a.w == 0x04 && a.ins.all fun v => !a.p.decodedForm (streamNo v)

/-- The unit of an opcode: 0 the SDUs, 2 the EXUs, or its one unit (R67). -/
def unitOf (op : Nat) : Nat :=
  if op ≤ 0x03 then 0
  else if op = 0x04 ∨ op = 0x05 ∨ op = 0x0B then 2
  else if op = 0x08 ∨ op = 0x09 ∨ op = 0x0A ∨ op = 0x14 ∨ op = 0x22 ∨ op = 0x23 then 4
  else if op = 0x10 ∨ op = 0x11 ∨ op = 0x12 ∨ op = 0x21 then 5
  else if op = 0x1A then 8
  else 7

/-- The injected unit made a result in this activation. Which unit of a pair works a stage is a free bit, and so
is whether a FILTER of encoded blocks works in the encoded domain, on an SDU (log entry 56). -/
def Act.residueHit (a : Act) : Bool :=
  let m := a.d.errs.inj.mode
  let u := if a.encodedFilter && (Config.freeWord a.d.fresh).getLsbD 1 then 0 else unitOf (swOp a.w)
  a.d.armed 2 a.i.tile &&
    (if u < 4 then m / 2 * 2 == u && (Config.freeWord a.d.fresh).getLsbD 0 == (m % 2 == 1) || a.usesPtu && m == 6
    else m == u)

/-- An activation that worked a block meets the armed residue fault: its output is suppressed. -/
def Act.injected (a : Act) (seq : Nat) : Turn → Option Dev
  | .done _ _ =>
    if a.residueHit then
      some ((a.d.fireIf true).tileFault a.i.tile 3 (a.d.errs.inj.mode * 2 ^ 56 + seq % 2 ^ 32) true
        (some (a.i.slot, a.n, seq)))
    else none
  | _ => none

/-- The failure of a stage that reads an uncorrectable word of its tile (R222). -/
def tsFail : Fail := ⟨0xF0, 0x02⟩

/-- The stage reads a store of its slot that holds an uncorrectable word: the block descriptors of its inputs, the
selections, or its registers (R222; log entry 85). -/
def Act.slotBad (a : Act) : Bool :=
  a.d.slotMarks.any fun x => x.1 == a.i.tile && x.2.1 == a.i.slot &&
    (x.2.2 == 2 || x.2.2 == 1 && (a.w.testBit 46 || isWriter a.w) || x.2.2 == 0 && !a.ins.isEmpty)

/-- A stage command on a stage with opcode `opc` whose word meets `ok`. After a cluster fence every
stage of a join region ends with RESOURCE_FENCED (R472). -/
def Dev.stage (d : Dev) (q : StageRef) (opc : Nat) (ok : Nat → Bool)
    (turn : Act → List (Nat × Block) × Turn) : Dev :=
  match d.actOf q with
  | none => d
  | some a =>
    if swOp a.w = opc ∧ ok a.w = true then
      if d.errs.jdrLost && joinStage a.w then d.failInst a.i a.n ⟨0xF2, 0x09⟩ 0 0 else
      if a.slotBad then (d.bump16 F.TIL_TS_ECC_UE_COUNT a.i.tile).failInst a.i a.n tsFail 0 0 else
      let a := a.applyK.armedBit
      let t := turn a
      match a.injected ((t.1.head?.map fun x => x.2.seq).getD 0) t.2 with
      | some d' => d'
      | none => a.close q.act.toNat t.1 t.2
    else d

/-- A body that reads the annotation of IN0. -/
def annotated (body : Act → List (Nat × Block) → Turn) (a : Act) (bs : List (Nat × Block)) : Turn :=
  let x := a.fillAnn bs
  body x.1 x.2

/-- The end of inputs of a stage with nothing more to write. -/
def endStage (a : Act) : Turn := .quiet a.finish

end Sys2Proof.Machine
end

