-- ==== Sys2Proof/Machine/Areas.lean ====
section
/-! DEFINITION. Column sets and destination areas (R75 to R77), the reading of blocks from device
memory with checks 1 to 8 of R148, and stage jobs for compressed payloads (R162, R163). -/

namespace Sys2Proof.Machine

/-- The offset in this device of a range that lies in the pod's DDR5 ranges. -/
def Act.inPod (a : Act) (addr n : Nat) : Bool := a.d.inPod a.i.pod addr n

/-- Device bytes at an address of the pod. -/
def Act.bytes (a : Act) (addr n : Nat) : List Byte := a.d.ld (a.d.localForm addr) n

/-- The failure of reading [addr, addr + n), if any: outside the pod, or marked. -/
def Act.readFault (a : Act) (addr n : Nat) (outside : Fail) : Option Fail :=
  if !a.inPod addr n then some outside
  else
    let p := a.d.poisonIn (a.d.localForm addr) n
    if p = .clean then none else some (poisonFail p)

/-! ### Column sets -/

/-- The husk address of a group and column. -/
def Act.setAddr (a : Act) (s : ColSet) (g c : Nat) : Nat :=
  leNat (a.bytes (s.addr + 0x10 + 8 * (g * s.cols + c)) 8)

/-- SOURCE_INVALID. -/
def sourceInvalid : Fail := ⟨0x24, 0⟩

/-- What reading a column set finds: its header, then its address table. -/
def Act.lookSet (a : Act) (addr : Nat) : Act :=
  if a.d.errs.planted.isEmpty then a else
  let a := a.look addr 16
  a.look addr (0x10 + 8 * leNat (a.bytes (addr + 4) 1) * leNat (a.bytes addr 4))

/-- Read and check a column set as R79 asks: the set, its address table and every husk address in
the pod's ranges, and COL_COUNT as expected. -/
def Act.openSet (a : Act) (addr cols : Nat) : Except Fail ColSet :=
  match a.readFault addr 16 sourceInvalid with
  | some f => .error f
  | none =>
    let s : ColSet :=
      { addr := addr, groups := leNat (a.bytes addr 4), cols := leNat (a.bytes (addr + 4) 1),
        rows := leNat (a.bytes (addr + 8) 8) }
    if s.cols ≠ cols then .error sourceInvalid
    else match a.readFault addr (0x10 + 8 * s.cols * s.groups) sourceInvalid with
      | some f => .error f
      | none =>
        if (List.range (s.groups * s.cols)).all fun j =>
            a.inPod (leNat (a.bytes (addr + 0x10 + 8 * j) 8)) 64 then .ok s
        else .error sourceInvalid

/-- The column set of an INDIRECT area: its address at offset 0, not zero (R76, R79). -/
def Act.indirect (a : Act) (addr : Nat) : Except Fail Nat :=
  match a.readFault addr 8 sourceInvalid with
  | some f => .error f
  | none => if leNat (a.bytes addr 8) = 0 then .error sourceInvalid else .ok (leNat (a.bytes addr 8))

/-! ### Blocks in memory -/

/-- What fetching a block comes to: its husk and raw payload, a failure, a wait for a job, or a
full job queue. -/
inductive Fetch where
  | ok (a : Act) (husk raw : List Byte)
  | fail (a : Act) (f : Fail)
  | wait (a : Act)
  | full

/-- The block is on a stream as stored uncompressed: COMP 0, PAYLOAD_LEN the raw length and its
own CRC (R162; log entry 19). -/
def Husk.unpacked (h : Husk) (raw : List Byte) : Husk :=
  ({ h with flags := setBits h.flags 5 2 0, payloadLen := raw.length }).seal raw

/-- Check 8 for an unpacked block. -/
def finishFetch (a : Act) (h : Husk) (raw : List Byte) : Fetch :=
  if !h.lengthOk raw then .fail a (malformed 8)
  else if h.comp = 0 then .ok a h.bytes raw
  else .ok a (h.unpacked raw).bytes raw

/-- The same stage's job on a block. -/
def Act.sameJob (a : Act) (col addr tile slot stage c ad : Nat) : Bool :=
  tile == a.i.tile && slot == a.i.slot && stage == a.n && c == col && ad == addr

/-- The outcome of the decompression job of a block (R162). -/
def Act.jobOutcome (a : Act) (h : Husk) (x : JobResult) : Fetch :=
  let rest := a.d.jobResults.filter fun y => !a.sameJob x.col x.addr y.tile y.slot y.stage y.col y.addr
  let a := { a with d := { a.d with jobResults := rest } }
  if x.status = 0x0B then .fail a ⟨0xF1, 0x12⟩
  else if x.status ≠ 0 ∨ x.output.length ≠ h.rawLen then .fail a (malformed 7)
  else finishFetch a h x.output

/-- Put a job in the stage queue of 64, unless it is there or running (R163). -/
def Act.askJob (a : Act) (j : Job) : Fetch :=
  let mine := fun (x : Job) => x.stageJob && a.sameJob j.col j.addr x.tile x.slot x.stage x.col x.addr
  if (a.d.stageJobs.any mine) || a.d.engJobs.any fun e => mine e.job then .wait a
  else if 64 ≤ a.d.stageJobs.length then .full
  else .wait { a with d := { a.d with stageJobs := a.d.stageJobs ++ [j] } }

/-- A stage job. -/
def Act.newJob (a : Act) (col addr op fmt level : Nat) (src : List Byte) (limit : Nat) : Job :=
  { stageJob := true, tile := a.i.tile, slot := a.i.slot, stage := a.n, col := col, chan := 0,
    level := level, pod := a.i.pod, addr := addr, op := op, fmt := fmt, src := src, limit := limit }

/-- Check 7 (R148): the payload as it is, or by way of a decompression job. -/
def Act.unpackBlock (a : Act) (col addr : Nat) (h : Husk) (payload : List Byte) : Fetch :=
  if h.comp = 0 then
    (if h.rawLen = h.payloadLen then finishFetch a h payload else .fail a (malformed 7))
  else if 131072 < h.rawLen then .fail a (malformed 7)
  else match a.d.jobResults.find? fun x => a.sameJob col addr x.tile x.slot x.stage x.col x.addr with
    | some x => a.jobOutcome h x
    | none => a.askJob (a.newJob col addr 0 h.comp 0 payload h.rawLen)

/-- Read a block for a stream of type `t` and make checks 1 to 8 (R148). -/
def Act.fetchBlock (a : Act) (col t addr : Nat) : Fetch :=
  if addr % 64 ≠ 0 then .fail a (malformed 1)
  else
    let a := a.lookBlock addr
    match a.readFault addr 64 addrFault with
    | some f => .fail a f
    | none =>
      let husk := a.bytes addr 64
      let h := Husk.ofBytes husk
      if h.magic ≠ 0x4B48 then .fail a (malformed 1)
      else if 131072 < h.payloadLen then .fail a (malformed 2)
      else match a.readFault addr (64 + h.payloadLen) addrFault with
        | some f => .fail a f
        | none =>
          let a := a.touch col (a.d.localForm addr) (64 + h.payloadLen)
          let payload := a.bytes (addr + 64) h.payloadLen
          if blockCrc husk payload ≠ h.crc then .fail a ⟨0x21, 0⟩
          else match h.headCheck t addr true with
            | some n => .fail a (malformed n)
            | none => a.unpackBlock col addr h payload

/-! ### Destination areas (R76, R77) -/

/-- A stage's own part of an area named by a K register pair. -/
structure Area where
  base : Nat
  len : Nat
  deriving DecidableEq, Repr

/-- DEST_FULL. -/
def destFull : Fail := ⟨0x41, 0⟩

/-- Bytes of each of `n` equal, 64-byte-aligned parts. -/
def partLen (len n : Nat) : Nat := len / (max n 1) / 64 * 64

/-- The part of the instance (R77). -/
def Act.area (a : Act) (k : Nat) : Area :=
  let n := a.count
  let l := partLen (a.k (k + 1)) n
  { base := a.k k + a.i.number * l, len := l }

/-- Write bytes of an area at an address, for column `col`. -/
def Act.store (a : Act) (col addr : Nat) (bs : List Byte) : Act :=
  { a with d := a.d.stageStore (a.reader col) a.hint false (a.d.localForm addr) bs }

/-- A byte changed by an atomic operation (R232). -/
def Act.atomicByte (a : Act) (addr : Nat) (b : Byte) : Act :=
  { a with d := a.d.stageStore (a.reader 0) a.hint true (a.d.localForm addr) [b] }

/-- Writing [addr, addr + n) is inside the area and the pod: DEST_FULL, else ADDR_FAULT. -/
def Act.areaFault (a : Act) (r : Area) (off n : Nat) : Option Fail :=
  if r.len < off + n then some destFull
  else if !a.inPod (r.base + off) n then some addrFault
  else none

/-- The padded bytes of a stored block: husk, payload, zeros to 64 (R124). -/
def storedBlock (b : List Byte × List Byte) : List Byte := padTo 64 (b.1 ++ b.2)

/-- Write a block at the cursor of an area; the cursor is where the next one goes. -/
def Act.writeBlock (a : Act) (r : Area) (col : Nat) (b : List Byte × List Byte) : Except Fail (Act × Nat) :=
  let bs := storedBlock b
  match a.areaFault r a.st.cursor bs.length with
  | some f => .error f
  | none =>
    let addr := r.base + a.st.cursor
    .ok ((a.store col addr bs).onSt fun st => { st with cursor := st.cursor + bs.length }, addr)

/-- Write several blocks of one group, one for each column; their addresses. -/
def Act.writeGroup (a : Act) (r : Area) : List (List Byte × List Byte) → Nat → Except Fail (Act × List Nat)
  | [], _ => .ok (a, [])
  | b :: bs, col =>
    match a.writeBlock r col b with
    | .error e => .error e
    | .ok (a, x) =>
      match a.writeGroup r bs (col + 1) with
      | .error e => .error e
      | .ok (a, xs) => .ok (a, x :: xs)

/-- The bytes of a column set (R75). -/
def setBytes (s : SetAcc) (cols : Nat) : List Byte :=
  leBytes 4 s.groups.length ++ leBytes 1 cols ++ [0, 0, 0] ++ leBytes 8 s.rows ++
    s.groups.flatMap fun g => g.flatMap (leBytes 8)

/-- Write a column set at the cursor, on a 64-byte boundary. -/
def Act.writeSet (a : Act) (r : Area) (s : SetAcc) (cols : Nat) : Except Fail (Act × Nat) :=
  let bs := padTo 64 (setBytes s cols)
  match a.areaFault r a.st.cursor bs.length with
  | some f => .error f
  | none =>
    let addr := r.base + a.st.cursor
    .ok ((a.store 0 addr bs).onSt fun st => { st with cursor := st.cursor + bs.length }, addr)

/-- Write several column sets; their addresses. -/
def Act.writeSets (a : Act) (r : Area) (cols : Nat) : List SetAcc → Except Fail (Act × List Nat)
  | [] => .ok (a, [])
  | s :: ss =>
    match a.writeSet r s cols with
    | .error e => .error e
    | .ok (a, x) =>
      match a.writeSets r cols ss with
      | .error e => .error e
      | .ok (a, xs) => .ok (a, x :: xs)

/-- A whole area part ends: its pointer at offset 0 and its rows at offset 8 (R76). -/
def Act.closeArea (a : Act) (r : Area) (ptr rows : Nat) : Act :=
  a.store 0 r.base (leBytes 8 ptr ++ leBytes 8 rows)

/-- An area of K registers that is too small for `n` bytes, or outside the pod. -/
def Act.areaStart (a : Act) (k n : Nat) : Option Fail := a.areaFault (a.area k) 0 n

end Sys2Proof.Machine
end

