-- ==== Sys2Proof/Machine/Expr.lean ====
section
/-! DEFINITION. FILTER, COMPUTE, COMPACT, HASH and LIMIT (R65, R72, R80, R81, R90, R107, R123,
R167). -/

namespace Sys2Proof.Machine

/-! ### Microcode over a block -/

/-- The micro-ops of the stage. -/
def Act.uops (a : Act) : List UOp :=
  let code := (a.r.image.map fun m => m.ucode).getD []
  ((code.drop (bitsOf a.w 112 16)).take (swField a.w 104)).map UOp.ofWord

/-- Annotation values of an input for V4 to V7: all null where the stream carries none (R99). -/
def Block.annCol (b : Block) (n : Nat) : Col :=
  match b.ann with
  | some l => (List.range n).map fun r => some (.int ((l.getD r 0).toNat : Nat))
  | none => List.replicate n none

/-- The registers of row `r` before the first micro-op: M0 to M7 all true, what is not loaded null (R65, R99). -/
def startRow (cols anns : List Col) (live : Bool) (r : Nat) : URow :=
  { v := ((List.range 4).map fun i => (cols.getD i []).getD r none) ++
      ((List.range 4).map fun i => (anns.getD i []).getD r none) ++ List.replicate 8 none,
    m := List.replicate 8 (some true), live := live, err := none }

/-- Run the stage's microcode over blocks taken together. -/
def Act.runCode (a : Act) (ovf : Nat) (bs : List (Nat × Block)) (live : List Bool) :
    Except Fail (Act × List URow) :=
  match a.readAll bs with
  | .error f => .error f
  | .ok (a, cols) =>
    let anns := bs.map fun x => x.2.annCol live.length
    let rows := live.zipIdx.map fun l => startRow cols anns l.1 l.2
    .ok (a, runUOps (a.uctx ovf) a.uops 0 rows 0)

/-- Status of an arithmetic outcome code (R107). -/
def arithStatus (code : Nat) : Nat := 0x2F + code

/-- TIL_ARITH_FAULT of an outcome (R123). -/
def arithWord (slot stage uop code row seq : Nat) : Nat :=
  2 ^ 63 + slot * 2 ^ 61 + stage * 2 ^ 56 + uop * 2 ^ 48 + code * 2 ^ 46 + row % 2 ^ 14 * 2 ^ 32 + seq

/-- The stage ends with an arithmetic outcome: the first record on the tile stays (R123). -/
def Act.arithFail (a : Act) (row uop code seq : Nat) : Turn :=
  let w := arithWord a.i.slot a.n uop code row seq
  let d := if a.d.get F.TIL_ARITH_FAULT_VALID a.i.tile = 1 then a.d
    else a.d.wr ⟨.TIL_ARITH_FAULT, a.i.tile, 0⟩ w
  .fail { a with d := d } ⟨arithStatus code, uop⟩ seq w

/-- Rows and sequence number of blocks taken together. -/
def setRows (bs : List (Nat × Block)) : Nat := (bs.head?.map fun x => x.2.body.rowCount).getD 0

/-- The sequence number. -/
def setSeq (bs : List (Nat × Block)) : Nat := (bs.head?.map fun x => x.2.seq).getD 0

/-- FILTER: M0 true keeps a row (R72). -/
def filterBody (a : Act) (bs : List (Nat × Block)) : Turn :=
  let g := a.p.groupOfStage a.n
  let seq := setSeq bs
  if !a.selRoom g seq then .stall
  else match a.runCode 0 bs (List.replicate (setRows bs) true) with
    | .error f => .fail a f seq 0
    | .ok (a, rows) =>
      match firstFault rows 0 with
      | some x => a.arithFail x.1 x.2.1 x.2.2 seq
      | none => .done (a.writeSel g seq (rows.map fun r => r.m.getD 0 none == some true)) true

/-- FILTER (R72). -/
def execFilter (w : StageRef) (s : State) : Host.Outcome State Fault Refusal :=
  s.act fun d => d.stage w 0x04 (fun _ => true) fun a => a.streamTurn false filterBody endStage

/-! ### Writing packed blocks (R81) -/

/-- Copy the zone of the input block where a kept row is present (R81). -/
def Husk.copyZone (h src : Husk) (any : Bool) : Husk :=
  if src.zone && any then { h with flags := setBits h.flags 0 1 1, zmin := src.zmin, zmax := src.zmax } else h

/-- Bit width of the codes of a dictionary-encoded block. -/
def Husk.codeWidth (h : Husk) : Nat := if h.enc = 0x05 then h.width else 1

/-- A kept column of an encoded input as an encoded block: BITPACK, FOR and DICT keep width, base
and dictionary, anything else becomes PLAIN (R81). `codes`: the kept codes of a dictionary block. -/
def keptBlock (t : Nat) (h : Husk) (c : Col) (codes : List (Option Nat)) : Husk × List Byte :=
  if h.enc = 0x01 then packedBlock h h.width (c.map fun v => v.map fun x => ofSigned h.width x.toInt)
  else if h.enc = 0x02 then packedBlock h h.width (c.map fun v => v.map fun x => (x.toInt - h.baseInt).toNat)
  else if h.enc = 0x05 ∨ (t = 0x21 ∧ h.enc = 0x12) then
    packedBlock { h with enc := 0x05 } (max h.codeWidth (codeBits codes)) codes
  else let raw := plainRaw h.typ c; (plainHusk h.typ c raw, raw)

/-- The body of kept rows on an output of type `t`. -/
def keptBody (t : Nat) (toDecoded : Bool) (b : Body) (sel : List Bool) (c : Col) : Body :=
  let kept := keepRows sel c
  if toDecoded then .decoded kept
  else match b with
    | .decoded _ => let x := plainBlock t kept; .encoded x.1 x.2
    | .encoded hb raw =>
      if kept.isEmpty then .encoded (emptyBlock t).1 []
      else
        let h := Husk.ofBytes hb
        let codes := if h.isDict then keepRows sel ((h.codeCol raw (2 ^ 32)).getD []) else []
        let x := keptBlock t h kept codes
        let husk := (x.1.copyZone h (kept.any fun v => v.isSome)).seal x.2
        .encoded husk.bytes x.2

/-- Put the kept rows of each input on the output of the same position. -/
def Act.putKept (a : Act) (sel : List Bool) : List Nat → List (Nat × Block) → List Col → Act
  | v :: vs, (_, b) :: bs, c :: cs =>
    let s := streamNo v
    (a.putBody v b.seq (keptBody (a.p.typeOf s) (a.p.decodedForm s) b.body sel c) none).putKept sel vs bs cs
  | _, _, _ => a

/-! ### COMPUTE -/

/-- The dictionaries that the dcode inputs' blocks with rows name. -/
def Act.dictsOf (a : Act) (bs : List (Nat × Block)) : List Nat :=
  bs.filterMap fun x => if a.p.typeOf (streamNo x.1) = 0x21 then (match x.2.body with
    | .encoded h _ => if (Husk.ofBytes h).rows = 0 then none else some (Husk.ofBytes h).base
    | .decoded _ => none) else none

/-- The one dictionary of a list, when it holds no other. -/
def oneDict : List Nat → Option Nat
  | [] => none
  | x :: xs => if xs.all (· == x) then some x else none

/-- Charge string outputs in order (R502). -/
def Act.chargeOuts (a : Act) (rows : List URow) : List URow :=
  (a.outs.zipIdx).foldl (fun rows x =>
    if a.p.typeOf (streamNo x.1) = 0x20 then chargeOutput a.uops (8 + x.2) rows else rows) rows

/-- COMPUTE: V8 to OUT0 and V9 to OUT1 (R80). -/
def computeBody (a : Act) (bs : List (Nat × Block)) : Turn :=
  let seq := setSeq bs
  let live := a.selected seq (setRows bs)
  match a.runCode (bitsOf a.w 40 2) bs live with
  | .error f => .fail a f seq 0
  | .ok (a, rows) =>
    let rows := a.chargeOuts rows
    match firstFault rows 0 with
    | some x => a.arithFail x.1 x.2.1 x.2.2 seq
    | none =>
      let base := oneDict (a.dictsOf bs)
      .done ((a.outs.zipIdx).foldl (fun a x =>
        a.putCol x.1 seq base (rows.map fun r => if r.live then r.v.getD (8 + x.2) none else none)) a) true

/-- COMPUTE (R80). -/
def execCompute (w : StageRef) (s : State) : Host.Outcome State Fault Refusal :=
  s.act fun d => d.stage w 0x05 (fun _ => true) fun a => a.streamTurn true computeBody endStage

/-! ### COMPACT and HASH -/

/-- COMPACT copies the selected rows (R81). -/
def compactBody (a : Act) (bs : List (Nat × Block)) : Turn :=
  let seq := setSeq bs
  match a.readAll bs with
  | .error f => .fail a f seq 0
  | .ok (a, cols) => .done (a.putKept (a.selected seq (setRows bs)) a.outs bs cols) true

/-- COMPACT (R81). -/
def execCompact (w : StageRef) (s : State) : Host.Outcome State Fault Refusal :=
  s.act fun d => d.stage w 0x06 (fun _ => true) fun a => a.streamTurn true compactBody endStage

/-- The hash of each row (R165 to R167). -/
def Act.hashes (a : Act) (n : Nat) (vs : List Nat) (cols : List Col) : List Nat :=
  (List.range n).map fun r => hashKey a.p.seed.toNat (swMode a.w 0)
    ((vs.zip cols).map fun x => (a.p.typeOf (streamNo x.1), x.2.getD r none))

/-- HASH annotates IN0, or puts the hashes on OUT0. -/
def hashBody (a : Act) (bs : List (Nat × Block)) : Turn :=
  match a.readAll bs with
  | .error f => .fail a f (setSeq bs) 0
  | .ok (a, cols) =>
    let hs := a.hashes (setRows bs) (bs.map fun x => x.1) cols
    match a.outs, bs with
    | v :: _, _ => .done (a.put v (setSeq bs) (hs.map fun h => some (.int (h : Nat)))) true
    | [], (v, b) :: _ => .done (a.annotate v b (hs.map (BitVec.ofNat 64))) true
    | [], [] => .hold

/-- HASH (R167). -/
def execHash (w : StageRef) (s : State) : Host.Outcome State Fault Refusal :=
  s.act fun d => d.stage w 0x08 (fun _ => true) fun a => a.streamTurn true hashBody endStage

/-! ### LIMIT -/

/-- COUNT of a LIMIT word. -/
def limitCount (w : Nat) : Nat := bitsOf w 48 32

/-- OFFSET of the stage. -/
def Act.limitOffset (a : Act) : Nat := if swField a.w 104 = 0xFF then 0 else a.k (swField a.w 104)

/-- Rows a LIMIT passes of the selected ones, after `skipped` and `passed` so far: a flag for each
row, and the two counts after. -/
def limitRows (off count : Nat) : List Bool → Nat → Nat → List Bool × Nat × Nat
  | [], sk, ps => ([], sk, ps)
  | false :: l, sk, ps => let x := limitRows off count l sk ps; (false :: x.1, x.2)
  | true :: l, sk, ps =>
    if sk < off then let x := limitRows off count l (sk + 1) ps; (false :: x.1, x.2)
    else if ps < count then let x := limitRows off count l sk (ps + 1); (true :: x.1, x.2)
    else let x := limitRows off count l sk ps; (false :: x.1, x.2)

/-- A source stage claims nothing more. -/
def StageSt.stopSource (st : StageSt) : StageSt := { st with opened := true, groups := [], outRows := some [] }

/-- The stages that a stage's outputs reach, itself among them. -/
def Pipe.reach (p : Pipe) (n : Nat) : List Nat :=
  (List.range p.stages.length).foldl (fun l m =>
    if m == n || p.streams.any fun x => l.contains x.producer && (x.consumer == m || (p.tappers x.stream).contains m)
    then m :: l else l) []

/-- A block that a stage above a LIMIT takes together with a block the LIMIT has passed. -/
def Act.joined (a : Act) (down : List Nat) (x : StreamDesc) (b : Block) : Bool :=
  down.contains x.consumer && a.p.streams.any fun y => down.contains y.producer && y.key == x.key &&
    (a.i.chan y.stream).blocks.any fun c => c.seq == b.seq

/-- The early end of a LIMIT (R90): its outputs end, every source of the instance claims no more, and the blocks
in the instance's buffers that are no output of the LIMIT, or needed with one, are discarded with their selections
(log entry 22). -/
def Act.limitEnd (a : Act) : Act :=
  let a := a.finish
  let down := a.p.reach a.n
  let rest := a.p.streams.filter fun x => !down.contains x.producer
  let i := rest.foldl (fun i x => i.onChan x.stream fun c =>
    { c with blocks := c.blocks.filter (a.joined down x), ended := true }) a.i
  let stages := i.stages.zipIdx.map fun x =>
    if (inFields (a.p.word x.2)).all (· == 0xFF) then x.1.stopSource else x.1
  let kept := (a.p.streams.filter fun x => down.contains x.producer).map StreamDesc.key
  let gs := (rest.map StreamDesc.key).filter fun g => !kept.contains g
  let sels := a.d.sels.filter fun x => !(x.1 == i.tile && x.2.slot == i.slot && gs.contains x.2.group)
  { a with i := { i with stages := stages }, d := { a.d with sels := sels } }

/-- A LIMIT of the instance has passed its rows, which ends the instance (R90). -/
def Act.limited (a : Act) : Bool :=
  a.i.stages.zipIdx.any fun x =>
    swOp (a.p.word x.2) == 0x19 && x.1.ended && x.1.passed == limitCount (a.p.word x.2)

/-- LIMIT passes COUNT rows after OFFSET, then ends (R90). -/
def limitBody (a : Act) (bs : List (Nat × Block)) : Turn :=
  let seq := setSeq bs
  match a.readAll bs with
  | .error f => .fail a f seq 0
  | .ok (a, cols) =>
    let x := limitRows a.limitOffset (limitCount a.w) (a.selected seq (setRows bs)) a.st.skipped a.st.passed
    let a := (a.putKept x.1 a.outs bs cols).onSt fun st => { st with skipped := x.2.1, passed := x.2.2 }
    if a.st.passed = limitCount a.w then .done (a.takeBlocks bs).limitEnd false
    else .done a true

/-- A LIMIT turn: COUNT 0 ends before any block is taken. -/
def limitTurn (a : Act) : List (Nat × Block) × Turn :=
  if limitCount a.w = 0 then ([], .quiet a.limitEnd)
  else a.streamTurn true limitBody endStage

/-- LIMIT (R90). -/
def execLimit (w : StageRef) (s : State) : Host.Outcome State Fault Refusal :=
  s.act fun d => d.stage w 0x19 (fun _ => true) limitTurn

end Sys2Proof.Machine
end

