-- ==== Sys2Proof/Machine/Agg.lean ====
section
/-! DEFINITION. Aggregation (R187 to R192): accumulators, their folds, combinations and results,
AGG, and the accumulator arrays that MERGE with SOURCE REGIONS combines (R84, R85, R203). -/

namespace Sys2Proof.Machine

/-! ### Accumulators (R188 to R191) -/

/-- One aggregate function over one input: FN code, input type, OVF mode and the pipeline SEED. -/
structure AggFn where
  fn : Nat
  typ : Nat
  ovf : Nat
  seed : Nat
  deriving DecidableEq, Repr

/-- Width of an accumulator (R188). -/
def AggFn.width (f : AggFn) : Nat :=
  match f.fn with
  | 0 => 0
  | 1 => 8
  | 2 => 8
  | 3 => if isFlt f.typ then 8 else 16
  | 7 => 1032
  | _ => if wide f.typ then 24 else 16

/-- EMPTY of an integer or decimal SUM. -/
def sumEmpty : Int := -(2 ^ 127)

/-- NULLV. -/
def sumNull : Int := -(2 ^ 127) + 1

/-- OVFNULL. -/
def sumOvf : Int := -(2 ^ 127) + 2

/-- EMPTY of a float SUM. -/
def fsumEmpty : Nat := 0x7FF0000000000001

/-- NULLV of a float SUM. -/
def fsumNull : Nat := 0x7FF0000000000002

/-- The initial state. -/
def AggFn.init (f : AggFn) : List Byte :=
  if f.fn = 3 then
    (if isFlt f.typ then leBytes 8 fsumEmpty else leBytes 16 (ofSigned 128 sumEmpty))
  else List.replicate f.width 0

/-- The bound of a decimal or int128 SUM (R189); none for narrower integers. -/
def sumBound (t ovf : Nat) (full : Bool) : Option Int :=
  let small := (ovf == 0 || ovf == 3) && !full
  if isDec t then some (if small then 1562499999999999999999999999999999999 else 10 ^ 38 - 1)
  else if t = 0x06 then some (if small then 2 ^ 121 - 1 else 2 ^ 127 - 4)
  else none

/-- An exact sum under the OVF mode; `none` is ARITH_OVERFLOW. -/
def sumFit (t ovf : Nat) (full : Bool) (v : Int) : Option Int :=
  match sumBound t ovf full with
  | none => some v
  | some b =>
    if -b ≤ v ∧ v ≤ b then some v
    else if ovf = 1 then some sumOvf
    else if ovf = 2 ∨ full = true then some (if v < 0 then -b else b)
    else none

/-- The state of an integer SUM. -/
def sumState (acc : List Byte) : Int := toSigned 128 (leNat acc)

/-- Fold into an integer SUM. -/
def foldSum (f : AggFn) (acc : List Byte) (v : Option Val) : Option (List Byte) :=
  let s := sumState acc
  let next := match v with
    | none => some (if s = sumEmpty then sumNull else s)
    | some x =>
      if s = sumOvf then some s
      else if s = sumEmpty ∨ s = sumNull then sumFit f.typ f.ovf false x.toInt
      else sumFit f.typ f.ovf false (s + x.toInt)
  next.map fun n => leBytes 16 (ofSigned 128 n)

/-- The binary64 pattern of a float value, NaN canonical (R189). -/
def toBinary64 (t b : Nat) : Nat := fltCanon 0x11 (fltEncode 0x11 (fltDecode t b))

/-- The bits of a float value. -/
def Val.fltBits : Val → Nat
  | .flt b => b
  | .int _ => 0
  | .str _ => 0

/-- Fold into a float SUM. -/
def foldFsum (f : AggFn) (acc : List Byte) (v : Option Val) : List Byte :=
  let s := leNat acc
  leBytes 8 (match v with
    | none => if s = fsumEmpty then fsumNull else s
    | some x =>
      let y := toBinary64 f.typ x.fltBits
      if s = fsumEmpty ∨ s = fsumNull then y else fltAdd 0x11 s y)

/-- State and value of a MIN, MAX or ANY accumulator. -/
def pickState (acc : List Byte) : Nat := fieldAt acc 0 8

/-- The value. -/
def pickVal (t : Nat) (acc : List Byte) : Val := valOfNat t (leNat (acc.drop 8))

/-- The accumulator of a value. -/
def pickAcc (f : AggFn) (v : Val) : List Byte := leBytes 8 2 ++ slice (laneBytes f.typ v) 0 (f.width - 8)

/-- A present value replaces a stored one: lesser for MIN, greater for MAX. -/
def pickWins (fn t : Nat) (new old : Val) : Bool :=
  if fn = 4 then valCmp t t false new old == .lt
  else if fn = 5 then valCmp t t false new old == .gt
  else false

/-- Fold into MIN, MAX or ANY. -/
def foldPick (f : AggFn) (acc : List Byte) (v : Option Val) : List Byte :=
  match v with
  | none => if pickState acc = 0 then leBytes 8 1 ++ acc.drop 8 else acc
  | some x => if pickState acc ≠ 2 ∨ pickWins f.fn f.typ x (pickVal f.typ acc) = true then pickAcc f x else acc

/-- ρ of R190. -/
def rho (d : Nat) : Nat :=
  let x := bitsOf d 10 54
  if x = 0 then 55 else 54 - Nat.log2 x

/-- Fold into APPROX_DISTINCT. -/
def foldApprox (f : AggFn) (acc : List Byte) (v : Option Val) : List Byte :=
  let acc := leBytes 8 1 ++ acc.drop 8
  match v with
  | none => acc
  | some x =>
    let d := kh64 (f.seed ^^^ 0x71D340A9E5B2C86F) (normKey f.typ false x)
    let i := 8 + bitsOf d 0 10
    acc.set i (BitVec.ofNat 8 (max (acc.getD i 0).toNat (rho d)))

/-- Fold a row (R188); `none` is ARITH_OVERFLOW. -/
def AggFn.fold (f : AggFn) (acc : List Byte) (v : Option Val) : Option (List Byte) :=
  match f.fn with
  | 0 => some acc
  | 1 => some (leBytes 8 (leNat acc + 1))
  | 2 => some (leBytes 8 (setBits (leNat acc + if v.isSome then 1 else 0) 63 1 1))
  | 3 => if isFlt f.typ then some (foldFsum f acc v) else foldSum f acc v
  | 7 => some (foldApprox f acc v)
  | _ => some (foldPick f acc v)

/-! ### Combining (R191) -/

/-- Two integer sums. -/
def mergeSum (f : AggFn) (a b : List Byte) : List Byte :=
  let x := sumState a
  let y := sumState b
  let r := if x = sumOvf ∨ y = sumOvf then sumOvf
    else if x = sumEmpty then y
    else if y = sumEmpty then x
    else if x = sumNull then y
    else if y = sumNull then x
    else (sumFit f.typ f.ovf true (x + y)).getD (x + y)
  leBytes 16 (ofSigned 128 r)

/-- Two float sums. -/
def mergeFsum (a b : List Byte) : List Byte :=
  let x := leNat a
  let y := leNat b
  leBytes 8 (if x = fsumEmpty then y else if y = fsumEmpty then x
    else if x = fsumNull then y else if y = fsumNull then x else fltAdd 0x11 x y)

/-- Two MIN, MAX or ANY accumulators: `a` stays on equality. -/
def mergePick (f : AggFn) (a b : List Byte) : List Byte :=
  if pickState a = 2 ∧ pickState b = 2 then
    (if pickWins f.fn f.typ (pickVal f.typ b) (pickVal f.typ a) then b else a)
  else if pickState a = 2 then a
  else if pickState b = 2 then b
  else leBytes 8 (pickState a ||| pickState b) ++ a.drop 8

/-- Two APPROX_DISTINCT accumulators. -/
def mergeApprox (a b : List Byte) : List Byte :=
  leBytes 8 (fieldAt a 0 8 ||| fieldAt b 0 8) ++
    (((a.drop 8).zip (b.drop 8)).map fun x => if x.1.toNat < x.2.toNat then x.2 else x.1)

/-- Combine accumulators of an earlier and a later source. -/
def AggFn.merge (f : AggFn) (a b : List Byte) : List Byte :=
  match f.fn with
  | 0 => a
  | 1 => leBytes 8 (leNat a + leNat b)
  | 2 =>
    let x := leNat a
    let y := leNat b
    leBytes 8 (setBits (bitsOf x 0 63 + bitsOf y 0 63) 63 1 (if x.testBit 63 || y.testBit 63 then 1 else 0))
  | 3 => if isFlt f.typ then mergeFsum a b else mergeSum f a b
  | 7 => mergeApprox a b
  | _ => mergePick f a b

/-! ### Results -/

/-- Fixed-point fraction bits of the logarithm. -/
def lnBits : Nat := 256

/-- The series of atanh: z, z³/3, z⁵/5, … with `z` and its square in fixed point. -/
def atanhTerms (sq : Nat) : Nat → Nat → Nat → Nat
  | 0, _, _ => 0
  | fuel + 1, k, pw => pw / k + atanhTerms sq fuel (k + 2) (pw * sq / 2 ^ lnBits)

/-- 2 atanh(n / d) in fixed point. -/
def twoAtanh (n d : Nat) : Nat :=
  let z := n * 2 ^ lnBits / d
  2 * atanhTerms (z * z / 2 ^ lnBits) 200 1 z

/-- ln(n / d) for n ≥ d in fixed point: the power of two and the rest. -/
def lnFixed (n d : Nat) : Nat :=
  let e := Nat.log2 (n / d)
  let d' := d * 2 ^ e
  e * twoAtanh 1 3 + twoAtanh (n - d') (n + d')

/-- The correctly rounded binary64 logarithm of n / d ≥ 1. -/
def lnRound (n d : Nat) : Nat := if n = d then 0 else fltRoundMag 0x11 (lnFixed n d) (2 ^ lnBits)

/-- A binary64 integer. -/
def f64 (n : Nat) : Nat := fltRoundMag 0x11 n 1

/-- A binary64 decimal constant n / d. -/
def f64q (n d : Nat) : Nat := fltRoundMag 0x11 n d

/-- A binary64 pattern as an integer, ties to even. -/
def f64Int (b : Nat) : Nat :=
  match fltDecode 0x11 b with
  | .fin _ n e => let r := ratOf false n e; divEven r.1.toNat r.2
  | .inf _ => 0
  | .nan => 0

/-- The logarithm of a positive binary64 of at least 1. -/
def f64Ln (b : Nat) : Nat :=
  match fltDecode 0x11 b with
  | .fin _ n e => let r := ratOf false n e; lnRound r.1.toNat r.2
  | .inf _ => fltInf 0x11
  | .nan => fltNaN 0x11

/-- The estimate of R190 over 1,024 registers. -/
def approxResult (regs : List Nat) : Nat :=
  let m := f64 1024
  let alpha := fltDiv 0x11 (f64q 7213 10000) (fltAdd 0x11 (f64 1) (fltDiv 0x11 (f64q 1079 1000) m))
  let z := f64q ((regs.map fun r => 2 ^ (64 - r)).foldl (· + ·) 0) (2 ^ 64)
  let v := (regs.filter (· == 0)).length
  let e := fltDiv 0x11 (fltMul 0x11 (fltMul 0x11 alpha m) m) z
  let small := fltCmp 0x11 e (fltMul 0x11 (f64q 5 2) m) != .gt
  if small && decide (0 < v) then f64Int (fltMul 0x11 m (f64Ln (fltDiv 0x11 m (f64 v)))) else f64Int e

/-- The result of an accumulator (R188). -/
def AggFn.result (f : AggFn) (acc : List Byte) : Option Val :=
  match f.fn with
  | 0 => none
  | 1 => some (.int (leNat acc : Nat))
  | 2 => some (.int (bitsOf (leNat acc) 0 63 : Nat))
  | 3 =>
    if isFlt f.typ then
      (if leNat acc = fsumEmpty ∨ leNat acc = fsumNull then none else some (.flt (leNat acc)))
    else
      let s := sumState acc
      if s = sumEmpty ∨ s = sumNull ∨ s = sumOvf then none else some (.int s)
  | 7 =>
    let regs := (acc.drop 8).map BitVec.toNat
    some (.int ((if regs.all (· == 0) then 0 else approxResult regs : Nat) : Int))
  | _ => if pickState acc = 2 then some (pickVal f.typ acc) else none

/-! ### The slots of an instance (R187) -/

/-- The array of an AGG stage: its functions, the byte where it starts, and the slots that lie in
the region and in the instance's part of the extension. -/
structure AccArray where
  fns : List AggFn
  start : Nat
  inRegion : Nat
  ext : Area
  deriving DecidableEq, Repr

/-- Bytes of a slot. -/
def AccArray.stride (x : AccArray) : Nat := (x.fns.map AggFn.width).foldl (· + ·) 0

/-- Slots of the extension. -/
def AccArray.inExt (x : AccArray) : Nat := x.ext.len / (max x.stride 1)

/-- Initial bytes of a slot. -/
def AccArray.blank (x : AccArray) : List Byte := x.fns.flatMap AggFn.init

/-- The functions of an AGG word. -/
def Pipe.aggFns (p : Pipe) (w : Nat) : List AggFn :=
  let t0 := p.typeOf (streamNo (swField w 8))
  let t1 := if swField w 16 = 0xFF then t0 else p.typeOf (streamNo (swField w 16))
  let o := bitsOf w 41 2
  [⟨swField w 48, t0, o, p.seed.toNat⟩, ⟨swField w 56, t1, o, p.seed.toNat⟩]

/-- The array of an AGG word, for instance `number` of `count` with K registers `k`. -/
def Pipe.accArray (p : Pipe) (w : Nat) (k : List Word) (number count : Nat) : AccArray :=
  let fns := p.aggFns w
  let start := bitsOf w 64 16 * 64
  let stride := (fns.map AggFn.width).foldl (· + ·) 0
  let l := if kReg k 62 = 0 then 0 else partLen (kReg k 63) count
  { fns := fns, start := start, inRegion := (p.tsRegion * 1024 - start) / (max stride 1),
    ext := { base := kReg k 62 + number * l, len := l } }

/-- The address of a slot in the extension. -/
def AccArray.extAddr (x : AccArray) (slot : Nat) : Nat := x.ext.base + (slot - x.inRegion) * x.stride

/-- The accumulators of a slot in the region. -/
def Inst.acc (i : Inst) (x : AccArray) (slot : Nat) : List Byte :=
  ((i.accs.find? fun y => y.1 == slot).map fun y => y.2).getD x.blank

/-- A poisoned tile-store word in [off, off + n) of the instance's region (R222; log entry 17). -/
def Dev.tsBad (d : Dev) (i : Inst) (off n : Nat) : Option Nat :=
  let lo := Config.regionAt i.tile i.slot + off
  (d.tsPoison.find? fun y => y.1 == i.tile && decide (lo < y.2 + 8 ∧ y.2 < lo + n)).map fun y => y.2

/-- An uncorrectable tile-store word was read: counted, its first offset latched (R222). -/
def Dev.tsUncorrectable (d : Dev) (t off : Nat) : Dev :=
  let d := d.bump16 F.TIL_TS_ECC_UE_COUNT t
  if d.get F.TIL_TS_ECC_ADDR_VALID t = 1 then d
  else (d.put F.TIL_TS_ECC_ADDR_OFFSET off t).put F.TIL_TS_ECC_ADDR_VALID 1 t

/-- Planted errors in the words of [off, off + n) of the instance's region. -/
def Dev.tsPlanted (d : Dev) (i : Inst) (off n : Nat) : List Nat :=
  let lo := Config.regionAt i.tile i.slot + off
  (d.errs.planted.filter fun x => x.1 == 1 && x.2.1 == i.tile && decide (lo < x.2.2.1 / 8 * 8 + 8 ∧ x.2.2.1 / 8 * 8 < lo + n)).map
    fun x => x.2.2.1

/-- A read of [off, off + n) of the instance's region: an error it meets is corrected and counted, or poisons its
word, and the offset of a poisoned word is answered (R222). -/
def Dev.tsRead (d : Dev) (i : Inst) (off n : Nat) : Dev × Option Nat :=
  match d.tsBad i off n with
  | some x => (d.tsUncorrectable i.tile x, some x)
  | none =>
    let d := (d.tsPlanted i off n).foldl (fun d x => d.tsScrub i.tile x .good) d
    (d, d.tsBad i off n)

/-- A write of [off, off + n) of the instance's region: the words at its ends that it writes in part are read and
merged, a word that it wholly rewrites has fresh check bits, and an armed injection of target 1 for a word of it
fires (R222, R482). -/
def Dev.tsWrite (d : Dev) (i : Inst) (off n : Nat) : Dev :=
  if n = 0 then d else
  let lo := Config.regionAt i.tile i.slot + off
  let whole := fun (t y : Nat) => t == i.tile && decide (lo ≤ y / 8 * 8 ∧ y / 8 * 8 + 8 ≤ lo + n)
  let d := { d with
    tsPoison := d.tsPoison.filter fun y => !whole y.1 y.2
    errs := { d.errs with planted := d.errs.planted.filter fun x => !(x.1 == 1 && whole x.2.1 x.2.2.1) } }
  let d := (d.tsPlanted i off n).foldl (fun d x => d.tsScrub i.tile x .good) d
  if lo / 8 * 8 ≤ d.errs.inj.addr ∧ d.errs.inj.addr < roundUp (lo + n) 8 then d.plantIf 1 i.tile d.errs.inj.addr else d

/-- What folding a row comes to. -/
inductive Folded where
  | ok (a : Act)
  | overflow (a : Act)
  | fail (a : Act) (f : Fail)

/-- Fold one value into each accumulator of a slot's bytes. -/
def foldFns : List AggFn → List Byte → List (Option Val) → Option (List Byte)
  | [], _, _ => some []
  | f :: fs, bs, vs =>
    match f.fold (bs.take f.width) (vs.headD none) with
    | none => none
    | some x => (foldFns fs (bs.drop f.width) (vs.drop 1)).map fun y => x ++ y

/-- Fold a row into a slot of the region. -/
def Act.foldRegion (a : Act) (x : AccArray) (slot : Nat) (vs : List (Option Val)) : Folded :=
  let off := x.start + slot * x.stride
  match a.d.tsRead a.i off x.stride with
  | (d, some _) => .fail { a with d := d } tsFail
  | (d, none) =>
    match foldFns x.fns (a.i.acc x slot) vs with
    | none => .overflow { a with d := d }
    | some bs => .ok { a with d := d.tsWrite a.i off x.stride, i := { a.i with accs := upsert (fun y => y.1 == slot) (slot, bs) a.i.accs } }

/-- Fold a row into a slot of the extension, through the column cache. -/
def Act.foldExt (a : Act) (x : AccArray) (slot : Nat) (vs : List (Option Val)) : Folded :=
  let addr := x.extAddr slot
  let a := a.look addr x.stride
  match a.readFault addr x.stride addrFault with
  | some f => .fail a f
  | none =>
    let a := a.touch 0 (a.d.localForm addr) x.stride
    match foldFns x.fns (a.bytes addr x.stride) vs with
    | none => .overflow a
    | some bs => .ok (a.store 0 addr bs)

/-- Fold a row into a slot; one beyond the array is INDEX_RANGE. -/
def Act.foldSlot (a : Act) (x : AccArray) (slot : Nat) (vs : List (Option Val)) : Folded :=
  if slot < x.inRegion then a.foldRegion x slot vs
  else if slot < x.inRegion + x.inExt then a.foldExt x slot vs
  else .fail a ⟨0x43, 0⟩

/-- A slot annotation that names no slot (R177). -/
def noSlot (n : Nat) : Bool := decide (0xFFFFFFFFFFFFFFFD ≤ n)

/-- The rows of a block: (row, slot, values). -/
def Act.foldRows (a : Act) (x : AccArray) (seq : Nat) : List (Nat × Nat × List (Option Val)) → Turn
  | [] => .done a true
  | (r, slot, vs) :: rest =>
    if noSlot slot then a.foldRows x seq rest
    else match a.foldSlot x slot vs with
      | .ok b => b.foldRows x seq rest
      | .overflow b => b.arithFail r 0xFF 1 seq
      | .fail b f => .fail b f seq 0

/-- AGG over one block. -/
def aggBody (a : Act) (bs : List (Nat × Block)) : Turn :=
  match a.readAll bs, bs with
  | .error f, _ => .fail a f (setSeq bs) 0
  | .ok _, [] => .hold
  | .ok (a, cols), (_, b) :: _ =>
    let n := b.body.rowCount
    let x := a.p.accArray a.w a.st.k a.i.number a.count
    let second := if swField a.w 16 = 0xFF then 0 else 1
    let pick := keepRows (a.selected b.seq n) (List.range n)
    a.foldRows x b.seq (pick.map fun r =>
      (r, if swMode a.w 0 then b.annAt r else 0,
        [(cols.getD 0 []).getD r none, (cols.getD second []).getD r none]))

/-- AGG (R188). -/
def execAgg (w : StageRef) (s : State) : Host.Outcome State Fault Refusal :=
  s.act fun d => d.stage w 0x0B (fun _ => true) fun a => a.streamTurn false (if swMode a.w 0 then annotated aggBody else aggBody) endStage

/-- Before an AGG instance leaves STARTING, its extension slots are initial (R187). -/
def Act.initExt (a : Act) : Act :=
  let x := a.p.accArray a.w a.st.k a.i.number a.count
  let n := x.inExt
  if n = 0 then a else a.store 0 x.ext.base ((List.replicate n x.blank).flatten)

/-! ### MERGE with SOURCE REGIONS (R84, R85, R191, R203) -/

/-- The slots of one source that are not initial, ascending. -/
abbrev AccSource := List (Nat × List Byte)

/-- The two functions on one pair of slots. -/
def mergeSlot : List AggFn → List Byte → List Byte → List Byte
  | [], _, _ => []
  | f :: fs, a, b => f.merge (a.take f.width) (b.take f.width) ++ mergeSlot fs (a.drop f.width) (b.drop f.width)

/-- Combine a source with a later one. -/
def mergeSources (fs : List AggFn) : Nat → AccSource → AccSource → AccSource
  | 0, _, _ => []
  | _ + 1, [], b => b
  | _ + 1, a, [] => a
  | fuel + 1, x :: xs, y :: ys =>
    if x.1 < y.1 then x :: mergeSources fs fuel xs (y :: ys)
    else if y.1 < x.1 then y :: mergeSources fs fuel (x :: xs) ys
    else (x.1, mergeSlot fs x.2 y.2) :: mergeSources fs fuel xs ys

/-- Combine sources in order. -/
def mergeAll (fs : List AggFn) (l : List AccSource) : AccSource :=
  l.foldl (fun a b => mergeSources fs (a.length + b.length + 1) a b) []

/-- The AGG stage of a pipeline. -/
def Pipe.aggStage (p : Pipe) : Option (Nat × Nat) := (p.stagesWith 0x0B).head?

/-- The extension slots of an instance that are not initial. -/
def Act.extSlots (a : Act) (x : AccArray) : AccSource :=
  let blank := x.blank
  (List.range x.inExt).filterMap fun j =>
    let bs := a.bytes (x.ext.base + j * x.stride) x.stride
    if bs = blank then none else some (x.inRegion + j, bs)

/-- Region slots in ascending order. -/
def sortSlots (l : AccSource) : AccSource :=
  l.foldl (fun acc x => (acc.filter fun y => decide (y.1 < x.1)) ++ [x] ++
    acc.filter fun y => decide (x.1 < y.1)) []

/-- The source of one instance; its extension is read through the column cache. -/
def Act.sourceOf (a : Act) (src : Pipe) (n w : Nat) (i : Inst) : Except (Dev × Fail) (Act × AccSource) :=
  let k := ((i.stages[n]?).map fun st => st.k).getD []
  let x := src.accArray w k i.number (a.d.pipeInsts i.ring i.index i.pipe).length
  match a.d.tsRead i x.start (x.inRegion * x.stride) with
  | (d, some _) => .error (d, tsFail)
  | (d, none) =>
    let a := { a with d := d }
    let a := if x.ext.len = 0 then a else a.look x.ext.base (x.inExt * x.stride)
    match (if x.ext.len = 0 then none else a.readFault x.ext.base (x.inExt * x.stride) addrFault) with
    | some f => .error (a.d, f)
    | none =>
      let len := x.inExt * x.stride
      .ok (if len = 0 then a else a.touch 0 (a.d.localForm x.ext.base) len, sortSlots i.accs ++ a.extSlots x)

/-- Sources of every instance, in instance order. -/
def Act.sourcesOf (a : Act) (src : Pipe) (n w : Nat) : List Inst → Except (Dev × Fail) (Act × List AccSource)
  | [] => .ok (a, [])
  | i :: is =>
    match a.sourceOf src n w i with
    | .error e => .error e
    | .ok x => (x.1.sourcesOf src n w is).map fun l => (l.1, x.2 :: l.2)

/-- The bytes of an intermediate run: count, then slot and accumulators of each record. -/
def accRun (s : AccSource) : List Byte :=
  leBytes 8 s.length ++ List.replicate 56 0 ++ s.flatMap fun x => leBytes 8 x.1 ++ x.2

/-- Write an intermediate run at the next 64-byte boundary (R203). -/
def Act.writeRun (a : Act) (r : Area) (bs : List Byte) : Except Fail Act :=
  let off := roundUp (max a.st.cursor 64) 64
  match a.areaFault r off bs.length with
  | some f => .error f
  | none => .ok ((a.store 0 (r.base + off) bs).onSt fun st => { st with cursor := off + bs.length })

/-- One pass: groups of 16 consecutive sources become intermediate runs. -/
def Act.accPass (a : Act) (fs : List AggFn) (r : Area) : Nat → List AccSource → Except Fail (Act × List AccSource)
  | 0, l => .ok (a, l)
  | fuel + 1, l =>
    if l.isEmpty then .ok (a, [])
    else
      let m := mergeAll fs (l.take 16)
      match a.writeRun r (accRun m) with
      | .error f => .error f
      | .ok a => (a.accPass fs r fuel (l.drop 16)).map fun y => (y.1, m :: y.2)

/-- Passes until 16 or fewer sources remain. -/
def Act.accPasses (a : Act) (fs : List AggFn) (r : Area) : Nat → List AccSource → Except Fail (Act × List AccSource)
  | 0, l => .ok (a, l)
  | fuel + 1, l =>
    if l.length ≤ 16 then .ok (a, l)
    else match a.accPass fs r l.length l with
      | .error f => .error f
      | .ok (a, l) => a.accPasses fs r fuel l

/-- The area of DEST_K for intermediate runs, or DEST_FULL where it is 0xFF. -/
def Act.mergeArea (a : Act) : Area :=
  let k := swField a.w 104
  if k = 0xFF then ⟨0, 0⟩ else a.area k

/-- The merged rows of SOURCE REGIONS: slot and results. -/
def Act.regionRows (a : Act) : Except (Dev × Fail) (Act × List (List (Option Val))) :=
  let src := swField a.w 48
  match a.r.pipeAt src with
  | none => .ok (a, [])
  | some q =>
    match q.aggStage with
    | none => .ok (a, [])
    | some (n, w) =>
      let insts := a.d.pipeInsts a.i.ring a.i.index src
      let ordered := (List.range insts.length).filterMap fun j => insts.find? fun i => i.number == j
      match a.sourcesOf q n w ordered with
      | .error e => .error e
      | .ok (a, l) =>
        let fs := q.aggFns w
        match a.accPasses fs a.mergeArea 8 l with
        | .error f => .error (a.d, f)
        | .ok (a, s) =>
          .ok (a, (mergeAll fs s).map fun x =>
            some (.int (x.1 : Nat)) :: (fs.zipIdx).map fun y =>
              y.1.result ((x.2.drop (if y.2 = 0 then 0 else (fs.headD ⟨0, 0, 0, 0⟩).width)).take y.1.width))

/-- One block of a MERGE's rows, or its end. -/
def Act.emitRows (a : Act) (rows : List (List (Option Val))) : Turn :=
  if rows.isEmpty then .quiet a.finish
  else
    let part := rows.take a.maxRows
    let b := (a.outs.zipIdx).foldl (fun b x => b.put x.1 a.st.seqOut (colOfRows part x.2)) a
    .done (b.onSt fun st =>
      { st with seqOut := st.seqOut + 1, finished := st.finished + 1, outRows := some (rows.drop a.maxRows) }) false

/-- A source stage that forms all its rows once and then puts block after block. -/
def Act.rowSource (a : Act) (form : Act → Except (Dev × Fail) (Act × List (List (Option Val)))) : Turn :=
  if a.i.life != .running then .hold
  else if !a.outRoom then .stall
  else match a.st.outRows with
    | some rows => a.emitRows rows
    | none =>
      match form a with
      | .error (d, f) => .fail { a with d := d } f 0 0
      | .ok (b, rows) => b.emitRows rows

/-- SOURCE of a MERGE word. -/
def mergeSource (w : Nat) : Nat := bitsOf w 40 2

/-- MERGE with SOURCE REGIONS (R85). -/
def execMergeRegions (w : StageRef) (s : State) : Host.Outcome State Fault Refusal :=
  s.act fun d => d.stage w 0x11 (fun w => mergeSource w == 1) fun a => ([], a.rowSource Act.regionRows)

end Sys2Proof.Machine
end

