-- ==== Sys2Proof/Machine/Dma.lean ====
section
/-! DEFINITION. The DMA engine (R281 to R290): channels, descriptors, beats with their staging buffers, read-backs
and completions. -/

namespace Sys2Proof.Machine

/-! ### Addresses of a transfer -/

/-- The address of byte `i` of a transfer (R285). -/
def wrapAddr (start w i : Nat) : Nat :=
  if w = 0 then start + i else start / 2 ^ w * 2 ^ w + (start + i) % 2 ^ w

/-- The runs of addresses that `n` bytes from `start` take: one, or two where they wrap. -/
def spans (start w n : Nat) : List (Nat × Nat) :=
  let room := if w = 0 then n else 2 ^ w - start % 2 ^ w
  if n ≤ room then [(start, n)] else [(start, room), (start / 2 ^ w * 2 ^ w, n - room)]

/-- Two runs share a byte. -/
def meets (x y : Nat × Nat) : Bool := decide (x.1 < y.1 + y.2 ∧ y.1 < x.1 + x.2 ∧ 0 < x.2 ∧ 0 < y.2)

/-! ### Channels -/

/-- State of a channel (R289): 0 DISABLED, 1 IDLE, 2 ACTIVE, 3 ERROR, 4 STOPPING. -/
def Dev.dmaState (d : Dev) (n : Nat) : Nat := d.get F.DMA_CH_STATUS_STATE n

/-- Enter a state. -/
def Dev.setDmaState (d : Dev) (n v : Nat) : Dev := d.put F.DMA_CH_STATUS_STATE v n

/-- The pod of a channel. -/
def Dev.dmaPod (d : Dev) (n : Nat) : Nat := d.get F.DMA_CH_OWNER_POD n

/-- PASID of a channel's pod. -/
def Dev.dmaPasid (d : Dev) (n : Nat) : Nat := d.get F.POD_PASID_PASID (d.dmaPod n)

/-- Descriptors in the ring. -/
def Dev.dmaSize (d : Dev) (n : Nat) : Nat := 2 ^ d.get F.DMA_CH_CFG_SIZE_LOG2 n

/-- TAIL as the ring counts it. -/
def Dev.dmaTail (d : Dev) (n : Nat) : Nat := d.get F.DMA_CH_TAIL_TAIL n % d.dmaSize n

/-- HEAD. -/
def Dev.dmaHead (d : Dev) (n : Nat) : Nat := d.get F.DMA_CH_HEAD_HEAD n

/-- Address of the descriptor at HEAD. -/
def Dev.dmaAddr (d : Dev) (n : Nat) : Nat := d.get F.DMA_CH_RING_ADDR n * 64 + 64 * d.dmaHead n

/-- The level of a channel (R284). -/
def Dev.dmaLevel (d : Dev) (n : Nat) : Nat := min (d.get F.DMA_CH_CFG_PRIO n) (d.get F.DMA_CH_OWNER_PRIO_MAX n)

/-- The running descriptor of a channel. -/
def Dev.dmaCur (d : Dev) (n : Nat) : Option DmaCur := d.dmas.find? fun c => c.chan == n

/-- Put it back. -/
def Dev.setCur (d : Dev) (c : DmaCur) : Dev := { d with dmas := upsert (fun x => x.chan == c.chan) c d.dmas }

/-- Drop it. -/
def Dev.dropCur (d : Dev) (n : Nat) : Dev := { d with dmas := d.dmas.filter fun c => c.chan != n }

/-- IDLE becomes ACTIVE when TAIL differs from HEAD, and ACTIVE with nothing left IDLE (R289). -/
def Dev.settleDma (d : Dev) (n : Nat) : Dev :=
  if d.dmaState n = 1 ∧ d.dmaTail n ≠ d.dmaHead n then d.setDmaState n 2
  else if d.dmaState n = 2 ∧ d.dmaTail n = d.dmaHead n ∧ d.dmaCur n = none then d.setDmaState n 1
  else d

/-! ### Fields of a descriptor (R282) -/

/-- OP. -/
def DmaCur.op (c : DmaCur) : Nat := fieldAt c.desc 0 1

/-- DFLAGS bit. -/
def DmaCur.flag (c : DmaCur) (b : Nat) : Bool := (fieldAt c.desc 1 1).testBit b

/-- SRC. -/
def DmaCur.src (c : DmaCur) : Nat := fieldAt c.desc 8 8

/-- DST. -/
def DmaCur.dst (c : DmaCur) : Nat := fieldAt c.desc 0x10 8

/-- LEN. -/
def DmaCur.lenField (c : DmaCur) : Nat := fieldAt c.desc 0x18 8

/-- SRC_WRAP. -/
def DmaCur.srcWrap (c : DmaCur) : Nat := fieldAt c.desc 3 1

/-- DST_WRAP. -/
def DmaCur.dstWrap (c : DmaCur) : Nat := fieldAt c.desc 4 1

/-- Bytes before the data of a length-tagged source (R286). -/
def DmaCur.head (c : DmaCur) : Nat := if c.flag 2 then 8 else 0

/-- Address of source byte `i`. -/
def DmaCur.srcAt (c : DmaCur) (i : Nat) : Nat := wrapAddr c.src c.srcWrap i

/-- Address of destination byte `i`. -/
def DmaCur.dstAt (c : DmaCur) (i : Nat) : Nat := wrapAddr c.dst c.dstWrap i

/-! ### The end of a descriptor (R287 to R289) -/

/-- The channel goes on after this status (R288). -/
def dmaContinues (status detail : Nat) : Bool :=
  status == 0 || (status == 5 && [1, 2, 3].contains detail)

/-- Whether [a, a + 64) of a ring in host memory or device memory can be reached now. -/
def Dev.ringReach (d : Dev) (host : Bool) (pasid a n : Nat) : Xlate :=
  if host then d.xlate pasid a n else .ok

/-- What reading bytes of a ring does: a translation enters the cache, or a line is read at its home (R274, R293). -/
def Dev.ringSeen (d : Dev) (host : Bool) (pasid a n : Nat) : Dev :=
  if host then d.cacheXlate pasid a n else d.ioRead (d.localForm a) n

/-- Store bytes of a ring. -/
def Dev.ringStore (d : Dev) (host : Bool) (pasid a : Nat) (bs : List Byte) : Dev :=
  if host then (d.cacheXlate pasid a bs.length).hst pasid a bs else d.ioStore (d.localForm a) bs

/-- Read bytes of a ring. -/
def Dev.ringLoad (d : Dev) (host : Bool) (pasid a n : Nat) : List Byte :=
  if host then d.hld pasid a n else d.ld (d.localForm a) n

/-- The channel's ring is in host memory. -/
def Dev.dmaHost (d : Dev) (n : Nat) : Bool := d.get F.DMA_CH_CFG_RING_HOST n == 1

/-- The descriptor has ended: HEAD moves past it, and the channel goes on, stops or is DISABLED. -/
def Dev.dmaAdvance (d : Dev) (c : DmaCur) : Dev :=
  let n := c.chan
  let index := d.dmaHead n
  let next := (index + 1) % d.dmaSize n
  let d := (d.dropCur n).put F.DMA_CH_HEAD_HEAD next n
  let d := if next = 0 then d.put F.DMA_CH_HEAD_PHASE (1 - d.get F.DMA_CH_HEAD_PHASE n) n else d
  let d := d.put F.DMA_CH_STATUS_LAST c.status n
  if d.dmaState n = 4 then d.setDmaState n 0
  else if dmaContinues c.status c.detail then d.settleDma n
  else (d.put F.DMA_CH_STATUS_ERR_INDEX index n).setDmaState n 3

/-- Bytes 0x30 to 0x3F, and the interrupt (R287). A completion that cannot be written stops the
channel with ADDR (log entry 44). -/
def Dev.dmaComplete (d : Dev) (c : DmaCur) : Dev :=
  let n := c.chan
  let a := d.dmaAddr n + 0x30
  match d.ringReach (d.dmaHost n) (d.dmaPasid n) a 16 with
  | .wait => d.askPage (d.dmaPasid n) a 16 (.dma n)
  | .fault => ((d.forgetFault (d.dmaPasid n) a 16)).dmaAdvance { c with status := 2 }
  | .ok =>
    let bs := leBytes 1 c.status ++ leBytes 1 c.detail ++ leBytes 1 (d.get F.DMA_CH_HEAD_PHASE n) ++
      leBytes 5 0 ++ leBytes 8 c.done
    let d := d.ringStore (d.dmaHost n) (d.dmaPasid n) a bs
    let d := d.dmaAdvance c
    if (fieldAt c.desc 1 1).testBit 3 then d.podVec (d.dmaPod n) (d.get F.DMA_CH_CFG_VEC n) else d

/-- The read-back of the line that holds the last byte written: a RdOnce to the home, or a non-posted host read; then
the channel waits for it (R287). -/
def Dev.readBack (d : Dev) (c : DmaCur) : Dev :=
  let d := if c.done = 0 ∨ c.flag 1 = true then d else d.ioRead (lineOf (d.localForm (c.dstAt (c.done - 1)))) 64 true
  d.setCur { c with st := .readback }

/-- A fresh descriptor of a channel. -/
def DmaCur.fresh (n : Nat) (desc : List Byte) : DmaCur :=
  { chan := n, desc := desc, st := .moving, len := fieldAt desc 0x18 8, done := 0, short := false,
    status := 0, detail := 0, staged := [] }

/-- A descriptor ends at once: nothing is read back. -/
def Dev.dmaFinish (d : Dev) (c : DmaCur) (status : Nat) : Dev :=
  let c := { c with status := status, st := .readback }
  (d.setCur c).dmaComplete c

/-! ### Enabling, disabling and restarting (R289) -/

/-- CFG.EN is cleared (R289): an idle channel is DISABLED. A running COPY or FILL stops after its beat, and so does
the descriptor at HEAD of an ACTIVE channel that has not yet taken it: it is completed as ABORTED after its read-back.
A CJOB ends first, with its own status. -/
def Dev.dmaStop (d : Dev) (n : Nat) : Dev :=
  let d := d.put F.DMA_CH_CFG_EN 0 n
  if d.dmaState n = 2 then
    match d.dmaCur n with
    | none => (d.readBack { DmaCur.fresh n (d.ringLoad (d.dmaHost n) (d.dmaPasid n) (d.dmaAddr n) 64) with status := 6 }).setDmaState n 4
    | some c =>
      (if c.op = 3 then d else if c.st = .moving then d.readBack { c with status := 6 }
       else d.setCur { c with status := 6 }).setDmaState n 4
  else if d.dmaState n = 4 then d
  else d.setDmaState n 0

/-- The ring lies wholly in the pod's ranges (R281). -/
def Dev.dmaRingOk (d : Dev) (n : Nat) : Bool :=
  d.inPod (d.dmaPod n) (d.get F.DMA_CH_RING_ADDR n * 64) (d.dmaSize n * 64)

/-- CFG.EN set to 1 on a DISABLED channel (R281, R289). -/
def Dev.dmaStart (d : Dev) (n : Nat) : Dev :=
  if d.get F.DMA_CH_CFG_RING_HOST n = 0 && !d.dmaRingOk n then d.violation (d.dmaPod n) 0
  else
    let d := (d.put F.DMA_CH_CFG_EN 1 n).setDmaState n 1
    ((d.put F.DMA_CH_TAIL_TAIL 0 n).put F.DMA_CH_HEAD_HEAD 0 n).put F.DMA_CH_HEAD_PHASE 1 n

/-- A write to DMA_CHn_CFG. -/
def Dev.dmaCfgWrite (d : Dev) (n v : Nat) (keepLow : Bool) : Dev :=
  let en := fieldIn F.DMA_CH_CFG_EN v
  if d.get F.DMA_CH_OWNER_ASSIGNED n = 0 ∨ keepLow = true then d
  else if d.dmaState n = 0 then
    let d := d.applyPlain ⟨.DMA_CH_CFG, n, 0⟩ (setBits v 0 1 0) keepLow
    if en = 1 then d.dmaStart n else d
  else if en = 0 then d.dmaStop n
  else d

/-- DMA_ENABLE (R289). -/
def execDmaEnable (n : Fin 32) (a : RegAccess) (s : State) : Host.Outcome State Fault Refusal :=
  s.act fun d => d.access a ⟨.DMA_CH_CFG, n.val, 0⟩ fun d v k => d.dmaCfgWrite n.val v k

/-- DMA_DISABLE (R289). -/
def execDmaDisable (n : Fin 32) (a : RegAccess) (s : State) : Host.Outcome State Fault Refusal :=
  s.act fun d => d.access a ⟨.DMA_CH_CFG, n.val, 0⟩ fun d v k => d.dmaCfgWrite n.val v k

/-- A write to DMA_CHn_TAIL: recorded in every state, served in IDLE and ACTIVE. -/
def Dev.dmaTailWrite (d : Dev) (n v : Nat) (keepLow : Bool) : Dev :=
  let d := d.leaveP1
  if d.get F.DMA_CH_OWNER_ASSIGNED n = 0 then d
  else (d.applyPlain ⟨.DMA_CH_TAIL, n, 0⟩ (v % d.dmaSize n) keepLow).settleDma n

/-- DMA_TAIL (R281). -/
def execDmaTail (n : Fin 32) (a : RegAccess) (s : State) : Host.Outcome State Fault Refusal :=
  s.act fun d => d.access a ⟨.DMA_CH_TAIL, n.val, 0⟩ fun d v k => d.dmaTailWrite n.val v k

/-- A write to DMA_CHn_CTRL. -/
def Dev.dmaCtrlWrite (d : Dev) (n v : Nat) : Dev :=
  if d.get F.DMA_CH_OWNER_ASSIGNED n = 1 ∧ fieldIn F.DMA_CH_CTRL_RESTART v = 1 ∧ d.dmaState n = 3 then
    (d.setDmaState n 1).settleDma n
  else d

/-- DMA_RESTART (R289). -/
def execDmaRestart (n : Fin 32) (a : RegAccess) (s : State) : Host.Outcome State Fault Refusal :=
  s.act fun d => d.access a ⟨.DMA_CH_CTRL, n.val, 0⟩ fun d v _ => d.dmaCtrlWrite n.val v

/-! ### Legal descriptors (R282, R283) -/

/-- A WRAP value. -/
def wrapOk (w len : Nat) : Bool := w == 0 || (decide (12 ≤ w ∧ w ≤ 40 ∧ len ≤ 2 ^ w))

/-- Fields inside their legal values and reserved fields zero. -/
def DmaCur.fieldsOk (c : DmaCur) : Bool :=
  let f := fieldAt c.desc
  f 1 1 / 16 == 0 && f 2 1 / 16 == 0 && f 5 3 == 0 && f 0x20 8 == 0 && f 0x28 8 == 0 &&
    (match c.op with
    | 0 => c.dst == 0 && c.lenField == 0 && wrapOk c.srcWrap 0 && wrapOk c.dstWrap 0 && !c.flag 2
    | 1 => decide (1 ≤ c.lenField ∧ c.lenField < 2 ^ 48)
    | 2 => decide (1 ≤ c.lenField ∧ c.lenField < 2 ^ 48) && !c.flag 2
    | 3 => c.dst == 0 && c.lenField == 0 && c.srcWrap == 0 && c.dstWrap == 0 && !c.flag 2 && c.src % 64 == 0
    | _ => false)

/-- The source of a COPY, as runs of addresses in one space. -/
def Dev.dmaSrcRuns (d : Dev) (c : DmaCur) : List (Nat × Nat) :=
  (spans c.src c.srcWrap (c.lenField + c.head)).map fun x =>
    (if c.flag 0 then x.1 else d.localForm x.1, x.2)

/-- The destination likewise. -/
def Dev.dmaDstRuns (d : Dev) (c : DmaCur) : List (Nat × Nat) :=
  (spans c.dst c.dstWrap c.lenField).map fun x => (if c.flag 1 then x.1 else d.localForm x.1, x.2)

/-- A descriptor is not DESC_INVALID (R283). -/
def Dev.dmaValid (d : Dev) (c : DmaCur) : Bool :=
  c.fieldsOk &&
    (if c.op = 1 then
      wrapOk c.srcWrap c.lenField && wrapOk c.dstWrap c.lenField &&
        !(c.flag 0 == c.flag 1 && (d.dmaSrcRuns c).any fun x => (d.dmaDstRuns c).any fun y => meets x y)
    else if c.op = 2 then wrapOk c.srcWrap c.lenField && wrapOk c.dstWrap c.lenField
    else true)

/-- Device addresses of a COPY, FILL or CJOB lie in the pod (R283). -/
def Dev.dmaInPod (d : Dev) (c : DmaCur) : Bool :=
  let p := d.dmaPod c.chan
  let all := fun (l : List (Nat × Nat)) => l.all fun x => d.inPod p x.1 x.2
  match c.op with
  | 1 => (c.flag 0 || all (d.dmaSrcRuns c)) && (c.flag 1 || all (d.dmaDstRuns c))
  | 2 => c.flag 1 || all (d.dmaDstRuns c)
  | 3 => d.inPod p c.src 64
  | _ => true

/-- The channel may take the descriptor at HEAD: it is ACTIVE with none running, and its pod runs
(R289, R346). -/
def Dev.dmaMayTake (d : Dev) (n : Nat) : Bool :=
  d.dmaState n == 2 && (d.dmaCur n).isNone && d.podState (d.dmaPod n) == 2

/-- What reading the descriptor at HEAD comes to (log entry 44 for a ring that cannot be read). -/
inductive DescRead where
  | ok (d : Dev) (desc : List Byte)
  | wait (d : Dev)
  | bad (d : Dev) (status : Nat)

/-- Read the descriptor at HEAD. -/
def Dev.dmaRead (d : Dev) (n : Nat) : DescRead :=
  let a := d.dmaAddr n
  match d.ringReach (d.dmaHost n) (d.dmaPasid n) a 64 with
  | .wait => .wait (d.askPage (d.dmaPasid n) a 64 (.dma n))
  | .fault => .bad (d.forgetFault (d.dmaPasid n) a 64) 2
  | .ok =>
    let d := d.ringSeen (d.dmaHost n) (d.dmaPasid n) a 64
    if !d.dmaHost n && d.poisonAt (d.localForm a) != .clean then .bad d 3
    else .ok d (d.ringLoad (d.dmaHost n) (d.dmaPasid n) a 64)

/-- Take the descriptor at HEAD when its OP meets `ok`: an invalid one ends with DESC_INVALID, one
with a device address outside the pod with ADDR, and `run` starts any other. -/
def Dev.dmaTake (d : Dev) (n : Nat) (ok : Nat → Bool) (run : Dev → DmaCur → Dev) : Dev :=
  if !d.dmaMayTake n then d
  else match d.dmaRead n with
    | .wait d => d
    | .bad d st => d.dmaAdvance { DmaCur.fresh n (List.replicate 64 0) with status := st }
    | .ok e desc =>
      let c := DmaCur.fresh n desc
      if !ok c.op then d
      else if !e.dmaValid c then e.dmaFinish c 4
      else if !e.dmaInPod c then e.dmaFinish c 2
      else run e c

/-- DMA_NOP: OP 0, and any OP above 3 (R282, R283). -/
def execDmaNop (n : Fin 32) (s : State) : Host.Outcome State Fault Refusal :=
  s.act fun d => d.dmaTake n.val (fun op => op == 0 || decide (3 < op)) fun d c => d.dmaFinish c 0

/-! ### Bytes of a transfer -/

/-- Source bytes [i, i + n), the length word counted. -/
def Dev.dmaSrcBytes (d : Dev) (c : DmaCur) (i n : Nat) : List Byte :=
  (List.range n).map fun k =>
    if c.flag 0 then cellGet d.hmem (hostKey (d.dmaPasid c.chan) (c.srcAt (i + k)))
    else cellGet d.mem (d.localForm (c.srcAt (i + k)))

/-- How many of them come before a marked line. -/
def Dev.dmaClean (d : Dev) (c : DmaCur) (i n : Nat) : Nat :=
  if c.flag 0 || d.poison.isEmpty then n
  else ((List.range n).takeWhile fun k => d.poisonAt (d.localForm (c.srcAt (i + k))) == .clean).length

/-- Translation of host addresses: the worst of several runs. -/
def Dev.xlateRuns (d : Dev) (pasid : Nat) : List (Nat × Nat) → Xlate
  | [] => .ok
  | x :: xs =>
    match d.xlate pasid x.1 x.2 with
    | .fault => .fault
    | .wait => .wait
    | .ok => d.xlateRuns pasid xs

/-- Ask for every page of several runs. -/
def Dev.askRuns (d : Dev) (pasid : Nat) (w : Waiter) (l : List (Nat × Nat)) : Dev :=
  l.foldl (fun d x => d.askPage pasid x.1 x.2 w) d

/-- What reading source bytes [i, i + n) of device memory at their homes does; the engine's hint is OPEN (R273). -/
def Dev.srcRead (d : Dev) (c : DmaCur) (i n : Nat) : Dev :=
  if c.flag 0 then d
  else (spans (c.srcAt i) c.srcWrap n).foldl (fun (d : Dev) x => d.ioRead (d.localForm x.1) x.2 true) d

/-- Bytes of the length word, and the transfer it leaves (R286). -/
def Dev.dmaLength (d : Dev) (c : DmaCur) : DmaCur :=
  let l := leNat (d.dmaSrcBytes c 0 8)
  if l < c.lenField then { c with len := l, short := true } else c

/-- The status of a transfer that has moved every byte. -/
def DmaCur.ended (c : DmaCur) : DmaCur := { c with st := .readback, status := if c.short then 1 else 0 }

/-- A transfer is ready: one of no bytes ends at once. -/
def Dev.dmaBegin (d : Dev) (c : DmaCur) : Dev :=
  if c.len = 0 then d.dmaFinish c (if c.short then 1 else 0) else d.setCur c

/-- The start of a COPY: the length word is read first. -/
def Dev.dmaCopyStart (d : Dev) (c : DmaCur) : Dev :=
  if !c.flag 2 then d.dmaBegin c
  else if c.flag 0 then
    let runs := spans c.src c.srcWrap 8
    match d.xlateRuns (d.dmaPasid c.chan) runs with
    | .wait => d.askRuns (d.dmaPasid c.chan) (.dma c.chan) runs
    | .fault => (d.forgetRuns (d.dmaPasid c.chan) runs).dmaFinish c 2
    | .ok => (d.cacheRuns (d.dmaPasid c.chan) runs).dmaBegin (d.dmaLength c)
  else
    let d := d.srcRead c 0 8
    if d.dmaClean c 0 8 < 8 then d.dmaFinish c 3 else d.dmaBegin (d.dmaLength c)

/-- DMA_COPY (R282, R286). -/
def execDmaCopy (n : Fin 32) (s : State) : Host.Outcome State Fault Refusal :=
  s.act fun d => d.dmaTake n.val (fun op => op == 1) fun d c => d.dmaCopyStart c

/-- DMA_FILL (R282). -/
def execDmaFill (n : Fin 32) (s : State) : Host.Outcome State Fault Refusal :=
  s.act fun d => d.dmaTake n.val (fun op => op == 2) fun d c => d.dmaBegin c

/-- DMA_CJOB: the job joins its level (R163, R284). -/
def execDmaCjob (n : Fin 32) (s : State) : Host.Outcome State Fault Refusal :=
  s.act fun d => d.dmaTake n.val (fun op => op == 3) fun d c =>
    let j : Job :=
      { stageJob := false, tile := 0, slot := 0, stage := 0, col := 0, chan := n.val, level := d.dmaLevel n.val,
        pod := d.dmaPod n.val, addr := c.src, op := 0, fmt := 0, src := [], limit := 0 }
    { d.setCur { c with st := .job } with dmaJobs := d.dmaJobs ++ [j] }

/-! ### Beats (R284) -/

/-- Destination bytes of a beat: to the end of the destination line. -/
def DmaCur.beat (c : DmaCur) : Nat := min (64 - c.dstAt c.done % 64) (c.len - c.done)

/-- Host runs a beat of `k` bytes touches: the source bytes that its staging buffer lacks, and the destination. -/
def DmaCur.hostRuns (c : DmaCur) (k : Nat) : List (Nat × Nat) :=
  (if c.op = 1 ∧ c.flag 0 = true ∧ c.staged.length < k then
    spans (c.srcAt (c.head + c.done + c.staged.length)) c.srcWrap (k - c.staged.length) else []) ++
    (if c.flag 1 then [(c.dstAt c.done, k)] else [])

/-- How many bytes a COPY reads before a beat of `k`: what its staging buffer lacks, and a free number beyond, inside
the source's 4 KiB page, the transfer and the buffer of 4 KiB (R284; log entry 43). -/
def DmaCur.readLen (c : DmaCur) (k free : Nat) : Nat :=
  let had := c.staged.length
  if k ≤ had then 0
  else
    let room := 4096 - c.srcAt (c.head + c.done + had) % 4096
    min (max (k - had) (min room (free % 4097))) (min (c.len - c.done - had) (4096 - had))

/-- The staging buffer is filled for a beat of `k` bytes, up to a marked line. -/
def Dev.dmaFill (d : Dev) (c : DmaCur) (k : Nat) : Dev × DmaCur :=
  if c.op ≠ 1 then (d, c)
  else
    let i := c.head + c.done + c.staged.length
    let n := c.readLen k (Config.readAhead d.fresh)
    let d := { d with fresh := d.fresh + 1 }.srcRead c i n
    (d, { c with staged := c.staged ++ d.dmaSrcBytes c i (d.dmaClean c i n) })

/-- Data of a beat of `k` bytes. -/
def DmaCur.beatBytes (c : DmaCur) (k : Nat) : List Byte :=
  if c.op = 1 then c.staged.take k
  else (List.range k).map fun j => BitVec.ofNat 8 (c.src >>> (8 * ((c.done + j) % 8)))

/-- Write `k` bytes of a beat, with the write hint of R247 for device memory. -/
def Dev.beatWrite (d : Dev) (c : DmaCur) (k : Nat) : Dev :=
  let bs := c.beatBytes k
  let a := c.dstAt c.done
  let d := if c.flag 1 then d.hst (d.dmaPasid c.chan) a bs
    else (d.ioStore (d.localForm a) bs true).sendStash (fieldAt c.desc 2 1 % 16) (lineOf (d.localForm a))
  d.count .DMA_CH_BYTES k c.chan

/-- A transfer ends early, after what it has written. -/
def Dev.dmaCut (d : Dev) (c : DmaCur) (status : Nat) : Dev :=
  if c.done = 0 then d.dmaFinish c status else d.readBack { c with status := status }

/-- One beat of a channel whose pages are there. -/
def Dev.dmaMove (d : Dev) (c : DmaCur) : Dev :=
  let want := c.beat
  let x := (d.cacheRuns (d.dmaPasid c.chan) (c.hostRuns want)).dmaFill c want
  let c := x.2
  let k := if c.op = 1 then min want c.staged.length else want
  let d := if k = 0 then x.1 else x.1.beatWrite c k
  let c := { c with done := c.done + k, staged := c.staged.drop k }
  if k < want then d.dmaCut c 3
  else if c.done = c.len then d.readBack c.ended
  else d.setCur c

/-- A channel has a beat ready: it moves data, and no page it needs is being asked for. -/
def Dev.dmaReady (d : Dev) (c : DmaCur) : Bool :=
  c.st == .moving && d.xlateRuns (d.dmaPasid c.chan) (c.hostRuns c.beat) != .wait

/-- Channels in round-robin order from `first`. -/
def roundFrom (first : Nat) : List Nat := (List.range 32).map fun k => (first + k) % 32

/-- The channel that the next beat serves: highest level, then round-robin. -/
def Dev.dmaPick (d : Dev) : Option (Nat × DmaCur) :=
  [3, 2, 1, 0].findSome? fun l =>
    ((roundFrom (d.dmaRr.getD l 0)).findSome? fun n =>
      (d.dmaCur n).filter fun c => d.dmaLevel n == l && d.dmaReady c).map fun c => (l, c)

/-- Ask for the pages that moving channels wait for. -/
def Dev.dmaAsk (d : Dev) : Dev :=
  d.dmas.foldl (fun d c =>
    if c.st = .moving then d.askRuns (d.dmaPasid c.chan) (.dma c.chan) (c.hostRuns c.beat) else d) d

/-- An internal fault of the engine while it serves a channel (R288, R470). -/
def Dev.dmaFault (d : Dev) (c : DmaCur) : Dev :=
  (d.report { cls := 0x12, pod := some (d.dmaPod c.chan), srcKind := 5, source := c.chan }).dmaCut c 7

/-- DMA_BEAT (R284). -/
def execDmaBeat (fault : Bool) (s : State) : Host.Outcome State Fault Refusal :=
  s.act fun d =>
    let d := d.dmaAsk
    match d.dmaPick with
    | none => d
    | some (l, c) =>
      let d := { d with dmaRr := d.dmaRr.set l ((c.chan + 1) % 32) }
      if fault then d.dmaFault c
      else
        let runs := c.hostRuns c.beat
        if d.xlateRuns (d.dmaPasid c.chan) runs = .fault then
          (d.forgetRuns (d.dmaPasid c.chan) runs).dmaCut c 2
        else d.dmaMove c

/-- DMA_READBACK_DONE (R287). -/
def execDmaReadbackDone (n : Fin 32) (s : State) : Host.Outcome State Fault Refusal :=
  s.act fun d =>
    match d.dmaCur n.val with
    | some c => if c.st = .readback then d.dmaComplete c else d
    | none => d

/-- A reset of the pod stops its channels with no completion (R289, R345). -/
def Dev.resetChan (d : Dev) (n : Nat) : Dev :=
  let d := { d.dropCur n with dmaJobs := d.dmaJobs.filter fun j => j.chan != n }
  (d.setDmaState n 0).put F.DMA_CH_CFG_EN 0 n

end Sys2Proof.Machine
end

