-- ==== Sys2Proof/Machine/Compress.lean ====
section
/-! DEFINITION. The compression engines (R151 to R164): taking a job, decompression and compression
within their guards, contexts, and the stop of a job. What the compressor writes within R153 and R154, and
how far it has read at a given output byte, are free values (log entry 3). -/

namespace Sys2Proof.Machine

/-! ### Job descriptors (R155) -/

/-- A flag of JFLAGS. -/
def jobFlag (b : List Byte) (n : Nat) : Bool := (fieldAt b 3 1).testBit n

/-- OP, FORMAT, LEVEL. -/
def jobOp (b : List Byte) : Nat := fieldAt b 0 1

/-- FORMAT. -/
def jobFmt (b : List Byte) : Nat := fieldAt b 1 1

/-- LEVEL. -/
def jobLevel (b : List Byte) : Nat := fieldAt b 2 1

/-- SRC_ADDR. -/
def jobSrc (b : List Byte) : Nat := fieldAt b 8 8

/-- SRC_LEN. -/
def jobSrcLen (b : List Byte) : Nat := fieldAt b 0x10 8

/-- DST_ADDR. -/
def jobDst (b : List Byte) : Nat := fieldAt b 0x18 8

/-- DST_LEN. -/
def jobDstLen (b : List Byte) : Nat := fieldAt b 0x20 8

/-- CTX_ADDR. -/
def jobCtx (b : List Byte) : Nat := fieldAt b 0x28 8

/-- The descriptor is legal (R155). -/
def Dev.jobValid (d : Dev) (b : List Byte) : Bool :=
  let here := fun host (a : Nat) => if host then a else d.localForm a
  decide (jobOp b ≤ 1) && decide (1 ≤ jobFmt b ∧ jobFmt b ≤ 2) &&
    (if jobOp b = 1 then decide (1 ≤ jobLevel b ∧ jobLevel b ≤ 9) && fieldAt b 4 2 == 0 else jobLevel b == 0) &&
    fieldAt b 3 1 / 32 == 0 && fieldAt b 6 2 == 0 && fieldAt b 0x37 1 == 0 && fieldAt b 0x3E 2 == 0 &&
    decide (1 ≤ jobSrcLen b ∧ jobSrcLen b < (if jobFmt b = 2 then 2 ^ 32 else 2 ^ 48)) &&
    decide (1 ≤ jobDstLen b ∧ jobDstLen b < 2 ^ 48) && jobCtx b % 64 == 0 &&
    !(jobFlag b 0 && jobCtx b == 0) && !(jobFlag b 1 && (jobFmt b == 2 || jobCtx b == 0)) &&
    !(jobFlag b 3 == jobFlag b 4 &&
      meets (here (jobFlag b 3) (jobSrc b), jobSrcLen b) (here (jobFlag b 4) (jobDst b), jobDstLen b))

/-- Its device addresses lie in the pod (R156; log entry 45). -/
def Dev.jobInPod (d : Dev) (p : Nat) (b : List Byte) : Bool :=
  (jobFlag b 3 || d.inPod p (jobSrc b) (jobSrcLen b)) && (jobFlag b 4 || d.inPod p (jobDst b) (jobDstLen b))

/-- Its context area lies in the pod (R155, R156; log entry 45). -/
def Dev.jobCtxInPod (d : Dev) (p : Nat) (b : List Byte) : Bool := jobCtx b == 0 || d.inPod p (jobCtx b) 512

/-- The source bytes. -/
def Dev.jobBytes (d : Dev) (p : Nat) (b : List Byte) : List Byte :=
  if jobFlag b 3 then d.hld (d.get F.POD_PASID_PASID p) (jobSrc b) (jobSrcLen b)
  else d.ld (d.localForm (jobSrc b)) (jobSrcLen b)

/-- A marked line in the source. -/
def Dev.jobPoisoned (d : Dev) (b : List Byte) : Bool :=
  !jobFlag b 3 && d.poisonIn (d.localForm (jobSrc b)) (jobSrcLen b) != .clean

/-! ### Contexts (R160) -/

/-- The context of a job: 512 bytes. `window`: the frame's, or 64 KiB for LZ4. -/
def Dev.contextBytes (d : Dev) (p : Nat) (b : List Byte) (inTotal outTotal window : Nat) (src : List Byte)
    (consumed produced : Nat) : List Byte :=
  let comp := jobOp b = 1
  let hist := if comp then jobSrc b + consumed else jobDst b + produced
  let body := leBytes 4 0x58544350 ++ leBytes 1 (jobOp b) ++ leBytes 1 (jobFmt b) ++ leBytes 1 (jobLevel b) ++
    leBytes 1 p ++ leBytes 8 inTotal ++ leBytes 8 outTotal ++ leBytes 8 hist ++
    leBytes 8 (min window (if comp then inTotal else outTotal)) ++ slice (Config.contextState src) 0 467 ++
    leBytes 1 (d.get F.CTL_DEVICE_ID_STEPPING / 16)
  body ++ leBytes 4 (crc32c body)

/-- A context passes the checks of R160 for a job of pod `p`. -/
def Dev.contextOk (d : Dev) (p : Nat) (b ctx : List Byte) : Bool :=
  fieldAt ctx 0 4 == 0x58544350 && fieldAt ctx 4 1 == jobOp b && fieldAt ctx 5 1 == jobFmt b &&
    fieldAt ctx 6 1 == jobLevel b && fieldAt ctx 7 1 == p && fieldAt ctx 0x1FC 4 == crc32c (ctx.take 508) &&
    fieldAt ctx 0x1FB 1 == d.get F.CTL_DEVICE_ID_STEPPING / 16

/-- What a job knows of its earlier parts: IN_TOTAL, OUT_TOTAL, the source so far, the output of earlier chunks,
whether MORE_INPUT was used, and the history as memory now holds it. -/
structure Part where
  inTotal : Nat
  outTotal : Nat
  src : List Byte
  base : List Byte
  more : Bool
  hist : List Byte

/-- A job with no earlier part. -/
def Part.first : Part := ⟨0, 0, [], [], false, []⟩

/-- The HIST_LEN bytes before HIST_ADDR as they now stand (R161). -/
def Dev.history (d : Dev) (p : Nat) (host : Bool) (ctx : List Byte) : List Byte :=
  let n := fieldAt ctx 0x20 8
  let a := fieldAt ctx 0x18 8 - n
  if host then d.hld (d.get F.POD_PASID_PASID p) a n else d.ld (d.localForm a) n

/-- The earlier parts of a job, or `none` for an invalid context. A compression reads its history from memory, in
place of what it consumed there. The parts that a context of unknown origin stands for are free (log entry 83). -/
def Dev.partOf (d : Dev) (p : Nat) (b : List Byte) : Option Part :=
  if !jobFlag b 0 then some .first
  else
    let ctx := d.ld (d.localForm (jobCtx b)) 512
    if !d.contextOk p b ctx then none
    else match d.contexts.find? fun x => x.bytes == ctx with
      | none => some ⟨fieldAt ctx 8 8, fieldAt ctx 0x10 8, Config.contextHistory (slice ctx 0x28 468), [], true, []⟩
      | some x =>
        let h := d.history p x.host ctx
        let src := if jobOp b = 1 then x.src.take (x.src.length - h.length) ++ h else x.src
        some ⟨fieldAt ctx 8 8, fieldAt ctx 0x10 8, src, x.base, x.more, h⟩

/-! ### The work of a job -/

/-- What a job comes to: STATUS, source bytes consumed, output, whether it is resumable, the window of its history,
and the output of the chunks that a continuation builds on. -/
structure Worked where
  status : Nat
  consumed : Nat
  out : List Byte
  resumable : Bool
  window : Nat
  base : List Byte

/-- Output after a changed history is altered, and no error is reported (R161). -/
def Part.altered (t : Part) (whole : List Byte) : List Byte :=
  let out := whole.drop t.outTotal
  if t.hist = (whole.take t.outTotal).drop (t.outTotal - t.hist.length) then out
  else out.zipIdx.map fun x => Config.alteredByte t.hist x.2

/-- How far into the source a job has read when its output has `room` bytes (log entry 3). -/
def readAt (fmt level : Nat) (t : Part) (src : List Byte) (room : Nat) : Nat :=
  min src.length (Config.compressConsumed fmt level (t.src ++ src) (t.outTotal + room))

/-- A decompression: `t` the earlier parts, `limit` the output limit of R158, `room` DST_LEN (R151,
R152, R156 to R158). -/
def decompressed (fmt : Nat) (more : Bool) (t : Part) (src : List Byte) (limit room : Nat) : Worked :=
  let u := unpackRaw fmt (t.src ++ src) true
  let out := t.altered u.out
  let used := u.consumed - t.src.length
  let cut := min limit room
  if cut < out.length then
    { status := if limit ≤ room then 4 else 1, consumed := readAt fmt 0 t src cut, out := out.take cut,
      resumable := decide (room < limit), window := u.window, base := [] }
  else if u.status = 0 ∨ u.status = zShort then
    { status := if more then 2 else if u.status = 0 then 0 else 5,
      consumed := if more || u.status == 0 then src.length else used, out := out, resumable := more,
      window := u.window, base := [] }
  else { status := u.status, consumed := used, out := out, resumable := false, window := 0, base := [] }

/-- The window of a frame under MORE_INPUT, as a power of two: the level's or a smaller one (log entry 3). -/
def partLog (level : Nat) (src : List Byte) : Nat := 10 + Config.partLog src % (levelLog level - 9)

/-- The output of a compression since its first part (R153): that of the whole source, so that its parts together
are an uninterrupted job's; with MORE_INPUT, the output of the chunks before and what this chunk adds. -/
def Part.whole (t : Part) (fmt level : Nat) (checksum more : Bool) (all : List Byte) : List Byte :=
  if !more && !t.more then packed fmt level checksum all
  else
    t.base ++ (if t.base.isEmpty && fmt == 1 then zHeader checksum (partLog level all) 0 0 else []) ++
      Config.partOutput fmt level checksum more t.base all

/-- A compression (R153, R159): the output since the first part, cut at DST_LEN and at the point where it would not
shrink. `total`: SRC_LEN. -/
def compressed (fmt level : Nat) (checksum more : Bool) (t : Part) (src : List Byte) (total room : Nat) : Worked :=
  let all := t.src ++ src
  let whole := t.whole fmt level checksum more all
  let out := whole.drop t.outTotal
  let total := t.inTotal + total
  let stop := total - t.outTotal - 1
  let window := if fmt = 2 then 65536 else 2 ^ (if more || t.more then partLog level all else frameLog level all.length)
  if total ≤ t.outTotal + out.length ∧ stop ≤ room then
    { status := 3, consumed := readAt fmt level t src stop, out := out.take stop, resumable := false,
      window := window, base := [] }
  else if room < out.length then
    { status := 1, consumed := readAt fmt level t src room, out := out.take room, resumable := true,
      window := window, base := t.base }
  else { status := if more then 2 else 0, consumed := src.length, out := out, resumable := more,
         window := window, base := whole }

/-- The work of a DMA job's descriptor on the source bytes it can reach. Where the rest of the source cannot be
translated, the job works what comes before it and ends with ADDR (R156, R157). -/
def Dev.workJob (d : Dev) (b : List Byte) (t : Part) (src : List Byte) : Worked :=
  let cut := decide (src.length < jobSrcLen b)
  let more := jobFlag b 1 || cut
  let w :=
    if jobOp b = 1 then
      compressed (jobFmt b) (jobLevel b) (jobFlag b 2) more t src (jobSrcLen b) (jobDstLen b)
    else
      let cap := fieldAt b 4 2
      let cap := if cap = 0 then d.get F.CMP_CTRL_RATIO_DEFAULT else cap
      decompressed (jobFmt b) more t src (cap * jobSrcLen b) (jobDstLen b)
  if cut ∧ w.status = 2 then { w with status := 8, resumable := false } else w

/-! ### Engines (R163) -/

/-- The job on an engine. -/
def Dev.engJob (d : Dev) (e : Nat) : Option EngJob := d.engJobs.find? fun x => x.engine == e

/-- Put it back. -/
def Dev.setEng (d : Dev) (x : EngJob) : Dev := { d with engJobs := upsert (fun y => y.engine == x.engine) x d.engJobs }

/-- A job whose pod runs may be taken (R346). -/
def Dev.jobRuns (d : Dev) (j : Job) : Bool := d.podState j.pod == 2

/-- The DMA job taken next: the highest level, oldest first. -/
def Dev.nextDmaJob (d : Dev) : Option Job :=
  let l := d.dmaJobs.filter d.jobRuns
  [3, 2, 1, 0].findSome? fun n => l.find? fun j => j.level == n

/-- Engines that run DMA jobs. -/
def Dev.dmaEngines (d : Dev) : Nat := (d.engJobs.filter fun x => !x.job.stageJob).length

/-- A job is put on an engine. -/
def Dev.startJob (d : Dev) (e : Nat) (j : Job) : Dev :=
  let x : EngJob := { engine := e, job := j, finished := false, status := 0, consumed := 0, output := [], ctx := none }
  let d := { d with engJobs := d.engJobs ++ [x] }
  ((d.put F.CMP_ENG_STATUS_BUSY 1 e).put F.CMP_ENG_STATUS_DMA (!j.stageJob).toNat e).put F.CMP_ENG_STATUS_POD j.pod e

/-- ENGINE_TAKE_JOB (R163). -/
def execEngineTakeJob (e : Fin 8) (s : State) : Host.Outcome State Fault Refusal :=
  s.act fun d =>
    if (d.engJob e.val).isSome || !d.engineOn e.val then d
    else match d.stageJobs.find? d.jobRuns with
      | some j => { d with stageJobs := d.stageJobs.erase j }.startJob e.val j
      | none =>
        if d.get F.CMP_CTRL_DMA_MAX ≤ d.dmaEngines then d
        else match d.nextDmaJob with
          | some j => { d with dmaJobs := d.dmaJobs.erase j }.startJob e.val j
          | none => d

/-- A job has been worked. -/
def Dev.jobWorked (d : Dev) (x : EngJob) (w : Worked) : Dev :=
  d.setEng { x with finished := true, status := w.status, consumed := w.consumed, output := w.out }

/-- The job's OP and counts when nothing was done. -/
def nothing (status : Nat) : Worked := ⟨status, 0, [], false, 0, []⟩

/-- An internal fault of an engine: the job stops and the engine is fenced (R163, R470). -/
def Dev.engineFault (d : Dev) (x : EngJob) (injected : Bool) : Dev :=
  let d := d.report
    { cls := 0x12, pod := some x.job.pod, srcKind := 4, source := x.engine, fence := true, injected := injected }
  (d.put F.CMP_ENG_STATUS_FENCED 1 x.engine).jobWorked x (nothing 0x0B)

/-- Write the output of a DMA job. -/
def Dev.jobWrite (d : Dev) (p : Nat) (b out : List Byte) : Dev :=
  if out.isEmpty then d
  else if jobFlag b 4 then
    (d.cacheXlate (d.get F.POD_PASID_PASID p) (jobDst b) out.length).hst (d.get F.POD_PASID_PASID p) (jobDst b) out
  else d.ioStore (d.localForm (jobDst b)) out

/-- The bytes of a host range before the first page whose translation failed. -/
def Dev.okBytes (d : Dev) (pasid a n : Nat) : Nat :=
  if !d.host.up then 0
  else match (pagesOf a n).find? fun g => d.host.failed.contains (pasid, g) with
    | some g => g * 4096 - a
    | none => n

/-- The context that a resumable stop leaves (R160). -/
def Dev.jobContext (d : Dev) (p : Nat) (b : List Byte) (t : Part) (src : List Byte) (w : Worked) : Option JobCtx :=
  if w.resumable && jobCtx b != 0 then
    let all := t.src ++ src.take w.consumed
    some {
      bytes := d.contextBytes p b (t.inTotal + w.consumed) (t.outTotal + w.out.length) w.window all w.consumed
        w.out.length
      src := all, base := w.base, more := t.more || jobFlag b 1, host := jobFlag b (if jobOp b = 1 then 3 else 4) }
  else none

/-- Work a legal DMA job on the first `have_` bytes of its source. Output before a page that faults stays and is
counted (R157). -/
def Dev.runJob (d : Dev) (x : EngJob) (b : List Byte) (t : Part) (have_ : Nat) : Dev :=
  let p := x.job.pod
  let d := if jobFlag b 3 then d.cacheXlate (d.get F.POD_PASID_PASID p) (jobSrc b) have_
    else d.ioRead (d.localForm (jobSrc b)) (jobSrcLen b)
  if d.jobPoisoned b then
    let (v, d) := d.takeFree
    d.jobWorked x (nothing (0x100 + v.toNat % 12))
  else
    let src := (d.jobBytes p b).take have_
    let w := if src.isEmpty then nothing 8 else d.workJob b t src
    let pasid := d.get F.POD_PASID_PASID p
    let reach := if jobFlag b 4 && !w.out.isEmpty then d.xlate pasid (jobDst b) w.out.length else .ok
    match reach with
    | .wait => d.askPage pasid (jobDst b) w.out.length (.job x.engine)
    | .fault =>
      let n := d.okBytes pasid (jobDst b) w.out.length
      let out := w.out.take n
      ((d.forgetFault pasid (jobDst b) w.out.length).jobWrite p b out).jobWorked x
        { nothing 8 with consumed := readAt (jobFmt b) (jobLevel b) t src n, out := out }
    | .ok => (d.jobWrite p b w.out).jobWorked { x with ctx := d.jobContext p b t src w } w

/-- Work a DMA job: its descriptor, its context before anything of its source (R160), its addresses, then its
bytes. -/
def Dev.workDma (d : Dev) (x : EngJob) : Dev :=
  let d := d.ioRead (d.localForm x.job.addr) 64
  let b := d.ld (d.localForm x.job.addr) 64
  let p := x.job.pod
  let pasid := d.get F.POD_PASID_PASID p
  if !d.jobValid b then d.jobWorked x (nothing 9)
  else if !d.jobCtxInPod p b then d.jobWorked x (nothing 8)
  else match d.partOf p b with
    | none => d.jobWorked x (nothing 0x0A)
    | some t =>
      if !d.jobInPod p b then d.jobWorked x (nothing 8)
      else
        match if jobFlag b 3 then d.xlate pasid (jobSrc b) (jobSrcLen b) else .ok with
        | .wait => d.askPage pasid (jobSrc b) (jobSrcLen b) (.job x.engine)
        | .fault =>
          (d.forgetFault pasid (jobSrc b) (jobSrcLen b)).runJob x b t (d.okBytes pasid (jobSrc b) (jobSrcLen b))
        | .ok => d.runJob x b t (jobSrcLen b)

/-- Work a stage job (R162). -/
def Dev.workStage (d : Dev) (x : EngJob) : Dev :=
  let j := x.job
  if j.op = 1 then d.jobWorked x (compressed j.fmt j.level false false .first j.src j.src.length j.limit)
  else
    let u := unpack j.fmt j.src false
    d.jobWorked x
      (if j.limit < u.out.length then { nothing 4 with consumed := u.consumed, out := u.out.take j.limit }
       else { nothing u.status with consumed := u.consumed, out := u.out })

/-- OP of the job on an engine; a descriptor with another OP counts as a decompression (log entry 45). -/
def Dev.engOp (d : Dev) (x : EngJob) : Nat :=
  if x.job.stageJob then x.job.op
  else if jobOp (d.ld (d.localForm x.job.addr) 64) = 1 then 1 else 0

/-- An engine works its job. -/
def Dev.work (d : Dev) (e op : Nat) (fault : Bool) : Dev :=
  match d.engJob e with
  | none => d
  | some x =>
    if x.finished || d.engOp x != op then d
    else
      let injected := d.armed 9 e
      if fault || injected then (d.fireIf injected).engineFault x injected
      else if x.job.stageJob then d.workStage x
      else d.workDma x

/-- DECOMPRESS (R151, R152, R158). -/
def execDecompress (e : Fin 8) (fault : Bool) (s : State) : Host.Outcome State Fault Refusal :=
  s.act fun d => d.work e.val 0 fault

/-- COMPRESS (R153, R159). -/
def execCompress (e : Fin 8) (fault : Bool) (s : State) : Host.Outcome State Fault Refusal :=
  s.act fun d => d.work e.val 1 fault

/-- STATUS of a job as its requester sees it; a marked source has no code of its own (log entry 45). -/
def EngJob.code (x : EngJob) : Nat := x.status % 256

/-- The context and the result fields of a DMA job, and its descriptor's outcome (R157, R160, R287). -/
def Dev.stopDmaJob (d : Dev) (x : EngJob) : Dev :=
  let b := d.ld (d.localForm x.job.addr) 64
  let d := match x.ctx with
    | none => d
    | some c =>
      { d.ioStore (d.localForm (jobCtx b)) c.bytes with
        contexts := c :: d.contexts.filter fun y => y.bytes != c.bytes }
  let res := leBytes 6 x.consumed ++ leBytes 1 x.code ++ leBytes 1 0 ++ leBytes 6 x.output.length ++ leBytes 2 0
  let d := d.ioStore (d.localForm x.job.addr + 0x30) res
  match d.dmaCur x.job.chan with
  | none => d
  | some c =>
    let st := if 0x100 ≤ x.status then 3 else if x.status = 0 then 0 else 5
    let c := { c with status := st, detail := x.code, done := x.output.length, st := .readback }
    if x.output.isEmpty then (d.setCur c).dmaComplete c
    else (if jobFlag b 4 then d else d.ioRead (lineOf (d.localForm (jobDst b + x.output.length - 1))) 64).setCur c

/-- The outcome of a stage job waits for its stage (R162). -/
def Dev.stopStageJob (d : Dev) (x : EngJob) : Dev :=
  let j := x.job
  if 64 ≤ j.tile then d
  else
    let r : JobResult :=
      { tile := j.tile, slot := j.slot, stage := j.stage, col := j.col, addr := j.addr, status := x.status,
        output := x.output }
    { d with jobResults := d.jobResults ++ [r] }

/-- The engine is free again, and its registers count the job (R164). -/
def Dev.freeEngine (d : Dev) (x : EngJob) : Dev :=
  let e := x.engine
  let d := { d with engJobs := d.engJobs.filter fun y => y.engine != e }
  let d := ((d.put F.CMP_ENG_STATUS_BUSY 0 e).put F.CMP_ENG_STATUS_DMA 0 e).put F.CMP_ENG_STATUS_LAST (x.code % 16) e
  let d := (d.count .CMP_ENG_IN x.consumed e).count .CMP_ENG_OUT x.output.length e
  if x.status = 3 then d.count .CMP_ENG_NOSHRINK 1 e else d

/-- JOB_STOP (R157). -/
def execJobStop (e : Fin 8) (s : State) : Host.Outcome State Fault Refusal :=
  s.act fun d =>
    match d.engJob e.val with
    | none => d
    | some x =>
      if !x.finished then d
      else
        let d := d.freeEngine x
        if x.job.stageJob then d.stopStageJob x else d.stopDmaJob x

end Sys2Proof.Machine
end

