-- ==== Sys2Proof/Machine/ControlCode.lean ====
section
/-! DEFINITION. Control-class instructions: their formats, encodings and legality (R385, R386). -/

namespace Sys2Proof.Machine

/-- A control-class instruction with its operands (R386). The scheduler and lock operations carry
only the register fields they use. -/
inductive CIns where
  | alu (fn : Fin 16) (rd ra rb : BitVec 5)
  | addi (rd ra : BitVec 5) (imm : BitVec 16)
  | logic (k : Fin 3) (rd ra : BitVec 5) (imm : BitVec 16)
  | shi (k : Fin 3) (rd ra : BitVec 5) (amount : BitVec 6)
  | mov (keep : Bool) (rd : BitVec 5) (sh : BitVec 2) (imm : BitVec 16)
  | load (k : Fin 7) (rd ra : BitVec 5) (imm : BitVec 16)
  | store (k : Fin 4) (rd ra : BitVec 5) (imm : BitVec 16)
  | atom (k : Fin 5) (rd ra rb : BitVec 5)
  | fence
  | branch (k : Fin 6) (ra rb : BitVec 5) (off : BitVec 16)
  | jal (off : BitVec 26)
  | jalr (rd ra : BitVec 5) (imm : BitVec 16)
  | exit
  | yieldcpu
  | sleep (ra : BitVec 5)
  | wait (rd ra : BitVec 5)
  | post (rd ra rb : BitVec 5)
  | spawn (rd ra rb : BitVec 5)
  | setpri (rd ra : BitVec 5)
  | self (rd : BitVec 5)
  | now (rd : BitVec 5)
  | lockOp (k : Fin 4) (rd ra : BitVec 5)
  | krd (rd ra rb : BitVec 5)
  | kwr (rd ra rb : BitVec 5)
  | resume
  | csr (write : Bool) (rd : BitVec 5) (imm : BitVec 16)
  deriving DecidableEq, Repr

/-- A word from its OPC, three register fields and low 16 bits. Formats R, I and B place their
third part in bits [15:0]: RB and FN, IMM, or OFF (R385). -/
def cword (opc : Nat) (x y : BitVec 5) (low : BitVec 16) : BitVec 32 :=
  BitVec.ofNat 6 opc ++ x ++ y ++ low

/-- Bits [15:0] of an R-format word. -/
def rlow (rb : BitVec 5) (fn : Nat) : BitVec 16 := rb ++ BitVec.ofNat 11 fn

/-- The encoding of an instruction (R385, R386). -/
def CIns.encode : CIns → BitVec 32
  | .alu fn rd ra rb => cword 0x00 rd ra (rlow rb fn.val)
  | .addi rd ra imm => cword 0x01 rd ra imm
  | .logic k rd ra imm => cword (0x02 + k.val) rd ra imm
  | .shi k rd ra n => cword 0x05 rd ra (0#8 ++ BitVec.ofNat 2 k.val ++ n)
  | .mov keep rd sh imm => cword (if keep then 0x07 else 0x06) rd (0#3 ++ sh) imm
  | .load k rd ra imm => cword (0x08 + k.val) rd ra imm
  | .store k rd ra imm => cword (0x10 + k.val) rd ra imm
  | .atom k rd ra rb => cword 0x14 rd ra (rlow rb k.val)
  | .fence => cword 0x15 0 0 0
  | .branch k ra rb off => cword (0x18 + k.val) ra rb off
  | .jal off => BitVec.ofNat 6 0x1E ++ off
  | .jalr rd ra imm => cword 0x1F rd ra imm
  | .exit => cword 0x20 0 0 (rlow 0 0)
  | .yieldcpu => cword 0x20 0 0 (rlow 0 1)
  | .sleep ra => cword 0x20 0 ra (rlow 0 2)
  | .wait rd ra => cword 0x20 rd ra (rlow 0 3)
  | .post rd ra rb => cword 0x20 rd ra (rlow rb 4)
  | .spawn rd ra rb => cword 0x20 rd ra (rlow rb 5)
  | .setpri rd ra => cword 0x20 rd ra (rlow 0 6)
  | .self rd => cword 0x20 rd 0 (rlow 0 7)
  | .now rd => cword 0x20 rd 0 (rlow 0 8)
  | .lockOp k rd ra => cword 0x21 rd ra (rlow 0 k.val)
  | .krd rd ra rb => cword 0x22 rd ra (rlow rb 0)
  | .kwr rd ra rb => cword 0x22 rd ra (rlow rb 1)
  | .resume => cword 0x22 0 0 (rlow 0 2)
  | .csr w rd imm => cword (if w then 0x31 else 0x30) rd 0 imm

/-- A number below `n`, or none. -/
def finOf (n v : Nat) : Option (Fin n) := if h : v < n then some ⟨v, h⟩ else none

/-- The scheduler operation of an R-format word (R394). -/
def schedOf (fn : Nat) (rd ra rb : BitVec 5) : Option CIns :=
  match fn with
  | 0 => if rd = 0 ∧ ra = 0 ∧ rb = 0 then some .exit else none
  | 1 => if rd = 0 ∧ ra = 0 ∧ rb = 0 then some .yieldcpu else none
  | 2 => if rd = 0 ∧ rb = 0 then some (.sleep ra) else none
  | 3 => if rb = 0 then some (.wait rd ra) else none
  | 4 => some (.post rd ra rb)
  | 5 => some (.spawn rd ra rb)
  | 6 => if rb = 0 then some (.setpri rd ra) else none
  | 7 => if ra = 0 ∧ rb = 0 then some (.self rd) else none
  | 8 => if ra = 0 ∧ rb = 0 then some (.now rd) else none
  | _ => none

/-- The stage operation of an R-format word (R391). -/
def stageOf (fn : Nat) (rd ra rb : BitVec 5) : Option CIns :=
  match fn with
  | 0 => some (.krd rd ra rb)
  | 1 => some (.kwr rd ra rb)
  | 2 => if rd = 0 ∧ ra = 0 ∧ rb = 0 then some .resume else none
  | _ => none

/-- The instruction a word spells, or none: an OPC or FN outside the table, or an unused field that
is not zero, is illegal (R386). -/
def CIns.decode (w : BitVec 32) : Option CIns :=
  let opc := (w.extractLsb' 26 6).toNat
  let x := w.extractLsb' 21 5
  let y := w.extractLsb' 16 5
  let z := w.extractLsb' 11 5
  let fn := (w.extractLsb' 0 11).toNat
  let imm := w.extractLsb' 0 16
  if opc = 0x00 then (finOf 16 fn).map fun k => .alu k x y z
  else if opc = 0x01 then some (.addi x y imm)
  else if opc ≤ 0x04 then (finOf 3 (opc - 2)).map fun k => .logic k x y imm
  else if opc = 0x05 then
    (if w.extractLsb' 8 8 = 0 then (finOf 3 (w.extractLsb' 6 2).toNat).map fun k => .shi k x y (w.extractLsb' 0 6)
    else none)
  else if opc ≤ 0x07 then
    (if w.extractLsb' 18 3 = 0 then some (.mov (opc == 7) x (w.extractLsb' 16 2) imm) else none)
  else if opc ≤ 0x0E then (finOf 7 (opc - 8)).map fun k => .load k x y imm
  else if opc = 0x0F then none
  else if opc ≤ 0x13 then (finOf 4 (opc - 0x10)).map fun k => .store k x y imm
  else if opc = 0x14 then (finOf 5 fn).map fun k => .atom k x y z
  else if opc = 0x15 then (if w.extractLsb' 0 26 = 0 then some .fence else none)
  else if opc ≤ 0x17 then none
  else if opc ≤ 0x1D then (finOf 6 (opc - 0x18)).map fun k => .branch k x y imm
  else if opc = 0x1E then some (.jal (w.extractLsb' 0 26))
  else if opc = 0x1F then some (.jalr x y imm)
  else if opc = 0x20 then schedOf fn x y z
  else if opc = 0x21 then (if z = 0 then (finOf 4 fn).map fun k => .lockOp k x y else none)
  else if opc = 0x22 then stageOf fn x y z
  else if opc = 0x30 ∨ opc = 0x31 then (if y = 0 then some (.csr (opc == 0x31) x imm) else none)
  else none

/-- A branch offset in instructions. -/
def CIns.target : CIns → Option Int
  | .branch _ _ _ off => some off.toInt
  | .jal off => some off.toInt
  | _ => none

/-- Word `i` of a section of `n` words is legal for pod code: it decodes, is no CSRR or CSRW, and
its branch or JAL target lies inside (R389). -/
def wordLegal (n i : Nat) (w : BitVec 32) : Bool :=
  match CIns.decode w with
  | none => false
  | some (.csr _ _ _) => false
  | some c =>
    match c.target with
    | none => true
    | some o => decide (0 ≤ (i : Int) + o ∧ (i : Int) + o < n)

/-- Every word of a control-code section is legal (R389). -/
def codeLegal (ws : List (BitVec 32)) : Bool := ws.zipIdx.all fun x => wordLegal ws.length x.2 x.1

end Sys2Proof.Machine
end

