-- ==== Sys2Proof/Machine/Sched.lean ====
section
/-! DEFINITION. The hardware scheduler: threads in slots, ready lists, dispatch, prefetch and
preemption (R394 to R398), hardware locks (R399 to R401), the end of a thread and thread faults
(R392), and the hold of a pod's threads (R402). A transfer between a core and its prefetched
thread takes no time here (R396's clocks are timing). -/

namespace Sys2Proof.Machine

/-! ### Threads -/

/-- The thread in a slot. -/
def Dev.thread (d : Dev) (slot : Nat) : Option Thread := d.threads.find? fun t => t.slot == slot

/-- Change the thread in a slot. -/
def Dev.onThread (d : Dev) (slot : Nat) (f : Thread → Thread) : Dev :=
  { d with threads := mapIf (fun t => t.slot == slot) f d.threads }

/-- The threads of the same run; the executive's threads are one group (R390, R394). -/
def Thread.kin (t u : Thread) : Bool :=
  if t.priv then u.priv else !u.priv && u.ring == t.ring && u.index == t.index

/-- A pod's threads are dispatched while it is ACTIVE (R402); the executive's always. -/
def Dev.dispatchable (d : Dev) (t : Thread) : Bool := t.priv || d.podState t.pod == 2

/-- Ready threads that may be dispatched, in list order. -/
def Dev.readyThreads (d : Dev) : List Thread :=
  (d.ready.filterMap d.thread).filter d.dispatchable

/-- The thread of highest priority, the first of its list among equals. -/
def bestThread : List Thread → Option Thread
  | [] => none
  | t :: ts => match bestThread ts with
    | none => some t
    | some u => if u.prio < t.prio then some u else some t

/-- A thread goes to the tail of its ready list. -/
def Dev.makeReady (d : Dev) (slot : Nat) : Dev :=
  let d := d.onThread slot fun t => { t with st := .ready, lockwait := 0 }
  { d with ready := d.ready.filter (· != slot) ++ [slot] }

/-- A thread goes to the head of its ready list. -/
def Dev.readyFirst (d : Dev) (slot : Nat) : Dev :=
  let d := d.onThread slot fun t => { t with st := .ready }
  { d with ready := slot :: d.ready.filter (· != slot) }

/-- Change a core. -/
def Dev.onCore (d : Dev) (n : Nat) (f : Core → Core) : Dev :=
  { d with cores := d.cores.zipIdx.map fun x => if x.2 = n then f x.1 else x.1 }

/-- A core. -/
def Dev.core (d : Dev) (n : Nat) : Core := d.cores.getD n Core.reset

/-- Some control core is live (R384). -/
def Dev.coreLeft (d : Dev) : Bool := (List.range 8).any fun n => !(d.core n).fenced

/-- A core runs a thread. -/
def Dev.runOn (d : Dev) (n slot : Nat) : Dev :=
  let cores := mapIf (fun (c : Core) => c.next == some slot) (fun c => { c with next := none }) d.cores
  let d := { d with ready := d.ready.filter (· != slot), cores := cores }
  (d.onCore n fun c => { c with cur := some slot }).onThread slot fun t => { t with st := .running }

/-- The lowest core that is neither fenced nor busy. -/
def Dev.idleCore (d : Dev) : Option Nat :=
  (List.range 8).find? fun n => !(d.core n).fenced && (d.core n).cur.isNone

/-- The prefetched thread of a core, when it may be dispatched. -/
def Dev.prefetched (d : Dev) (n : Nat) : Option Thread :=
  ((d.core n).next.bind d.thread).filter d.dispatchable

/-- The running thread of lowest priority, on the highest-numbered core among equals (R396). -/
def Dev.weakest (d : Dev) : Option (Nat × Thread) :=
  (List.range 8).foldl (fun acc n =>
    match if (d.core n).fenced then none else (d.core n).cur.bind d.thread, acc with
    | some t, some (m, u) => if u.prio ≤ t.prio then some (n, t) else some (m, u)
    | some t, none => some (n, t)
    | none, _ => acc) none

/-- One dispatch: an idle core switches to its prefetched thread, or takes the best ready one; a
better ready thread preempts the weakest running one (R396; log entry 31). -/
def Dev.dispatchOne (d : Dev) : Option Dev :=
  match d.idleCore with
  | some n =>
    (match d.prefetched n with
    | some t => some (d.runOn n t.slot)
    | none => (bestThread d.readyThreads).map fun t => d.runOn n t.slot)
  | none =>
    match bestThread d.readyThreads, d.weakest with
    | some t, some (n, u) =>
      if t.prio < u.prio then
        some (((d.onCore n fun c => { c with cur := none }).readyFirst u.slot).runOn n t.slot)
      else none
    | _, _ => none

/-- Dispatch until nothing changes. -/
def Dev.dispatch (d : Dev) : Nat → Dev
  | 0 => d
  | fuel + 1 =>
    match d.dispatchOne with
    | some e => e.dispatch fuel
    | none => d

/-- A core's local slot holds the best ready thread that no other core holds (R396). -/
def Dev.prefetchCore (d : Dev) (n : Nat) : Dev :=
  if (d.core n).fenced then d else
  let held := (List.range 8).filterMap fun m => if m = n then none else (d.core m).next
  match bestThread (d.readyThreads.filter fun t => !held.contains t.slot) with
  | some t => (d.onCore n fun c => { c with next := some t.slot }).onThread t.slot fun t => { t with st := .next }
  | none => d

/-- Take back every prefetched thread. -/
def Dev.unprefetch (d : Dev) : Dev :=
  let threads := mapIf (fun (t : Thread) => t.st == .next) (fun t => { t with st := .ready }) d.threads
  { d with cores := d.cores.map fun c => { c with next := none }, threads := threads }

/-- The scheduler at rest: every dispatch made and every local slot filled. -/
def Dev.schedule (d : Dev) : Dev :=
  let d := d.dispatch (d.ready.length + 9)
  (List.range 8).foldl Dev.prefetchCore d.unprefetch

/-! ### Registers of a thread -/

/-- A general register: G0 reads zero (R385). -/
def Thread.reg (t : Thread) (n : Nat) : Nat := if n = 0 then 0 else (t.g.getD n 0).toNat

/-- Write a general register: G0 ignores writes (R385). -/
def Thread.setReg (t : Thread) (n v : Nat) : Thread :=
  if n = 0 then t else { t with g := t.g.set n (BitVec.ofNat 64 v) }

/-! ### Spawning (R390, R398) -/

/-- A new thread, before it has a slot and a number. -/
structure NewThread where
  pod : Nat
  priv : Bool
  ring : Nat
  index : Nat
  pipe : Nat
  inst : Nat
  stage : Nat
  prio : Nat
  pc : Nat
  g : List (Nat × Nat)

/-- The slots of the thread's kind (R394). -/
def slotRange (priv : Bool) : List Nat :=
  if priv then List.range 64 else (List.range 960).map fun n => n + 64

/-- The lowest free slot within POD_MAX (R394, R398). -/
def Dev.freeThreadSlot (d : Dev) (pod : Nat) (priv : Bool) : Option Nat :=
  if !priv && decide (d.get F.CTL_SCHED_CFG_POD_MAX ≤
      (d.threads.filter fun t => !t.priv && t.pod == pod).length) then none
  else (slotRange priv).find? fun s => (d.thread s).isNone

/-- The lowest thread number that no live thread of the run holds (R390). -/
def Dev.freeNumber (d : Dev) (t : Thread) : Nat :=
  ((List.range 1024).find? fun n => !d.threads.any fun u => t.kin u && u.number == n).getD 0

/-- Put a new thread in the lowest free slot: its number, or none when no slot is free. -/
def Dev.spawn (d : Dev) (x : NewThread) : Option (Nat × Dev) :=
  (d.freeThreadSlot x.pod x.priv).map fun s =>
    let t : Thread :=
      { slot := s, number := 0, pod := x.pod, priv := x.priv, ring := x.ring, index := x.index,
        pipe := x.pipe, inst := x.inst, stage := x.stage, prio := x.prio, st := .ready, pc := x.pc,
        g := List.replicate 32 0, event := 0, dest := 0, mask := 0, expiry := 0, lockwait := 0 }
    let t := x.g.foldl (fun (t : Thread) r => t.setReg r.1 r.2) { t with number := d.freeNumber t }
    (t.number, { d with threads := d.threads ++ [t] }.makeReady s)

/-- A back-pressure event (R398). -/
def Dev.countStall (d : Dev) : Dev := d.count .CTL_SCHED_STALL 1

/-- What a SPAWN of a thread asks for: entry word and G1. -/
def Thread.child (t : Thread) (entry g1 : Nat) : NewThread :=
  { pod := t.pod, priv := t.priv, ring := t.ring, index := t.index, pipe := t.pipe, inst := t.inst,
    stage := t.stage, prio := t.prio, pc := 4 * entry, g := [(1, g1)] }

/-- A stalled SPAWN tries again: its entry and G1 wait in `mask` and `expiry`. -/
def Dev.retrySpawn (d : Dev) (slot : Nat) : Dev :=
  match d.thread slot with
  | none => d
  | some t =>
    if t.st ≠ .stalled then d else
    match d.spawn (t.child t.mask.toNat t.expiry) with
    | none => d
    | some (n, d) => (d.onThread slot fun t => t.setReg t.dest n).makeReady slot

/-- A slot became free: stalled threads try again in slot order (R398). -/
def Dev.retrySpawns (d : Dev) : Dev := (List.range 1024).foldl Dev.retrySpawn d

/-! ### Hardware locks (R399 to R401) -/

/-- A lock that is held, poisoned or bound. -/
def Dev.lock (d : Dev) (id : Nat) : Option HLock := d.locks.find? fun l => l.id == id

/-- An idle lock. -/
def HLock.idle (id : Nat) : HLock :=
  { id := id, held := false, poison := false, bound := false, pod := 0, ring := 0, index := 0,
    local_ := 0, owner := 0, waiters := [] }

/-- Put a lock back; an idle one is not listed. -/
def Dev.setLock (d : Dev) (l : HLock) : Dev :=
  if l.held || l.poison || l.bound || !l.waiters.isEmpty then
    { d with locks := upsert (fun x => x.id == l.id) l d.locks }
  else { d with locks := d.locks.filter fun x => x.id != l.id }

/-- The pool lock a run's local number is bound to. -/
def Dev.boundLock (d : Dev) (t : Thread) (n : Nat) : Option HLock :=
  d.locks.find? fun l => l.bound && l.ring == t.ring && l.index == t.index && l.local_ == n

/-- Bind a local number to the lowest free pool lock (R401). -/
def Dev.bindLock (d : Dev) (t : Thread) (n : Nat) : Option (HLock × Dev) :=
  match d.boundLock t n with
  | some l => some (l, d)
  | none =>
    (((List.range 224).map fun n => n + 32).find? fun id => (d.lock id).isNone).map fun id =>
      let l := { HLock.idle id with bound := true, pod := t.pod, ring := t.ring, index := t.index, local_ := n }
      (l, d.setLock l)

/-- Give a free lock to a thread: the status its RD receives. -/
def Dev.grantLock (d : Dev) (l : HLock) (slot : Nat) : Dev :=
  d.setLock { l with held := true, owner := slot, waiters := l.waiters.filter (· != slot) }

/-- 0 OK, 1 POISONED. -/
def HLock.status (l : HLock) : Nat := l.poison.toNat

/-- The waiter served next: highest priority, then first come (R399). -/
def Dev.nextWaiter (d : Dev) (ws : List Nat) : Option Thread := bestThread (ws.filterMap d.thread)

/-- A thread waits for a lock. -/
def Dev.blockOn (d : Dev) (l : HLock) (slot dest : Nat) : Dev :=
  (d.setLock { l with waiters := l.waiters ++ [slot] }).onThread slot fun t =>
    { t with st := .blocked, lockwait := l.id, dest := dest }

/-- The number in `lockwait` of a thread that waits for a pool lock to become free; `mask` is its
local number. -/
def poolWait : Nat := 256

/-- A thread acquires local or hardware lock `l`, or waits for it. -/
def Dev.acquire (d : Dev) (l : HLock) (slot dest : Nat) : Dev :=
  if l.held then d.blockOn l slot dest
  else ((d.grantLock l slot).onThread slot fun t => t.setReg dest l.status).makeReady slot

/-- A pool lock became free: its next waiter in turn (R401). -/
def Dev.servePool (d : Dev) : Nat → Dev
  | 0 => d
  | fuel + 1 =>
    match bestThread (d.threads.filter fun t => t.st == .blocked && t.lockwait == poolWait) with
    | none => d
    | some t =>
      match d.bindLock t t.mask.toNat with
      | none => d
      | some (l, d) => (d.acquire l t.slot t.dest).servePool fuel

/-- A lock is released, with poison or as it is: its next waiter receives it, or its binding is
dropped (R399 to R401). -/
def Dev.releaseLock (d : Dev) (id : Nat) (poison : Bool) : Dev :=
  match d.lock id with
  | none => d
  | some l =>
    let l := { l with held := false, owner := 0, poison := l.poison || poison }
    match d.nextWaiter l.waiters with
    | some t => (((d.setLock l).grantLock l t.slot).onThread t.slot fun u => u.setReg u.dest l.status).makeReady t.slot
    | none =>
      if l.poison then d.setLock { l with waiters := [] }
      else (d.setLock (HLock.idle id)).servePool (d.threads.length + 1)

/-- The locks a thread holds. -/
def Dev.locksOf (d : Dev) (slot : Nat) : List Nat :=
  (d.locks.filter fun l => l.held && l.owner == slot).map fun l => l.id

/-! ### The end of a thread -/

/-- A thread leaves its slot; its locks are released, with poison when it is fenced (R394, R400). -/
def Dev.endThread (d : Dev) (slot : Nat) (poison : Bool) : Dev :=
  let ids := d.locksOf slot
  let leave := fun (o : Option Nat) => o.filter (· != slot)
  let cores := d.cores.map fun c => { c with cur := leave c.cur, next := leave c.next }
  let locks := d.locks.map fun l => { l with waiters := l.waiters.filter (· != slot) }
  let threads := d.threads.filter fun t => t.slot != slot
  let d := { d with threads := threads, ready := d.ready.filter (· != slot), cores := cores, locks := locks }
  (ids.foldl (fun d id => d.releaseLock id poison) d).retrySpawns

/-- The tile of a thread's instance, 0xFF when it is gone. -/
def Dev.tileOfThread (d : Dev) (t : Thread) : Nat :=
  ((d.insts.find? fun i => i.ring == t.ring && i.index == t.index && i.pipe == t.pipe &&
    i.number == t.inst).map fun i => i.tile).getD 0xFF

/-- A thread fault (R392): the thread ends, its locks are poisoned and its run fails at the YIELD
stage of its ancestry. An executive thread has no run to fail. -/
def Dev.threadFault (d : Dev) (t : Thread) (f : Fail) : Dev :=
  let tile := d.tileOfThread t
  let d := d.endThread t.slot true
  let d := if t.priv then d
    else d.failRun t.ring t.index f { tile := tile, pipe := t.pipe, stage := t.stage }
  d.schedule

/-- The end of a run (R393): every thread of it ends, and its locks are unbound. -/
def Dev.endThreads (d : Dev) (ring index : Nat) : Dev :=
  let mine := (d.threads.filter fun t => !t.priv && t.ring == ring && t.index == index).map fun t => t.slot
  let d := mine.foldl (fun d s => d.endThread s false) d
  let ids := (d.locks.filter fun l => l.bound && l.ring == ring && l.index == index).map fun l => l.id
  let d := ids.foldl (fun d id => d.setLock (HLock.idle id)) d
  ((d.servePool (d.threads.length + 1)).retrySpawns).schedule

/-- A pod reset ends the pod's threads and poisons nothing that outlives them: its bindings go with
its runs (R345, R400). -/
def Dev.endPodThreads (d : Dev) (p : Nat) : Dev :=
  let mine := (d.threads.filter fun t => !t.priv && t.pod == p).map fun t => t.slot
  let d := mine.foldl (fun d s => d.endThread s true) d
  let ids := (d.locks.filter fun l => l.bound && l.pod == p).map fun l => l.id
  let d := ids.foldl (fun d id => d.setLock (HLock.idle id)) d
  ((d.servePool (d.threads.length + 1)).retrySpawns).schedule

/-- A running thread of the pod stops at its next instruction boundary and returns to the head of
its ready list (R402). -/
def Dev.haltPodThreads (d : Dev) (p : Nat) : Dev :=
  let d := (List.range 8).foldl (fun d n =>
    match (d.core n).cur.bind d.thread with
    | some t => if !t.priv && t.pod == p then (d.onCore n fun c => { c with cur := none }).readyFirst t.slot else d
    | none => d) d
  d.schedule

end Sys2Proof.Machine
end

