-- ==== Sys2Proof/Machine/Control.lean ====
section
/-! DEFINITION. Control-class instructions on a core (R385 to R391, R394, R399): fetch, arithmetic,
memory, branches, scheduler operations, locks and stage operations; the tick and the time slice
(R396, R397). A pod thread executes the word at its PC, a byte offset into the control-code section
(log entry 34); an executive thread executes the instruction the command carries. -/

namespace Sys2Proof.Machine

/-! ### Registers and the PC -/

/-- Signed value of a 64-bit number. -/
def s64 (v : Nat) : Int := toSigned 64 v

/-- The thread goes to another PC. -/
def Thread.goTo (t : Thread) (pc : Nat) : Thread := { t with pc := pc % 2 ^ 64 }

/-- The thread goes on to its next instruction. -/
def Thread.step (t : Thread) : Thread := t.goTo (t.pc + 4)

/-- Write RD and go on. -/
def Thread.put (t : Thread) (rd : BitVec 5) (v : Nat) : Thread := (t.setReg rd.toNat v).step

/-- An IMM, sign-extended, added to a register. -/
def Thread.addr (t : Thread) (ra : BitVec 5) (imm : BitVec 16) : Nat :=
  ofSigned 64 ((t.reg ra.toNat : Int) + imm.toInt)

/-- Put a thread back. -/
def Dev.setThread (d : Dev) (t : Thread) : Dev := d.onThread t.slot fun _ => t

/-- A thread leaves its core in another state. -/
def Dev.offCore (d : Dev) (t : Thread) : Dev :=
  let cores := mapIf (fun (c : Core) => c.cur == some t.slot) (fun c => { c with cur := none }) d.cores
  { d.setThread t with cores := cores }

/-! ### Arithmetic (R386, R387) -/

/-- Shift by RB[5:0]: left, right, arithmetic right. -/
def shiftBy (k a n : Nat) : Nat :=
  let n := n % 64
  match k with
  | 0 => a <<< n
  | 1 => a >>> n
  | _ => ofSigned 64 (s64 a / 2 ^ n)

/-- RA op RB of the R-format instruction `fn`. -/
def aluOp (fn a b : Nat) : Nat :=
  match fn with
  | 0 => a + b
  | 1 => a + (2 ^ 64 - b)
  | 2 => a &&& b
  | 3 => a ||| b
  | 4 => a ^^^ b
  | 5 => shiftBy 0 a b
  | 6 => shiftBy 1 a b
  | 7 => shiftBy 2 a b
  | 8 => if s64 a < s64 b then 1 else 0
  | 9 => if a < b then 1 else 0
  | 10 => a * b
  | 11 => a * b / 2 ^ 64
  | 12 => if b = 0 then 2 ^ 64 - 1 else a / b
  | 13 => if b = 0 then a else a % b
  | 14 => if b = 0 then 2 ^ 64 - 1 else ofSigned 64 ((s64 a).tdiv (s64 b))
  | _ => if b = 0 then a else ofSigned 64 ((s64 a).tmod (s64 b))

/-- ANDI, ORI and XORI: IMM zero-extended. -/
def logicOp (k a b : Nat) : Nat :=
  match k with
  | 0 => a &&& b
  | 1 => a ||| b
  | _ => a ^^^ b

/-- RA compares with RB as a branch names. -/
def branchTaken (k a b : Nat) : Bool :=
  match k with
  | 0 => a == b
  | 1 => a != b
  | 2 => decide (s64 a < s64 b)
  | 3 => decide (s64 b ≤ s64 a)
  | 4 => decide (a < b)
  | _ => decide (b ≤ a)

/-! ### Memory (R387, R388) -/

/-- The address is the thread's to use: the pod's ranges, or anything that exists. -/
def Dev.mayUse (d : Dev) (t : Thread) (a n : Nat) : Bool :=
  if t.priv then d.target a != .nowhere else d.inPod t.pod a n

/-- The data cache of a thread's core asks the home for a line that it lacks, or lacks ownership of (R240, R243,
R274). -/
def Dev.coreAsk (d : Dev) (t : Thread) (a : Nat) (own : Bool) : Dev :=
  match d.cores.findIdx? fun c => c.cur == some t.slot with
  | none => d
  | some c =>
    let l := lineOf (d.localForm a)
    let ask := fun (code : Nat) => d.emit (.coh (32 + d.sliceOf l) code l (d.get F.LNK_POD_SPAN_GROUP t.pod))
    match d.findLine (8 + c) l with
    | none => ask (if own then 21 else 20)
    | some x =>
      if !own then d
      else match x.st with
        | .s => ask 22
        | .e => d.setLine { x with st := .m, stale := some (d.ld l 64) }
        | .m => d

/-- An uncorrectable error of the line is found before its data is used (R265). -/
def Dev.lineUsed (d : Dev) (a : Nat) : Dev :=
  match d.target a with
  | .home off => d.findUe (lineOf off)
  | .peer _ _ => d
  | .host _ => d
  | .nowhere => d

/-- A load of `n` bytes: misaligned or out of reach is a thread fault with ADDR_FAULT, marked data
one with its status; an executive thread abandons its work instead (R387, R388, R469; log entry
33). -/
def Dev.ctlRead (d : Dev) (t : Thread) (a n : Nat) (own : Bool) (use : Dev → Nat → Dev) : Dev :=
  if a % n ≠ 0 ∨ d.mayUse t a n = false then d.threadFault t addrFault
  else
    let d := (d.coreAsk t a own).lineUsed a
    let p := d.anyPoison a n
    if p ≠ .clean then (if t.priv then (d.setThread t.step) else d.threadFault t (poisonFail p))
    else use d (leNat (d.anyRead a n))

/-- A load. -/
def Dev.ctlLoad (d : Dev) (t : Thread) (k : Nat) (rd ra : BitVec 5) (imm : BitVec 16) : Dev :=
  let n := 2 ^ (if k < 4 then k else k - 4)
  let signed := decide (4 ≤ k)
  d.ctlRead t (t.addr ra imm) n false fun d v =>
    d.setThread (t.put rd (if signed then ofSigned 64 (toSigned (8 * n) v) else v))

/-- A store of the low bytes of RD. -/
def Dev.ctlStore (d : Dev) (t : Thread) (k : Nat) (rd ra : BitVec 5) (imm : BitVec 16) : Dev :=
  let n := 2 ^ k
  let a := t.addr ra imm
  if a % n ≠ 0 ∨ d.mayUse t a n = false then d.threadFault t addrFault
  else ((d.coreAsk t a true).anyWrite a (leBytes n (t.reg rd.toNat))).setThread t.step

/-- What an atomic writes (R386): `none` is nothing. -/
def atomOp (k old x cmp : Nat) : Option Nat :=
  match k with
  | 0 => some x
  | 1 => some ((old + x) % 2 ^ 64)
  | 2 => some (old &&& x)
  | 3 => some (old ||| x)
  | _ => if old = cmp then some x else none

/-- An atomic on the 8 bytes at RA. -/
def Dev.ctlAtomic (d : Dev) (t : Thread) (k : Nat) (rd ra rb : BitVec 5) : Dev :=
  let a := t.reg ra.toNat
  d.ctlRead t a 8 true fun d old =>
    let d := match atomOp k old (t.reg rb.toNat) (t.reg rd.toNat) with
      | some v => d.anyWrite a (leBytes 8 v)
      | none => d
    d.setThread (t.put rd old)

/-! ### Scheduler operations (R394, R397) -/

/-- A thread moves to the tail of its ready list. -/
def Dev.ctlYield (d : Dev) (t : Thread) : Dev := ((d.offCore t).makeReady t.slot).schedule

/-- SLEEP. -/
def Dev.ctlSleep (d : Dev) (t : Thread) (ra : BitVec 5) : Dev :=
  let n := t.reg ra.toNat
  if n = 0 then d.ctlYield t.step
  else if 2 ^ 31 ≤ n then d.threadFault t ⟨0x43, 0⟩
  else
    let e := (d.get F.CTL_SCHED_STATUS_TICKS + n) % 2 ^ 32
    (d.offCore { t.step with st := .delayed, expiry := e }).schedule

/-- A thread whose event word has bits of its mask receives and clears them. -/
def Thread.takeEvent (t : Thread) (dest : Nat) (mask : Word) : Thread :=
  let got := t.event &&& mask
  { (t.setReg dest got.toNat) with event := t.event &&& ~~~mask, mask := 0, dest := 0 }

/-- WAIT. -/
def Dev.ctlWait (d : Dev) (t : Thread) (rd ra : BitVec 5) : Dev :=
  let mask := BitVec.ofNat 64 (t.reg ra.toNat)
  if t.event &&& mask ≠ 0 then d.setThread (t.takeEvent rd.toNat mask).step
  else (d.offCore { t.step with st := .waiting, dest := rd.toNat, mask := mask }).schedule

/-- An event reaches a thread, which is made ready when it waits for it. -/
def Dev.postTo (d : Dev) (u : Thread) (bits : Word) : Dev :=
  let u := { u with event := u.event ||| bits }
  if u.st = .waiting ∧ u.event &&& u.mask ≠ 0 then (d.setThread (u.takeEvent u.dest u.mask)).makeReady u.slot
  else d.setThread u

/-- POST. -/
def Dev.ctlPost (d : Dev) (t : Thread) (rd ra rb : BitVec 5) : Dev :=
  let bits := BitVec.ofNat 64 (t.reg rb.toNat)
  let target := d.threads.find? fun u => t.kin u && u.number == t.reg ra.toNat
  match target with
  | none => d.setThread (t.put rd 1)
  | some u =>
    let d := d.setThread (t.put rd 0)
    match d.thread u.slot with
    | some u => (d.postTo u bits).schedule
    | none => d

/-- SPAWN: the new thread's number, or the spawning thread is STALLED (R390, R398). -/
def Dev.ctlSpawn (d : Dev) (t : Thread) (rd ra rb : BitVec 5) : Dev :=
  let entry := t.reg ra.toNat
  let g1 := t.reg rb.toNat
  match d.spawn (t.child entry g1) with
  | some (n, d) => (d.setThread (t.put rd n)).schedule
  | none =>
    let t := { t.step with st := .stalled, dest := rd.toNat, mask := BitVec.ofNat 64 entry, expiry := g1 }
    ((d.offCore t).countStall).schedule

/-- SETPRI: pod threads stay within 8 to 31 (R394); an executive thread's is the low five bits (log
entry 31). -/
def Dev.ctlSetpri (d : Dev) (t : Thread) (rd ra : BitVec 5) : Dev :=
  let v := t.reg ra.toNat
  let p := if t.priv then v % 32 else max 8 (min 31 v)
  (d.setThread { t.put rd t.prio with prio := p }).schedule

/-! ### Locks (R399, R400) -/

/-- A lock number is in range for the thread. -/
def Thread.lockOk (t : Thread) (n : Nat) : Bool := decide (n < if t.priv then 256 else 16)

/-- The lock of a number, bound if need be; none while the pool is empty. -/
def Dev.lockFor (d : Dev) (t : Thread) (n : Nat) : Option (HLock × Dev) :=
  if t.priv then some ((d.lock n).getD (HLock.idle n), d) else d.bindLock t n

/-- The lock a number names now. -/
def Dev.lockNow (d : Dev) (t : Thread) (n : Nat) : Option HLock := if t.priv then d.lock n else d.boundLock t n

/-- LOCK. -/
def Dev.ctlLock (d : Dev) (t : Thread) (rd : BitVec 5) (n : Nat) : Dev :=
  match d.lockFor t n with
  | none =>
    let u := { t.step with st := .blocked, lockwait := poolWait, mask := BitVec.ofNat 64 n, dest := rd.toNat }
    let d := d.offCore u
    let rest := d.threads.filter fun x => x.slot != t.slot
    { d with threads := rest ++ [u] }.schedule
  | some (l, d) =>
    if l.held then ((d.offCore t.step).blockOn l t.slot rd.toNat).schedule
    else (d.grantLock l t.slot).setThread (t.put rd l.status)

/-- TRYLOCK. -/
def Dev.ctlTrylock (d : Dev) (t : Thread) (rd : BitVec 5) (n : Nat) : Dev :=
  match d.lockFor t n with
  | none => d.setThread (t.put rd 2)
  | some (l, d) =>
    if l.held then d.setThread (t.put rd 2) else (d.grantLock l t.slot).setThread (t.put rd l.status)

/-- UNLOCK. -/
def Dev.ctlUnlock (d : Dev) (t : Thread) (rd : BitVec 5) (n : Nat) : Dev :=
  match (d.lockNow t n).filter fun l => l.held && l.owner == t.slot with
  | none => d.setThread (t.put rd 3)
  | some l => ((d.setThread (t.put rd 0)).releaseLock l.id false).schedule

/-- CLRPOISON. -/
def Dev.ctlClrpoison (d : Dev) (t : Thread) (rd : BitVec 5) (n : Nat) : Dev :=
  match (d.lockNow t n).filter fun l => l.held && l.owner == t.slot with
  | none => d.setThread (t.put rd 3)
  | some l => (d.setLock { l with poison := false }).setThread (t.put rd 0)

/-- A lock operation; a number out of range is a thread fault with INDEX_RANGE. -/
def Dev.ctlLockOp (d : Dev) (t : Thread) (k : Nat) (rd ra : BitVec 5) : Dev :=
  let n := t.reg ra.toNat
  if !t.lockOk n then d.threadFault t ⟨0x43, 0⟩
  else match k with
    | 0 => d.ctlLock t rd n
    | 1 => d.ctlTrylock t rd n
    | 2 => d.ctlUnlock t rd n
    | _ => d.ctlClrpoison t rd n

/-! ### Stage operations (R391) -/

/-- The instance of a thread's ancestry and its number of stages. -/
def Dev.instOf (d : Dev) (t : Thread) : Option Inst :=
  d.insts.find? fun i => i.ring == t.ring && i.index == t.index && i.pipe == t.pipe && i.number == t.inst

/-- STAGE_COUNT of the thread's pipeline. -/
def Dev.stageCount (d : Dev) (t : Thread) : Nat :=
  (((d.findRun t.ring t.index).bind fun r => r.pipeAt t.pipe).map fun p => p.stages.length).getD 0

/-- KRD. -/
def Dev.ctlKrd (d : Dev) (t : Thread) (rd ra rb : BitVec 5) : Dev :=
  let stage := t.reg ra.toNat
  let n := t.reg rb.toNat
  if d.stageCount t ≤ stage ∨ 64 ≤ n then d.threadFault t ⟨0x43, 0⟩
  else
    let v := (((d.instOf t).bind fun i => i.stages[stage]?).map fun st => kReg st.k n).getD 0
    d.setThread (t.put rd v)

/-- KWR: the write waits for the target stage's next block boundary. -/
def Dev.ctlKwr (d : Dev) (t : Thread) (rd ra rb : BitVec 5) : Dev :=
  let stage := t.reg ra.toNat
  let n := t.reg rb.toNat
  if stage ≤ t.stage ∨ d.stageCount t ≤ stage ∨ 64 ≤ n then d.threadFault t ⟨0x43, 0⟩
  else
    let d := match d.instOf t with
      | some i =>
        let w := BitVec.ofNat 64 (t.reg rd.toNat)
        let stages := i.stages.zipIdx.map fun (x : StageSt × Nat) =>
          if x.2 = stage then { x.1 with kPend := x.1.kPend ++ [(n, w)] } else x.1
        d.setInst { i with stages := stages }
      | none => d
    d.setThread t.step

/-- RESUME: the block that the YIELD holds is released. -/
def Dev.ctlResume (d : Dev) (t : Thread) : Dev :=
  let d := match d.instOf t with
    | some i =>
      let stages := i.stages.zipIdx.map fun (x : StageSt × Nat) => if x.2 = t.stage then { x.1 with heldBlk := false } else x.1
      d.setInst { i with stages := stages }
    | none => d
  d.setThread t.step

/-! ### One instruction -/

/-- The effect of an instruction on its thread and the device. CSRR and CSRW are not pod code; their
meanings are in RegWrite.lean. -/
def Dev.runIns (d : Dev) (t : Thread) (c : CIns) : Dev :=
  let g := fun (r : BitVec 5) => t.reg r.toNat
  match c with
  | .alu fn rd ra rb => d.setThread (t.put rd (aluOp fn.val (g ra) (g rb)))
  | .addi rd ra imm => d.setThread (t.put rd (t.addr ra imm))
  | .logic k rd ra imm => d.setThread (t.put rd (logicOp k.val (g ra) imm.toNat))
  | .shi k rd ra n => d.setThread (t.put rd (shiftBy k.val (g ra) n.toNat))
  | .mov keep rd sh imm =>
    let lo := 16 * sh.toNat
    d.setThread (t.put rd (if keep then setBits (g rd) lo 16 imm.toNat else imm.toNat * 2 ^ lo))
  | .load k rd ra imm => d.ctlLoad t k.val rd ra imm
  | .store k rd ra imm => d.ctlStore t k.val rd ra imm
  | .atom k rd ra rb => d.ctlAtomic t k.val rd ra rb
  | .fence => d.setThread t.step
  | .branch k ra rb off =>
    d.setThread (if branchTaken k.val (g ra) (g rb) then t.goTo (ofSigned 64 ((t.pc : Int) + 4 * off.toInt)) else t.step)
  | .jal off => d.setThread ((t.setReg 31 (t.pc + 4)).goTo (ofSigned 64 ((t.pc : Int) + 4 * off.toInt)))
  | .jalr rd ra imm => d.setThread ((t.setReg rd.toNat (t.pc + 4)).goTo (t.addr ra imm / 4 * 4))
  | .exit => (d.endThread t.slot false).schedule
  | .yieldcpu => d.ctlYield t.step
  | .sleep ra => d.ctlSleep t ra
  | .wait rd ra => d.ctlWait t rd ra
  | .post rd ra rb => d.ctlPost t rd ra rb
  | .spawn rd ra rb => d.ctlSpawn t rd ra rb
  | .setpri rd ra => d.ctlSetpri t rd ra
  | .self rd => d.setThread (t.put rd t.number)
  | .now rd => d.setThread (t.put rd d.now)
  | .lockOp k rd ra => d.ctlLockOp t k.val rd ra
  | .krd rd ra rb => d.ctlKrd t rd ra rb
  | .kwr rd ra rb => d.ctlKwr t rd ra rb
  | .resume => d.ctlResume t
  | .csr _ _ _ => d

/-- The control code of a thread's run: the validated copy (R388). -/
def Dev.codeOf (d : Dev) (t : Thread) : List (BitVec 32) :=
  (((d.findRun t.ring t.index).bind fun r => r.image).map fun m => m.ctrl).getD []

/-- The thread a core runs, when the core is live. -/
def Dev.running (d : Dev) (core : Nat) : Option Thread :=
  if (d.core core).fenced then none else (d.core core).cur.bind d.thread

/-- An instruction on a core: a pod thread executes it only where its PC points at that
instruction, and a fetch outside the section is a thread fault with ADDR_FAULT (R388, R389). -/
def Dev.ctl (d : Dev) (core : Fin 8) (c : CIns) : Dev :=
  match d.running core.val with
  | none => d
  | some t =>
    if t.priv then d.runIns t c
    else match (d.codeOf t)[t.pc / 4]? with
      | none => d.threadFault t addrFault
      | some w => if CIns.decode w = some c then d.runIns t c else d

/-! ### Time (R396, R397) -/

/-- TICK: the counter advances and every thread whose delay expires becomes READY, in slot order. -/
def execTick (s : State) : Host.Outcome State Fault Refusal :=
  s.act fun d =>
    let n := (d.get F.CTL_SCHED_STATUS_TICKS + 1) % 2 ^ 32
    let d := d.put F.CTL_SCHED_STATUS_TICKS n
    ((List.range 1024).foldl (fun d s =>
      match d.thread s with
      | some t => if t.st == .delayed && decide ((n + 2 ^ 32 - t.expiry) % 2 ^ 32 < 2 ^ 31) then d.makeReady s else d
      | none => d) d).schedule

/-- TIME_SLICE: a thread that has used its slice moves to the tail of its list when a ready thread
has its priority. -/
def execTimeSlice (core : Fin 8) (s : State) : Host.Outcome State Fault Refusal :=
  s.act fun d =>
    match d.running core.val with
    | some t =>
      if d.get F.CTL_SCHED_CFG_SLICE_US ≠ 0 ∧ (d.readyThreads.any fun u => u.prio == t.prio) = true then d.ctlYield t
      else d
    | none => d

/-! ### The instructions -/

/-- ADD (R386). -/
def execCtlAdd (f : RFmt) (s : State) : Host.Outcome State Fault Refusal :=
  s.act fun d => d.ctl f.core (.alu 0 f.rd f.ra f.rb)

/-- SUB (R386). -/
def execCtlSub (f : RFmt) (s : State) : Host.Outcome State Fault Refusal :=
  s.act fun d => d.ctl f.core (.alu 1 f.rd f.ra f.rb)

/-- AND (R386). -/
def execCtlAnd (f : RFmt) (s : State) : Host.Outcome State Fault Refusal :=
  s.act fun d => d.ctl f.core (.alu 2 f.rd f.ra f.rb)

/-- OR (R386). -/
def execCtlOr (f : RFmt) (s : State) : Host.Outcome State Fault Refusal :=
  s.act fun d => d.ctl f.core (.alu 3 f.rd f.ra f.rb)

/-- XOR (R386). -/
def execCtlXor (f : RFmt) (s : State) : Host.Outcome State Fault Refusal :=
  s.act fun d => d.ctl f.core (.alu 4 f.rd f.ra f.rb)

/-- SLL (R386). -/
def execCtlSll (f : RFmt) (s : State) : Host.Outcome State Fault Refusal :=
  s.act fun d => d.ctl f.core (.alu 5 f.rd f.ra f.rb)

/-- SRL (R386). -/
def execCtlSrl (f : RFmt) (s : State) : Host.Outcome State Fault Refusal :=
  s.act fun d => d.ctl f.core (.alu 6 f.rd f.ra f.rb)

/-- SRA (R386). -/
def execCtlSra (f : RFmt) (s : State) : Host.Outcome State Fault Refusal :=
  s.act fun d => d.ctl f.core (.alu 7 f.rd f.ra f.rb)

/-- SLT (R386). -/
def execCtlSlt (f : RFmt) (s : State) : Host.Outcome State Fault Refusal :=
  s.act fun d => d.ctl f.core (.alu 8 f.rd f.ra f.rb)

/-- SLTU (R386). -/
def execCtlSltu (f : RFmt) (s : State) : Host.Outcome State Fault Refusal :=
  s.act fun d => d.ctl f.core (.alu 9 f.rd f.ra f.rb)

/-- MUL (R386). -/
def execCtlMul (f : RFmt) (s : State) : Host.Outcome State Fault Refusal :=
  s.act fun d => d.ctl f.core (.alu 10 f.rd f.ra f.rb)

/-- MULHU (R386). -/
def execCtlMulhu (f : RFmt) (s : State) : Host.Outcome State Fault Refusal :=
  s.act fun d => d.ctl f.core (.alu 11 f.rd f.ra f.rb)

/-- DIVU (R386, R387). -/
def execCtlDivu (f : RFmt) (s : State) : Host.Outcome State Fault Refusal :=
  s.act fun d => d.ctl f.core (.alu 12 f.rd f.ra f.rb)

/-- REMU (R386, R387). -/
def execCtlRemu (f : RFmt) (s : State) : Host.Outcome State Fault Refusal :=
  s.act fun d => d.ctl f.core (.alu 13 f.rd f.ra f.rb)

/-- DIVS (R386, R387). -/
def execCtlDivs (f : RFmt) (s : State) : Host.Outcome State Fault Refusal :=
  s.act fun d => d.ctl f.core (.alu 14 f.rd f.ra f.rb)

/-- REMS (R386, R387). -/
def execCtlRems (f : RFmt) (s : State) : Host.Outcome State Fault Refusal :=
  s.act fun d => d.ctl f.core (.alu 15 f.rd f.ra f.rb)

/-- ADDI (R386). -/
def execCtlAddi (f : IFmt) (s : State) : Host.Outcome State Fault Refusal :=
  s.act fun d => d.ctl f.core (.addi f.rd f.ra f.imm)

/-- ANDI (R386). -/
def execCtlAndi (f : IFmt) (s : State) : Host.Outcome State Fault Refusal :=
  s.act fun d => d.ctl f.core (.logic 0 f.rd f.ra f.imm)

/-- ORI (R386). -/
def execCtlOri (f : IFmt) (s : State) : Host.Outcome State Fault Refusal :=
  s.act fun d => d.ctl f.core (.logic 1 f.rd f.ra f.imm)

/-- XORI (R386). -/
def execCtlXori (f : IFmt) (s : State) : Host.Outcome State Fault Refusal :=
  s.act fun d => d.ctl f.core (.logic 2 f.rd f.ra f.imm)

/-- SHI with SLL (R386). -/
def execCtlShiSll (f : ShiFmt) (s : State) : Host.Outcome State Fault Refusal :=
  s.act fun d => d.ctl f.core (.shi 0 f.rd f.ra f.amount)

/-- SHI with SRL (R386). -/
def execCtlShiSrl (f : ShiFmt) (s : State) : Host.Outcome State Fault Refusal :=
  s.act fun d => d.ctl f.core (.shi 1 f.rd f.ra f.amount)

/-- SHI with SRA (R386). -/
def execCtlShiSra (f : ShiFmt) (s : State) : Host.Outcome State Fault Refusal :=
  s.act fun d => d.ctl f.core (.shi 2 f.rd f.ra f.amount)

/-- MOVZ (R386). -/
def execCtlMovz (f : MovFmt) (s : State) : Host.Outcome State Fault Refusal :=
  s.act fun d => d.ctl f.core (.mov false f.rd f.sh f.imm)

/-- MOVK (R386). -/
def execCtlMovk (f : MovFmt) (s : State) : Host.Outcome State Fault Refusal :=
  s.act fun d => d.ctl f.core (.mov true f.rd f.sh f.imm)

/-- LDU8 (R386, R387). -/
def execCtlLdu8 (f : IFmt) (s : State) : Host.Outcome State Fault Refusal :=
  s.act fun d => d.ctl f.core (.load 0 f.rd f.ra f.imm)

/-- LDU16 (R386, R387). -/
def execCtlLdu16 (f : IFmt) (s : State) : Host.Outcome State Fault Refusal :=
  s.act fun d => d.ctl f.core (.load 1 f.rd f.ra f.imm)

/-- LDU32 (R386, R387). -/
def execCtlLdu32 (f : IFmt) (s : State) : Host.Outcome State Fault Refusal :=
  s.act fun d => d.ctl f.core (.load 2 f.rd f.ra f.imm)

/-- LD64 (R386, R387). -/
def execCtlLd64 (f : IFmt) (s : State) : Host.Outcome State Fault Refusal :=
  s.act fun d => d.ctl f.core (.load 3 f.rd f.ra f.imm)

/-- LDS8 (R386, R387). -/
def execCtlLds8 (f : IFmt) (s : State) : Host.Outcome State Fault Refusal :=
  s.act fun d => d.ctl f.core (.load 4 f.rd f.ra f.imm)

/-- LDS16 (R386, R387). -/
def execCtlLds16 (f : IFmt) (s : State) : Host.Outcome State Fault Refusal :=
  s.act fun d => d.ctl f.core (.load 5 f.rd f.ra f.imm)

/-- LDS32 (R386, R387). -/
def execCtlLds32 (f : IFmt) (s : State) : Host.Outcome State Fault Refusal :=
  s.act fun d => d.ctl f.core (.load 6 f.rd f.ra f.imm)

/-- ST8 (R386, R387). -/
def execCtlSt8 (f : IFmt) (s : State) : Host.Outcome State Fault Refusal :=
  s.act fun d => d.ctl f.core (.store 0 f.rd f.ra f.imm)

/-- ST16 (R386, R387). -/
def execCtlSt16 (f : IFmt) (s : State) : Host.Outcome State Fault Refusal :=
  s.act fun d => d.ctl f.core (.store 1 f.rd f.ra f.imm)

/-- ST32 (R386, R387). -/
def execCtlSt32 (f : IFmt) (s : State) : Host.Outcome State Fault Refusal :=
  s.act fun d => d.ctl f.core (.store 2 f.rd f.ra f.imm)

/-- ST64 (R386, R387). -/
def execCtlSt64 (f : IFmt) (s : State) : Host.Outcome State Fault Refusal :=
  s.act fun d => d.ctl f.core (.store 3 f.rd f.ra f.imm)

/-- SWAP (R386). -/
def execCtlSwap (f : RFmt) (s : State) : Host.Outcome State Fault Refusal :=
  s.act fun d => d.ctl f.core (.atom 0 f.rd f.ra f.rb)

/-- AADD (R386). -/
def execCtlAadd (f : RFmt) (s : State) : Host.Outcome State Fault Refusal :=
  s.act fun d => d.ctl f.core (.atom 1 f.rd f.ra f.rb)

/-- AAND (R386). -/
def execCtlAand (f : RFmt) (s : State) : Host.Outcome State Fault Refusal :=
  s.act fun d => d.ctl f.core (.atom 2 f.rd f.ra f.rb)

/-- AOR (R386). -/
def execCtlAor (f : RFmt) (s : State) : Host.Outcome State Fault Refusal :=
  s.act fun d => d.ctl f.core (.atom 3 f.rd f.ra f.rb)

/-- CAS (R386). -/
def execCtlCas (f : RFmt) (s : State) : Host.Outcome State Fault Refusal :=
  s.act fun d => d.ctl f.core (.atom 4 f.rd f.ra f.rb)

/-- FENCE: accesses here are already in order (R386, R387). -/
def execCtlFence (core : Fin 8) (s : State) : Host.Outcome State Fault Refusal :=
  s.act fun d => d.ctl core (.fence)

/-- BEQ (R386). -/
def execCtlBeq (f : BFmt) (s : State) : Host.Outcome State Fault Refusal :=
  s.act fun d => d.ctl f.core (.branch 0 f.ra f.rb f.off)

/-- BNE (R386). -/
def execCtlBne (f : BFmt) (s : State) : Host.Outcome State Fault Refusal :=
  s.act fun d => d.ctl f.core (.branch 1 f.ra f.rb f.off)

/-- BLT (R386). -/
def execCtlBlt (f : BFmt) (s : State) : Host.Outcome State Fault Refusal :=
  s.act fun d => d.ctl f.core (.branch 2 f.ra f.rb f.off)

/-- BGE (R386). -/
def execCtlBge (f : BFmt) (s : State) : Host.Outcome State Fault Refusal :=
  s.act fun d => d.ctl f.core (.branch 3 f.ra f.rb f.off)

/-- BLTU (R386). -/
def execCtlBltu (f : BFmt) (s : State) : Host.Outcome State Fault Refusal :=
  s.act fun d => d.ctl f.core (.branch 4 f.ra f.rb f.off)

/-- BGEU (R386). -/
def execCtlBgeu (f : BFmt) (s : State) : Host.Outcome State Fault Refusal :=
  s.act fun d => d.ctl f.core (.branch 5 f.ra f.rb f.off)

/-- JAL (R386). -/
def execCtlJal (core : Fin 8) (off : BitVec 26) (s : State) : Host.Outcome State Fault Refusal :=
  s.act fun d => d.ctl core (.jal off)

/-- JALR (R386). -/
def execCtlJalr (f : IFmt) (s : State) : Host.Outcome State Fault Refusal :=
  s.act fun d => d.ctl f.core (.jalr f.rd f.ra f.imm)

/-- KRD (R391). -/
def execCtlKrd (f : RFmt) (s : State) : Host.Outcome State Fault Refusal :=
  s.act fun d => d.ctl f.core (.krd f.rd f.ra f.rb)

/-- KWR (R391). -/
def execCtlKwr (f : RFmt) (s : State) : Host.Outcome State Fault Refusal :=
  s.act fun d => d.ctl f.core (.kwr f.rd f.ra f.rb)

/-- RESUME (R391). -/
def execCtlResume (core : Fin 8) (s : State) : Host.Outcome State Fault Refusal :=
  s.act fun d => d.ctl core (.resume)

/-- EXIT (R394). -/
def execCtlExit (core : Fin 8) (s : State) : Host.Outcome State Fault Refusal :=
  s.act fun d => d.ctl core (.exit)

/-- YIELDCPU (R394). -/
def execCtlYieldcpu (core : Fin 8) (s : State) : Host.Outcome State Fault Refusal :=
  s.act fun d => d.ctl core (.yieldcpu)

/-- SLEEP (R394, R397). -/
def execCtlSleep (f : RFmt) (s : State) : Host.Outcome State Fault Refusal :=
  s.legal (noRd f && noRb f) fun d => d.ctl f.core (.sleep f.ra)

/-- WAIT (R394). -/
def execCtlWait (f : RFmt) (s : State) : Host.Outcome State Fault Refusal :=
  s.legal (noRb f) fun d => d.ctl f.core (.wait f.rd f.ra)

/-- POST (R394). -/
def execCtlPost (f : RFmt) (s : State) : Host.Outcome State Fault Refusal :=
  s.act fun d => d.ctl f.core (.post f.rd f.ra f.rb)

/-- SPAWN (R390, R394). -/
def execCtlSpawn (f : RFmt) (s : State) : Host.Outcome State Fault Refusal :=
  s.act fun d => d.ctl f.core (.spawn f.rd f.ra f.rb)

/-- SETPRI (R394). -/
def execCtlSetpri (f : RFmt) (s : State) : Host.Outcome State Fault Refusal :=
  s.legal (noRb f) fun d => d.ctl f.core (.setpri f.rd f.ra)

/-- SELF (R394). -/
def execCtlSelf (f : RFmt) (s : State) : Host.Outcome State Fault Refusal :=
  s.legal (noRa f && noRb f) fun d => d.ctl f.core (.self f.rd)

/-- NOW (R394). -/
def execCtlNow (f : RFmt) (s : State) : Host.Outcome State Fault Refusal :=
  s.legal (noRa f && noRb f) fun d => d.ctl f.core (.now f.rd)

/-- LOCK (R399). -/
def execCtlLock (f : RFmt) (s : State) : Host.Outcome State Fault Refusal :=
  s.legal (noRb f) fun d => d.ctl f.core (.lockOp 0 f.rd f.ra)

/-- TRYLOCK (R399). -/
def execCtlTrylock (f : RFmt) (s : State) : Host.Outcome State Fault Refusal :=
  s.legal (noRb f) fun d => d.ctl f.core (.lockOp 1 f.rd f.ra)

/-- UNLOCK (R399). -/
def execCtlUnlock (f : RFmt) (s : State) : Host.Outcome State Fault Refusal :=
  s.legal (noRb f) fun d => d.ctl f.core (.lockOp 2 f.rd f.ra)

/-- CLRPOISON (R399). -/
def execCtlClrpoison (f : RFmt) (s : State) : Host.Outcome State Fault Refusal :=
  s.legal (noRb f) fun d => d.ctl f.core (.lockOp 3 f.rd f.ra)

end Sys2Proof.Machine
end

