-- ==== Sys2Proof/Machine/Sort.lean ====
section
/-! DEFINITION. PART and SPILL (R76, R77, R162), SORTRUN (R197 to R199), MERGE with SOURCE RUNS
(R200 to R203) and TOPK (R86, R205). -/

namespace Sys2Proof.Machine

/-- A row of values. -/
abbrev Row := List (Option Val)

/-- Types of a stage's inputs. -/
def Act.inTypes (a : Act) : List Nat := a.ins.map fun v => a.p.typeOf (streamNo v)

/-- The present rows of blocks taken together. -/
def Act.presentRows (a : Act) (seq n : Nat) (cols : List Col) : List Row :=
  keepRows (a.selected seq n) (rowsOfCols n cols)

/-- Plain blocks of rows, one for each column. -/
def rowBlocks (zoned : Bool) (types : List Nat) (rows : List Row) : List (List Byte × List Byte) :=
  types.zipIdx.map fun t => (if zoned then zonedBlock else plainBlock) t.1 (colOfRows rows t.2)

/-- Add a group to set `j`; sets up to `j` exist. -/
def addGroup (sets : List SetAcc) (j : Nat) (addrs : List Nat) (rows : Nat) : List SetAcc :=
  let l := sets ++ List.replicate (j + 1 - sets.length) { groups := [], rows := 0 }
  l.zipIdx.map fun x => if x.2 = j then { groups := x.1.groups ++ [addrs], rows := x.1.rows + rows } else x.1

/-- Write one group of set `j` at the cursor of an area. -/
def Act.putSetGroup (a : Act) (r : Area) (j : Nat) (bs : List (List Byte × List Byte)) (rows : Nat) :
    Except Fail Act :=
  (a.writeGroup r bs 0).map fun x =>
    x.1.onSt fun st => { st with sets := addGroup st.sets j x.2 rows }

/-- Rows of all sets together. -/
def totalRows (sets : List SetAcc) : Nat := (sets.map fun s => s.rows).foldl (· + ·) 0

/-! ### PART -/

/-- The area of DEST_K. -/
def Act.destArea (a : Act) : Area := a.area (swField a.w 104)

/-- Decoded bytes of a value in staging: its width, or 4 and the length of a string. -/
def stagedLen (t : Nat) (v : Option Val) : Nat :=
  if t = 0x20 then 4 + ((v.map Val.toBytes).getD []).length else byteWidth t

/-- The 4 KiB of staging of one input are full with these rows (DESIGN CHOICE: a group is written
when the next row does not fit its staging; log entry 26). -/
def stagingFull (types : List Nat) (rows : List Row) : Bool :=
  types.zipIdx.any fun t =>
    decide (4096 < ((rows.map fun r => stagedLen t.1 (r.getD t.2 none)).foldl (· + ·) 0))

/-- Rows waiting under a key. -/
def bufRows (bufs : List RowBuf) (key : Nat) : List Row :=
  ((bufs.find? fun b => b.key == key).map fun b => b.rows).getD []

/-- Replace the rows waiting under a key. -/
def setBuf (bufs : List RowBuf) (key : Nat) (rows : List Row) : List RowBuf :=
  upsert (fun b => b.key == key) { key := key, rows := rows, anns := [] } bufs

/-- Write the rows waiting in a partition. -/
def Act.flushPart (a : Act) (r : Area) (j : Nat) (rows : List Row) : Except Fail Act :=
  if rows.isEmpty then .ok a
  else
    let x := a.plainRows a.inTypes rows
    x.1.putSetGroup r j (rowBlocks false a.inTypes x.2) rows.length

/-- One row of a PART goes to its partition. -/
def Act.partRow (a : Act) (r : Area) (j : Nat) (row : Row) : Except Fail Act :=
  let old := bufRows a.st.bufs j
  if old.isEmpty || !stagingFull a.inTypes (old ++ [row]) && decide (old.length < a.maxRows) then
    .ok (a.onSt fun st => { st with bufs := setBuf st.bufs j (old ++ [row]) })
  else match a.flushPart r j old with
    | .error f => .error f
    | .ok a => .ok (a.onSt fun st => { st with bufs := setBuf st.bufs j [row] })

/-- The partition of an annotation (PART), or INDEX_RANGE. -/
def Act.partOf (a : Act) (ann : Nat) : Except Fail Nat :=
  let f := bitsOf a.w 64 8
  if swMode a.w 0 then (if ann < 2 ^ f then .ok ann else .error ⟨0x43, 0⟩)
  else .ok (bitsOf ann (bitsOf a.w 72 8) f)

/-- The rows of a block. -/
def Act.partRows (a : Act) (r : Area) : List (Nat × Row) → Except Fail Act
  | [] => .ok a
  | (ann, row) :: rest =>
    match a.partOf ann with
    | .error f => .error f
    | .ok j =>
      match a.partRow r j row with
      | .error f => .error f
      | .ok a => a.partRows r rest

/-- Bytes before the first block of a PART area: the table of R76. -/
def Act.partHead (a : Act) : Nat := roundUp (64 + 8 * 2 ^ bitsOf a.w 64 8) 64

/-- The first use of a destination area: its first block goes at `head`. -/
def Act.openArea (a : Act) (k head : Nat) : Except Fail Act :=
  if a.st.opened then .ok a
  else match a.areaStart k head with
    | some f => .error f
    | none => .ok (a.onSt fun st => { st with opened := true, cursor := head })

/-- PART over one block set. -/
def partBody (a : Act) (bs : List (Nat × Block)) : Turn :=
  match a.openArea (swField a.w 104) a.partHead with
  | .error f => .fail a f (setSeq bs) 0
  | .ok a =>
    match a.readAll bs, bs with
    | .error f, _ => .fail a f (setSeq bs) 0
    | .ok _, [] => .hold
    | .ok (a, cols), (_, b) :: _ =>
      let n := b.body.rowCount
      let rows := keepRows (a.selected b.seq n) (((List.range n).map b.annAt).zip (rowsOfCols n cols))
      match a.partRows a.destArea rows with
      | .error f => .fail a f b.seq 0
      | .ok a => .done a true

/-- Write out every partition's waiting rows. -/
def Act.flushParts (a : Act) (r : Area) : List Nat → Except Fail Act
  | [] => .ok a
  | j :: js =>
    match a.flushPart r j (bufRows a.st.bufs j) with
    | .error f => .error f
    | .ok a => a.flushParts r js

/-- The end of a PART: column sets, the table, then the pointer and row count (R76). -/
def partFinal (a : Act) : Turn :=
  let n := 2 ^ bitsOf a.w 64 8
  let r := a.destArea
  match a.openArea (swField a.w 104) a.partHead with
  | .error f => .fail a f 0 0
  | .ok a =>
    match a.flushParts r (List.range n) with
    | .error f => .fail a f 0 0
    | .ok a =>
      let sets := a.st.sets ++ List.replicate (n - a.st.sets.length) { groups := [], rows := 0 }
      match a.writeSets r a.ins.length sets with
      | .error f => .fail a f 0 0
      | .ok (a, addrs) =>
        let a := a.store 0 (r.base + 64) (addrs.flatMap (leBytes 8))
        .quiet ((a.closeArea r (r.base + 64) (totalRows sets)).finish)

/-- PART (R76). -/
def execPart (w : StageRef) (s : State) : Host.Outcome State Fault Refusal :=
  s.act fun d => d.stage w 0x0C (fun _ => true) fun a => a.streamTurn false (annotated partBody) partFinal

/-! ### SPILL -/

/-- The encoded block SPILL writes for an input block: present rows only under APPLY, and a decoded
block as a plain one. -/
def Act.spillBlock (a : Act) (v : Nat) (b : Block) (sel : List Bool) (c : Col) : List Byte × List Byte :=
  let t := a.p.typeOf (streamNo v)
  match (if a.w.testBit 46 then keptBody t false b.body sel c else b.body) with
  | .encoded h raw => (h, raw)
  | .decoded rows => let x := plainBlock t rows; (x.1, x.2)

/-- The blocks of a set. -/
def Act.spillBlocks (a : Act) (sel : List Bool) : List (Nat × Block) → List Col → List (List Byte × List Byte)
  | (v, b) :: bs, c :: cs => a.spillBlock v b sel c :: a.spillBlocks sel bs cs
  | _, _ => []

/-- What compressing the blocks of a group comes to. -/
inductive Packed where
  | ok (a : Act) (bs : List (List Byte × List Byte))
  | wait (a : Act)
  | full
  | fail (a : Act) (f : Fail)

/-- A compressed block: COMP 1, PAYLOAD_LEN the frame's length (R162). -/
def Husk.packedBy (h : Husk) (frame : List Byte) : List Byte × List Byte :=
  let h := { h with flags := setBits h.flags 5 2 1, payloadLen := frame.length }
  ((h.seal frame).bytes, frame)

/-- Compress one block by a stage job: Zstandard level 1 (R162). -/
def Act.packBlock (a : Act) (col addr : Nat) (b : List Byte × List Byte) : Packed :=
  let h := Husk.ofBytes b.1
  if h.rows = 0 ∨ h.comp ≠ 0 then .ok a [b]
  else match a.d.jobResults.find? fun x => a.sameJob col addr x.tile x.slot x.stage x.col x.addr with
    | some x =>
      if x.status = 0x0B then .fail a ⟨0xF1, 0x12⟩
      else if x.status = 0 then .ok a [h.packedBy x.output]
      else .ok a [b]
    | none =>
      match a.askJob (a.newJob col addr 1 1 1 b.2 h.rawLen) with
      | .wait a => .wait a
      | _ => .full

/-- Compress the blocks of a group: every column's job is asked for before any is waited for. -/
def Act.packBlocks (a : Act) (addr : Nat) : List (List Byte × List Byte) → Nat → Packed
  | [], _ => .ok a []
  | b :: bs, col =>
    match a.packBlock col addr b with
    | .ok a x =>
      (match a.packBlocks addr bs (col + 1) with
      | .ok a xs => .ok a (x ++ xs)
      | .wait a => .wait a
      | .full => .full
      | .fail a f => .fail a f)
    | .wait a =>
      (match a.packBlocks addr bs (col + 1) with
      | .ok a _ => .wait a
      | .wait a => .wait a
      | .full => .full
      | .fail a f => .fail a f)
    | .full => .full
    | .fail a f => .fail a f

/-- Drop the results of this stage's jobs at an address. -/
def Act.dropResults (a : Act) (addr : Nat) : Act :=
  let rest := a.d.jobResults.filter fun x =>
    !(x.tile == a.i.tile && x.slot == a.i.slot && x.stage == a.n && x.addr == addr)
  { a with d := { a.d with jobResults := rest } }

/-- Write one group of a SPILL. -/
def Act.spillGroup (a : Act) (bs : List (List Byte × List Byte)) (rows seq : Nat) : Turn :=
  match a.putSetGroup a.destArea 0 bs rows with
  | .error f => .fail a f seq 0
  | .ok a => .done a true

/-- SPILL over one block set. -/
def spillBody (a : Act) (bs : List (Nat × Block)) : Turn :=
  match a.openArea (swField a.w 104) 64 with
  | .error f => .fail a f (setSeq bs) 0
  | .ok a =>
    match (if a.w.testBit 46 then a.readAll bs else .ok (a, bs.map fun _ => [])), bs with
    | .error f, _ => .fail a f (setSeq bs) 0
    | .ok _, [] => .hold
    | .ok (a, cols), (_, b) :: _ =>
      let sel := a.selected b.seq b.body.rowCount
      let blocks := a.spillBlocks sel bs cols
      let rows := (sel.filter id).length
      let addr := a.destArea.base + a.st.cursor
      if !(swMode a.w 0) then a.spillGroup blocks rows b.seq
      else match a.packBlocks addr blocks 0 with
        | .full => .stall
        | .wait a => if a.d.enginesOff then .back a else .quiet a
        | .fail a f => .fail a f b.seq 0
        | .ok a blocks => (a.dropResults addr).spillGroup blocks rows b.seq

/-- The end of a SPILL: its column set, then the pointer and row count (R76). -/
def spillFinal (a : Act) : Turn :=
  let r := a.destArea
  match a.openArea (swField a.w 104) 64 with
  | .error f => .fail a f 0 0
  | .ok a =>
    let s := a.st.sets.headD { groups := [], rows := 0 }
    match a.writeSet r s a.ins.length with
    | .error f => .fail a f 0 0
    | .ok (a, addr) => .quiet ((a.closeArea r addr s.rows).finish)

/-- SPILL (R76). -/
def execSpill (w : StageRef) (s : State) : Host.Outcome State Fault Refusal :=
  s.act fun d => d.stage w 0x0D (fun _ => true) fun a => a.streamTurn false spillBody spillFinal

/-! ### SORTRUN (R197 to R199) -/

/-- KEYS of a SORTRUN word. -/
def Act.keyCount (a : Act) : Nat := bitsOf a.w 64 8

/-- The sort key of a row. -/
def Act.rowKey (a : Act) (row : Row) : List Byte :=
  sortKey a.inTypes (swMode a.w 0) (bitsOf a.w 72 8) a.keyCount row

/-- S of a row (R197). -/
def Act.rowSize (a : Act) (key : List Byte) (row : Row) : Nat :=
  let pay := ((a.inTypes.zip row).drop a.keyCount).map fun x => stagedLen x.1 x.2
  pad8 (key.length + pay.foldl (· + ·) 0) + 8

/-- Bytes of the held records. -/
def Act.heldBytes (a : Act) : Nat := (a.st.held.map fun m => a.rowSize m.key m.row).foldl (· + ·) 0

/-- The order (run, key, arr). -/
def SortRec.before (x y : SortRec) : Bool :=
  if x.run ≠ y.run then decide (x.run < y.run)
  else match bytesCmp x.key y.key with
    | .lt => true
    | .gt => false
    | .eq => decide (x.arr < y.arr)

/-- The least held record. -/
def leastRec : List SortRec → Option SortRec
  | [] => none
  | x :: xs => match leastRec xs with
    | none => some x
    | some y => if x.before y then some x else some y

/-- Write the rows waiting for the current run as a block group. -/
def Act.flushRun (a : Act) : Except Fail Act :=
  let rows := bufRows a.st.bufs a.st.runNo
  if rows.isEmpty then .ok a
  else
    let x := a.plainRows a.inTypes rows
    (x.1.putSetGroup a.destArea a.st.runNo (rowBlocks true a.inTypes x.2) rows.length).map fun a =>
    a.onSt fun st => { st with bufs := [] }

/-- The current run is closed and the next begins. -/
def Act.closeRun (a : Act) : Except Fail Act :=
  a.flushRun.map fun a => a.onSt fun st => { st with runNo := st.runNo + 1, lastKey := none }

/-- Append a record to the current run; a 2,048th run is DEST_FULL. -/
def Act.appendRun (a : Act) (m : SortRec) : Except Fail Act :=
  if 2047 ≤ a.st.runNo then .error destFull
  else
    let rows := bufRows a.st.bufs a.st.runNo ++ [m.row]
    let a := a.onSt fun st => { st with bufs := setBuf st.bufs st.runNo rows, lastKey := some m.key }
    if a.maxRows ≤ rows.length then a.flushRun else .ok a

/-- Write the least held record, in the run it belongs to. -/
def Act.writeLeast (a : Act) (m : SortRec) : Except Fail Act :=
  let a := a.onSt fun st => { st with held := st.held.filter fun x => x != m }
  match (if a.st.runNo < m.run then a.closeRun else .ok a) with
  | .error f => .error f
  | .ok a => a.appendRun m

/-- Make room for `size` bytes, at most `fuel` records. -/
def Act.makeRoom (a : Act) (size : Nat) : Nat → Except Fail Act
  | 0 => .ok a
  | fuel + 1 =>
    if a.heldBytes + size ≤ a.p.tsRegion * 1024 then .ok a
    else match leastRec a.st.held with
      | none => .ok a
      | some m =>
        match a.writeLeast m with
        | .error f => .error f
        | .ok a => a.makeRoom size fuel

/-- Hold a row (R198): it joins the current run, or the next when its key is below the last one
written (DEDUCED: the current run is that after room was made; log entry 25). -/
def Act.holdRow (a : Act) (row : Row) : Except Fail Act :=
  let key := a.rowKey row
  let size := a.rowSize key row
  if a.p.tsRegion * 1024 < size then .error destFull
  else (a.makeRoom size (a.st.held.length + 1)).map fun a =>
    let late := (a.st.lastKey.map fun k => bytesCmp key k == Ordering.lt).getD false
    let run := if late then a.st.runNo + 1 else a.st.runNo
    let a := { a with d := a.d.tsWrite a.i a.heldBytes size }
    a.onSt fun st => { st with held := st.held ++ [⟨run, st.arr, key, row⟩], arr := st.arr + 1 }

/-- The present rows of a block, in arrival order. -/
def Act.holdRows (a : Act) : List Row → Except Fail Act
  | [] => .ok a
  | r :: rs =>
    match a.holdRow r with
    | .error f => .error f
    | .ok a => a.holdRows rs

/-- A stage reads the region's first `n` bytes; an uncorrectable word among them ends it (R222). -/
def Act.storeCheck (a : Act) (n : Nat) : Except (Dev × Fail) Act :=
  match a.d.tsRead a.i 0 n with
  | (d, some _) => .error (d, tsFail)
  | (d, none) => .ok { a with d := d }

/-- SORTRUN over one block set. -/
def sortrunBody (a : Act) (bs : List (Nat × Block)) : Turn :=
  match a.openArea (swField a.w 104) 0x4040 with
  | .error f => .fail a f (setSeq bs) 0
  | .ok a =>
    match a.storeCheck a.heldBytes with
    | .error (d, f) => .fail { a with d := d } f (setSeq bs) 0
    | .ok a =>
      match a.readAll bs with
      | .error f => .fail a f (setSeq bs) 0
      | .ok (a, cols) =>
        match a.holdRows (a.presentRows (setSeq bs) (setRows bs) cols) with
        | .error f => .fail a f (setSeq bs) 0
        | .ok a => .done a true

/-- Write every held record. -/
def Act.drainRuns (a : Act) : Nat → Except Fail Act
  | 0 => .ok a
  | fuel + 1 =>
    match leastRec a.st.held with
    | none => .ok a
    | some m =>
      match a.writeLeast m with
      | .error f => .error f
      | .ok a => a.drainRuns fuel

/-- The header and run table of a part (R199); TABLE comes last. -/
def Act.writeHeader (a : Act) (r : Area) (addrs : List Nat) : Act :=
  let head := leBytes 1 a.keyCount ++ leBytes 1 (bitsOf a.w 72 8) ++ leBytes 1 (swMode a.w 0).toNat ++
    leBytes 1 a.ins.length ++ leBytes 2 a.count ++ leBytes 2 a.i.number ++ leBytes 8 r.len ++
    List.replicate 32 0
  let a := a.store 0 (r.base + 0x40) (leBytes 8 addrs.length ++ addrs.flatMap (leBytes 8))
  let a := a.store 0 (r.base + 0x10) head
  let a := a.store 0 (r.base + 8) (leBytes 8 (totalRows a.st.sets))
  a.store 0 r.base (leBytes 8 (r.base + 0x40))

/-- The end of a SORTRUN. -/
def sortrunFinal (a : Act) : Turn :=
  let r := a.destArea
  match a.openArea (swField a.w 104) 0x4040 with
  | .error f => .fail a f 0 0
  | .ok a =>
    match (a.drainRuns (a.st.held.length + 1)).bind Act.flushRun with
    | .error f => .fail a f 0 0
    | .ok a =>
      match a.writeSets r a.ins.length a.st.sets with
      | .error f => .fail a f 0 0
      | .ok (a, addrs) => .quiet ((a.writeHeader r addrs).finish)

/-- SORTRUN (R198). -/
def execSortrun (w : StageRef) (s : State) : Host.Outcome State Fault Refusal :=
  s.act fun d => d.stage w 0x10 (fun _ => true) fun a => a.streamTurn false sortrunBody sortrunFinal

/-! ### TOPK (R86, R205) -/

/-- K of a TOPK word. -/
def Act.topK (a : Act) : Nat := bitsOf a.w 64 16

/-- Insert behind every record that does not sort after it: equal keys keep arrival order. -/
def insertRec (x : SortRec) : List SortRec → List SortRec
  | [] => [x]
  | y :: ys => if bytesCmp x.key y.key = .lt then x :: y :: ys else y :: insertRec x ys

/-- Bytes of a held row of TOPK. -/
def Act.topSize (a : Act) : Nat := 8 + ((a.inTypes.map fun t => pad8 (byteWidth t)).foldl (· + ·) 0)

/-- One row enters when there is room or it sorts before the last held row. -/
def Act.topRow (a : Act) (row : Row) : Act :=
  let order := bitsOf a.w 56 8
  let key := sortKey (a.inTypes.take 1) false order 1 (row.take 1)
  let x : SortRec := { run := 0, arr := a.st.arr, key := key, row := row }
  let a := { a with d := a.d.tsWrite a.i (min a.st.held.length (a.topK - 1) * a.topSize) a.topSize }
  a.onSt fun st => { st with arr := st.arr + 1, held := (insertRec x st.held).take a.topK }

/-- Note the dictionary of every dcode input: one, or more than one (log entry 21). -/
def Act.topDicts (a : Act) (bs : List (Nat × Block)) : Act :=
  bs.zipIdx.foldl (fun a x => (a.dictsOf [x.1]).foldl (fun a base =>
    let more := a.st.bases.any fun y => y.1 == x.2 && (y.2.2 || y.2.1 != base)
    a.onSt fun st => { st with bases := upsert (fun y => y.1 == x.2) (x.2, base, more) st.bases }) a) a

/-- TOPK over one block set. -/
def topkBody (a : Act) (bs : List (Nat × Block)) : Turn :=
  match a.storeCheck (a.st.held.length * a.topSize) with
  | .error (d, f) => .fail { a with d := d } f (setSeq bs) 0
  | .ok a =>
    match a.readAll bs with
    | .error f => .fail a f (setSeq bs) 0
    | .ok (a, cols) => .done ((a.presentRows (setSeq bs) (setRows bs) cols).foldl Act.topRow (a.topDicts bs)) true

/-- The end of a TOPK: its rows in order as one block with sequence number 0. A translated version-2 program cuts
more than 8,192 rows into a second block (R59). -/
def topkFinal (a : Act) : Turn :=
  if !a.outRoom then .stall
  else
    let rows := (a.st.held.take a.maxRows).map fun x => x.row
    let seq := a.st.seqOut
    let b := (a.outs.zipIdx).foldl (fun a x =>
      match a.st.bases.find? fun y => y.1 == x.2 with
      | some y => a.putCol x.1 seq (if y.2.2 then none else some y.2.1) (colOfRows rows x.2)
      | none => a.put x.1 seq (colOfRows rows x.2)) a
    if a.st.held.length ≤ a.maxRows then .quiet b.finish
    else .quiet (b.onSt fun st => { st with held := st.held.drop a.maxRows, seqOut := st.seqOut + 1 })

/-- TOPK (R205). -/
def execTopk (w : StageRef) (s : State) : Host.Outcome State Fault Refusal :=
  s.act fun d => d.stage w 0x12 (fun _ => true) fun a => a.streamTurn false topkBody topkFinal

end Sys2Proof.Machine
end

