-- ==== Sys2Proof/Machine/MergeRuns.lean ====
section
/-! DEFINITION. MERGE with SOURCE RUNS (R84, R192, R200 to R203): part headers, the checked reading
of run blocks, the merge in passes of 16 and the fold of equal keys. -/

namespace Sys2Proof.Machine

/-- BLOCK_MALFORMED of a header, a disordered run or a wrong number of outputs: the spec names no
check for these, so DETAIL is 0 (DESIGN CHOICE, log entry 24). -/
def runsMalformed : Fail := malformed 0

/-- The header of a part (R199). -/
structure PartHead where
  base : Nat
  table : Nat
  keys : Nat
  order : Nat
  flags : Nat
  cols : Nat
  insts : Nat
  inst : Nat
  partLen : Nat
  deriving DecidableEq, Repr

/-- Read a part's header. -/
def Act.partHeadAt (a : Act) (base : Nat) : Except Fail PartHead :=
  match a.readFault base 64 addrFault with
  | some f => .error f
  | none =>
    let b := a.bytes base 64
    .ok { base := base, table := fieldAt b 0 8, keys := fieldAt b 0x10 1, order := fieldAt b 0x11 1,
          flags := fieldAt b 0x12 1, cols := fieldAt b 0x13 1, insts := fieldAt b 0x14 2,
          inst := fieldAt b 0x16 2, partLen := fieldAt b 0x18 8 }

/-- What reading the headers and run tables of `n` parts finds. -/
def Act.lookParts (a : Act) : Act :=
  if a.d.errs.planted.isEmpty then a else
  let base := a.k (bitsOf a.w 48 8)
  let a := a.look base 64
  let len := leNat (a.bytes (base + 0x18) 8)
  (List.range (leNat (a.bytes (base + 0x14) 2))).foldl (fun (a : Act) j =>
    let a := a.look (base + j * len) 64
    let t := leNat (a.bytes (base + j * len) 8)
    let a := a.look t 8
    a.look t (8 + 8 * min (leNat (a.bytes t 8)) 2048)) a

/-- A part's header agrees with part 0's. -/
def PartHead.agrees (h h0 : PartHead) (n : Nat) : Bool :=
  h.table != 0 && h.keys == h0.keys && h.order == h0.order && h.flags == h0.flags &&
    h.cols == h0.cols && h.insts == h0.insts && h.inst == n

/-- Read and check the headers of parts. -/
def Act.partHeads (a : Act) (h0 : PartHead) : List Nat → Except Fail (List PartHead)
  | [] => .ok []
  | n :: ns =>
    match a.partHeadAt (h0.base + n * h0.partLen) with
    | .error f => .error f
    | .ok h => if h.agrees h0 n then (a.partHeads h0 ns).map fun l => h :: l else .error runsMalformed

/-- PER_PART of the merge. -/
def Act.perPart (a : Act) : Bool := (a.k (bitsOf a.w 48 8 + 1)).testBit 0

/-- The parts a merge reads; the header of every part is checked (R200). -/
def Act.mergeParts (a : Act) : Except Fail (PartHead × List PartHead) :=
  match a.partHeadAt (a.k (bitsOf a.w 48 8)) with
  | .error f => .error f
  | .ok h0 =>
    if !h0.agrees h0 0 || h0.order != bitsOf a.w 56 8 || (a.perPart && h0.insts != a.count) then
      .error runsMalformed
    else (a.partHeads h0 (List.range h0.insts)).map fun l =>
      (h0, if a.perPart then l.filter fun h => h.inst == a.i.number else l)

/-- The column-set addresses of a part's runs. -/
def Act.runSets (a : Act) (h : PartHead) : Except Fail (List Nat) :=
  match a.readFault h.table 8 addrFault with
  | some f => .error f
  | none =>
    let n := leNat (a.bytes h.table 8)
    match a.readFault h.table (8 + 8 * n) addrFault with
    | some f => .error f
    | none => .ok ((List.range n).map fun j => leNat (a.bytes (h.table + 8 + 8 * j) 8))

/-- The sets of all parts, in part order and then run order. -/
def Act.allSets (a : Act) : List PartHead → Except Fail (List Nat)
  | [] => .ok []
  | h :: hs =>
    match a.runSets h with
    | .error f => .error f
    | .ok l => (a.allSets hs).map fun r => l ++ r

/-! ### Run blocks (R201) -/

/-- A block of a run that fails check `n`; a CRC mismatch is also recorded as a detected fault. -/
def Act.runBad (a : Act) (n : Nat) : Dev × Fail :=
  (if n = 3 then a.d.report ({ cls := 0x10, pod := some a.i.pod, source := a.i.tile, tile := a.i.tile } : ErrInfo)
  else a.d, malformed n)

/-- The folded functions: FN code and the column it reads. -/
def Act.foldCols (a : Act) (h : PartHead) : List (Nat × Nat) :=
  let c1 := if h.keys + 1 < h.cols then h.keys + 1 else h.keys
  [(bitsOf a.w 64 8, h.keys), (bitsOf a.w 72 8, c1)].filter fun x => x.1 != 0

/-- A function accepts a column's type (R192). -/
def foldTypeOk (fn t : Nat) : Bool :=
  match fn with
  | 1 => true
  | 2 => true
  | 3 => (isInt t && t != 0x06) || isFlt t
  | _ => t != 0x20

/-- A block of type `t` of column `col` is folded by a function that does not accept it (R192). -/
def Act.foldBad (a : Act) (h : PartHead) (col t : Nat) : Bool :=
  a.w.testBit 42 && (a.foldCols h).any fun x => x.2 == col && !foldTypeOk x.1 t

/-- The checks of a run block's husk (R148), with that of a folded column's type among check 4 (R192). -/
def Act.runHead (a : Act) (p : PartHead) (col addr : Nat) (t : Option Nat) (h : Husk) (crcOk : Bool) : Option Nat :=
  match h.headCheck (t.getD h.typ) addr crcOk with
  | some n => some (if 4 ≤ n ∧ a.foldBad p col h.typ = true then 4 else n)
  | none => if a.foldBad p col h.typ then some 4 else none

/-- Rows of a run block; every failure of its dictionary is BLOCK_MALFORMED (R201). -/
def Act.runRaw (a : Act) (h : Husk) (husk raw : List Byte) : Except (Dev × Fail) (Act × Nat × Col) :=
  match a.decodeBlock h.typ husk raw none with
  | .error f => .error (a.d, if f.status = addrFault.status then malformed 9 else f)
  | .ok x => .ok (x.1, h.typ, x.2)

/-- Read a block of a run. `t`: its column's type once known. -/
def Act.runBlock (a : Act) (p : PartHead) (col addr : Nat) (t : Option Nat) : Except (Dev × Fail) (Act × Nat × Col) :=
  if addr % 64 ≠ 0 then .error (a.runBad 1)
  else
    let a := a.lookBlock addr
    match a.readFault addr 64 addrFault with
    | some f => .error (a.d, f)
    | none =>
      let husk := a.bytes addr 64
      let h := Husk.ofBytes husk
      let len := if h.magic = 0x4B48 ∧ h.payloadLen ≤ 131072 then h.payloadLen else 0
      match a.readFault addr (64 + len) addrFault with
      | some f => .error (a.d, f)
      | none =>
        let a := a.touch col (a.d.localForm addr) (64 + len)
        let payload := a.bytes (addr + 64) len
        match a.runHead p col addr t h (blockCrc husk payload == h.crc) with
        | some n => .error (a.runBad n)
        | none =>
          match h.inflate payload with
          | none => .error (a.runBad 7)
          | some raw => if h.lengthOk raw then a.runRaw h husk raw else .error (a.runBad 8)

/-- What a merge knows of its columns' types. -/
abbrev ColTypes := List (Option Nat)

/-- Read the blocks of one group. -/
def Act.runGroup (a : Act) (p : PartHead) (s : ColSet) (g : Nat) : List Nat → ColTypes →
    Except (Dev × Fail) (Act × ColTypes × List Col)
  | [], ts => .ok (a, ts, [])
  | c :: cs, ts =>
    match a.runBlock p c (a.setAddr s g c) (ts.getD c none) with
    | .error e => .error e
    | .ok (a, t, col) =>
      (a.runGroup p s g cs (ts.set c (some t))).map fun x => (x.1, x.2.1, col :: x.2.2)

/-- Read the groups of a run into rows. -/
def Act.runGroups (a : Act) (p : PartHead) (s : ColSet) :
    List Nat → ColTypes → Except (Dev × Fail) (Act × ColTypes × List Row)
  | [], ts => .ok (a, ts, [])
  | g :: gs, ts =>
    match a.runGroup p s g (List.range s.cols) ts with
    | .error e => .error e
    | .ok (a, ts, cols) =>
      let n := (cols.headD []).length
      if cols.any fun c => c.length != n then .error (a.d, runsMalformed)
      else (a.runGroups p s gs ts).map fun x => (x.1, x.2.1, rowsOfCols n cols ++ x.2.2)

/-- A row with its key. -/
abbrev KeyRow := List Byte × Row

/-- No key of a source is below the one before. -/
def inOrder : List KeyRow → Bool
  | [] => true
  | [_] => true
  | x :: y :: rest => bytesCmp y.1 x.1 != .lt && inOrder (y :: rest)

/-- The types known so far. -/
def ColTypes.known (ts : ColTypes) : List Nat := ts.map fun t => t.getD 0

/-- Keys of rows with the header's ORDER and CASEFOLD. -/
def keyRows (h : PartHead) (ts : ColTypes) (rows : List Row) : List KeyRow :=
  rows.map fun r => (sortKey ts.known (h.flags.testBit 0) h.order h.keys r, r)

/-- Read the runs as sources. -/
def Act.readRuns (a : Act) (h : PartHead) : List Nat → ColTypes → Except (Dev × Fail) (Act × ColTypes × List (List KeyRow))
  | [], ts => .ok (a, ts, [])
  | s :: ss, ts =>
    let a := a.lookSet s
    match (a.openSet s h.cols).mapError fun f => if f.status = 0x24 then addrFault else f with
    | .error f => .error (a.d, f)
    | .ok cs =>
      match a.runGroups h cs (List.range cs.groups) ts with
      | .error e => .error e
      | .ok (a, ts, rows) =>
        let krs := keyRows h ts rows
        if !inOrder krs then .error (a.d, runsMalformed)
        else (a.readRuns h ss ts).map fun x => (x.1, x.2.1, krs :: x.2.2)

/-! ### Merging (R201, R203) -/

/-- Merge two sources: equal keys leave in source order. -/
def mergeTwo : Nat → List KeyRow → List KeyRow → List KeyRow
  | 0, _, _ => []
  | _ + 1, [], b => b
  | _ + 1, a, [] => a
  | fuel + 1, x :: xs, y :: ys =>
    if bytesCmp y.1 x.1 = .lt then y :: mergeTwo fuel (x :: xs) ys
    else x :: mergeTwo fuel xs (y :: ys)

/-- Merge sources in order. -/
def mergeMany (l : List (List KeyRow)) : List KeyRow :=
  l.foldl (fun a b => mergeTwo (a.length + b.length + 1) a b) []

/-- Cut rows into blocks of `n`. -/
def chunkRows (n : Nat) : Nat → List Row → List (List Row)
  | 0, _ => []
  | fuel + 1, l => if l.isEmpty then [] else l.take n :: chunkRows n fuel (l.drop n)

/-- Write the block groups of an intermediate run; their addresses. -/
def Act.writeRunGroups (a : Act) (r : Area) (types : List Nat) : List (List Row) → Except Fail (Act × List (List Nat))
  | [] => .ok (a, [])
  | rows :: rest =>
    let x := a.plainRows types rows
    match x.1.writeGroup r (rowBlocks true types x.2) 0 with
    | .error f => .error f
    | .ok (a, addrs) => (a.writeRunGroups r types rest).map fun x => (x.1, addrs :: x.2)

/-- Write an intermediate run as a column set (R199, R203). -/
def Act.writeInterRun (a : Act) (r : Area) (types : List Nat) (rows : List Row) : Except Fail Act :=
  let a := a.onSt fun st => { st with cursor := roundUp (max st.cursor 64) 64 }
  match a.writeRunGroups r types (chunkRows a.maxRows (rows.length + 1) rows) with
  | .error f => .error f
  | .ok (a, groups) => (a.writeSet r { groups := groups, rows := rows.length } types.length).map fun x => x.1

/-- One pass over the sources, in groups of 16. -/
def Act.runPass (a : Act) (r : Area) (types : List Nat) : Nat → List (List KeyRow) →
    Except Fail (Act × List (List KeyRow))
  | 0, l => .ok (a, l)
  | fuel + 1, l =>
    if l.isEmpty then .ok (a, [])
    else
      let m := mergeMany (l.take 16)
      match a.writeInterRun r types (m.map fun x => x.2) with
      | .error f => .error f
      | .ok a => (a.runPass r types fuel (l.drop 16)).map fun x => (x.1, m :: x.2)

/-- Passes until 16 or fewer sources remain (R84). -/
def Act.runPasses (a : Act) (r : Area) (types : List Nat) : Nat → List (List KeyRow) →
    Except Fail (Act × List (List KeyRow))
  | 0, l => .ok (a, l)
  | fuel + 1, l =>
    if l.length ≤ 16 then .ok (a, l)
    else match a.runPass r types l.length l with
      | .error f => .error f
      | .ok (a, l) => a.runPasses r types fuel l

/-! ### FOLD (R192, R202) -/

/-- Fold rows of one key. -/
def foldGroup (f : AggFn) (col : Nat) (rows : List Row) : Option Val :=
  f.result (rows.foldl (fun acc r => (f.fold acc (r.getD col none)).getD acc) f.init)

/-- Rows of equal adjacent keys. -/
def groupKeys : List KeyRow → List (List KeyRow)
  | [] => []
  | x :: xs => match groupKeys xs with
    | (y :: ys) :: rest => if x.1 = y.1 then (x :: y :: ys) :: rest else [x] :: (y :: ys) :: rest
    | rest => [x] :: rest

/-- The folded output rows. -/
def Act.foldOut (a : Act) (h : PartHead) (types : List Nat) (l : List KeyRow) : List Row :=
  let fns := (a.foldCols h).map fun x => (({ fn := x.1, typ := types.getD x.2 0, ovf := 0, seed := 0 } : AggFn), x.2)
  (groupKeys l).map fun g =>
    let rows := g.map fun x => x.2
    ((rows.headD []).take h.keys) ++ fns.map fun f => foldGroup f.1 f.2 rows

/-- The outputs fit the columns (R202). -/
def Act.outsOk (a : Act) (h : PartHead) : Bool :=
  if a.w.testBit 42 then a.outs.length == h.keys + (a.foldCols h).length
  else decide (a.outs.length ≤ h.cols)

/-- Types the columns must have: those of the outputs that carry them. -/
def Act.colTypes (a : Act) (h : PartHead) : ColTypes :=
  let n := if a.w.testBit 42 then h.keys else a.outs.length
  (List.range h.cols).map fun c =>
    if c < n then some (a.p.typeOf (streamNo (a.outs.getD c 0))) else none

/-- The merged output rows of a RUNS merge. -/
def Act.runRows (a : Act) : Except (Dev × Fail) (Act × List Row) :=
  let a := a.lookParts
  match a.mergeParts with
  | .error f => .error (a.d, f)
  | .ok (h, parts) =>
    if !a.outsOk h then .error (a.d, runsMalformed)
    else match a.allSets parts with
      | .error f => .error (a.d, f)
      | .ok sets =>
        match a.readRuns h sets (a.colTypes h) with
        | .error e => .error e
        | .ok (a, ts, srcs) =>
          let types := ts.known
          match a.runPasses a.mergeArea types 8 srcs with
          | .error f => .error (a.d, f)
          | .ok (a, l) =>
            let m := mergeMany l
            .ok (a, if a.w.testBit 42 then a.foldOut h types m else m.map fun x => x.2)

/-- MERGE with SOURCE RUNS (R200). -/
def execMergeRuns (w : StageRef) (s : State) : Host.Outcome State Fault Refusal :=
  s.act fun d => d.stage w 0x11 (fun w => mergeSource w == 0) fun a => ([], a.rowSource Act.runRows)

end Sys2Proof.Machine
end

