-- ==== Sys2Proof/Machine/Emit.lean ====
section
/-! DEFINITION. EMIT (R89) and its GATHER: Arrow record batches (R142 to R144), the result buffer and
the areas that receive them (R317, R318, R320). The header of a result buffer is written at the
run's completion (R319). -/

namespace Sys2Proof.Machine

/-! ### Arrow fields (R142, R143, R318) -/

/-- ATYPE of a device type; `bin` chooses Binary for strings (R144). -/
def arrowType (t : Nat) (bin : Bool) : Nat :=
  if t ≤ 0x05 then t
  else if t = 0x06 then 15
  else if t ≤ 0x0D then t - 4
  else if t = 0x10 then 10
  else if t = 0x11 then 11
  else if t = 0x18 then 12
  else if t = 0x19 then 13
  else if isDec t then 14
  else if bin then 17 else 16

/-- A field of a batch: its type, precision and buffers. -/
structure ArrowField where
  atype : Nat
  prec : Nat
  scale : Nat
  rows : Nat
  nulls : Nat
  validity : List Byte
  offs : List Byte
  values : List Byte

/-- Validity bits of a column, always present. -/
def validityBits (c : Col) : List Byte := leBytes ((c.length + 7) / 8) (bitmap (c.map Option.isSome))

/-- A field of a column of type `t`, with its bytes of K60 and K61. -/
def arrowField (t p kind : Nat) (c : Col) : ArrowField :=
  let str := t == 0x20 || t == 0x21
  { atype := arrowType t (kind == 1), prec := if isDec t then (if p = 0 then 38 else p) else 0,
    scale := scaleOf t, rows := c.length, nulls := nullCount c, validity := validityBits c,
    offs := if str then (offsets c 0).flatMap (leBytes 4) else [],
    values := if t = 0x01 then leBytes ((c.length + 7) / 8) (bitmap (c.map fun v => v == some (.int 1)))
      else c.flatMap (slotBytes (if str then 0x20 else t)) }

/-- A field descriptor with its buffers at `pos`, and the buffers. -/
def ArrowField.lay (f : ArrowField) (pos : Nat) : List Byte × List Byte :=
  let v := padTo 64 f.validity
  let o := padTo 64 f.offs
  let x := padTo 64 f.values
  let opos := pos + v.length
  let vpos := opos + o.length
  (leBytes 1 f.atype ++ [0] ++ leBytes 1 f.prec ++ leBytes 1 f.scale ++ leBytes 4 f.rows ++
    leBytes 4 f.nulls ++ leBytes 4 pos ++ leBytes 4 (if f.offs.isEmpty then 0 else opos) ++
    leBytes 4 vpos ++ leBytes 4 f.values.length ++ leBytes 4 0, v ++ o ++ x)

/-- Lay out the fields one after another: descriptors and buffers. -/
def layFields : List ArrowField → Nat → List Byte × List Byte
  | [], _ => ([], [])
  | f :: fs, pos =>
    let x := f.lay pos
    let y := layFields fs (pos + x.2.length)
    (x.1 ++ y.1, x.2 ++ y.2)

/-- The bytes of a batch (R318). -/
def batchBytes (inst seq rows : Nat) (fs : List ArrowField) : List Byte :=
  let head := roundUp (32 + 32 * fs.length) 64
  let x := layFields fs head
  padTo 64 (leBytes 4 0x5441424B ++ leBytes 2 fs.length ++ leBytes 2 inst ++ leBytes 4 rows ++
    leBytes 4 seq ++ leBytes 4 (head + x.2.length) ++ leBytes 12 0 ++ x.1) ++ x.2

/-- A result header (R317). -/
def resultHeader (fields batches rows used : Nat) : List Byte :=
  leBytes 4 0x5345524B ++ leBytes 2 1 ++ leBytes 2 fields ++ leBytes 4 batches ++ leBytes 4 0 ++
    leBytes 8 rows ++ leBytes 8 used ++ leBytes 32 0

/-! ### GATHER (R89) -/

/-- INDEX_RANGE. -/
def indexRange : Fail := ⟨0x43, 0⟩

/-- The set of GSRC_K and the type of its husks, IN0's type when it has no groups. -/
def Act.gatherSet (a : Act) : Except Fail (ColSet × Nat) :=
  match a.openSet (a.k (swField a.w 72)) 1 with
  | .error f => .error f
  | .ok s =>
    if s.groups = 0 then .ok (s, a.p.typeOf (streamNo (swField a.w 8)))
    else
      let addr := a.setAddr s 0 0
      if addr % 64 ≠ 0 then .error (malformed 1)
      else match a.readFault addr 64 addrFault with
        | some f => .error f
        | none => .ok (s, (Husk.ofBytes (a.bytes addr 64)).typ)

/-- Read a gathered block of type `t` (R148). -/
def Act.gatherBlock (a : Act) (t addr : Nat) : Except Fail (Act × Col) :=
  if addr % 64 ≠ 0 then .error (malformed 1)
  else match a.readFault addr 64 addrFault with
    | some f => .error f
    | none =>
      let husk := a.bytes addr 64
      let h := Husk.ofBytes husk
      if h.magic ≠ 0x4B48 then .error (malformed 1)
      else if 131072 < h.payloadLen then .error (malformed 2)
      else match a.readFault addr (64 + h.payloadLen) addrFault with
        | some f => .error f
        | none =>
          let a := a.touch 5 (a.d.localForm addr) (64 + h.payloadLen)
          let payload := a.bytes (addr + 64) h.payloadLen
          if blockCrc husk payload ≠ h.crc then .error ⟨0x21, 0⟩
          else match h.headCheck t addr true with
            | some n => .error (malformed n)
            | none =>
              match h.inflate payload with
              | none => .error (malformed 7)
              | some raw => if h.lengthOk raw then a.decodeBlock t husk raw none else .error (malformed 8)

/-- What gathering the values of a column of indices finds. -/
def Act.lookGather (a : Act) (s : ColSet) (c : Col) : Act :=
  if a.d.errs.planted.isEmpty then a else
  c.foldl (fun (a : Act) v =>
    match v with
    | some (.int x) => if x.toNat / 16384 < s.groups then a.lookBlock (a.setAddr s (x.toNat / 16384) 0) else a
    | _ => a) a

/-- The value of one index. -/
def Act.gatherOne (a : Act) (s : ColSet) (t : Nat) (v : Option Val) : Except Fail (Act × Option Val) :=
  match v with
  | some (.int x) =>
    let i := x.toNat
    if s.rows ≤ i ∨ s.groups ≤ i / 16384 then .error indexRange
    else match a.gatherBlock t (a.setAddr s (i / 16384) 0) with
      | .error f => .error f
      | .ok (a, c) => if c.length ≤ i % 16384 then .error indexRange else .ok (a, c.getD (i % 16384) none)
  | _ => .ok (a, none)

/-- The values of a column of indices. -/
def Act.gather (a : Act) (s : ColSet) (t : Nat) : Col → Except Fail (Act × Col)
  | [] => .ok (a, [])
  | v :: vs =>
    match a.gatherOne s t v with
    | .error f => .error f
    | .ok (a, x) => (a.gather s t vs).map fun y => (y.1, x :: y.2)

/-! ### Destinations (R317, R320) -/

/-- Where an EMIT writes. -/
structure EmitDest where
  host : Bool
  base : Nat
  len : Nat

/-- DEST_K of an EMIT word. -/
def Act.emitK (a : Act) : Nat := swField a.w 104

/-- The result buffer of the entry, or the area of DEST_K. -/
def Act.emitDest (a : Act) : EmitDest :=
  if a.emitK = 0xFF then
    { host := a.r.flag 4, base := fieldAt a.r.entry 0x20 8, len := fieldAt a.r.entry 0x28 8 }
  else { host := swMode a.w 0, base := a.k a.emitK, len := a.k (a.emitK + 1) }

/-- Cursor, batches and rows of the destination. -/
def Act.emitCount (a : Act) : Nat × Nat × Nat :=
  if a.emitK = 0xFF then (a.r.resUsed, a.r.resBatches, a.r.resRows)
  else ((a.r.areas.find? fun x => x.1 == a.i.pipe && x.2.1 == a.n).map fun x => x.2.2).getD (64, 0, 0)

/-- Replace them. -/
def Act.setEmitCount (a : Act) (c : Nat × Nat × Nat) : Act :=
  let r := if a.emitK = 0xFF then
      { a.r with resUsed := c.1, resBatches := c.2.1, resRows := c.2.2, resFields := a.ins.length }
    else
      let areas := upsert (fun x => x.1 == a.i.pipe && x.2.1 == a.n) (a.i.pipe, a.n, c) a.r.areas
      { a.r with areas := areas }
  { a with r := r, d := a.d.setRun r }

/-- Host bytes are written under the pod's PASID. -/
def Act.pasid (a : Act) : Nat := a.d.get F.POD_PASID_PASID a.i.pod

/-- What writing bytes at an offset of a destination comes to. -/
inductive Put where
  | ok (a : Act)
  | wait (a : Act)
  | fail (a : Act) (f : Fail)

/-- Write bytes at an offset (R89, R294). -/
def Act.emitPut (a : Act) (t : EmitDest) (off : Nat) (bs : List Byte) : Put :=
  let addr := t.base + off
  if t.host then
    match a.d.xlate a.pasid addr bs.length with
    | .ok => .ok { a with d := (a.d.cacheXlate a.pasid addr bs.length).hst a.pasid addr bs }
    | .wait => .wait { a with d := a.d.askPage a.pasid addr bs.length (.stage a.i.tile a.i.slot a.n) }
    | .fault => .fail { a with d := a.d.forgetFault a.pasid addr bs.length } ⟨0x51, 0⟩
  else if !a.inPod addr bs.length then .fail a addrFault
  else .ok (a.store 0 addr bs)

/-! ### EMIT -/

/-- The rows of an input; a dcode column gives the entries' bytes (R142). -/
def Act.emitCol (a : Act) (v : Nat) (b : Block) : Except Fail (Act × Nat × Col) :=
  let t := a.p.typeOf (streamNo v)
  match b.body with
  | .encoded h raw => (a.decodeBlock (zoneTypeOf t) h raw none).map fun x => (x.1, t, x.2)
  | .decoded c => .ok (a, t, c)
where
  /-- A dcode column is read as strings. -/
  zoneTypeOf (t : Nat) : Nat := if t = 0x21 then 0x20 else t

/-- The columns of every input. -/
def Act.emitCols (a : Act) : List (Nat × Block) → Except Fail (Act × List (Nat × Col))
  | [] => .ok (a, [])
  | (v, b) :: rest =>
    match a.emitCol v b with
    | .error f => .error f
    | .ok (a, x) => (a.emitCols rest).map fun y => (y.1, x :: y.2)

/-- Under GATHER, field 0 becomes the gathered column. -/
def Act.gatherField (a : Act) (cols : List (Nat × Col)) : Except Fail (Act × List (Nat × Col)) :=
  match cols, a.st.source with
  | (_, c) :: rest, some (s, t) => (a.gather s t c).map fun x => (x.1, (t, x.2) :: rest)
  | _, _ => .ok (a, cols)

/-- A byte of K60 (`hi` false) or K61 for field `f`. Where it is illegal for a gathered type that no check has
seen, what is written is a free legal value (R144; log entry 81). -/
def Act.emitChoice (a : Act) (hi : Bool) (f : Nat) : Nat :=
  let v := bitsOf (a.k (if hi then 61 else 60)) (8 * f) 8
  let free := (Config.freeWord a.d.fresh).toNat
  if hi then (if v ≤ 1 then v else free % 2) else (if v ≤ 38 then v else free % 38 + 1)

/-- Write one batch: its space is taken first (R89, R317). -/
def Act.writeBatch (a : Act) (seq : Nat) (cols : List (Nat × Col)) (rows : Nat) : Turn :=
  let fs := cols.zipIdx.map fun x =>
    arrowField x.1.1 (a.emitChoice false x.2) (a.emitChoice true x.2) x.1.2
  let a := { a with d := { a.d with fresh := a.d.fresh + 1 } }
  let bs := batchBytes a.i.number seq rows fs
  let t := a.emitDest
  let c := a.emitCount
  let took := a.setEmitCount (c.1 + bs.length, c.2.1 + 1, c.2.2 + rows)
  if t.len < c.1 + bs.length then .fail a destFull seq 0
  else match took.emitPut t c.1 bs with
    | .ok b => .done b true
    | .wait b => .quiet { a with d := { a.d with host := b.d.host } }
    | .fail b f => .fail b f seq 0

/-- The set of a GATHER is checked when the instance starts, and kept (R89). -/
def Act.gatherStart (a : Act) : Act × Option Fail :=
  if swOp a.w ≠ 0x18 ∨ swMode a.w 1 = false ∨ a.st.source.isSome then (a, none)
  else match a.gatherSet with
    | .error f => (a, some f)
    | .ok x => (a.onSt fun st => { st with source := some x }, none)

/-- EMIT over one block set. -/
def emitBody (a : Act) (bs : List (Nat × Block)) : Turn :=
  let seq := setSeq bs
  match a.emitCols bs with
  | .error f => .fail a f seq 0
  | .ok (a, cols) =>
    let sel := a.selected seq (setRows bs)
    let rows := (sel.filter id).length
    if rows = 0 then .done a true
    else
      let a := match a.st.source, cols with
        | some x, c :: _ => a.lookGather x.1 (keepRows sel c.2)
        | _, _ => a
      match a.gatherField (cols.map fun c => (c.1, keepRows sel c.2)) with
      | .error f => .fail a f seq 0
      | .ok (a, cols) => a.writeBatch seq cols rows

/-- Every other instance of the pipeline here has ended this stage. -/
def Act.lastEmit (a : Act) : Bool :=
  (a.d.pipeInsts a.i.ring a.i.index a.i.pipe).all fun i =>
    i.number == a.i.number || ((i.stages[a.n]?).map fun st => st.ended).getD false

/-- The end of the inputs: the last instance writes the header of an area (R317, R320). -/
def emitFinal (a : Act) : Turn :=
  if a.emitK = 0xFF then
    .quiet { (if a.r.resFields = 0 then a.setEmitCount a.emitCount else a) with st := { a.st with ended := true } }
  else if !a.lastEmit then .quiet a.finish
  else
    let t := a.emitDest
    let c := a.emitCount
    if t.len < 64 then .fail a destFull 0 0
    else match a.emitPut t 0 (resultHeader a.ins.length c.2.1 c.2.2 c.1) with
      | .ok b => .quiet b.finish
      | .wait b => .quiet b
      | .fail b f => .fail b f 0 0

/-- EMIT (R89). -/
def execEmit (w : StageRef) (s : State) : Host.Outcome State Fault Refusal :=
  s.act fun d => d.stage w 0x18 (fun _ => true) fun a => a.streamTurn false emitBody emitFinal

end Sys2Proof.Machine
end

