-- ==== Sys2Proof/Machine/Yield.lean ====
section
/-! DEFINITION. YIELD, its events and its timeout (R91, R390, R398), and the stop of an instance at
its next block boundary (R50). -/

namespace Sys2Proof.Machine

/-- Pass the blocks of a set to the outputs of the same position, unchanged. -/
def Act.passAll (a : Act) : List Nat → List (Nat × Block) → Act
  | v :: vs, x :: xs => (a.putBody v x.2.seq x.2.body x.2.ann).passAll vs xs
  | _, _ => a

/-- Pass a set, with `n` blocks counted since the last event. -/
def Act.yieldPass (a : Act) (n : Nat) (bs : List (Nat × Block)) : Turn :=
  .done ((a.passAll a.outs bs).onSt fun st => { st with count := n, posted := false, heldUs := 0 }) true

/-- The thread of an event (R390). -/
def Act.eventThread (a : Act) (seq : Nat) : NewThread :=
  { pod := a.i.pod, priv := false, ring := a.i.ring, index := a.i.index, pipe := a.i.pipe,
    inst := a.i.number, stage := a.n, prio := 16, pc := 4 * bitsOf a.w 64 16,
    g := [(1, seq), (2, a.n), (3, a.i.number), (4, a.r.handle)] }

/-- An event is due: post it, then hold the block under WAIT or pass it (R91, R398). -/
def Act.yieldEvent (a : Act) (seq : Nat) (bs : List (Nat × Block)) : Turn :=
  match a.d.spawn (a.eventThread seq) with
  | none => .back { a with d := a.d.countStall }
  | some (_, d) =>
    let a := { a with d := d.schedule }
    if swMode a.w 0 then .quiet (a.onSt fun st => { st with heldBlk := true, posted := true, heldUs := 0 })
    else a.yieldPass 0 bs

/-- YIELD over one block set. -/
def yieldBody (a : Act) (bs : List (Nat × Block)) : Turn :=
  let seq := (bs.head?.map fun x => x.2.seq).getD 0
  if a.st.heldBlk then .hold
  else if a.st.posted then a.yieldPass 0 bs
  else if a.st.count + 1 < bitsOf a.w 48 16 then a.yieldPass (a.st.count + 1) bs
  else a.yieldEvent seq bs

/-- YIELD (R91). -/
def execYieldStage (w : StageRef) (s : State) : Host.Outcome State Fault Refusal :=
  s.act fun d => d.stage w 0x1A (fun _ => true) fun a => a.streamTurn true yieldBody endStage

/-- The block that a YIELD holds has waited 10 ms of running time (R91): the stage ends with
YIELD_TIMEOUT. -/
def Dev.yieldTimeout (d : Dev) (w : StageRef) : Dev :=
  match d.actOf w with
  | none => d
  | some a =>
    if swOp a.w = 0x1A && a.st.heldBlk && a.i.life == .running && d.podState a.i.pod != 3 then
      let seq := ((a.ins.head?.bind fun v => a.inBlock v).map fun b => b.seq).getD 0
      d.failInst a.i a.n ⟨0x70, 0⟩ seq 0
    else d

/-- YIELD_TIMEOUT (R91). -/
def execYieldTimeout (w : StageRef) (s : State) : Host.Outcome State Fault Refusal :=
  s.act fun d => d.yieldTimeout w

/-- STOP_AT_BLOCK_BOUNDARY: an instance whose run has failed stops and enters FAILED (R50). -/
def execStopAtBlockBoundary (t : Fin 64) (slot : Fin 4) (s : State) : Host.Outcome State Fault Refusal :=
  s.act fun d =>
    match d.findInst t.val slot.val with
    | some i => if i.stop && i.life != .done && i.life != .failed then d.instFailed i else d
    | none => d

end Sys2Proof.Machine
end

