-- ==== Sys2Proof/Machine/Exchange.lean ====
section
/-! DEFINITION. EXCHANGE (R88), its credits (R377), packets (R378) and end marks (R376, R379). A
message leaves as `Out.xfer` with kind 1 request, 2 grant, 3 hold, 4 packet or 5 END, also when its
destination is an instance of this device (R376). -/

namespace Sys2Proof.Machine

/-! ### Numbering across the span (R376) -/

/-- This device's span number. -/
def Dev.self (d : Dev) : Nat := d.get F.LNK_SPAN_CFG_SPAN_NO

/-- The members of a run, ascending, this device among them. -/
def Dev.runMembers (d : Dev) (r : Run) : List Nat :=
  let peers := d.runPeers r
  (List.range 8).filter fun k => k == d.self || peers.contains k

/-- Instances of a pipeline on a member: placed here, or as its JOIN said. -/
def Dev.memberCount (d : Dev) (r : Run) (pipe k : Nat) : Nat :=
  if k = d.self then (d.pipeInsts r.ring r.index pipe).length
  else ((r.joins.find? fun j => j.member == k).map fun j => j.counts.getD pipe 0).getD 0

/-- Every instance of a pipeline across the span, in global order: (member, local number). -/
def Dev.spanInsts (d : Dev) (r : Run) (pipe : Nat) : List (Nat × Nat) :=
  (d.runMembers r).flatMap fun k => (List.range (d.memberCount r pipe k)).map fun i => (k, i)

/-- The global number of an instance. -/
def globalOf (l : List (Nat × Nat)) (m i : Nat) : Option Nat := l.findIdx? fun x => x == (m, i)

/-- A member can be reached: this device, or a live peer. -/
def Dev.peerLive (d : Dev) (k : Nat) : Bool := k == d.self || (d.get F.LNK_SPAN_STATUS_LIVE).testBit k

/-! ### The producer -/

/-- What identifies a stage's traffic: GROUP, TAG, pipeline, stage, own number and the other end's. -/
def Act.xHead (a : Act) (inst : Nat) : List Nat :=
  [a.d.get F.LNK_POD_SPAN_GROUP a.i.pod, a.r.tag, a.i.pipe, a.n, a.i.number, inst]

/-- A value in a packet. -/
def packVal : Option Val → List Nat
  | none => [0]
  | some (.int v) => [1, ofSigned 128 v]
  | some (.flt b) => [1, b]
  | some (.str s) => 2 :: s.length :: s.map BitVec.toNat

/-- An annotation in a packet. -/
def packAnn : Option Word → List Nat
  | none => [0]
  | some w => [1, w.toNat]

/-- Bytes one value and its annotation take of a credit (log entry 29). -/
def xBytes (t : Nat) (v : Option Val) (ann : Option Word) : Nat :=
  stagedLen t v + if ann.isSome then 8 else 0

/-- The rows that fit a credit: at most 256, and 4,096 bytes on every stream; one row at least
(log entry 29). -/
def fitRows (types : List Nat) : List (Row × List (Option Word)) → List Nat → Nat → Nat
  | [], _, n => n
  | (r, an) :: rest, used, n =>
    let used := (types.zip used).zipIdx.map fun x => x.1.2 + xBytes x.1.1 (r.getD x.2 none) (an.getD x.2 none)
    if n ≠ 0 ∧ (256 ≤ n ∨ used.any (fun u => decide (4096 < u)) = true) then n
    else fitRows types rest used (n + 1)

/-- The credits a stage keeps for a destination. -/
def StageSt.credit (st : StageSt) (dest : Nat) : Credit :=
  (st.credits.find? fun c => c.dest == dest).getD { dest := dest, held := 0, asked := false, waitUs := 0 }

/-- Replace them. -/
def StageSt.setCredit (st : StageSt) (c : Credit) : StageSt :=
  { st with credits := upsert (fun x => x.dest == c.dest) c st.credits }

/-- Send one packet of a destination's rows, or ask for a credit (R377, R378). -/
def Act.sendRows (a : Act) (who : Nat × Nat) (b : RowBuf) : Nat → Act
  | 0 => a
  | fuel + 1 =>
    let c := a.st.credit b.key
    if b.rows.isEmpty then a.onSt fun st => { st with bufs := st.bufs.filter fun x => x.key != b.key }
    else if c.held = 0 then
      (if c.asked then a
      else { a with d := a.d.emit (.xfer who.1 1 (a.xHead who.2)),
                    st := a.st.setCredit { c with asked := true, waitUs := 0 } })
    else
      let n := fitRows a.inTypes (b.rows.zip b.anns) (a.inTypes.map fun _ => 0) 0
      let body := ((b.rows.zip b.anns).take n).flatMap fun x =>
        x.1.flatMap packVal ++ x.2.flatMap packAnn
      let b : RowBuf := { b with rows := b.rows.drop n, anns := b.anns.drop n }
      let d := a.d.emit (.xfer who.1 4 (a.xHead who.2 ++ n :: body))
      let st := a.st.setCredit { c with held := c.held - 1 }
      let st := { st with bufs := upsert (fun x => x.key == b.key) b st.bufs }
      ({ a with d := d, st := st } : Act).sendRows who b fuel

/-- Add a row to its destination. -/
def addRow (bufs : List RowBuf) (key : Nat) (row : Row) (an : List (Option Word)) : List RowBuf :=
  match bufs.find? fun b => b.key == key with
  | some b => upsert (fun x => x.key == key) { b with rows := b.rows ++ [row], anns := b.anns ++ [an] } bufs
  | none => bufs ++ [{ key := key, rows := [row], anns := [an] }]

/-- The destination of a row among `n` (R88). -/
def Act.destOf (a : Act) (n ann : Nat) : Option Nat :=
  if swMode a.w 0 then (if ann < n then some ann else none) else some (hashDest ann n)

/-- Sort the present rows of a block set by destination; none is INDEX_RANGE. -/
def Act.routeRows (a : Act) (n : Nat) (bs : List (Nat × Block)) :
    List (Nat × Nat × Row) → Option Act
  | [] => some a
  | (r, ann, row) :: rest =>
    let ans := bs.map fun x => x.2.ann.map fun l => l.getD r 0
    match a.destOf n ann with
    | none => none
    | some k => (a.onSt fun st => { st with bufs := addRow st.bufs k row ans }).routeRows n bs rest

/-- A destination with rows waiting, or any at all once every input has ended, is on a fenced
member. -/
def Act.lostPeer (a : Act) (dests : List (Nat × Nat)) (keys : List Nat) : Option Nat :=
  ((keys.filterMap fun k => dests[k]?).find? fun x => !a.d.peerLive x.1).map fun x => x.1

/-- Send what the credits allow; the block set is finished once all its rows have gone. -/
def Act.sendAll (a : Act) (dests : List (Nat × Nat)) (seq : Nat) : Turn :=
  match a.lostPeer dests (a.st.bufs.map fun b => b.key) with
  | some k => .fail a ⟨0x60, k⟩ seq 0
  | none =>
    let a := a.st.bufs.foldl (fun (a : Act) b =>
      match dests[b.key]? with
      | some who => a.sendRows who b (b.rows.length + 1)
      | none => a) a
    if a.st.bufs.isEmpty then .done (a.onSt fun st => { st with heldBlk := false }) true else .quiet a

/-- EXCHANGE over one block set. -/
def exchangeBody (a : Act) (bs : List (Nat × Block)) : Turn :=
  let dests := a.d.spanInsts a.r a.i.pipe
  let seq := setSeq bs
  if a.st.heldBlk then a.sendAll dests seq
  else match a.readAll bs with
    | .error f => .fail a f seq 0
    | .ok (a, cols) =>
      let n := setRows bs
      let x := a.fillAnn bs
      let a := x.1
      let anns := (List.range n).map fun r => (x.2.head?.map fun y => y.2.annAt r).getD 0
      let rows := keepRows (a.selected seq n) ((List.range n).zip (anns.zip (rowsOfCols n cols)))
      match a.routeRows dests.length bs rows with
      | none => .fail a ⟨0x43, 0⟩ seq 0
      | some a => (a.onSt fun st => { st with heldBlk := true }).sendAll dests seq

/-- The end of the inputs: END goes to every consuming instance (R379). The outputs end at their
consumers. -/
def exchangeFinal (a : Act) : Turn :=
  let dests := a.d.spanInsts a.r a.i.pipe
  match a.lostPeer dests (List.range dests.length) with
  | some k => .fail a ⟨0x60, k⟩ 0 0
  | none =>
    let d := dests.foldl (fun (d : Dev) x => d.emit (.xfer x.1 5 (a.xHead x.2))) a.d
    .quiet { a with d := d, st := { a.st with ended := true } }

/-- EXCHANGE (R88). -/
def execExchange (w : StageRef) (s : State) : Host.Outcome State Fault Refusal :=
  s.act fun d => d.stage w 0x20 (fun _ => true) fun a => a.streamTurn false exchangeBody exchangeFinal

/-! ### Credits at the producer (R377) -/

/-- Change the credits of the EXCHANGE stage `x` names for the destination at its other end. -/
def Dev.onCredit (d : Dev) (x : XRef) (f : Credit → Credit) : Dev :=
  match d.findInst x.tile.val x.slot.val with
  | none => d
  | some i =>
    match (d.findRun i.ring i.index).bind fun r => globalOf (d.spanInsts r i.pipe) x.member.val x.inst.toNat,
        i.stages[x.stage.val]? with
    | some g, some st =>
      if (st.credit g).asked then
        d.setInst { i with stages := i.stages.set x.stage.val (st.setCredit (f (st.credit g))) }
      else d
    | _, _ => d

/-- CREDIT_GRANT: one credit more, at most two (R377). -/
def execCreditGrant (x : XRef) (s : State) : Host.Outcome State Fault Refusal :=
  s.act fun d => d.onCredit x fun c => { c with held := min 2 (c.held + 1), asked := false, waitUs := 0 }

/-- CREDIT_HOLD: the request stands, and its wait begins anew (R377). -/
def execCreditHold (x : XRef) (s : State) : Host.Outcome State Fault Refusal :=
  s.act fun d => d.onCredit x fun c => { c with waitUs := 0 }

/-- CREDIT_TIMEOUT: neither a GRANT nor a HOLD came within CREDIT_TO_US (R377). -/
def execCreditTimeout (x : XRef) (s : State) : Host.Outcome State Fault Refusal :=
  s.act fun d =>
    match d.findInst x.tile.val x.slot.val with
    | none => d
    | some i =>
      match (d.findRun i.ring i.index).bind fun r => globalOf (d.spanInsts r i.pipe) x.member.val x.inst.toNat,
          i.stages[x.stage.val]? with
      | some g, some st =>
        if (st.credit g).asked && i.life == .running && !st.ended then
          d.failInst i x.stage.val ⟨0x61, x.member.val⟩ 0 0
        else d
      | _, _ => d

/-! ### The consumer (R377 to R379) -/

/-- The assembly of the group that stage `stage` of an instance's pipeline sends. -/
def Dev.xrecv (d : Dev) (tile slot stage : Nat) : XRecv :=
  (d.xrecvs.find? fun x => x.tile == tile && x.slot == slot && x.stage == stage).getD
    { tile := tile, slot := slot, stage := stage, rows := [], nextSeq := 0, granted := [], holds := [], ends := [] }

/-- Put it back. -/
def Dev.setXrecv (d : Dev) (x : XRecv) : Dev :=
  let same := fun (y : XRecv) => y.tile == x.tile && y.slot == x.slot && y.stage == x.stage
  { d with xrecvs := upsert same x d.xrecvs }

/-- A consuming instance with its run, pipeline and assembly. -/
structure XAt where
  i : Inst
  r : Run
  p : Pipe
  x : XRecv
  /-- The free values taken so far. -/
  fresh : Nat

/-- The consumer a message is for: the named stage is an EXCHANGE. -/
def Dev.xAt (d : Dev) (q : XRef) : Option XAt :=
  (d.findInst q.tile.val q.slot.val).bind fun i =>
  (d.findRun i.ring i.index).bind fun r =>
  (r.pipeAt i.pipe).bind fun p =>
    if swOp (p.word q.stage.val) = 0x20 then some ⟨i, r, p, d.xrecv q.tile.val q.slot.val q.stage.val, d.fresh⟩ else none

/-- The streams of the group. -/
def XAt.streams (c : XAt) : List Nat := (named (outFields (c.p.word c.x.stage))).map streamNo

/-- A value of a packet as a value of type `t`. -/
def xval (t : Nat) : XVal → Option Val
  | .null => none
  | .int v => some (if isFlt t then .flt (ofSigned (fltBits t) v) else .int v)
  | .str b => some (.str b)

/-- Column `j` of the filling block, in stream `s`. -/
def XAt.col (c : XAt) (rows : List XRow) (s j : Nat) : Col :=
  rows.map fun r => (r.cols[j]?).bind fun v => xval (c.p.typeOf s) v.1

/-- Capacity of a buffer: 128 KiB encoded, 256 KiB decoded (R19). -/
def XAt.capacity (c : XAt) (s : Nat) : Nat := if c.p.decodedForm s then blockLimit else 131072

/-- Bytes filled in stream `s` (log entry 29). -/
def XAt.filled (c : XAt) (s j : Nat) : Nat :=
  (c.x.rows.map fun r => match r.cols[j]? with
    | some v => xBytes (c.p.typeOf s) (xval (c.p.typeOf s) v.1) v.2
    | none => 0).foldl (· + ·) 0

/-- `n` more credits fit every buffer of the group. -/
def XAt.fits (c : XAt) (n : Nat) : Bool :=
  c.streams.zipIdx.all fun s => decide (c.filled s.1 s.2 + 4096 * (c.x.granted.length + n) ≤ c.capacity s.1)

/-- A credit can be granted: the instance runs and a filling buffer has room (R32, R377). -/
def XAt.room (c : XAt) : Bool :=
  c.i.life == .running && c.fits 1 && c.streams.all fun s => decide ((c.i.chan s).blocks.length < 2)

/-- Rows a block may hold. -/
def XAt.maxRows (c : XAt) : Nat := if (c.r.image.map fun m => m.v2).getD false then 8192 else 16384

/-- The body and annotation of an assembled column; codes name a free dictionary (log entry 21). -/
def XAt.block (c : XAt) (rows : List XRow) (s j : Nat) : Block :=
  let anns := rows.map fun r => (r.cols[j]?).bind fun v => v.2
  { seq := c.x.nextSeq % 2 ^ 32, epoch := c.r.epochs.getD c.i.pipe 0, tile := c.i.tile, slot := c.i.slot,
    body := c.p.bodyOf s (Config.freeWord (c.fresh + j)).toNat (c.col rows s j),
    ann := if anns.any Option.isSome then some (anns.map fun w => w.getD 0) else none, tapped := [] }

/-- Close the first `n` rows of the filling block in every stream of the group. -/
def XAt.closeRows (c : XAt) (n : Nat) : XAt :=
  let i := c.streams.zipIdx.foldl (fun (i : Inst) s =>
    i.onChan s.1 fun ch => { ch with blocks := ch.blocks ++ [c.block (c.x.rows.take n) s.1 s.2] }) c.i
  { c with i := i, x := { c.x with rows := c.x.rows.drop n, nextSeq := c.x.nextSeq + 1 },
           fresh := c.fresh + c.streams.length }

/-- Close blocks as R378 says. -/
def XAt.close (c : XAt) : Nat → XAt
  | 0 => c
  | fuel + 1 =>
    if c.maxRows ≤ c.x.rows.length then (c.closeRows c.maxRows).close fuel
    else if !c.x.rows.isEmpty && c.x.granted.isEmpty && !c.fits 1 then c.closeRows c.x.rows.length
    else c

/-- Put the consumer back. -/
def Dev.putX (d : Dev) (c : XAt) : Dev := { (d.setInst c.i).setXrecv c.x with fresh := c.fresh }

/-- Answer a producer. -/
def Dev.answer (d : Dev) (c : XAt) (kind : Nat) (m i : Nat) : Dev :=
  d.emit (.xfer m kind [d.get F.LNK_POD_SPAN_GROUP c.i.pod, c.r.tag, c.i.pipe, c.x.stage, c.i.number, i])

/-- Grant a credit. -/
def Dev.grant (d : Dev) (c : XAt) (m i : Nat) : Dev :=
  (d.setXrecv { c.x with granted := c.x.granted ++ [(m, i)], holds := c.x.holds.filter (· != (m, i)) }).answer c 2 m i

/-- CREDIT_REQUEST: a GRANT when the buffers have room and no held request is before it, or a HOLD
(R377). -/
def execCreditRequest (q : XRef) (s : State) : Host.Outcome State Fault Refusal :=
  s.act fun d =>
    match d.xAt q with
    | none => d
    | some c =>
      let who := (q.member.val, q.inst.toNat)
      if c.room && (c.x.holds.filter (· != who)).isEmpty then d.grant c who.1 who.2
      else
        let holds := if c.x.holds.contains who then c.x.holds else c.x.holds ++ [who]
        (d.setXrecv { c.x with holds := holds }).answer c 3 who.1 who.2

/-- HOLD_REPEAT: 100 µs after a HOLD the producer is held again while the buffers are full; with
room the longest-held request is granted (R377). -/
def execHoldRepeat (q : XRef) (s : State) : Host.Outcome State Fault Refusal :=
  s.act fun d =>
    match d.xAt q with
    | none => d
    | some c =>
      let who := (q.member.val, q.inst.toNat)
      if !c.x.holds.contains who then d
      else if c.room then
        (match c.x.holds with
        | h :: _ => d.grant c h.1 h.2
        | [] => d)
      else d.answer c 3 who.1 who.2

/-- EXCHANGE_PACKET: its credit is spent and its rows join the filling block (R378). -/
def execExchangePacket (q : XRef) (rows : List XRow) (s : State) : Host.Outcome State Fault Refusal :=
  s.act fun d =>
    match d.xAt q with
    | none => d
    | some c =>
      let who := (q.member.val, q.inst.toNat)
      if !c.x.granted.contains who || rows.isEmpty || decide (256 < rows.length) ||
          rows.any (fun r => r.cols.length != c.streams.length) then d
      else
        let x := { c.x with rows := c.x.rows ++ rows, granted := c.x.granted.erase who }
        d.putX (({ c with x := x }).close (c.x.rows.length + rows.length + 1))

/-- END: a producing instance has sent its last packet; after the last one the stream ends (R379). -/
def execEndMarker (q : XRef) (s : State) : Host.Outcome State Fault Refusal :=
  s.act fun d =>
    match d.xAt q with
    | none => d
    | some c =>
      let who := (q.member.val, q.inst.toNat)
      let all := d.spanInsts c.r c.i.pipe
      if !all.contains who then d
      else
        let ends := if c.x.ends.contains who then c.x.ends else c.x.ends ++ [who]
        let c : XAt := { c with x := { c.x with ends := ends, granted := c.x.granted.filter (· != who),
                                                holds := c.x.holds.filter (· != who) } }
        if all.all fun w => ends.contains w then
          let c := if c.x.rows.isEmpty then c else c.closeRows c.x.rows.length
          let i := c.streams.foldl (fun (i : Inst) s => i.onChan s fun ch => { ch with ended := true }) c.i
          d.putX { c with i := i }
        else d.putX (c.close 1)

end Sys2Proof.Machine
end

