-- ==== Sys2Proof/Machine/Directory.lean ====
section
/-! DEFINITION. The join directory (R168 to R186): entries and buckets, inserts, lookups, chains,
the key heap, spill areas and the clearing of regions. -/

namespace Sys2Proof.Machine

/-! ### Build records and spill areas (R183) -/

/-- A build row as it is offered to the directory or written to the spill area. -/
structure BRec where
  hash : Nat
  rownum : Nat
  key : List Byte
  value : Nat
  vnull : Bool
  deriving DecidableEq, Repr

/-- The 40 bytes of a build record. -/
def BRec.bytes (x : BRec) : List Byte :=
  leBytes 8 x.hash ++ leBytes 8 x.rownum ++ slice x.key 0 16 ++ leBytes 4 x.value ++
    leBytes 4 x.vnull.toNat

/-- The record in 40 bytes, with a key of `klen` bytes. -/
def BRec.ofBytes (klen : Nat) (b : List Byte) : BRec :=
  { hash := fieldAt b 0 8, rownum := fieldAt b 8 8, key := slice b 16 klen, value := fieldAt b 32 4,
    vnull := (fieldAt b 36 4).testBit 0 }

/-- How a writer stores bytes, by an atomic operation or not: a stage through its column cache, the spill controller
directly. -/
abbrev Store := Bool → Dev → Nat → List Byte → Dev

/-- The store of a stage. -/
def Act.storer (a : Act) : Store := fun atomic d addr bs => d.stageStore (a.reader 0) a.hint atomic (d.localForm addr) bs

/-- The store of the spill controller. -/
def plainStore : Store := fun _ d addr bs => d.st (d.localForm addr) bs

/-- Bytes of device memory at a device address. -/
def Dev.at_ (d : Dev) (addr n : Nat) : List Byte := d.ld (d.localForm addr) n

/-- A number in memory. -/
def Dev.num (d : Dev) (addr n : Nat) : Nat := leNat (d.at_ addr n)

/-- An empty spill area: NEXT at 0x2000 and no chunk (DEDUCED: the device writes the header before
its first record; log entry 23). -/
def Dev.initSpill (st : Store) (d : Dev) (base len : Nat) : Option Dev :=
  if base = 0 ∨ len < 0x2000 then none
  else some (st false d base (leBytes 8 0x2000 ++ List.replicate 4152 0))

/-- Allocate a chunk, by an atomic addition on NEXT, and link it at the head of its partition (R183, R232). -/
def Dev.newChunk (st : Store) (d : Dev) (base len part : Nat) : Option (Dev × Nat) :=
  let next := d.num base 8
  if len < next + 4096 then none
  else
    let head := base + 0x40 + 16 * part
    let d1 := st true d base (leBytes 8 (next + 4096))
    let d2 := st false d1 (base + next) (leBytes 8 (d.num head 8) ++ leBytes 8 0)
    some (st false d2 head (leBytes 8 next), next)

/-- Write a record into a chunk at offset `off`, with its counts. -/
def Dev.fillChunk (st : Store) (d : Dev) (base off part : Nat) (r : List Byte) : Dev :=
  let c := base + off
  let used := d.num (c + 8) 4
  let cnt := base + 0x48 + 16 * part
  let d1 := st false d (c + 16 + used) r
  let d2 := st false d1 (c + 8) (leBytes 4 (used + r.length) ++ leBytes 4 (d.num (c + 12) 4 + 1))
  st false d2 cnt (leBytes 8 (d.num cnt 8 + 1))

/-- The open chunk of a partition that has room for `n` bytes. -/
def Dev.openChunk (d : Dev) (base part n : Nat) (chunks : List (Nat × Nat)) : Option Nat :=
  ((chunks.find? fun x => x.1 == part).map fun x => x.2).filter fun off =>
    decide (d.num (base + off + 8) 4 + n ≤ 4080)

/-- Write a record to a partition of a spill area; `none` when the area is full. -/
def Dev.spillRecord (st : Store) (d : Dev) (base len : Nat) (chunks : List (Nat × Nat)) (part : Nat)
    (r : List Byte) : Option (Dev × List (Nat × Nat)) :=
  match d.openChunk base part r.length chunks with
  | some off => some (d.fillChunk st base off part r, chunks)
  | none => (d.newChunk st base len part).map fun x =>
      (x.1.fillChunk st base x.2 part r, upsert (fun y => y.1 == part) (part, x.2) chunks)

/-- Records of `n` bytes in the chunks of a partition, in chunk order; at most `fuel` chunks. -/
def Dev.chunkRecords (d : Dev) (base n : Nat) : Nat → Nat → List (List Byte)
  | 0, _ => []
  | fuel + 1, off =>
    if off = 0 then [] else
      let c := base + off
      let count := min (d.num (c + 12) 4) (4080 / (max n 1))
      (List.range count).map (fun k => d.at_ (c + 16 + k * n) n) ++
        d.chunkRecords base n fuel (d.num c 8)

/-- Records of a partition of an area. -/
def Dev.partRecords (d : Dev) (base len n part : Nat) : List (List Byte) :=
  d.chunkRecords base n (len / 4096 + 1) (d.num (base + 0x40 + 16 * part) 8)

/-- Record count of a partition. -/
def Dev.partCount (d : Dev) (base part : Nat) : Nat := d.num (base + 0x48 + 16 * part) 8

/-! ### Entries -/

/-- B: buckets of each slice that pod `p` owns (R169). -/
def Dev.jB (d : Dev) (p : Nat) : Nat := d.get F.POD_SHARES_JDR_B p

/-- Put a region back. -/
def Dev.setRegion (d : Dev) (r : JRegion) : Dev :=
  { d with jrgns := upsert (fun x => x.pod == r.pod && x.rgn == r.rgn) r d.jrgns }

/-- Enter a state (R181). -/
def Dev.setJstate (d : Dev) (p g v : Nat) : Dev := d.put F.JDR_POD_RGN_STATE_STATE v p g

/-- Entries of a bucket, of all the pod's regions. -/
def Dev.bucketOf (d : Dev) (p s b : Nat) : List JEntry :=
  d.jents.filter fun e => e.pod == p && e.slice == s && e.bucket == b

/-- An unreadable range of a pod: outside its ranges, or marked. -/
def Dev.rangeFault (d : Dev) (p addr n : Nat) : Option Fail :=
  if !d.inPod p addr n then some addrFault
  else
    let k := d.poisonIn (d.localForm addr) n
    if k = .clean then none else some (poisonFail k)

/-- The key of an entry: held, or in the key heap (R170). -/
def Dev.entryKey (d : Dev) (e : JEntry) : List Byte :=
  if e.klen ≤ 16 then e.key else d.at_ e.kref e.klen

/-- The failure of a stage that reads an uncorrectable entry of either directory (R169, R209; log entry 84). -/
def dirFail : Fail := ⟨0xF0, Config.directoryClass % 256⟩

/-- A bucket that a key's search reads holds an uncorrectable entry (R169). -/
def Dev.bucketsBad (d : Dev) (p h : Nat) : Bool :=
  let n := d.jB p
  decide (0 < n) && ((d.bucketOf p (hashSlice h) (bucket1 h n)).any (fun e => e.ue) ||
    (d.bucketOf p (hashSlice h) (bucket2 h n)).any fun e => e.ue)

/-- Entries that may match: their region, fingerprint and key length, in b1 and then in b2. -/
def Dev.candidates (d : Dev) (p g h : Nat) (k : List Byte) : List JEntry :=
  let n := d.jB p
  if n = 0 then [] else
    let pick := fun b => (d.bucketOf p (hashSlice h) b).filter fun e =>
      e.rgn == g && e.fp == hashFp h && e.klen == k.length
    if bucket1 h n = bucket2 h n then pick (bucket1 h n) else pick (bucket1 h n) ++ pick (bucket2 h n)

/-- Find a key (R175, R176): both its buckets are read, and long keys are compared in memory. -/
def Dev.jfind (d : Dev) (p g h : Nat) (k : List Byte) : Except Fail (Option JEntry) :=
  if d.bucketsBad p h then .error dirFail else
  let c := d.candidates p g h k
  match c.findSome? fun e => if e.klen ≤ 16 then none else d.rangeFault p e.kref e.klen with
  | some f => .error f
  | none => .ok (c.find? fun e => d.entryKey e == k)

/-- The same entry. -/
def JEntry.same (x y : JEntry) : Bool :=
  x.pod == y.pod && x.rgn == y.rgn && x.slice == y.slice && x.bucket == y.bucket && x.fp == y.fp &&
    x.klen == y.klen && x.key == y.key && x.kref == y.kref

/-- Put an entry back. -/
def Dev.setEntry (d : Dev) (e : JEntry) : Dev := { d with jents := upsert (JEntry.same e) e d.jents }

/-- Free the entries of a region. -/
def Dev.freeEntries (d : Dev) (p g : Nat) : Dev :=
  { d with jents := d.jents.filter fun e => !(e.pod == p && e.rgn == g) }

/-! ### Chains and the key heap (R173, R503) -/

/-- Push a link; its index. -/
def Dev.pushLink (st : Store) (d : Dev) (r : JRegion) (row next : Nat) : Option (Dev × Nat) :=
  let c := d.num r.chain 8
  if r.chain = 0 ∨ r.chainLen < 64 + 16 * (c + 1) ∨ 2 ^ 32 - 1 ≤ c then none
  else
    let d := st false d r.chain (leBytes 8 (c + 1))
    some (st false d (r.chain + 64 + 16 * c) (leBytes 8 row ++ leBytes 4 next ++ leBytes 4 0), c)

/-- Store a long key; its KREF. -/
def Dev.pushKey (st : Store) (d : Dev) (r : JRegion) (k : List Byte) : Option (Dev × Nat) :=
  let c := d.num r.heap 8
  let n := roundUp k.length 8
  if r.heap = 0 ∨ r.heapLen < 64 + c + n then none
  else
    let d := st false d r.heap (leBytes 8 (c + n))
    some (st false d (r.heap + 64 + c) k, r.heap + 64 + c)

/-- What an insert comes to. -/
inductive Ins where
  | ok (d : Dev)
  | overflow (d : Dev)
  | fail (d : Dev) (f : Fail)

/-- The payload an entry keeps for a row (R170): ACC the row number, VALUE the value. -/
def BRec.payload (x : BRec) (pay : Nat) : Nat := if pay = 1 then x.rownum % 2 ^ 32 else x.value

/-- A row whose key has an entry (R175, R82). -/
def Dev.insertSame (st : Store) (d : Dev) (r : JRegion) (pay : Nat) (x : BRec) (e : JEntry) : Ins :=
  if pay = 0 then
    match d.pushLink st r x.rownum e.payload with
    | some y => .ok (y.1.setEntry { e with payload := y.2, rowmin := min e.rowmin x.rownum })
    | none => .fail d destFull
  else if x.rownum < e.rowmin then
    .ok (d.setEntry { e with rowmin := x.rownum, payload := x.payload pay, vnull := x.vnull })
  else .ok d

/-- The bucket a new entry goes to: the one with fewer valid entries, b1 on a tie. -/
def Dev.freeBucket (d : Dev) (p h : Nat) : Option Nat :=
  let n := d.jB p
  if n = 0 then none else
    let b1 := bucket1 h n
    let b2 := bucket2 h n
    let c1 := (d.bucketOf p (hashSlice h) b1).length
    let c2 := (d.bucketOf p (hashSlice h) b2).length
    if 8 ≤ c1 ∧ 8 ≤ c2 then none else if c2 < c1 then some b2 else some b1

/-- A new entry's key: held, or a reference into the key heap. -/
def Dev.placeKey (st : Store) (d : Dev) (r : JRegion) (k : List Byte) : Option (Dev × List Byte × Nat) :=
  if k.length ≤ 16 then some (d, k, 0) else (d.pushKey st r k).map fun y => (y.1, [], y.2)

/-- A row whose key has no entry. -/
def Dev.insertNew (st : Store) (d : Dev) (r : JRegion) (pay : Nat) (x : BRec) : Ins :=
  match d.freeBucket r.pod x.hash with
  | none => .overflow d
  | some b =>
    match d.placeKey st r x.key with
    | none => .fail d destFull
    | some y =>
      let e : JEntry :=
        { pod := r.pod, rgn := r.rgn, slice := hashSlice x.hash, bucket := b, key := y.2.1,
          klen := x.key.length, kref := y.2.2, fp := hashFp x.hash, payload := x.payload pay,
          vnull := pay == 2 && x.vnull, rowmin := x.rownum, ue := false }
      if pay = 0 then
        match y.1.pushLink st r x.rownum 0xFFFFFFFF with
        | some z => .ok { z.1 with jents := z.1.jents ++ [{ e with payload := z.2 }] }
        | none => .fail y.1 destFull
      else .ok { y.1 with jents := y.1.jents ++ [e] }

/-- Offer a row to its slice (R175). -/
def Dev.insertRow (st : Store) (d : Dev) (r : JRegion) (pay : Nat) (x : BRec) : Ins :=
  let d := d.count .JDR_SLICE_INSERTS 1 (hashSlice x.hash)
  match d.jfind r.pod r.rgn x.hash x.key with
  | .error f => .fail d f
  | .ok (some e) => d.insertSame st r pay x e
  | .ok none => d.insertNew st r pay x

/-- Row numbers of a chain from link `i`, at most `fuel` links (R503). -/
def Dev.chainRows (d : Dev) (r : JRegion) : Nat → Nat → Except Fail (List Nat)
  | 0, _ => .ok []
  | fuel + 1, i =>
    if i = 0xFFFFFFFF then .ok []
    else
      let a := r.chain + 64 + 16 * i
      match d.rangeFault r.pod a 16 with
      | some f => .error f
      | none =>
        match d.chainRows r fuel (d.num (a + 8) 4) with
        | .ok l => .ok (d.num a 8 :: l)
        | .error f => .error f

/-- The chain of an entry. -/
def Dev.chainOf (d : Dev) (r : JRegion) (e : JEntry) : Except Fail (List Nat) :=
  d.chainRows r (d.num r.chain 8) e.payload

/-! ### Clearing (R171, R181) -/

/-- A region that no one has built. -/
def JRegion.blank (p g : Nat) : JRegion :=
  { pod := p, rgn := g, owner := none, forBuild := false, seed := 0, keyType := 0, chain := 0,
    chainLen := 0, spillArea := 0, spillLen := 0, heap := 0, heapLen := 0, unloaded := true, replay := none }

/-- What the device keeps of a region. -/
def Dev.region (d : Dev) (p g : Nat) : JRegion := (d.findRegion p g).getD (JRegion.blank p g)

/-- The PAYLOAD code of a region. -/
def Dev.regionPay (d : Dev) (p g : Nat) : Nat := d.get F.JDR_POD_RGN_STATE_PAYLOAD p g

/-- The region's registers at reset but for STATE. -/
def Dev.regionFresh (d : Dev) (p g state : Nat) : Dev :=
  (((d.clearReg .JDR_POD_RGN_STATE p g).clearReg .JDR_POD_RGN_ROWS p g).clearReg
    .JDR_POD_RGN_SPILLED p g).setJstate p g state

/-- The HASH that annotates stream `s` folds case. -/
def Pipe.hashFold (p : Pipe) (s : Nat) : Bool :=
  (p.stagesWith 0x08).any fun x => streamNo (swField x.2 8) == s && swField x.2 24 == 0xFF && swMode x.2 0

/-- A building pipeline's first instance enters STARTING: its region is locked and clearing
(R171, R181). `k`: the K registers of the BUILD stage. -/
def Dev.beginBuild (d : Dev) (i : Inst) (p : Pipe) (w : Nat) (k : List Word) : Dev :=
  let g := bitsOf w 48 8 % 16
  let s := streamNo (swField w 8)
  let r : JRegion :=
    { pod := i.pod, rgn := g, owner := some (i.ring, i.index), forBuild := true, seed := p.seed,
      keyType := p.typeOf s, chain := kReg k 0, chainLen := kReg k 1, spillArea := kReg k 2,
      spillLen := kReg k 3, heap := kReg k 4, heapLen := kReg k 5, unloaded := true, replay := none }
  let d := (d.regionFresh i.pod g 1).setRegion r
  (d.put F.JDR_POD_RGN_STATE_PAYLOAD (swField w 56) i.pod g).put F.JDR_POD_RGN_STATE_CASEFOLD
    (p.hashFold s).toNat i.pod g

/-- Write a count to zero, where the area is bound. -/
def Dev.zeroCount (d : Dev) (addr : Nat) : Dev := if addr = 0 then d else plainStore false d addr (leBytes 8 0)

/-- The headers of a builder's areas start at zero: the chain's count where the region holds row chains, and
the whole header of the key heap where its keys are strings (R173, R503). -/
def Dev.zeroAreas (d : Dev) (r : JRegion) : Dev :=
  let d := if d.regionPay r.pod r.rgn = 0 then d.zeroCount r.chain else d
  if r.heap ≠ 0 ∧ (r.keyType = 0x20 ∨ r.keyType = 0x21) then plainStore false d r.heap (leBytes 64 0) else d

/-- The run that holds a region runs on: it is there and has not failed (R181). -/
def Dev.builderLives (d : Dev) (r : JRegion) : Bool :=
  match r.owner with
  | some (ring, index) => (d.findRun ring index).any fun x => x.failure.isNone
  | none => false

/-- The sweep of a region ends: for a builder it is BUILDING, or INVALID where the builder failed during the
sweep; for a clear it is EMPTY (R171, R181). -/
def Dev.sweepDone (d : Dev) (p g : Nat) : Dev :=
  if d.jstate p g ≠ 1 then d else
  let r := d.region p g
  let d := d.freeEntries p g
  if !r.forBuild then d.setJstate p g 0
  else if d.builderLives r then (d.zeroAreas r).setJstate p g 2
  else d.setJstate p g 7

/-- CLEAR_SWEEP_DONE (R181). -/
def execClearSweepDone (p : Fin 64) (rgn : Fin 16) (s : State) : Host.Outcome State Fault Refusal :=
  s.act fun d => d.sweepDone p.val rgn.val

/-- A clear of region `g`, ignored while it is locked (R171). -/
def Dev.clearRegion (d : Dev) (p g : Nat) : Dev :=
  let r := d.region p g
  if r.owner.isSome then d
  else (d.regionFresh p g 1).setRegion { JRegion.blank p g with forBuild := false }

/-- The effect of a write to JDR_PODp_CLEAR. -/
def Dev.jdrClear (d : Dev) (p v : Nat) : Dev :=
  (List.range 16).foldl (fun d g => if v.testBit g then d.clearRegion p g else d) d

/-- JDR_REGION_CLEAR (R171). -/
def execJdrRegionClear (p : Fin 64) (a : RegAccess) (s : State) : Host.Outcome State Fault Refusal :=
  s.act fun d => d.access a ⟨.JDR_POD_CLEAR, p.val, 0⟩ fun d v _ =>
    d.jdrClear p.val (fieldIn F.JDR_POD_CLEAR_REGIONS v)

end Sys2Proof.Machine
end

