-- ==== Sys2Proof/Machine/Range.lean ====
section
/-! DEFINITION. The range directory (R208 to R218): layers, searches, inserts with hole spacing,
deletes, locks and clears, its registers, and LOOKUP in either directory (R179). -/

namespace Sys2Proof.Machine

/-! ### Regions -/

/-- A range region of a pod. -/
def Dev.rregion (d : Dev) (p g : Nat) : RRegion :=
  (d.rrgns.find? fun x => x.pod == p && x.rgn == g).getD { pod := p, rgn := g, pos := [], owner := none }

/-- H of a region. -/
def Dev.holeOf (d : Dev) (p g : Nat) : Nat := d.get F.RDR_POD_RGN_CFG_HOLE p g

/-- G: groups of H + 1 positions (R208). -/
def Dev.groupsOf (d : Dev) (p g : Nat) : Nat := d.get F.RDR_POD_RGN_CFG_SIZE p g / (d.holeOf p g + 1)

/-- STATE of a region (R216). -/
def Dev.rstate (d : Dev) (p g : Nat) : Nat := d.get F.RDR_POD_RGN_STATE_STATE p g

/-- The entries of a region in position order. -/
def RRegion.entries (r : RRegion) : List REntry := r.pos.filterMap id

/-- Distinct priorities. -/
def layersOf (es : List REntry) : List Nat :=
  es.foldl (fun l e => if l.contains e.prio then l else l ++ [e.prio]) []

/-- Put a region back, with its ENTRIES, LAYERS and LOCKED fields. -/
def Dev.setRRegion (d : Dev) (r : RRegion) : Dev :=
  let d := { d with rrgns := upsert (fun x => x.pod == r.pod && x.rgn == r.rgn) r d.rrgns }
  ((d.put F.RDR_POD_RGN_STATE_ENTRIES r.entries.length r.pod r.rgn).put F.RDR_POD_RGN_STATE_LAYERS
    (layersOf r.entries).length r.pod r.rgn).put F.RDR_POD_RGN_STATE_LOCKED r.owner.isSome.toNat r.pod r.rgn

/-- A search or update makes an EMPTY region ACTIVE, and its key type known while it holds nothing. -/
def Dev.useRegion (d : Dev) (p g t : Nat) : Dev :=
  let d := if (d.rregion p g).entries.isEmpty then d.put F.RDR_POD_RGN_STATE_KEYTYPE t p g else d
  if d.rstate p g = 0 then d.put F.RDR_POD_RGN_STATE_STATE 2 p g else d

/-! ### Searches (R211) -/

/-- A key is not above the search key. -/
def keyLe (a b : List Byte) : Bool := bytesCmp a b != .gt

/-- The entry of greatest KEY not above `k`. -/
def floorOf (es : List REntry) (k : List Byte) : Option REntry :=
  (es.filter fun e => keyLe e.key k).foldl (fun acc e => match acc with
    | none => some e
    | some m => if bytesCmp m.key e.key = .lt then some e else some m) none

/-- The entry of highest priority. -/
def topPrio (es : List REntry) : Option REntry :=
  es.foldl (fun acc e => match acc with
    | none => some e
    | some m => if m.prio < e.prio then some e else some m) none

/-- EXACT. -/
def searchExact (es : List REntry) (k : List Byte) : Option Nat :=
  if 32 < k.length then none
  else (topPrio (es.filter fun e => !e.stop && e.key == k)).map fun e => e.payload

/-- FLOOR. -/
def searchFloor (es : List REntry) (k : List Byte) : Option Nat :=
  match floorOf es k with
  | none => none
  | some m => (topPrio (es.filter fun e => e.key == m.key)).bind fun e => if e.stop then none else some e.payload

/-- COVER: the layers in descending priority. -/
def searchCover (es : List REntry) (k : List Byte) : Option Nat :=
  let fs := (layersOf es).filterMap fun l => (floorOf (es.filter fun e => e.prio == l) k).filter fun e => !e.stop
  (topPrio fs).map fun e => e.payload

/-- A search by OP: 0 FLOOR, 1 EXACT, 2 COVER. A longer key is ordered by its first 32 bytes. -/
def searchOp (op : Nat) (es : List REntry) (k : List Byte) : Option Nat :=
  match op with
  | 0 => searchFloor es (k.take 32)
  | 1 => searchExact es k
  | _ => searchCover es (k.take 32)

/-- One search in the slice of cluster `c`: a layer search for each layer (R215, R218). -/
def Dev.rsearch (d : Dev) (c p g op : Nat) (k : Option (List Byte)) : Dev × Option Nat :=
  match k with
  | none => (d, none)
  | some x =>
    let es := (d.rregion p g).entries
    (d.count .RDR_SLICE_SEARCHES (layersOf es).length c, searchOp op es x)

/-- The slice of cluster `c` reads the entries of a region: a bad copy is restored from the next slice, with a
record of the corrected error, and fails the reading stage where that copy is bad too (R209; log entry 84). -/
def Dev.rcheck (d : Dev) (c p g : Nat) : Except Fail Dev :=
  let r := d.rregion p g
  let bad := r.entries.filter fun e => e.ue.contains c
  if bad.any fun e => e.ue.contains ((c + 1) % 8) then .error dirFail
  else
    let pos := r.pos.map fun x => x.map fun e => { e with ue := e.ue.filter fun s => s != c }
    .ok (bad.foldl (fun (d : Dev) _ => d.report
      { cls := Config.rangeCorrected % 256, pod := some p, srcKind := 13, source := c, corrected := true })
      (if bad.isEmpty then d else d.setRRegion { r with pos := pos }))

/-- The searches of a block. -/
def Dev.rsearches (d : Dev) (c p g op : Nat) : List (Option (List Byte)) → Dev × List (Option Nat)
  | [] => (d, [])
  | k :: ks =>
    let x := d.rsearch c p g op k
    let y := x.1.rsearches c p g op ks
    (y.1, x.2 :: y.2)

/-- The region a RANGE or LOOKUP word names. -/
def Act.rrgn (a : Act) : Nat := bitsOf a.w 48 8 % 16

/-- Ordered keys of a column (R195, no marker). -/
def orderedKeys (t : Nat) (c : Col) : List (Option (List Byte)) := c.map fun v => v.map (orderedBytes t false)

/-- A RANGE search over one block (R211). -/
def searchBody (op : Nat) (a : Act) (bs : List (Nat × Block)) : Turn :=
  match bs with
  | [] => .hold
  | (v, b) :: _ =>
    match a.readBlock v b with
    | .error f => .fail a f b.seq 0
    | .ok (a, c) =>
      match a.d.rcheck (a.i.tile / 8) a.i.pod a.rrgn with
      | .error f => .fail a f b.seq 0
      | .ok d =>
        let t := a.p.typeOf (streamNo v)
        let x := (d.useRegion a.i.pod a.rrgn t).rsearches (a.i.tile / 8) a.i.pod a.rrgn op (orderedKeys t c)
        let a := { a with d := x.1 }
        match a.outs with
        | o :: _ => .done (a.put o b.seq (x.2.map fun n => n.map fun m => Val.int (m : Nat))) true
        | [] => .done (a.annotate v b (x.2.map fun n => BitVec.ofNat 64 (n.getD 0xFFFFFFFFFFFFFFFF))) true

/-- OP of a RANGE word. -/
def rangeOp (w : Nat) : Nat := bitsOf w 40 3

/-- RANGE FLOOR (R211). -/
def execRangeFloor (w : StageRef) (s : State) : Host.Outcome State Fault Refusal :=
  s.act fun d => d.stage w 0x21 (fun w => rangeOp w == 0) fun a => a.streamTurn true (searchBody 0) endStage

/-- RANGE EXACT (R211). -/
def execRangeExact (w : StageRef) (s : State) : Host.Outcome State Fault Refusal :=
  s.act fun d => d.stage w 0x21 (fun w => rangeOp w == 1) fun a => a.streamTurn true (searchBody 1) endStage

/-- RANGE COVER (R211). -/
def execRangeCover (w : StageRef) (s : State) : Host.Outcome State Fault Refusal :=
  s.act fun d => d.stage w 0x21 (fun w => rangeOp w == 2) fun a => a.streamTurn true (searchBody 2) endStage

/-! ### Inserts (R210, R212, R213) -/

/-- The order (255 - PRIO, KEY) of R210. -/
def REntry.before (x y : REntry) : Bool :=
  if x.prio ≠ y.prio then decide (y.prio < x.prio) else bytesCmp x.key y.key == Ordering.lt

/-- Every position of a region, holes included. -/
def Dev.positions (d : Dev) (r : RRegion) : List (Option REntry) :=
  let n := d.groupsOf r.pod r.rgn * (d.holeOf r.pod r.rgn + 1)
  r.pos.take n ++ List.replicate (n - r.pos.length) none

/-- The first position after every entry that stands before `e`. -/
def insertAt (pos : List (Option REntry)) (e : REntry) : Nat :=
  pos.zipIdx.foldl (fun acc x => match x.1 with
    | some y => if y.before e then x.2 + 1 else acc
    | none => acc) 0

/-- Entries among positions. -/
def entriesIn (pos : List (Option REntry)) : Nat := (pos.filter fun x => x.isSome).length

/-- Positions of groups `g` to `g + n - 1`. -/
def groupSpan (pos : List (Option REntry)) (h g n : Nat) : List (Option REntry) :=
  (pos.drop (g * (h + 1))).take (n * (h + 1))

/-- Replace them. -/
def putSpan (pos : List (Option REntry)) (h g : Nat) (new : List (Option REntry)) : List (Option REntry) :=
  pos.take (g * (h + 1)) ++ new ++ pos.drop (g * (h + 1) + new.length)

/-- Spread entries over `n` groups: lower groups hold one more where counts differ (R213 step 2);
within a group they stand from its first position on (DEDUCED, log entry 28). -/
def spreadOver (h : Nat) : Nat → List REntry → List (Option REntry)
  | 0, _ => []
  | n + 1, es =>
    let k := (es.length + n) / (n + 1)
    (es.take k).map some ++ List.replicate (h + 1 - k) none ++ spreadOver h n (es.drop k)

/-- The smallest aligned window of 2^k groups, k ≥ 1, around group `g` with room: its first group
and its width; every group once 2^k reaches `total`. -/
def windowOf (pos : List (Option REntry)) (h g total : Nat) : Nat → Nat → Nat × Nat
  | 0, _ => (0, total)
  | fuel + 1, k =>
    let w := 2 ^ k
    if total ≤ w then (0, total)
    else
      let first := g / w * w
      let n := min w (total - first)
      if entriesIn (groupSpan pos h first n) ≤ n * h - 1 then (first, n) else windowOf pos h g total fuel (k + 1)

/-- Positions that differ after a spread: the moves made. -/
def movesBetween (a b : List (Option REntry)) : Nat :=
  ((a.zip b).filter fun x => x.2.isSome && x.1 != x.2).length

/-- The nearest hole of a group to insertion index `i`: its index and the moves to it. -/
def nearestHole (grp : List (Option REntry)) (i : Nat) : Option (Nat × Nat) :=
  grp.zipIdx.foldl (fun acc x =>
    if x.1.isSome then acc else
      let m := if i ≤ x.2 then x.2 - i else i - 1 - x.2
      match acc with
      | none => some (x.2, m)
      | some y => if m < y.2 then some (x.2, m) else some y) none

/-- Place an entry at index `i` of a group, moving entries toward hole `j` (R213 steps 3, 4). -/
def placeIn (grp : List (Option REntry)) (i j : Nat) (e : REntry) : List (Option REntry) :=
  if i ≤ j then grp.take i ++ [some e] ++ (grp.take j).drop i ++ grp.drop (j + 1)
  else grp.take j ++ (grp.take i).drop (j + 1) ++ [some e] ++ grp.drop i

/-- The group an entry goes to: that of the entry before it (DEDUCED, log entry 28). -/
def groupFor (pos : List (Option REntry)) (h : Nat) (e : REntry) : Nat := (insertAt pos e - 1) / (h + 1)

/-- Write a new entry: the positions, the moves and whether a window was spread. -/
def insertPos (pos : List (Option REntry)) (h total : Nat) (e : REntry) : List (Option REntry) × Nat × Bool :=
  let g := groupFor pos h e
  let full := entriesIn (groupSpan pos h g 1) == h + 1
  let w := windowOf pos h g total 17 1
  let old := groupSpan pos h w.1 w.2
  let new := spreadOver h w.2 (old.filterMap id)
  let pos1 := if full then putSpan pos h w.1 new else pos
  let moved := if full then movesBetween old new else 0
  let g1 := groupFor pos1 h e
  let grp := groupSpan pos1 h g1 1
  let i := insertAt pos1 e - g1 * (h + 1)
  match nearestHole grp i with
  | some x => (putSpan pos1 h g1 (placeIn grp i x.1 e), moved + x.2, full)
  | none => (pos1, moved, full)

/-- A cluster's slice is in service: a fence drops it (R472). -/
def Dev.sliceLives (d : Dev) (c : Nat) : Bool := !(d.get F.ERR_FENCE_OTHER_CLUSTER).testBit c

/-- An update in every slice, with its moves (R215, R218). -/
def Dev.countUpdate (d : Dev) (moves : Nat) : Dev :=
  ((List.range 8).filter d.sliceLives).foldl (fun d n =>
    (d.count .RDR_SLICE_UPDATES 1 n).count .RDR_SLICE_MOVES moves n) d

/-- The lesser of two payloads stays under one lock, STOP counting as least (R212). -/
def lesser (x y : REntry) : REntry :=
  if x.stop then x else if y.stop then y else if y.payload < x.payload then y else x

/-- Replace an existing entry (R212). -/
def RRegion.replaceEntry (r : RRegion) (old e : REntry) : RRegion :=
  let keep := if old.gen then { lesser old e with gen := true } else e
  { r with pos := r.pos.map fun x => if x = some old then some { keep with ue := [] } else x }

/-- INSERT of one entry; RANGE_FULL writes nothing. -/
def Dev.rinsert (d : Dev) (p g : Nat) (e : REntry) : Except Fail Dev :=
  let r := d.rregion p g
  let h := d.holeOf p g
  let total := d.groupsOf p g
  let es := r.entries
  let full : Fail := ⟨0x42, g⟩
  if 32 < e.key.length then .error full
  else match es.find? fun x => x.key == e.key && x.prio == e.prio with
    | some old => .ok ((d.setRRegion (r.replaceEntry old e)).countUpdate 0)
    | none =>
      let pos := d.positions r
      if (8 ≤ (layersOf es).length ∧ !(layersOf es).contains e.prio) ∨ total = 0 ∨
          (entriesIn (groupSpan pos h (groupFor pos h e) 1) = h + 1 ∧ total * h ≤ es.length) then .error full
      else
        let x := insertPos pos h total e
        let d := (d.setRRegion { r with pos := x.1 }).countUpdate x.2.1
        .ok (if x.2.2 then d.addTo F.RDR_POD_RGN_STATE_REBAL 1 p g else d)

/-- INSERT of the rows of a block: key, payload (none for STOP). -/
def Dev.rinsertRows (d : Dev) (p g prio : Nat) : List (List Byte × Option Nat) → Dev × Option Fail
  | [] => (d, none)
  | (k, v) :: rest =>
    let e : REntry := { key := k, payload := v.getD 0, prio := prio, stop := v.isNone, gen := true, ue := [] }
    match d.rinsert p g e with
    | .error f => (d, some f)
    | .ok d => d.rinsertRows p g prio rest

/-- RANGE INSERT over one block (R212). -/
def insertBody (a : Act) (bs : List (Nat × Block)) : Turn :=
  match a.readAll bs, bs with
  | .error f, _ => .fail a f (setSeq bs) 0
  | .ok _, [] => .hold
  | .ok (a, cols), (v, b) :: _ =>
    let t := a.p.typeOf (streamNo v)
    let rows := ((orderedKeys t (cols.getD 0 [])).zipIdx).filterMap fun x => x.1.map fun k =>
      (k, (((cols.getD 1 []).getD x.2 none).map fun y => y.toInt.toNat))
    let x := (a.d.useRegion a.i.pod a.rrgn t).rinsertRows a.i.pod a.rrgn (swField a.w 56) rows
    match x.2 with
    | some f => .fail { a with d := x.1 } f b.seq 0
    | none => .done { a with d := x.1 } true

/-- RANGE INSERT (R212). -/
def execRangeInsert (w : StageRef) (s : State) : Host.Outcome State Fault Refusal :=
  s.act fun d => d.stage w 0x21 (fun w => rangeOp w == 3) fun a => a.streamTurn false insertBody endStage

/-- DELETE of one key, in every layer. -/
def Dev.rdelete (d : Dev) (p g : Nat) (k : List Byte) : Dev :=
  let r := d.rregion p g
  (d.setRRegion { r with pos := r.pos.map fun x => match x with
    | some e => if e.key == k then none else some e
    | none => none }).countUpdate 0

/-- RANGE DELETE over one block. -/
def deleteBody (a : Act) (bs : List (Nat × Block)) : Turn :=
  match bs with
  | [] => .hold
  | (v, b) :: _ =>
    match a.readBlock v b with
    | .error f => .fail a f b.seq 0
    | .ok (a, c) =>
      let t := a.p.typeOf (streamNo v)
      let d := ((orderedKeys t c).filterMap id).foldl (fun d k =>
        if 32 < k.length then d else d.rdelete a.i.pod a.rrgn k) (a.d.useRegion a.i.pod a.rrgn t)
      .done { a with d := d } true

/-- RANGE DELETE (R212). -/
def execRangeDelete (w : StageRef) (s : State) : Host.Outcome State Fault Refusal :=
  s.act fun d => d.stage w 0x21 (fun w => rangeOp w == 4) fun a => a.streamTurn false deleteBody endStage

/-! ### Locks, clears and configuration (R216, R218) -/

/-- An updating run's first instance enters STARTING: the lock, and the clearing of GEN. -/
def Dev.lockRange (d : Dev) (p g ring index : Nat) : Dev :=
  let r := d.rregion p g
  let pos := r.pos.map fun x => x.map fun e => { e with gen := false }
  (d.setRRegion { r with pos := pos, owner := some (ring, index) }).put F.RDR_POD_RGN_STATE_MARKING 1 p g

/-- GEN_MARKING_DONE (R216). -/
def execGenMarkingDone (p : Fin 64) (rgn : Fin 16) (s : State) : Host.Outcome State Fault Refusal :=
  s.act fun d => d.put F.RDR_POD_RGN_STATE_MARKING 0 p.val rgn.val

/-- The effect of a write to RDR_PODp_CLEAR. -/
def Dev.rdrClear (d : Dev) (p v : Nat) : Dev :=
  (List.range 16).foldl (fun d g =>
    if v.testBit g && (d.rregion p g).owner.isNone then d.put F.RDR_POD_RGN_STATE_STATE 1 p g else d) d

/-- RDR_REGION_CLEAR (R216). -/
def execRdrRegionClear (p : Fin 64) (a : RegAccess) (s : State) : Host.Outcome State Fault Refusal :=
  s.act fun d => d.access a ⟨.RDR_POD_CLEAR, p.val, 0⟩ fun d v _ =>
    d.rdrClear p.val (fieldIn F.RDR_POD_CLEAR_REGIONS v)

/-- A sweep ends: no entries, and the fields since the last clear start again. -/
def Dev.rclearDone (d : Dev) (p g : Nat) : Dev :=
  if d.rstate p g ≠ 1 then d else
  let d := d.setRRegion { d.rregion p g with pos := [] }
  ((d.put F.RDR_POD_RGN_STATE_REBAL 0 p g).put F.RDR_POD_RGN_STATE_KEYTYPE 0 p g).put
    F.RDR_POD_RGN_STATE_STATE 0 p g

/-- RDR_CLEAR_DONE (R216). -/
def execRdrClearDone (p : Fin 64) (rgn : Fin 16) (s : State) : Host.Outcome State Fault Refusal :=
  s.act fun d => d.rclearDone p.val rgn.val

/-- Two runs of positions share one. -/
def spansMeet (b1 n1 b2 n2 : Nat) : Bool := decide (0 < n1 ∧ 0 < n2 ∧ b1 < b2 + n2 ∧ b2 < b1 + n1)

/-- A CFG value is accepted (R218). -/
def Dev.rcfgOk (d : Dev) (p g hole base size : Nat) : Bool :=
  d.rstate p g == 0 && (d.rregion p g).owner.isNone && decide (4 ≤ hole ∧ hole ≤ 32) &&
    decide (size ≤ 32768 ∧ base + size ≤ d.get F.POD_SHARES_RDR_Q p) &&
    (List.range 16).all fun o => o == g ||
      !spansMeet base size (d.get F.RDR_POD_RGN_CFG_BASE p o) (d.get F.RDR_POD_RGN_CFG_SIZE p o)

/-- A write to RDR_PODp_RGNr_CFG: taken whole, or refused with REJECT. -/
def Dev.rcfgWrite (d : Dev) (p g v : Nat) (keepLow : Bool) : Dev :=
  let hole := fieldIn F.RDR_POD_RGN_CFG_HOLE v
  let base := fieldIn F.RDR_POD_RGN_CFG_BASE v
  let size := if keepLow then d.get F.RDR_POD_RGN_CFG_SIZE p g else fieldIn F.RDR_POD_RGN_CFG_SIZE v
  if d.rcfgOk p g hole base size then
    ((d.put F.RDR_POD_RGN_CFG_HOLE hole p g).put F.RDR_POD_RGN_CFG_BASE base p g).put
      F.RDR_POD_RGN_CFG_SIZE size p g
  else d.put F.RDR_POD_RGN_STATE_REJECT 1 p g

/-- RDR_REGION_CFG (R218). -/
def execRdrRegionCfg (p : Fin 64) (rgn : Fin 16) (a : RegAccess) (s : State) :
    Host.Outcome State Fault Refusal :=
  s.act fun d => d.access a ⟨.RDR_POD_RGN_CFG, p.val, rgn.val⟩ fun d v keep =>
    d.rcfgWrite p.val rgn.val v keep

/-! ### LOOKUP (R179, R211) -/

/-- The keys of a LOOKUP in its K registers, of type `t`. -/
def Act.lookupKeys (a : Act) (t : Nat) : List Val :=
  let step := if wide t then 2 else 1
  (List.range (bitsOf a.w 56 8)).map fun j => a.kVal t (bitsOf a.w 64 8 + step * j)

/-- The payload of a key in the join directory: of an entry, or the first chained row number. -/
def Act.joinPayload (a : Act) (e : JEntry) : Except Fail (Option Val) :=
  if a.d.regionPay a.i.pod a.rrgn = 0 then
    (a.d.chainOf (a.d.region a.i.pod a.rrgn) e).map fun l => l.head?.map fun x => Val.int (x : Nat)
  else .ok (if e.vnull then none else some (.int (e.payload : Nat)))

/-- Look one key up in the join directory. -/
def Act.joinLookup (a : Act) (t : Nat) (v : Val) : Except Fail (Act × Option Val) :=
  let p := a.i.pod
  let cf := a.d.get F.JDR_POD_RGN_STATE_CASEFOLD p a.rrgn == 1
  let k := normKey t cf v
  let h := kh64 a.p.seed.toNat k
  let d := a.d.count .JDR_SLICE_PROBES 1 (hashSlice h)
  if d.jstate p a.rrgn ≠ 3 then .ok ({ a with d := d }, none)
  else match d.jfind p a.rrgn h k with
    | .error f => .error f
    | .ok none => .ok ({ a with d := d }, none)
    | .ok (some e) => (a.joinPayload e).map fun x => ({ a with d := d }, x)

/-- Look keys up in the join directory. -/
def Act.joinLookups (a : Act) (t : Nat) : List Val → Except Fail (Act × Col)
  | [] => .ok (a, [])
  | v :: vs =>
    match a.joinLookup t v with
    | .error f => .error f
    | .ok (a, x) => (a.joinLookups t vs).map fun y => (y.1, x :: y.2)

/-- LOOKUP: one block of NKEYS rows, then the end of its outputs. -/
def lookupTurn (a : Act) : Turn :=
  if a.i.life != .running then .hold
  else if !a.outRoom then .stall
  else
    let p := a.i.pod
    let t := if swMode a.w 0 then a.d.get F.RDR_POD_RGN_STATE_KEYTYPE p a.rrgn
      else (a.d.region p a.rrgn).keyType
    let keys := a.lookupKeys t
    let got : Except Fail (Act × Col) :=
      if swMode a.w 0 then
        (a.d.rcheck (a.i.tile / 8) p a.rrgn).map fun d =>
          let x := (d.useRegion p a.rrgn t).rsearches (a.i.tile / 8) p a.rrgn 1
            (keys.map fun v => some (orderedBytes t false v))
          ({ a with d := x.1 }, x.2.map fun n => n.map fun m => Val.int (m : Nat))
      else a.joinLookups t keys
    match got with
    | .error f => .fail a f 0 0
    | .ok (a, c) =>
      let cols := [c, keys.map some]
      .done ((a.outs.zipIdx).foldl (fun a x => a.put x.1 0 (cols.getD x.2 [])) a).finish false

/-- LOOKUP (R179). -/
def execLookup (w : StageRef) (s : State) : Host.Outcome State Fault Refusal :=
  s.act fun d => d.stage w 0x14 (fun _ => true) fun a => ([], lookupTurn a)

end Sys2Proof.Machine
end

