-- ==== Sys2Proof/Machine/Governor.lean ====
section
/-! DEFINITION. The load-step governor: dead-band releases, the release queue and its ramp account,
LSTEP_N (R413 to R416), and the release of an instance to RUNNING (R49, R187). -/

namespace Sys2Proof.Machine

/-- Change the power manager's state. -/
def Dev.onPw (d : Dev) (f : Power → Power) : Dev := { d with pw := f d.pw }

/-- PWR_GOV_CFG.SLEW in account units a nanosecond. -/
def Dev.slew (d : Dev) : Nat := 32 * d.get F.PWR_GOV_CFG_SLEW

/-- STEP_THR in account units. -/
def Dev.stepThr (d : Dev) : Nat := 32000 * d.get F.PWR_GOV_CFG_STEP_THR

/-- Every JOIN of a span run has arrived (R374). -/
def Dev.joinsIn (d : Dev) (r : Run) : Bool :=
  (d.runPeers r).all fun k => r.joins.any fun j => j.member == k

/-- An instance may leave STARTING: its pod runs, or its migration was under way when the pod began to
quiesce (R346); no region of it is clearing, no region of its run is being marked, and its span has
joined (R171, R216, R374). -/
def Dev.mayRelease (d : Dev) (i : Inst) : Bool :=
  i.life == .starting && !i.stop && (d.podState i.pod == 2 || (i.leaving && d.podState i.pod == 3)) &&
    match d.findRun i.ring i.index with
    | none => false
    | some r =>
      (match r.pipeAt i.pipe with
      | none => false
      | some p => p.builds.all fun g => d.jstate i.pod g != 1) &&
      (r.rlocks.all fun g => d.get F.RDR_POD_RGN_STATE_MARKING i.pod g == 0) && d.joinsIn r

/-- An instance's declared increment less the ballast still running on its tile (R33, R416). -/
def Dev.startStep (d : Dev) (i : Inst) : Nat :=
  match (d.findRun i.ring i.index).bind fun r => r.pipeAt i.pipe with
  | some p => d.increment p i - d.ballastOf i.tile
  | none => 0

/-- Write the extension of stage `n`'s accumulators to their initial state (R187). -/
def Dev.initAcc (d : Dev) (i : Inst) (r : Run) (p : Pipe) (n : Nat) : Dev :=
  match i.stages[n]? with
  | some st => if i.extInit then d else (Act.initExt { d := d, i := i, r := r, p := p, n := n, st := st }).d
  | none => d

/-- The sets of its GATHERs are checked as the instance starts (R89): the instance with them, or the stage that
fails. -/
def Dev.openGathers (d : Dev) (i : Inst) (r : Run) (p : Pipe) : Inst × Option (Nat × Fail) :=
  (List.range i.stages.length).foldl (fun x n =>
    match x.2, x.1.stages[n]? with
    | none, some st =>
      let y := (Act.mk d x.1 r p n st).gatherStart
      ({ x.1 with stages := x.1.stages.set n y.1.st }, y.2.map fun f => (n, f))
    | _, _ => x) (i, none)

/-- An instance is released to RUNNING once its accumulators stand in their initial state and the sets of its
GATHERs are checked; one whose stages all ended while it moved is then DONE (R49). -/
def Dev.release (d : Dev) (i : Inst) : Dev :=
  match d.findRun i.ring i.index with
  | none => d
  | some r =>
    match r.pipeAt i.pipe with
    | none => d
    | some p =>
      let d := (p.stagesWith 0x0B).foldl (fun d x => d.initAcc i r p x.1) d
      let i := { i with extInit := true, leaving := false }
      let x := d.openGathers i r p
      let d := (d.useTile i).setLife x.1 .running
      match x.2 with
      | some (n, f) => d.failInst { x.1 with life := .running } n f 0 0
      | none =>
        if !i.stages.isEmpty && i.stages.all fun st => st.ended then d.instDone { i with life := .running } p else d

/-- Dead-band increments released in the preceding microsecond (R413). -/
def Dev.deadBand (d : Dev) : Nat :=
  ((d.pw.db.filter fun x => decide (d.now < x.1 + 1000)).map fun x => x.2).foldl (· + ·) 0

/-- An instance of increment `x` is released at once (R413). -/
def Dev.deadBandFits (d : Dev) (x : Nat) : Bool :=
  decide (x ≤ 4000 * d.get F.PWR_GOV_CFG_DB_INST ∧ d.deadBand + x ≤ 32000 * d.get F.PWR_GOV_CFG_DB_WINDOW)

/-- The increments that wait. -/
def Power.queued (p : Power) : Nat := (p.queue.map fun x => x.x).foldl (· + ·) 0

/-- Assert LSTEP_N and hold releases for the advance. -/
def Dev.announce (d : Dev) : Dev := d.onPw fun p => { p with lstep := true, advancing := true }

/-- The forecast of a ramp exceeds STEP_THR before it was announced (R414). -/
def Dev.forecast (d : Dev) : Dev :=
  if !d.pw.announced && !d.pw.advancing && decide (d.stepThr < d.pw.released + d.pw.queued) then d.announce
  else d

/-- One start is released at once or joins the queue. -/
def Dev.enterGovernor (d : Dev) (i : Inst) : Dev :=
  let x := d.startStep i
  let d := d.setBallast i.tile 0
  if d.deadBandFits x then
    (d.onPw fun p => { p with db := (d.now, x) :: p.db.filter fun y => decide (d.now < y.1 + 1000) }).release i
  else
    d.onPw fun p =>
      if p.queue.isEmpty then
        { p with queue := [⟨i.tile, i.slot, x⟩], acct := 0, announced := false, released := 0, ramping := true }
      else { p with queue := p.queue ++ [⟨i.tile, i.slot, x⟩] }

/-- The instance of a queued start. -/
def Dev.queuedInst (d : Dev) (q : GovStart) : Option Inst :=
  (d.findInst q.tile q.slot).filter d.mayRelease

/-- Starts whose instance has gone leave the queue. -/
def Dev.pruneQueue (d : Dev) : Dev :=
  let q := d.pw.queue.filter fun x => (d.queuedInst x).isSome
  d.onPw fun p => { p with queue := q, ramping := !q.isEmpty, advancing := p.advancing && !q.isEmpty }

/-- Instances in STARTING that may leave it and wait in no queue (log entry 38). -/
def Dev.newStarts (d : Dev) : List Inst :=
  d.insts.filter fun i => d.mayRelease i && !d.pw.queue.any fun q => q.tile == i.tile && q.slot == i.slot

/-- Starts of this nanosecond enter the governor together (R413, R414). -/
def Dev.admitStarts (d : Dev) : Dev :=
  let d := d.pruneQueue
  (d.newStarts.foldl Dev.enterGovernor d).forecast

/-- Queue heads that the account covers are released (R414). -/
def Dev.releaseHeads : Nat → Dev → Dev
  | 0, d => d
  | fuel + 1, d =>
    match d.pw.queue with
    | [] => d.onPw fun p => { p with acct := 0, ramping := false }
    | q :: rest =>
      if q.x ≤ d.pw.acct then
        let d := d.onPw fun p => { p with queue := rest, acct := p.acct - q.x, released := p.released + q.x }
        let d := match d.queuedInst q with
          | some i => d.release i
          | none => d
        d.releaseHeads fuel
      else d

/-- A nanosecond of the governor. -/
def Dev.governorTick (d : Dev) : Dev :=
  let d := d.admitStarts
  if d.pw.queue.isEmpty || d.pw.advancing then d
  else
    let d := d.onPw fun p => { p with acct := p.acct + d.slew }
    d.releaseHeads (d.pw.queue.length + 1)

/-- GOVERNOR_TICK (R414). -/
def execGovernorTick (s : State) : Host.Outcome State Fault Refusal := s.act Dev.governorTick

/-- LSTEP_ADVANCE_END (R414). -/
def execLstepAdvanceEnd (s : State) : Host.Outcome State Fault Refusal :=
  s.act fun d =>
    if d.pw.advancing then d.onPw fun p => { p with advancing := false, announced := true, acct := 0 } else d

/-- LSTEP_DEASSERT: 1 µs after the last release of an announced ramp (R415); a ramp that runs unannounced by then
does not hold it. -/
def execLstepDeassert (s : State) : Host.Outcome State Fault Refusal :=
  s.act fun d =>
    if (d.pw.queue.isEmpty || !d.pw.announced) && !d.pw.advancing then d.onPw fun p => { p with lstep := false } else d

end Sys2Proof.Machine
end

