-- ==== Sys2Proof/Machine/Image.lean ====
section
/-! DEFINITION. The program image: its header, sections and descriptors (R22), checks 2 to 9 of R35
with what R85, R172, R204 and R206 add to check 9, and the translation of version-2 images (R59). -/

namespace Sys2Proof.Machine

/-- PROGRAM_INVALID at a check. -/
def badProgram (check : Nat) : Fail := ⟨0x11, check⟩

/-! ### Version-2 stage words (R59; the layout of SELECT is log entry 35) -/

/-- An input field as a tap. -/
def tapField (v : Nat) : Nat := if v < 0x40 then v + 0x40 else v

/-- The FILTER of a SELECT: it taps the inputs and keeps the microcode and pool fields. -/
def selectFilter (w : Nat) : Nat :=
  let t := fun lo => tapField (swField w lo)
  0x04 + t 8 * 2 ^ 8 + t 16 * 2 ^ 16 + 0xFFFF * 2 ^ 24 + t 48 * 2 ^ 48 + t 56 * 2 ^ 56 +
    bitsOf w 80 48 * 2 ^ 80

/-- The COMPACT of a SELECT: it consumes the inputs, applies the selection and releases it. -/
def selectCompact (w : Nat) : Nat :=
  0x06 + bitsOf w 8 32 * 2 ^ 8 + 0xC0 * 2 ^ 40 + bitsOf w 48 32 * 2 ^ 48

/-- The translated words of a version-2 word. -/
def translateWord (w : Nat) : List Nat := if swOp w = 0x0F then [selectFilter w, selectCompact w] else [w]

/-- The index of stage `i` after translation: its first word. -/
def translateIndex (ws : List Nat) (i : Nat) : Nat := i + ((ws.take i).filter fun w => swOp w == 0x0F).length

/-- The index under which the streams of stage `i` are known: a SELECT's are its COMPACT's. -/
def translateStage (ws : List Nat) (i : Nat) : Nat :=
  translateIndex ws i + if swOp (ws.getD i 0) = 0x0F then 1 else 0

/-! ### Reading an image -/

/-- A descriptor as it stands in the image, its words translated. -/
structure RawPipe where
  hdr : List Byte
  descLen : Nat
  /-- The stage words as they stand. -/
  own : List Nat
  words : List Nat
  streams : List (List Byte)

/-- A header with the image's bytes. -/
structure RawImage where
  bytes : List Byte
  v2 : Bool

/-- A header field. -/
def RawImage.at (m : RawImage) (off n : Nat) : Nat := fieldAt m.bytes off n

/-- Length of the header. -/
def RawImage.headLen (m : RawImage) : Nat := if m.v2 then 0x80 else 0x100

/-- Where the directory stands, and its entries. -/
def RawImage.dirAt (m : RawImage) : Nat := if m.v2 then 0x40 else 0x80

/-- Entries of the directory. -/
def RawImage.dirs (m : RawImage) : Nat := if m.v2 then 4 else 8

/-- PIPE_COUNT. -/
def RawImage.pipeCount (m : RawImage) : Nat := m.at 0x14 1

/-- DESC_OFFSET and DESC_LEN of a pipeline. -/
def RawImage.dir (m : RawImage) (n : Nat) : Nat × Nat := (m.at (m.dirAt + 16 * n) 4, m.at (m.dirAt + 16 * n + 4) 4)

/-- A descriptor. -/
def RawImage.pipe (m : RawImage) (n : Nat) : RawPipe :=
  let x := m.dir n
  let hdr := slice m.bytes x.1 64
  let own := (List.range (min (fieldAt hdr 1 1) 32)).map fun i => fieldAt m.bytes (x.1 + 0x40 + 16 * i) 16
  let so := x.1 + 0x40 + 16 * fieldAt hdr 1 1
  { hdr := hdr, descLen := x.2, own := own,
    words := if m.v2 then own.flatMap translateWord else own,
    streams := (List.range (min (fieldAt hdr 2 1) 64)).map fun i => slice m.bytes (so + 8 * i) 8 }

/-- The pipelines of an image. -/
def RawImage.pipes (m : RawImage) : List RawPipe := (List.range (min m.pipeCount m.dirs)).map m.pipe

/-- A version-2 image that translates (R59). Bytes 0x0C to 0x0F of a descriptor, of which the table is silent, and
its reserved bytes 0x20 to 0x2F have no translated form, so an image where one is not zero does not translate
(DESIGN CHOICE, log entry 80). -/
def RawImage.translates (m : RawImage) : Bool :=
  decide (1 ≤ m.pipeCount ∧ m.pipeCount ≤ 4) && m.at 0x10 4 % 2 == 0 && m.pipes.all fun p =>
    decide (1 ≤ fieldAt p.hdr 1 1 ∧ fieldAt p.hdr 1 1 ≤ 16) &&
      (fieldAt p.hdr 3 1 != 3 || decide (1 ≤ fieldAt p.hdr 4 2 ∧ fieldAt p.hdr 4 2 ≤ 16)) &&
      allZero (slice p.hdr 0x0C 4) && allZero (slice p.hdr 0x20 16) &&
      (p.own.all fun w => !(decide (0x20 ≤ swOp w ∧ swOp w ≤ 0x23))) &&
      p.streams.all fun s => decide (fieldAt s 0 1 < 32)

/-! ### Checks 3 to 8 -/

/-- Check 3 on the first six bytes and the translation. -/
def RawImage.check3 (m : RawImage) : Bool :=
  m.at 0 4 == 0x55524845 && (m.at 4 2 == 3 || (m.v2 && m.translates))

/-- Check 4. -/
def RawImage.check4 (m : RawImage) (reg : Nat) : Bool :=
  let n := m.at 8 4
  m.at 6 2 == m.headLen && decide (256 ≤ n ∧ n ≤ 2 ^ 24 ∧ n ≤ reg) && n % 64 == 0

/-- Check 5: IMAGE_CRC with its field taken as zero. -/
def RawImage.check5 (m : RawImage) : Bool :=
  crc32c (m.bytes.take 12 ++ [0, 0, 0, 0] ++ m.bytes.drop 16) == m.at 0xC 4

/-- Check 6: reserved header bytes and FLAGS bits. -/
def RawImage.check6 (m : RawImage) : Bool :=
  m.at 0x15 1 == 0 && decide (m.at 0x10 4 < 2) && (m.v2 || allZero (slice m.bytes 0x40 64))

/-- Check 7: PIPE_COUNT and the directory. -/
def RawImage.check7 (m : RawImage) : Bool :=
  decide (1 ≤ m.pipeCount ∧ m.pipeCount ≤ m.dirs) && (List.range m.dirs).all fun n =>
    let e := slice m.bytes (m.dirAt + 16 * n) 16
    if n < m.pipeCount then fieldAt e 0 4 != 0 && fieldAt e 4 4 != 0 && allZero (e.drop 8) else allZero e

/-- The sections and descriptors, as (offset, length). -/
def RawImage.sections (m : RawImage) : List (Nat × Nat) :=
  [(m.at 0x18 4, 16 * m.at 0x16 2), (m.at 0x20 4, m.at 0x24 4), (m.at 0x28 4, m.at 0x2C 4),
    (m.at 0x30 4, m.at 0x34 4)] ++ (List.range m.pipeCount).map m.dir

/-- Sections in ascending order of offset. -/
def sortSections (l : List (Nat × Nat)) : List (Nat × Nat) :=
  l.foldl (fun acc x => (acc.filter fun y => decide (y.1 ≤ x.1)) ++ [x] ++
    acc.filter fun y => decide (x.1 < y.1)) []

/-- Sections from `pos` on do not overlap and lie inside `len`, and the bytes between are zero. -/
def gapsZero (bs : List Byte) (len : Nat) : Nat → List (Nat × Nat) → Bool
  | pos, [] => allZero ((bs.take len).drop pos)
  | pos, (o, n) :: rest =>
    decide (pos ≤ o ∧ o + n ≤ len) && allZero ((bs.take o).drop pos) && gapsZero bs len (o + n) rest

/-- Check 8. -/
def RawImage.check8 (m : RawImage) : Bool :=
  let secs := m.sections.filter fun x => x.2 != 0
  secs.all (fun x => x.1 % 16 == 0) && gapsZero m.bytes (m.at 8 4) m.headLen (sortSections secs) &&
    m.at 0x24 4 % 8 == 0 && m.at 0x2C 4 % 16 == 0 && m.at 0x34 4 % 4 == 0 &&
    (m.at 0x18 4 == 0) == (m.at 0x16 2 == 0) && (m.at 0x30 4 == 0) == (m.at 0x34 4 == 0)

/-! ### Check 9 -/

/-- A descriptor's own fields. -/
def RawPipe.ok (p : RawPipe) (n : Nat) (v2 : Bool) : Bool :=
  let g := fun o k => fieldAt p.hdr o k
  let nib := fun i => bitsOf (g (0x20 + i / 2) 1) (4 * (i % 2)) 4
  g 0 1 == n && decide (1 ≤ g 1 1 ∧ g 1 1 ≤ 32 ∧ g 2 1 ≤ 64 ∧ g 3 1 ≤ 3) &&
    (if g 3 1 = 3 then decide (1 ≤ g 4 2 ∧ g 4 2 ≤ 64) else g 4 2 == 0) &&
    g 6 1 / 2 ^ n == 0 && g 7 1 == 0 && g 0x10 4 == 0x40 && g 0x14 4 == 0x40 + 16 * g 1 1 &&
    decide (g 0x18 4 ≤ 4096) && g 0x1C 4 == 0 && allZero (slice p.hdr 0x30 16) &&
    p.descLen == g 0x14 4 + 8 * g 2 1 &&
    (v2 || (List.range 32).all fun i => decide (i < g 1 1) || nib i == 0)

/-- Pipelines that pipeline `n` depends on, directly or through others. -/
def depsOf (deps : List Nat) : Nat → Nat → Nat
  | 0, _ => 0
  | fuel + 1, n =>
    let d := deps.getD n 0
    (List.range n).foldl (fun acc k => if d.testBit k then acc ||| depsOf deps fuel k else acc) d

/-- Pipeline `n` depends on `k`. -/
def dependsOn (deps : List Nat) (n k : Nat) : Bool := (depsOf deps 8 n).testBit k

/-- Every stage word of an image with its pipeline. -/
def allWords (ps : List RawPipe) : List (Nat × Nat) := ps.zipIdx.flatMap fun p => p.1.words.map fun w => (p.2, w)

/-- REGION, and SRC of MERGE. -/
def swRegion (w : Nat) : Nat := swField w 48

/-- The pipelines that build a region. -/
def buildersOf (ps : List RawPipe) (g : Nat) : List Nat :=
  ((allWords ps).filter fun x => swOp x.2 == 0x09 && swRegion x.2 == g).map fun x => x.1

/-- At most one BUILD of each region, and its probes and lookups depend on it (R172). -/
def regionDeps (ps : List RawPipe) (deps : List Nat) : Bool :=
  (allWords ps).all fun x =>
    if swOp x.2 = 0x09 then (buildersOf ps (swRegion x.2)).length == 1
    else if swOp x.2 = 0x0A ∨ (swOp x.2 = 0x14 ∧ swMode x.2 0 = false) then
      (buildersOf ps (swRegion x.2)).all fun b => dependsOn deps x.1 b
    else true

/-- No two equal numbers. -/
def pairwiseDistinct : List Nat → Bool
  | [] => true
  | x :: xs => !xs.contains x && pairwiseDistinct xs

/-- Updates of a range region: INSERTs of distinct PRIO, or one DELETE (R206). -/
def rangeUpdates (ps : List RawPipe) : Bool :=
  (List.range 256).all fun g =>
    let ups := ((allWords ps).filter fun x => swOp x.2 == 0x21 && swRegion x.2 == g &&
      decide (3 ≤ bitsOf x.2 40 3)).map fun x => x.2
    let ins := ups.filter fun w => bitsOf w 40 3 == 3
    if ins.length = ups.length then pairwiseDistinct (ins.map fun w => swField w 56) else ups.length == 1

/-- A MERGE of REGIONS: PLACEMENT ONE, and SRC directly in DEPENDS (R85, R204). -/
def mergeDeps (ps : List RawPipe) : Bool :=
  ps.all fun p => p.words.all fun w =>
    !(swOp w == 0x11 && bitsOf w 40 2 == 1) ||
      (fieldAt p.hdr 3 1 == 0 && (fieldAt p.hdr 6 1).testBit (swRegion w))

/-- Check 9. -/
def RawImage.check9 (m : RawImage) : Bool :=
  let ps := m.pipes
  let deps := ps.map fun p => fieldAt p.hdr 6 1
  ps.zipIdx.all (fun x => x.1.ok x.2 m.v2) && regionDeps ps deps && rangeUpdates ps && mergeDeps ps

/-! ### The validated form -/

/-- A stream descriptor; a version-2 stage index is translated. -/
def RawPipe.stream (p : RawPipe) (v2 : Bool) (s : List Byte) : StreamDesc :=
  let idx := fun i => if v2 then translateStage p.own i else i
  { stream := fieldAt s 0 1, producer := idx (fieldAt s 1 1), consumer := idx (fieldAt s 2 1),
    form := fieldAt s 3 1, typ := fieldAt s 4 1, group := fieldAt s 5 1, remote := fieldAt s 6 1 == 1 }

/-- A pipeline. -/
def RawPipe.toPipe (p : RawPipe) (v2 : Bool) : Pipe :=
  let g := fun o k => fieldAt p.hdr o k
  { place := g 3 1, tileCount := g 4 2, depends := g 6 1,
    seed := BitVec.ofNat 64 (if v2 then g 8 4 else g 8 8), tsRegion := g 0x18 4,
    intens := (List.range p.words.length).map fun i =>
      if v2 then 15 else bitsOf (g (0x20 + i / 2) 1) (4 * (i % 2)) 4,
    stages := p.words.map (BitVec.ofNat 128), streams := p.streams.map (p.stream v2) }

/-- A binding entry. -/
def RawImage.bind (m : RawImage) (n : Nat) : Bind :=
  let o := m.at 0x18 4 + 16 * n
  let pipe := m.at o 1
  let stage := m.at (o + 1) 1
  { pipe := pipe, stage := if m.v2 then translateIndex (m.pipe pipe).own stage else stage,
    target := m.at (o + 2) 1, kind := m.at (o + 3) 1 % 16, casefold := (m.at (o + 3) 1).testBit 4,
    off := m.at (o + 4) 2, size := m.at (o + 6) 2, dict := m.at (o + 8) 8 }

/-- 32-bit words of a section. -/
def words32 (bs : List Byte) : List (BitVec 32) :=
  (List.range (bs.length / 4)).map fun i => BitVec.ofNat 32 (fieldAt bs (4 * i) 4)

/-- 64-bit words of a section. -/
def words64 (bs : List Byte) : List Word :=
  (List.range (bs.length / 8)).map fun i => BitVec.ofNat 64 (fieldAt bs (8 * i) 8)

/-- The image in validated form. -/
def RawImage.toImage (m : RawImage) : Image :=
  { v2 := m.v2, crc := m.at 0xC 4, span := (m.at 0x10 4).testBit 0, paramLen := m.at 0x1C 4,
    tag := BitVec.ofNat 64 (m.at 0x38 8), pipes := m.pipes.map fun p => p.toPipe m.v2,
    binds := (List.range (m.at 0x16 2)).map m.bind, ucode := words64 (slice m.bytes (m.at 0x20 4) (m.at 0x24 4)),
    consts := slice m.bytes (m.at 0x28 4) (m.at 0x2C 4), ctrl := words32 (slice m.bytes (m.at 0x30 4) (m.at 0x34 4)) }

/-- The first of checks 3 to 9 that an image fails. -/
def RawImage.headFails (m : RawImage) (reg : Nat) : Option Nat :=
  if !m.check3 then some 3
  else if !m.check4 reg then some 4
  else if !m.check5 then some 5
  else if !m.check6 then some 6
  else if !m.check7 then some 7
  else if !m.check8 then some 8
  else if !m.check9 then some 9
  else none

/-- Reserved bytes of stream descriptors and bindings, which the validated form does not keep. -/
def RawImage.streamsPlain (m : RawImage) : Bool :=
  m.pipes.all fun p => p.streams.all fun s => decide (fieldAt s 6 2 < 2)

/-- Reserved bits of KIND. -/
def RawImage.kindsPlain (m : RawImage) : Bool :=
  (List.range (m.at 0x16 2)).all fun n => decide (m.at (m.at 0x18 4 + 16 * n + 3) 1 < 32)

end Sys2Proof.Machine
end

