-- ==== Sys2Proof/Machine/Validate.lean ====
section
/-! DEFINITION. Checks 10 to 14 of R35: stage words (R62 to R67 and the fields of each opcode),
microcode (R101, R103), streams and selections (R69 to R71), join and range regions (R172, R206),
bindings and control code (R389). Each check reads the validated form of the image. -/

namespace Sys2Proof.Machine

/-! ### Check 10: stage words -/

/-- A row of the opcode map (R67): named inputs and outputs allowed, outputs as many as inputs,
APPLY 0 no, 1 yes, 2 required, the MODE bits in use and the fields used in bits [127:48]. -/
structure OpRow where
  opc : Nat
  ins : Nat × Nat
  outs : Nat × Nat
  same : Bool
  apply : Nat
  mode : Nat
  used : List (Nat × Nat)

/-- KP_OFF and KP_CNT. -/
def kpFields : List (Nat × Nat) := [(88, 16), (80, 8)]

/-- IN2 and IN3. -/
def in23 : List (Nat × Nat) := [(56, 8), (48, 8)]

/-- The opcode map with the layouts of the stage words, 0x01 to 0x0D. -/
def opTableLow : List OpRow :=
  [⟨0x01, (0, 0), (1, 4), false, 0, 3, kpFields ++ [(112, 8), (104, 8), (72, 8), (64, 8), (56, 8), (48, 8)]⟩,
    ⟨0x02, (1, 2), (1, 2), true, 0, 0, kpFields ++ in23⟩,
    ⟨0x03, (1, 1), (1, 1), false, 0, 0, kpFields ++ [(48, 8)]⟩,
    ⟨0x04, (1, 4), (0, 0), false, 0, 0, kpFields ++ in23 ++ [(112, 16), (104, 8)]⟩,
    ⟨0x05, (1, 4), (1, 2), false, 1, 3, kpFields ++ in23 ++ [(112, 16), (104, 8)]⟩,
    ⟨0x06, (1, 4), (1, 4), true, 2, 0, in23 ++ [(72, 8), (64, 8)]⟩,
    ⟨0x08, (1, 2), (0, 1), false, 0, 1, []⟩,
    ⟨0x09, (1, 2), (0, 0), false, 1, 1, in23⟩,
    ⟨0x0A, (1, 2), (0, 2), false, 1, 15, [(48, 8)]⟩,
    ⟨0x0B, (1, 2), (0, 0), false, 1, 7, in23 ++ [(64, 16)]⟩,
    ⟨0x0C, (1, 4), (0, 0), false, 1, 1, kpFields ++ in23 ++ [(104, 8), (72, 8), (64, 8)]⟩,
    ⟨0x0D, (1, 4), (0, 0), false, 1, 1, kpFields ++ in23 ++ [(104, 8)]⟩]

/-- The opcode map, 0x10 to 0x23. -/
def opTableHigh : List OpRow :=
  [⟨0x10, (1, 4), (0, 0), false, 1, 1, kpFields ++ in23 ++ [(104, 8), (72, 8), (64, 8)]⟩,
    ⟨0x11, (0, 0), (1, 3), false, 0, 7, kpFields ++ in23 ++ [(104, 8), (72, 8), (64, 8)]⟩,
    ⟨0x12, (1, 3), (1, 3), true, 1, 0, in23 ++ [(80, 8), (64, 16)]⟩,
    ⟨0x14, (0, 0), (1, 2), false, 0, 1, kpFields ++ in23 ++ [(64, 8)]⟩,
    ⟨0x18, (1, 4), (0, 0), false, 1, 3, kpFields ++ in23 ++ [(104, 8), (72, 8)]⟩,
    ⟨0x19, (1, 2), (1, 2), true, 1, 0, kpFields ++ [(104, 8), (48, 32)]⟩,
    ⟨0x1A, (1, 2), (1, 2), true, 0, 1, [(64, 16), (48, 16)]⟩,
    ⟨0x20, (1, 4), (1, 4), true, 1, 1, in23 ++ [(72, 8), (64, 8)]⟩,
    ⟨0x21, (1, 2), (0, 1), false, 0, 7, in23⟩,
    ⟨0x22, (1, 1), (0, 0), false, 1, 0, kpFields ++ in23 ++ [(104, 8)]⟩,
    ⟨0x23, (1, 1), (0, 0), false, 0, 0, kpFields ++ in23 ++ [(104, 8)]⟩]

/-- The row of an opcode. -/
def opRow (opc : Nat) : Option OpRow := (opTableLow ++ opTableHigh).find? fun r => r.opc == opc

/-- Bits of [127:48] outside the used fields are zero, and so are unused MODE bits (R66). -/
def OpRow.plain (r : OpRow) (w : Nat) : Bool :=
  r.used.foldl (fun v f => setBits v f.1 f.2 0) w >>> 48 == 0 && bitsOf w 40 6 ||| r.mode == r.mode

/-- Named fields stand first (R63). -/
def gapless (l : List Nat) : Bool := (l.dropWhile (· != 0xFF)).all (· == 0xFF)

/-- The stream fields of a word (R63, R66, R67). -/
def OpRow.streamsOk (r : OpRow) (p : Pipe) (w : Nat) : Bool :=
  let ins := named (inFields w)
  let outs := named (outFields w)
  gapless (inFields w) && gapless (outFields w) && ins.all (fun v => decide (v < 0x80)) &&
    outs.all (fun v => decide (v < 0x40)) && decide (r.ins.1 ≤ ins.length ∧ ins.length ≤ r.ins.2) &&
    decide (r.outs.1 ≤ outs.length ∧ outs.length ≤ r.outs.2) &&
    (!r.same || ins.length == outs.length) && (ins ++ outs).all fun v => (p.desc (streamNo v)).isSome

/-- APPLY and RELEASE (R62). -/
def OpRow.applyOk (r : OpRow) (w : Nat) : Bool :=
  (w.testBit 46 && r.apply != 0 || !w.testBit 46 && r.apply != 2) && (!w.testBit 47 || w.testBit 46)

/-- KP and UC ranges inside their sections (R66). -/
def OpRow.rangesOk (r : OpRow) (m : Image) (w : Nat) : Bool :=
  (!(r.used.contains (80, 8) && r.used.contains (88, 16)) || r.opc == 0x11 ||
    decide (swField w 80 ≤ 32 ∧ bitsOf w 88 16 + swField w 80 ≤ m.consts.length / 16)) &&
  (!r.used.contains (112, 16) ||
    decide (1 ≤ swField w 104 ∧ bitsOf w 112 16 + swField w 104 ≤ m.ucode.length))

/-- A K register, or 0xFF where allowed. -/
def kOk (v : Nat) (none_ : Bool) : Bool := decide (v ≤ 63) || none_ && v == 0xFF

/-- A K register pair. -/
def kPairOk (v : Nat) (none_ : Bool) : Bool := decide (v ≤ 62) || none_ && v == 0xFF

/-- The ranges of the fields of one opcode. -/
def fieldsOk (w : Nat) (nin ts : Nat) : Bool :=
  let f := swField w
  match swOp w with
  | 0x01 => kOk (f 112) false && kOk (f 104) false && kOk (f 64) false && (decide (f 72 ≤ 3) || f 72 == 0xFF)
  | 0x02 => kOk (f 56) false && kOk (f 48) false
  | 0x03 => kOk (f 48) true
  | 0x09 => decide (f 48 ≤ 15 ∧ f 56 ≤ 2)
  | 0x0A => decide (f 48 ≤ 15 ∧ bitsOf w 40 3 ≤ 4)
  | 0x0B => decide (f 48 ≤ 7 ∧ f 56 ≤ 7)
  | 0x0C => kPairOk (f 104) false && decide (f 72 ≤ 63 ∧ 1 ≤ f 64 ∧ f 64 ≤ 8 ∧ f 72 + f 64 ≤ 64 ∧
      4 * 2 ^ f 64 * nin ≤ ts)
  | 0x0D => kPairOk (f 104) false
  | 0x10 => kPairOk (f 104) false && decide (1 ≤ f 64 ∧ f 64 ≤ 4 ∧ f 64 ≤ nin ∧ 256 ≤ ts)
  | 0x11 => kPairOk (f 104) true && decide (f 64 ≤ 7 ∧ f 72 ≤ 7 ∧ bitsOf w 40 2 ≤ 1) &&
      (if bitsOf w 40 2 = 0 then kPairOk (f 48) false && !(w.testBit 42 && (f 64 == 7 || f 72 == 7))
      else decide (f 48 ≤ 7) && f 56 == 0)
  | 0x12 => decide (1 ≤ bitsOf w 64 16 ∧ bitsOf w 64 16 ≤ 16384) && setBits (setBits (f 56) 0 1 0) 4 1 0 == 0
  | 0x14 => decide (f 48 ≤ 15 ∧ 1 ≤ f 56 ∧ f 56 ≤ 8 ∧ f 64 + f 56 ≤ 64)
  | 0x18 => kPairOk (f 104) true && kOk (f 72) false
  | 0x19 => kOk (f 104) true
  | 0x1A => decide (1 ≤ bitsOf w 48 16)
  | 0x21 => decide (f 48 ≤ 15 ∧ bitsOf w 40 3 ≤ 4) && (f 56 == 0 || bitsOf w 40 3 == 3)
  | 0x22 => kOk (f 104) false && decide (1 ≤ f 56 ∧ f 56 ≤ 8 ∧ 15 ≤ f 48 ∧ f 48 ≤ 32)
  | 0x23 => kOk (f 104) false && decide (1 ≤ f 56 ∧ f 56 ≤ 8 ∧ 15 ≤ f 48 ∧ f 48 ≤ 32)
  | _ => true

/-- A stage word by itself (R66). -/
def wordOk (m : Image) (p : Pipe) (w : Nat) : Bool :=
  match opRow (swOp w) with
  | none => false
  | some r => r.plain w && r.streamsOk p w && r.applyOk w && r.rangesOk m w &&
      fieldsOk w (named (inFields w)).length p.tsRegion

/-- The micro-ops of a stage word. -/
def Image.uops (m : Image) (w : Nat) : List UOp :=
  ((m.ucode.drop (bitsOf w 112 16)).take (swField w 104)).map UOp.ofWord

/-- Types before the first micro-op: V0 to V3 the inputs', V4 to V7 uint64 (R101). -/
def Pipe.vTypes (p : Pipe) (w : Nat) : List (Option Nat) :=
  let ins := named (inFields w)
  (List.range 16).map fun i =>
    if i < 4 then (ins[i]?).map fun v => p.typeOf (streamNo v)
    else if i < 8 then some 0x0D else none

/-- Microcode typing of FILTER and COMPUTE (R101, R103). A register or output with the illegal TYPE of a stream,
which check 11 refuses (R92), suits every micro-op. -/
def microOk (m : Image) (p : Pipe) (w : Nat) : Bool :=
  if swOp w = 0x04 ∨ swOp w = 0x05 then
    match checkUOps (m.uops w) (p.vTypes w) with
    | none => false
    | some ts => (named (outFields w)).zipIdx.all fun x =>
      let want := p.typeOf (streamNo x.1)
      (ts.getD (8 + x.2) none).any fun t => t == want || !typeOk t || !typeOk want
  else true

/-- Every stage of an image with its pipeline and index. -/
def Image.stageList (m : Image) : List (Pipe × Nat × Nat) :=
  m.pipes.flatMap fun p => (List.range p.stages.length).map fun n => (p, n, p.word n)

/-- The BUILD of a region: its pipeline, stage index and word. -/
def Image.builder (m : Image) (g : Nat) : Option (Pipe × Nat × Nat) :=
  m.stageList.find? fun x => swOp x.2.2 == 0x09 && swField x.2.2 48 == g

/-- The stage among the first `before` that hashes stream `s` alone into its annotation. -/
def Pipe.hashOf (p : Pipe) (s before : Nat) : Option Nat :=
  ((p.stages.take before).map BitVec.toNat).find? fun w =>
    swOp w == 0x08 && swField w 24 == 0xFF && swField w 16 == 0xFF && swField w 8 == 0x40 + s

/-- The key stream of a stage. -/
def keyStream (w : Nat) : Nat := streamNo (swField w 8)

/-- The byte of K60 (`hi` false) or K61 that field `f` of an EMIT reads is loaded from the pool;
what the pool leaves unloaded is zero (R64, R144). -/
def emitByte (m : Image) (w : Nat) (hi : Bool) (f : Nat) : Nat :=
  if swField w 80 ≤ 30 then 0
  else fieldAt m.consts (16 * (bitsOf w 88 16 + 30) + (if hi then 8 else 0) + f) 1

/-- A field of type `t` accepts the bytes of K60 and K61 (R144). -/
def emitFieldOk (t k60 k61 : Nat) : Bool :=
  if isDec t then decide (k60 ≤ 38) else if t = 0x20 ∨ t = 0x21 then decide (k61 ≤ 1) else true

/-- The fields of an EMIT whose type is known: a gathered field's is not (R89). -/
def Pipe.emitFields (p : Pipe) (w : Nat) : List (Nat × Nat) :=
  ((named (inFields w)).zipIdx.map fun x => (x.2, p.typeOf (streamNo x.1))).filter fun x =>
    !(swMode w 1 && x.1 == 0)

/-- EMIT's precisions and string kinds as the constant pool loads them (R144). -/
def emitOk (m : Image) (p : Pipe) (w : Nat) : Bool :=
  swOp w != 0x18 || (p.emitFields w).all fun x => emitFieldOk x.2 (emitByte m w false x.1) (emitByte m w true x.1)

/-- What R172 adds to check 10 for BUILD, PROBE and LOOKUP. -/
def joinWordOk (m : Image) (p : Pipe) (w : Nat) : Bool :=
  let b := m.builder (swField w 48)
  match swOp w with
  | 0x09 => !(swMode w 0 && p.typeOf (keyStream w) == 0x20)
  | 0x0A =>
    match b with
    | none => true
    | some (q, _, v) =>
      (swMode w 3 || decide (1 ≤ swField v 56)) &&
        (match p.hashOf (keyStream w) 32, q.hashOf (keyStream v) 32 with
        | some x, some y => swMode x 0 == swMode y 0
        | _, _ => true)
  | 0x14 =>
    let pairs := decide (swField w 64 + 2 * swField w 56 ≤ 64)
    (swField w 32 == 0xFF || !wide (p.typeOf (swField w 32)) || pairs) &&
      (swMode w 0 || match b with
        | none => true
        | some (q, _, v) => !swMode v 0 && (!wide (q.typeOf (keyStream v)) || pairs))
  | _ => true

/-- R85: pipeline SRC of a MERGE of REGIONS holds one AGG with the same array and functions. -/
def mergeWordOk (m : Image) (w : Nat) : Bool :=
  !(swOp w == 0x11 && bitsOf w 40 2 == 1) ||
    match m.pipes[swField w 48]? with
    | none => false
    | some q =>
      match q.stagesWith 0x0B with
      | [(_, v)] => bitsOf v 64 16 == bitsOf w 88 16 && swField v 48 == swField w 64 && swField v 56 == swField w 72
      | _ => false

/-- R192: the functions of a FOLD over RUNS against the types of the outputs that take their results, which are
the types that check 10 can know (DEDUCED, log entry 82). -/
def foldWordOk (p : Pipe) (w : Nat) : Bool :=
  !(swOp w == 0x11 && bitsOf w 40 2 == 0 && w.testBit 42) ||
    let outs := named (outFields w)
    let fns := [swField w 64, swField w 72].filter (· != 0)
    ((outs.drop (outs.length - fns.length)).zip fns).all fun x =>
      let t := p.typeOf (streamNo x.1)
      match x.2 with
      | 1 => t == 0x05
      | 2 => t == 0x05
      | 3 => t == 0x06 || t == 0x11
      | _ => t != 0x20

/-- R206: TOPK's rows fit the region. -/
def topkOk (p : Pipe) (w : Nat) : Bool :=
  let ts := (named (inFields w)).map fun v => p.typeOf (streamNo v)
  swOp w != 0x12 || !(ts.all fixedWidth) ||
    decide (bitsOf w 64 16 * (8 + (ts.map fun t => pad8 (max (byteWidth t) 1)).foldl (· + ·) 0) ≤ p.tsRegion * 1024)

/-- R206: stages that cannot share a pipeline's region. -/
def Pipe.regionUse (p : Pipe) : Bool :=
  let has := fun o => !(p.stagesWith o).isEmpty
  !(has 0x10 && (has 0x0B || has 0x0C || has 0x12 || decide (1 < (p.stagesWith 0x10).length))) &&
    !(has 0x12 && (has 0x0B || has 0x0C || has 0x10))

/-- Check 10. -/
def Image.check10 (m : Image) : Bool :=
  (m.stageList.all fun x =>
    let p := x.1
    let w := x.2.2
    wordOk m p w && microOk m p w && emitOk m p w && joinWordOk m p w && mergeWordOk m w && foldWordOk p w && topkOk p w) &&
  m.pipes.all Pipe.regionUse &&
  decide ((m.stageList.filter fun x => swOp x.2.2 == 0x18 && swField x.2.2 104 == 0xFF).length ≤ 1)

/-! ### Check 11: streams -/

/-- A stream descriptor by itself (R22). -/
def StreamDesc.ok (x : StreamDesc) (stages : Nat) : Bool :=
  decide (x.stream ≤ 63 ∧ x.producer < x.consumer ∧ x.consumer < stages ∧ x.form ≤ 1) && typeOk x.typ &&
    !(x.form == 1 && x.typ == 0x21) && (decide (x.group ≤ 63) || x.group == 0xFF)

/-- Inputs and outputs of stage `n` agree with the stream table; taps lie between (R19, R69). -/
def Pipe.linked (p : Pipe) (n : Nat) : Bool :=
  let w := p.word n
  (named (inFields w)).all (fun v =>
    match p.desc (streamNo v) with
    | none => false
    | some x => if isTap v then decide (x.producer < n ∧ n < x.consumer) else x.consumer == n) &&
  (named (outFields w)).all fun v => ((p.desc v).map fun x => x.producer == n).getD false

/-- How often stage `n` consumes or produces stream `s`. -/
def countOf (l : List Nat) (s : Nat) : Nat := (l.filter (· == s)).length

/-- Every stream is produced once and consumed once, and no descriptor repeats (R19, R22). -/
def Pipe.oneEach (p : Pipe) : Bool :=
  pairwiseDistinct (p.streams.map fun x => x.stream) && p.streams.all fun x =>
    countOf (inFields (p.word x.consumer)) x.stream == 1 && countOf (outFields (p.word x.producer)) x.stream == 1

/-- Stream descriptors of a field list. -/
def Pipe.descs (p : Pipe) (l : List Nat) : List StreamDesc := (named l).filterMap fun v => p.desc (streamNo v)

/-- The stream a stage annotates (R70). -/
def notes (w : Nat) : List Nat :=
  let s := keyStream w
  if swOp w = 0x08 ∧ swField w 24 = 0xFF then [s]
  else if swOp w = 0x21 ∧ bitsOf w 40 3 ≤ 2 ∧ swField w 24 = 0xFF then [s]
  else if swOp w = 0x0A ∧ swMode w 3 = false ∧ swField w 16 ≠ 0xFF then [streamNo (swField w 16)]
  else []

/-- Stream `s` carries an annotation when stage `n` reads it: an earlier stage made it, or an
EXCHANGE carried it (R70, AGG). -/
def Pipe.noted (p : Pipe) : Nat → Nat → Nat → Bool
  | 0, _, _ => false
  | fuel + 1, n, s =>
    ((p.stages.take n).any fun w => (notes w.toNat).contains s) ||
      match p.desc s with
      | none => false
      | some x =>
        let w := p.word x.producer
        swOp w == 0x20 && decide (x.producer < n) &&
          (((named (inFields w)).zip (named (outFields w))).any fun io =>
            io.2 == s && p.noted fuel x.producer (streamNo io.1))

/-- Types that VALUE stores (R172). -/
def valueType (t : Nat) : Bool := [0x02, 0x03, 0x04, 0x0A, 0x0B, 0x0C, 0x18].contains t

/-- What a PROBE accepts (R83, R172, R178, R184). -/
def probeOk (m : Image) (p : Pipe) (n : Nat) (si so : List StreamDesc) : Bool :=
  let w := p.word n
  let b := m.builder (swField w 48)
  let key := si.headD ⟨0, 0, 0, 0, 0, 0xFF, false⟩
  let keyed := (p.hashOf key.stream n).isSome &&
    (match b with
    | none => true
    | some (q, _, v) => q.typeOf (keyStream v) == key.typ)
  let spills := (b.map fun x => swMode x.2.2 0).getD false
  let carried := p.streams.filter fun x => x.group == key.group && decide (x.producer < n ∧ n < x.consumer)
  let join := bitsOf w 40 3
  if swMode w 3 then
    let value := if join = 2 ∨ join = 3 then [] else [if join = 4 then 0x01 else 0x0D]
    keyed && (so.map fun x => x.typ) == 0x0D :: value
  else
    keyed && isTap (swField w 16) && so.isEmpty && key.group != 0xFF &&
      ((si[1]?).map fun x => x.group == key.group).getD false &&
      (!spills || decide (carried.length ≤ 4) && carried.all fun x => fixedWidth x.typ)

/-- Input types of an accumulator function (R188). -/
def fnTypeOk (fn t : Nat) : Bool :=
  match fn with
  | 3 => isNum t
  | 4 => t != 0x20
  | 5 => t != 0x20
  | 6 => t != 0x20
  | _ => true

/-- Result type of an accumulator function (R188). -/
def fnResult (fn t : Nat) : Nat :=
  match fn with
  | 3 => if isFlt t then 0x11 else if isDec t then t else 0x06
  | 4 => t
  | 5 => t
  | 6 => t
  | _ => 0x05

/-- The output types of a MERGE of REGIONS (R85). -/
def mergeTypesOk (m : Image) (w : Nat) (so : List StreamDesc) : Bool :=
  match (m.pipes[swField w 48]?).bind fun q => (q.aggStage).map fun a => (q, a.2) with
  | none => true
  | some (q, v) =>
    let t0 := q.typeOf (keyStream v)
    let t1 := if swField v 16 = 0xFF then t0 else q.typeOf (streamNo (swField v 16))
    let want := [some 0x0C, if swField v 48 = 0 then none else some (fnResult (swField v 48) t0),
      if swField v 56 = 0 then none else some (fnResult (swField v 56) t1)]
    (so.zip want).all fun x => (x.2.map fun t => t == x.1.typ).getD true

/-- Every RANGE stage of a region reads keys of one type (R206). -/
def rangeTypesOk (m : Image) (g t : Nat) : Bool :=
  m.stageList.all fun x => !(swOp x.2.2 == 0x21 && swField x.2.2 48 == g) || x.1.typeOf (keyStream x.2.2) == t

/-- What a RANGE accepts. -/
def rangeOk (m : Image) (w : Nat) (si so : List StreamDesc) : Bool :=
  let op := bitsOf w 40 3
  let t := (si.map fun x => x.typ).getD 0 0
  rangeTypesOk m (swField w 48) t &&
    (if op ≤ 2 then
      (if so.isEmpty then isTap (swField w 8) else so.map (fun x => x.typ) == [0x0C]) && si.length == 1
    else so.isEmpty && (if op = 3 then [0x0A, 0x0B, 0x0C].contains ((si.map fun x => x.typ).getD 1 0)
      else si.length == 1))

/-- The streams of a stage match what its opcode accepts (R67 and the sections of the opcodes). -/
def stageStreamsOk (m : Image) (p : Pipe) (n : Nat) : Bool :=
  let w := p.word n
  let si := p.descs (inFields w)
  let so := p.descs (outFields w)
  let ti := si.map fun x => x.typ
  let same := ti == so.map fun x => x.typ
  let enc := fun (l : List StreamDesc) => l.all fun x => x.form == 0
  (swOp w == 0x20 || so.all fun x => !x.remote) &&
  match swOp w with
  | 0x01 => enc so
  | 0x02 => same && enc si && enc so
  | 0x03 => enc si && so.all fun x => x.form == 1
  | 0x06 =>
    let g := (so.map fun x => x.group).getD 0 0xFF
    same && g != 0xFF && so.all (fun x => x.group == g) && si.all fun x => x.group != g
  | 0x08 => if so.isEmpty then isTap (swField w 8) else so.all fun x => x.typ == 0x0D
  | 0x09 => (p.hashOf (keyStream w) n).isSome && (swField w 56 != 2 || valueType (ti.getD 1 0))
  | 0x0A => probeOk m p n si so
  | 0x0B => fnTypeOk (swField w 48) (ti.getD 0 0) && fnTypeOk (swField w 56) (ti.getD 1 (ti.getD 0 0)) &&
      (!swMode w 0 || p.noted 32 n (keyStream w))
  | 0x11 => bitsOf w 40 2 == 0 || mergeTypesOk m w so
  | 0x12 => same && ti.all fixedWidth
  | 0x19 => same
  | 0x1A => same
  | 0x20 => same && so.all fun x => x.remote
  | 0x21 => rangeOk m w si so
  | _ => true

/-- Annotated streams: at most one annotating stage, and room for the annotation, also on the stream that
receives one an EXCHANGE carries (R70). -/
def Pipe.notesOk (p : Pipe) : Bool :=
  let l := p.stages.flatMap fun w => notes w.toNat
  pairwiseDistinct l && (p.streams.map fun x => x.stream).all fun s =>
    !(l.contains s || p.noted 32 p.stages.length s) || !p.decodedForm s ||
      (fixedWidth (p.typeOf s) && decide (byteWidth (p.typeOf s) ≤ 8))

/-- Stages of a pipeline that meet `f` and whose IN0 lies in group `g`, ascending. -/
def Pipe.inGroup (p : Pipe) (g : Nat) (f : Nat → Bool) : List Nat :=
  (List.range p.stages.length).filter fun n =>
    swField (p.word n) 8 != 0xFF && p.groupOfStage n == g && f (p.word n)

/-- Each group with writers has one RELEASE, at the highest stage that reads the selection (R71). -/
def Pipe.releases (p : Pipe) : Bool :=
  (List.range p.stages.length).all fun n =>
    !(isWriter (p.word n)) ||
      let g := p.groupOfStage n
      match (p.inGroup g fun w => w.testBit 46).getLast? with
      | none => false
      | some last => p.inGroup g (fun w => w.testBit 47) == [last]

/-- Check 11. -/
def Image.check11 (m : Image) : Bool :=
  m.pipes.all fun p =>
    p.streams.all (fun x => x.ok p.stages.length) && p.oneEach && p.notesOk && p.releases &&
      (List.range p.stages.length).all fun n => p.linked n && stageStreamsOk m p n

/-! ### Checks 12 to 14 -/

/-- Check 12: a PROBE and the BUILD of its region carry one SEED. A region that an earlier run built
is judged at submission (R171, R174; log entry 36). -/
def Image.check12 (m : Image) : Bool :=
  m.stageList.all fun x => swOp x.2.2 != 0x0A ||
    ((m.builder (swField x.2.2 48)).map fun b => b.1.seed == x.1.seed).getD true

/-- A binding by itself (R24). -/
def Bind.ok (b : Bind) (m : Image) : Bool :=
  (match m.pipes[b.pipe]? with
  | none => false
  | some p => decide (b.stage < p.stages.length)) &&
  decide (b.target ≤ 63 ∧ b.kind ≤ 3 ∧ b.off + b.size ≤ m.paramLen) &&
  (b.kind != 0 || (decide (1 ≤ b.size ∧ b.size ≤ 16) && b.dict == 0 && (decide (b.size ≤ 8) || decide (b.target ≤ 62))))

/-- Check 13. -/
def Image.check13 (m : Image) : Bool :=
  decide (m.binds.length ≤ 256 ∧ m.paramLen ≤ 65536) && m.binds.all fun b => b.ok m

/-- Check 14 (R389). -/
def Image.check14 (m : Image) : Bool :=
  (m.ctrl.isEmpty || decide (m.ctrl.length ≤ 65536) && codeLegal m.ctrl) &&
    m.stageList.all fun x => swOp x.2.2 != 0x1A || decide (bitsOf x.2.2 64 16 < m.ctrl.length)

/-- The first of checks 10 to 14 that an image fails. -/
def RawImage.bodyFails (r : RawImage) : Option Nat :=
  let m := r.toImage
  if !m.check10 then some 10
  else if !(m.check11 && r.streamsPlain) then some 11
  else if !m.check12 then some 12
  else if !(m.check13 && r.kindsPlain) then some 13
  else if !m.check14 then some 14
  else none

/-- Checks 2 to 14 of a registered program (R35). -/
def Dev.checkImage (d : Dev) (g : ProgReg) : Except Fail Image :=
  if !d.inPod g.pod g.addr g.len then .error (badProgram 2) else
  let a := d.localForm g.addr
  let head := d.ld a 16
  let len := min (max 256 (fieldAt head 8 4)) g.len
  let bytes := d.ld a len
  let raw : RawImage := { bytes := bytes, v2 := fieldAt head 4 1 == 2 }
  match d.poisonIn a len with
  | .clean =>
    (match raw.headFails g.len with
    | some c => .error (badProgram c)
    | none =>
      match raw.bodyFails with
      | some c => .error (badProgram c)
      | none => .ok raw.toImage)
  | p => .error (poisonFail p)

end Sys2Proof.Machine
end

