-- ==== Sys2Proof/Machine/Place.lean ====
section
/-! DEFINITION. Placement: eligible tiles and the demand on a tile's store (R42, R43), the placement
kinds, the program cache of a cluster (R38 to R40), and the placing of a run (R45, R46, R224). -/

namespace Sys2Proof.Machine

/-! ### Demand on a tile (R43) -/

/-- What one placed instance asks of a tile: its run and pipeline, region, buffer pairs and the
pipelines it depends on. `runs`: it can still run. -/
structure TileLoad where
  ring : Nat
  index : Nat
  pipe : Nat
  ts : Nat
  pairs : Nat
  deps : Nat
  runs : Bool
  deriving DecidableEq, Repr

/-- The load of pipeline `n` of an image. -/
def Image.load (m : Image) (ring index n : Nat) : TileLoad :=
  let p := m.pipes[n]?
  { ring := ring, index := index, pipe := n, ts := (p.map fun x => x.tsRegion).getD 0,
    pairs := (p.map fun x => x.streams.length).getD 0,
    deps := depsOf (m.pipes.map fun x => x.depends) 8 n, runs := true }

/-- Two instances that cannot run at the same time (R43). -/
def TileLoad.apart (a b : TileLoad) : Bool :=
  a.ring == b.ring && a.index == b.index && (a.deps.testBit b.pipe || b.deps.testBit a.pipe)

/-- The most buffer pairs of a set of the given loads that can run together with `chosen`. -/
def mostPairs : List TileLoad → List TileLoad → Nat
  | _, [] => 0
  | chosen, x :: xs =>
    max (mostPairs chosen xs)
      (if x.runs && chosen.all (fun y => !y.apart x) then x.pairs + mostPairs (x :: chosen) xs else 0)

/-- The tile-store rule (R43). -/
def fitsTile (l : List TileLoad) : Bool :=
  let pairs := mostPairs [] l
  decide (pairs ≤ 8 ∧ (l.map fun x => x.ts).foldl (· + ·) 0 + 512 * pairs ≤ 4096)

/-- The instance that a slot holds, or that it is kept for (R56). -/
def Dev.slotInst (d : Dev) (x : SlotSt) : Option Inst :=
  match d.findInst x.tile x.slot with
  | some i => some i
  | none => d.insts.find? fun i => x.keptFor i

/-- Every pipeline that names pipeline `n` in DEPENDS is DONE (R44). -/
def Dev.dependentsDone (d : Dev) (r : Run) (m : Image) (n : Nat) : Bool :=
  m.pipes.zipIdx.all fun (x : Pipe × Nat) => !x.1.depends.testBit n || d.pipeDoneHere r.ring r.index x.2

/-- The load of a slot: a FAILED or leaving slot holds no region and no buffers (R48, R56), and a DONE one
gives its region back once every pipeline that depends on it is DONE (R44); the slot itself stays DONE until
the completion (R49; log entry 79). -/
def Dev.slotLoad (d : Dev) (x : SlotSt) : Option TileLoad :=
  if x.life == .failed then none
  else
    (d.slotInst x).bind fun i => (d.findRun i.ring i.index).bind fun r => r.image.bind fun m =>
      if i.life == .done && d.dependentsDone r m i.pipe then none
      else some { m.load i.ring i.index i.pipe with runs := i.life != .done }

/-- Slots of a tile that hold something. -/
def Dev.tileSlots (d : Dev) (t : Nat) : List SlotSt := d.slots.filter fun x => x.tile == t

/-- The lowest slot of a tile that holds nothing. -/
def Dev.freeSlotOf (d : Dev) (t : Nat) : Option Nat :=
  (List.range 4).find? fun n => (d.tileSlots t).all fun x => x.slot != n

/-- The self-test keeps the tile out of placement (R42, R466, R467). -/
def Dev.tileClaimed (d : Dev) (t : Nat) : Bool :=
  d.errs.tests.any fun x => x.tile == t && (x.claimed || x.testing || x.immediate)

/-- The tile is fenced (R471). -/
def Dev.tileFenced (d : Dev) (t : Nat) : Bool := (d.get F.ERR_FENCE_TILE_FENCED).testBit t

/-- A slot of the tile belongs to the pipeline: it holds an instance, is kept for one, or is being left (R19,
R42). The same pipeline is the same run's: two runs of one program are two pipelines each (DESIGN CHOICE, log
entry 78). -/
def Dev.holdsPipe (d : Dev) (t : Nat) (x : TileLoad) : Bool :=
  (d.tileSlots t).any fun s => s.ring == x.ring && s.index == x.index && s.pipe == x.pipe

/-- A tile of the pod is eligible for an instance (R42). -/
def Dev.eligible (d : Dev) (pod : Nat) (x : TileLoad) (t : Nat) : Bool :=
  d.podTile pod t && !d.tileFenced t && !d.tileClaimed t && (d.freeSlotOf t).isSome &&
    !d.holdsPipe t x && fitsTile (x :: (d.tileSlots t).filterMap d.slotLoad)

/-! ### The placement kinds -/

/-- T0, T8 … T56, T1, T9 … T63. -/
def interleaved : List Nat := (List.range 64).map fun k => k % 8 * 8 + k / 8

/-- The tiles a placement kind chooses among eligible tiles (R42). -/
def choose (kind count : Nat) (ok : Nat → Bool) : List Nat :=
  let all := (List.range 64).filter ok
  match kind with
  | 0 => all.take 1
  | 1 => (List.range 8).filterMap fun c => all.find? fun t => t / 8 == c
  | 2 => all
  | _ => (interleaved.filter ok).take count

/-! ### Check 15 -/

/-- The tiles of each pipeline from `n` on, with nothing else on the pod's unfenced tiles: `none`
where a pipeline finds no tile. -/
def placeAlone (m : Image) (tiles : List Nat) : Nat → Nat → List (Nat × TileLoad) → Bool
  | 0, _, _ => true
  | left + 1, n, loads =>
    match m.pipes[n]? with
    | none => true
    | some p =>
      let x := m.load 0 0 n
      let on := fun t => (loads.filter fun y => y.1 == t).map fun y => y.2
      let got := choose p.place p.tileCount fun t =>
        tiles.contains t && decide ((on t).length < 4) && fitsTile (x :: on t)
      !got.isEmpty && placeAlone m tiles left (n + 1) (got.map (fun t => (t, x)) ++ loads)

/-- Check 15 of R35. -/
def Dev.check15 (d : Dev) (pod : Nat) (m : Image) : Bool :=
  placeAlone m ((d.podTiles pod).filter fun t => !d.tileFenced t) m.pipes.length 0 []

/-! ### The program cache (R38 to R41) -/

/-- An entry of a cluster is pinned while a pipeline of its program is placed there (R40). -/
def Dev.pinned (d : Dev) (e : PgcEntry) : Bool :=
  d.slots.any fun s => s.tile / 8 == e.cluster && s.pod == e.pod && s.handle == e.handle

/-- The least recently submitted unpinned entry of a full cluster. -/
def Dev.pgcVictim (d : Dev) (c : Nat) : Option PgcEntry :=
  let l := d.pgc.filter fun e => e.cluster == c
  if l.length < 64 then none
  else (l.filter fun e => !d.pinned e).foldl (fun acc e =>
    match acc with
    | none => some e
    | some b => if e.age < b.age then some e else acc) none

/-- An entry of a cluster for a program of a pod. -/
def PgcEntry.isFor (e : PgcEntry) (c pod handle : Nat) : Bool := e.cluster == c && e.pod == pod && e.handle == handle

/-- The validated form is copied into a cluster's cache, in place of a victim when it is full (R39, R40). -/
def Dev.copyProgram (d : Dev) (c pod handle order : Nat) (m : Image) : Dev :=
  if d.pgc.any fun e => e.isFor c pod handle then d
  else
    let keep : List PgcEntry := match d.pgcVictim c with
      | some v => d.pgc.filter fun e => !e.isFor v.cluster v.pod v.handle
      | none => d.pgc
    { d with pgc := keep ++ [({ cluster := c, pod := pod, handle := handle, age := order, image := m } : PgcEntry)] }

/-- A cluster that the placement uses holds the program: a copy that the submission required counts as a miss
(R39, R54). -/
def Dev.cacheProgram (d : Dev) (c pod handle order : Nat) (m : Image) : Dev :=
  if d.pgc.any fun e => e.isFor c pod handle then d
  else (d.copyProgram c pod handle order m).count .CLU_PGC_MISS 1 c

/-- A submission has found its program resident: every entry of it becomes recent (R40), and each cluster that
holds one counts a hit (R54). -/
def Dev.hitProgram (d : Dev) (pod handle order : Nat) : Dev :=
  let mine := fun (e : PgcEntry) => e.pod == pod && e.handle == handle
  let d := { d with pgc := mapIf mine (fun e => { e with age := order }) d.pgc }
  ((d.pgc.filter mine).map fun e => e.cluster).foldl (fun d c => d.count .CLU_PGC_HIT 1 c) d

/-! ### Placing a run -/

/-- Join regions that a run builds, probes or looks up, and range regions it updates or searches. -/
def Image.regionsUsed (m : Image) : List Nat × List Nat :=
  let ws := m.stageList.map fun x => x.2.2
  ((ws.filter joinStage).map fun w => swField w 48,
    (ws.filter fun w => swOp w == 0x21 || (swOp w == 0x14 && swMode w 0)).map fun w => swField w 48)

/-- Range regions that a run updates (R216). -/
def Image.rangesUpdated (m : Image) : List Nat :=
  (((m.stageList.map fun x => x.2.2).filter fun w => swOp w == 0x21 && decide (3 ≤ bitsOf w 40 3)).map fun w =>
    swField w 48).eraseDups

/-- A region is locked by another run. -/
def ownedElsewhere (o : Option (Nat × Nat)) (r : Run) : Bool := (o.map fun x => x != (r.ring, r.index)).getD false

/-- The run waits for a region that another active run has locked (R171, R216). -/
def Dev.regionsLocked (d : Dev) (r : Run) (m : Image) : Bool :=
  let use := m.regionsUsed
  (use.1.any fun g => ownedElsewhere (d.region r.pod g).owner r) ||
    use.2.any fun g => ownedElsewhere (d.rregion r.pod g).owner r

/-- The tile was last used by another pod and is to be zeroed first (R224). -/
def Dev.foreignTile (d : Dev) (pod t : Nat) : Bool := d.lastPod.any fun x => x.1 == t && x.2 != pod

/-- The tile is being zeroed. -/
def Dev.zeroing (d : Dev) (t : Nat) : Bool := d.get F.TIL_TS_SCRUB_ZEROING t == 1

/-- One instance takes a slot (R46, R48, R49). -/
def Dev.placeInst (d : Dev) (r : Run) (n number t : Nat) : Dev :=
  match d.freeSlotOf t with
  | none => d
  | some s =>
    let i : Inst :=
      { ring := r.ring, index := r.index, pod := r.pod, pipe := n, number := number, tile := t, slot := s,
        life := .placed, epoch := 0, chans := [], stages := [], accs := [], extInit := false, stop := false,
        leaving := false, parkArea := 0 }
    let x : SlotSt :=
      { tile := t, slot := s, ring := r.ring, index := r.index, pod := r.pod, handle := r.handle, pipe := n,
        number := number, life := .placed, epoch := 0, drain := 0, pairs := 0, stalls := [] }
    let mine := fun (y : Nat × Nat) => y.1 == t
    { d with insts := d.insts ++ [i], slots := d.slots ++ [x], lastPod := upsert mine (t, r.pod) d.lastPod }

/-- The instances of one pipeline, numbered in the order of the placement table. -/
def Dev.placePipe (d : Dev) (r : Run) (n : Nat) (tiles : List Nat) : Dev :=
  tiles.zipIdx.foldl (fun d x => d.placeInst r n x.2 x.1) d

/-- What placing comes to: the run waits, or every pipeline has its tiles. -/
inductive Placing where
  | wait (d : Dev)
  | ok (d : Dev)

/-- Place the pipelines of a run from `n` on; the run waits when one finds no tile or a chosen tile
is to be zeroed (R45, R224). `d0`: the device before any was placed. -/
def Dev.placeFrom (d0 : Dev) (r : Run) (m : Image) : Nat → Nat → Dev → Placing
  | 0, _, d => .ok d
  | left + 1, n, d =>
    match m.pipes[n]? with
    | none => .ok d
    | some p =>
      let tiles := choose p.place p.tileCount (d.eligible r.pod (m.load r.ring r.index n))
      if tiles.isEmpty || tiles.any d0.zeroing then .wait d0
      else
        let dirty := tiles.filter (d0.foreignTile r.pod)
        if dirty.isEmpty then d0.placeFrom r m left (n + 1) (d.placePipe r n tiles)
        else .wait (dirty.foldl (fun d t => d.put F.TIL_TS_SCRUB_ZEROING 1 t) d0)

/-- Instance counts of the pipelines of a run. -/
def Dev.counts (d : Dev) (r : Run) (m : Image) : List Nat :=
  (List.range m.pipes.length).map fun n => (d.pipeInsts r.ring r.index n).length

/-- K registers of a stage after constants and bindings. -/
def Run.kOf (r : Run) (pipe stage : Nat) : List Word :=
  ((r.kinit.find? fun y => y.1 == pipe && y.2.1 == stage).map fun y => y.2.2).getD (List.replicate 64 0)

/-- R200: a RUNS merge on several tiles takes its parts, and no reserved bit is set. -/
def Dev.mergeBindFails (d : Dev) (r : Run) (m : Image) : Bool :=
  m.pipes.zipIdx.any fun (x : Pipe × Nat) =>
    ((x.1.stagesWith 0x11).filter fun y => bitsOf y.2 40 2 == 0).any fun y =>
      let v := kReg (r.kOf x.2 y.1) (swField y.2 48 + 1)
      decide (2 ≤ v) || (v % 2 == 0 && decide (1 < (d.pipeInsts r.ring r.index x.2).length))

/-- A run that shares another member's CRC, or none to compare (R374). -/
def crcsAgree (m : Image) (js : List JoinMsg) : Bool := js.all fun j => j.crc == m.crc

/-- A placed run: its JOIN goes out, JOINs that arrived before are taken, and its cluster caches hold
the program (R39, R374). A program validated for a run that still waits is resident in no cluster until the
placement names one (DESIGN CHOICE, log entry 78). -/
def Dev.placedRun (d : Dev) (r : Run) (m : Image) : Dev :=
  let grp := d.get F.LNK_POD_SPAN_GROUP r.pod
  let mine := fun (j : JoinMsg) => j.group == grp && j.tag.toNat == r.tag
  let held := if m.span then d.joins.filter mine else []
  let d := if m.span then { d with joins := d.joins.filter fun j => !mine j } else d
  let clusters := ((d.instsOf r.ring r.index).map fun i => i.tile / 8).eraseDups
  let d := clusters.foldl (fun d c => d.cacheProgram c r.pod r.handle r.order m) d
  let d := d.onRun r.ring r.index fun x =>
    { x with st := .running, placed := true, epochs := m.pipes.map fun _ => 0, joins := held }
  let d := d.tellPeers r 0x48 (m.crc :: d.counts r m)
  if crcsAgree m held then d else d.failRun r.ring r.index ⟨0x11, 16⟩ {}

/-- A run ends before any tile starts. -/
def Dev.failEntry (d : Dev) (r : Run) (f : Fail) : Dev :=
  let gone := fun (i : Inst) => i.ring == r.ring && i.index == r.index
  let slots := d.slots.filter fun x => !(d.insts.any fun i => gone i && i.tile == x.tile && i.slot == x.slot)
  let d := { d with insts := d.insts.filter fun i => !gone i, slots := slots }
  (d.recordFailure r.ring r.index f {}).onRun r.ring r.index fun x => { x with st := .ended }

/-- Put a waiting run behind every run that waits already. -/
def Dev.waitLast (d : Dev) (r : Run) : Dev :=
  let rest := d.runs.filter fun x => !(x.ring == r.ring && x.index == r.index)
  match d.findRun r.ring r.index with
  | some x => if x.st = .waiting then d else { d with runs := rest ++ [{ x with st := .waiting }] }
  | none => d

/-- An earlier run of the pod waits for placement (R45; log entry 37). -/
def Dev.waitsBehind (d : Dev) (r : Run) : Bool :=
  let ahead := if r.st = .waiting then d.runs.takeWhile fun x => !(x.ring == r.ring && x.index == r.index) else d.runs
  ahead.any fun x => x.pod == r.pod && x.st == .waiting

/-- The device is in S1 or S2, or on its way in or out: the tiles are gated (R418, R420, R421). -/
def Dev.asleep (d : Dev) : Bool := decide (2 ≤ d.get F.PWR_STATE_STATE)

/-- Try to place a run. -/
def Dev.tryPlace (d : Dev) (r : Run) : Dev :=
  match r.image with
  | none => d
  | some m =>
    if d.waitsBehind r || d.regionsLocked r m || d.asleep then d.waitLast r
    else match d.placeFrom r m m.pipes.length 0 d with
      | .wait d => d.waitLast r
      | .ok e => if e.mergeBindFails r m then e.failEntry r ⟨0x14, 0xFFFFFFFF⟩ else e.placedRun r m

/-- PLACEMENT_RETRY: waiting runs are tried in arrival order (R45). -/
def execPlacementRetry (s : State) : Host.Outcome State Fault Refusal :=
  s.act fun d => ((d.runs.filter fun r => r.st == .waiting).map fun r => (r.ring, r.index)).foldl (fun d x =>
    match d.findRun x.1 x.2 with
    | some r => d.tryPlace r
    | none => d) d

end Sys2Proof.Machine
end

