-- ==== Sys2Proof/Machine/Submit.lean ====
section
/-! DEFINITION. A RUN entry: its program (R35, R39), parameter area (R36), bindings (R24, R25), the
checks of K registers after them (R95, R144, R173, R319), the regions it only reads (R174, R217),
and its placement (R45). The order of these checks beyond R35 and R36 is log entry 39. -/

namespace Sys2Proof.Machine

/-- BIND_FAILED with a binding index. -/
def bindFailed (n : Nat) : Fail := ⟨0x14, n⟩

/-- BIND_FAILED for an area or a buffer. -/
def areaFailed : Fail := bindFailed 0xFFFFFFFF

/-! ### Fields of an entry (R304) -/

/-- PARAM_ADDR. -/
def Run.paramAddr (r : Run) : Nat := fieldAt r.entry 0x10 8

/-- PARAM_LEN. -/
def Run.paramLen (r : Run) : Nat := fieldAt r.entry 0x18 4

/-- RESULT_ADDR. -/
def Run.resultAddr (r : Run) : Nat := fieldAt r.entry 0x20 8

/-- RESULT_LEN. -/
def Run.resultLen (r : Run) : Nat := fieldAt r.entry 0x28 8

/-- KIND. -/
def Run.kind (r : Run) : Nat := fieldAt r.entry 0 1

/-! ### The program -/

/-- A registered program of a pod. An entry that was fetched before its program's deregistration and is taken up
after it finds none either: the submission arrives when its RUN is taken up (R41; DESIGN CHOICE, log entry 78). -/
def Dev.findProg (d : Dev) (pod handle : Nat) : Option ProgReg :=
  d.progs.find? fun g => g.pod == pod && g.handle == handle && !g.dereg

/-- The validated form in some cluster's cache (R39). -/
def Dev.resident (d : Dev) (pod handle : Nat) : Option Image :=
  (d.pgc.find? fun e => e.pod == pod && e.handle == handle).map fun e => e.image

/-- The pod has no unfenced tile (R471). -/
def Dev.podFenced (d : Dev) (pod : Nat) : Bool := (d.podTiles pod).all d.tileFenced

/-- The program of a run: resident, or validated from memory (R35, R39). -/
def Dev.program (d : Dev) (pod handle : Nat) : Except Fail Image :=
  match d.findProg pod handle with
  | none => .error ⟨0x10, 0⟩
  | some g =>
    match d.resident pod handle with
    | some m => .ok m
    | none =>
      match d.checkImage g with
      | .error f => .error f
      | .ok m => if d.check15 pod m then .ok m else .error ⟨0x12, 0⟩

/-! ### The parameter area (R36) -/

/-- What reading the parameter area comes to. -/
inductive Params where
  | ok (d : Dev) (bytes : List Byte)
  | wait (d : Dev)
  | fail (d : Dev) (f : Fail)

/-- Read the parameter area of a run (R36). A page that waits for the host makes the entry wait; one
that fails is outside the pod's host address space (log entry 40). -/
def Dev.params (d : Dev) (r : Run) (need : Nat) : Params :=
  let n := r.paramLen
  let a := r.paramAddr
  if n < need then .fail d ⟨0x13, 0⟩
  else if r.flag 3 then .ok d (slice r.entry 0x30 n)
  else if n = 0 then .ok d []
  else if r.flag 2 then
    let pasid := d.get F.POD_PASID_PASID r.pod
    match d.xlate pasid a n with
    | .ok => .ok (d.cacheXlate pasid a n) (d.hld pasid a n)
    | .wait => .wait (d.askPage pasid a n (.ring r.ring))
    | .fault => .fail (d.forgetFault pasid a n) ⟨0x13, 0⟩
  else if !d.inPod r.pod a n then .fail d ⟨0x13, 0⟩
  else
    match d.poisonIn (d.localForm a) n with
    | .clean => .ok d (d.ld (d.localForm a) n)
    | p => .fail d (poisonFail p)

/-! ### Bindings (R24, R25, R64) -/

/-- The lowest index of an entry that meets `f`, or the entry count. -/
def firstCode (es : List (List Byte)) (f : List Byte → Bool) : Nat := (es.takeWhile fun e => !f e).length

/-- A string is at or above, or above, another. -/
def strGe (cf strict : Bool) (e s : List Byte) : Bool :=
  match bytesCmp (foldCase cf e) (foldCase cf s) with
  | .gt => true
  | .eq => !strict
  | .lt => false

/-- The code that a dictionary binding finds (R24). Where several entries fold equal, DICT_EQ takes the lowest
code (DESIGN CHOICE, log entry 78). -/
def dictCode (kind : Nat) (cf : Bool) (es : List (List Byte)) (s : List Byte) : Nat :=
  if kind = 1 then
    let n := firstCode es fun e => foldCase cf e == foldCase cf s
    if n < es.length then n else 0xFFFFFFFFFFFFFFFF
  else firstCode es fun e => strGe cf (kind == 3) e s

/-- The value of a binding, or the failure of binding `n` (R24, R25, R135). Marked data keeps its own
status. -/
def Dev.bindValue (d : Dev) (pod n : Nat) (b : Bind) (ps : List Byte) : Except Fail Nat :=
  let s := slice ps b.off b.size
  if b.kind = 0 then .ok (leNat s)
  else match d.dictBy (bindEntries b.kind b.casefold) pod b.dict with
    | .error f => .error (if f.status = 0x52 ∨ f.status = 0xF0 then f else bindFailed n)
    | .ok (h, es) =>
      if h.typ ≠ 0x20 then .error (bindFailed n)
      else .ok (dictCode b.kind b.casefold (es.map Val.toBytes) s)

/-- K registers by pipeline and stage. -/
abbrev KFile := List (Nat × Nat × List Word)

/-- Write K register `k` of a stage. -/
def KFile.write (ks : KFile) (pipe stage k v : Nat) : KFile :=
  ks.map fun (x : Nat × Nat × List Word) =>
    if x.1 == pipe && x.2.1 == stage then (x.1, x.2.1, x.2.2.set k (BitVec.ofNat 64 v)) else x

/-- K registers of a stage. -/
def KFile.at (ks : KFile) (pipe stage : Nat) : List Word :=
  ((ks.find? fun x => x.1 == pipe && x.2.1 == stage).map fun x => x.2.2).getD (List.replicate 64 0)

/-- The opcode has KP fields (R64). -/
def hasKp (w : Nat) : Bool :=
  swOp w != 0x11 && ((opRow (swOp w)).map fun r => r.used.contains (80, 8) && r.used.contains (88, 16)).getD false

/-- K registers after the constant pool (R64). -/
def Image.kConsts (m : Image) (w : Nat) : List Word :=
  (List.range 64).map fun j =>
    if hasKp w && decide (j / 2 < swField w 80) then
      BitVec.ofNat 64 (fieldAt m.consts (16 * (bitsOf w 88 16) + 8 * j) 8)
    else 0

/-- Every stage's registers before the bindings. -/
def Image.kFile (m : Image) : KFile :=
  m.pipes.zipIdx.flatMap fun (x : Pipe × Nat) => x.1.stages.zipIdx.map fun (y : StageWord × Nat) =>
    (x.2, y.2, m.kConsts y.1.toNat)

/-- Apply the bindings in table order. -/
def Dev.bindAll (d : Dev) (pod : Nat) (ps : List Byte) : List (Bind × Nat) → KFile → Except Fail KFile
  | [], ks => .ok ks
  | (b, n) :: rest, ks =>
    match d.bindValue pod n b ps with
    | .error f => .error f
    | .ok v =>
      let ks := ks.write b.pipe b.stage b.target v
      let ks := if b.kind = 0 ∧ 8 < b.size then ks.write b.pipe b.stage (b.target + 1) (v / 2 ^ 64) else ks
      d.bindAll pod ps rest ks

/-! ### Checks of K registers (R95, R144, R173, R319) -/

/-- A stage with its place and K registers. -/
structure StageK where
  pipe : Nat
  stage : Nat
  p : Pipe
  w : Nat
  k : List Word

/-- Every stage of an image with its registers. -/
def Image.stageKs (m : Image) (ks : KFile) : List StageK :=
  m.pipes.zipIdx.flatMap fun (x : Pipe × Nat) => (List.range x.1.stages.length).map fun n =>
    { pipe := x.2, stage := n, p := x.1, w := x.1.word n, k := ks.at x.2 n }

/-- The last binding that wrote K register `k` of a stage; all ones where the pool wrote it. -/
def Image.binder (m : Image) (x : StageK) (k : Nat) : Nat :=
  ((m.binds.zipIdx.filter fun b => b.1.pipe == x.pipe && b.1.stage == x.stage &&
    (b.1.target == k || (b.1.kind == 0 && decide (8 < b.1.size) && b.1.target + 1 == k))).getLast?.map
      fun b => b.2).getD 0xFFFFFFFF

/-- A micro-op's string, pattern or pattern set in K[KB] is well formed (R95). -/
def UOp.refsOk (u : UOp) (c : UCtx) : Bool :=
  let v := kReg c.k u.kb
  let str := match u.sig.b with
    | .v t => t == 0x20
    | .k t => t == 0x20
    | _ => false
  if !(u.bk && str) then true
  else if u.opc = 0x58 ∨ u.opc = 0x59 then c.setOk v
  else if u.opc = 0x56 ∨ u.opc = 0x57 then c.refOk v && patternOk (BitVec.ofNat 8 u.aux) (c.deref v)
  else c.refOk v

/-- K registers that a zone test of a string column reads (R128). -/
def StageK.zoneRefs (x : StageK) : List Nat :=
  let str := fun v => v != 0xFF && zoneStrType (x.p.typeOf (streamNo v))
  if swOp x.w = 0x01 ∧ swField x.w 72 ≠ 0xFF then
    (if str ((outFields x.w).getD (swField x.w 72) 0xFF) then [swField x.w 104, swField x.w 112] else [])
  else if swOp x.w = 0x02 then
    (if str (swField x.w 8) then [swField x.w 48, swField x.w 56] else [])
  else []
where
  zoneStrType (t : Nat) : Bool := t == 0x20 || t == 0x21

/-- R95 for one stage: the K register that fails. -/
def Image.refFails (m : Image) (ps : List Byte) (x : StageK) : Option Nat :=
  let c : UCtx := { k := x.k, consts := m.consts, params := ps, ovf := 0 }
  let us := if swOp x.w = 0x04 ∨ swOp x.w = 0x05 then m.uops x.w else []
  match us.find? fun u => !u.refsOk c with
  | some u => some u.kb
  | none => x.zoneRefs.find? fun k => !c.refOk (kReg x.k k)

/-- The TYPE of the first husk of the set of a GATHER, as it stands at the submission (R89, R144; log entry 81). -/
def Dev.gatherType (d : Dev) (pod set : Nat) : Option Nat :=
  let at_ := d.localForm set
  if !d.inPod pod set 24 || leNat (d.ld at_ 4) == 0 || leNat (d.ld (at_ + 4) 1) != 1 then none
  else
    let h := leNat (d.ld (at_ + 16) 8)
    if h % 64 ≠ 0 ∨ d.inPod pod h 64 = false then none else some (Husk.ofBytes (d.ld (d.localForm h) 64)).typ

/-- The fields of an EMIT with their types, field 0 of a GATHER with its set's. -/
def Dev.emitTypes (d : Dev) (pod : Nat) (x : StageK) : List (Nat × Nat) :=
  let own := x.p.emitFields x.w
  if swMode x.w 1 then
    match d.gatherType pod (kReg x.k (swField x.w 72)) with
    | some t => (0, t) :: own
    | none => own
  else own

/-- R144 for one EMIT after the bindings: the K register that fails. -/
def Dev.emitFails (d : Dev) (pod : Nat) (x : StageK) : Option Nat :=
  if swOp x.w ≠ 0x18 then none
  else
    let byte := fun k f => bitsOf (kReg x.k k) (8 * f) 8
    ((d.emitTypes pod x).find? fun f => !emitFieldOk f.2 (byte 60 f.1) (byte 61 f.1)).map fun f =>
      if isDec f.2 then 60 else 61

/-- The area pairs that the K registers of a stage name under R173, needed or not: first registers. -/
def areaRegs (w : Nat) : List Nat :=
  match swOp w with
  | 0x09 => [0, 2, 4]
  | 0x0A => [2]
  | 0x0B => [62]
  | _ => []

/-- Every non-zero area of R173 lies in the pod. -/
def Dev.areasOk (d : Dev) (pod : Nat) (x : StageK) : Bool :=
  (areaRegs x.w).all fun k => kReg x.k k == 0 || d.inPod pod (kReg x.k k) (kReg x.k (k + 1))

/-- The result buffer of an EMIT to it (R319). -/
def Dev.resultOk (d : Dev) (r : Run) (x : StageK) : Bool :=
  !(swOp x.w == 0x18 && swField x.w 104 == 0xFF) ||
    (r.resultAddr != 0 && (r.flag 4 || d.inPod r.pod r.resultAddr r.resultLen))

/-- The first failure of the checks that follow the bindings. -/
def Dev.kFails (d : Dev) (r : Run) (m : Image) (ps : List Byte) (xs : List StageK) : Option Fail :=
  match xs.findSome? fun x => (m.refFails ps x).map fun k => bindFailed (m.binder x k) with
  | some f => some f
  | none =>
    match xs.findSome? fun x => (d.emitFails r.pod x).map fun k => bindFailed (m.binder x k) with
    | some f => some f
    | none => if xs.all fun x => d.areasOk r.pod x && d.resultOk r x then none else some areaFailed

/-! ### Regions a run does not build (R174, R217) -/

/-- A region that stage `x` reads and the image does not build is COMPLETE and fits (R174); a PROBE that
annotates needs a payload that is not a row number (R83, R172). -/
def Dev.joinRegionOk (d : Dev) (pod : Nat) (m : Image) (x : StageK) : Bool :=
  let g := swField x.w 48
  if !(swOp x.w == 0x0A || (swOp x.w == 0x14 && !swMode x.w 0)) || (m.builder g).isSome then true
  else
    let rg := d.region pod g
    let cf := d.get F.JDR_POD_RGN_STATE_CASEFOLD pod g == 1
    d.jstate pod g == 3 && rg.seed == x.p.seed &&
      (if swOp x.w = 0x0A then
        rg.keyType == x.p.typeOf (keyStream x.w) && cf == x.p.hashFold (keyStream x.w) &&
          (swMode x.w 3 || d.get F.JDR_POD_RGN_STATE_PAYLOAD pod g != 0)
      else swField x.w 32 == 0xFF || rg.keyType == x.p.typeOf (swField x.w 32))

/-- The key type of a RANGE, or of a LOOKUP that names its keys' stream (log entry 41). -/
def StageK.rangeKey (x : StageK) : Option (Nat × Option Nat) :=
  if swOp x.w = 0x21 then some (swField x.w 48, some (x.p.typeOf (keyStream x.w)))
  else if swOp x.w = 0x14 ∧ swMode x.w 0 then
    some (swField x.w 48, if swField x.w 32 = 0xFF then none else some (x.p.typeOf (swField x.w 32)))
  else none

/-- R217 for one stage. -/
def Dev.rangeRegionOk (d : Dev) (pod : Nat) (x : StageK) : Bool :=
  match x.rangeKey with
  | none => true
  | some (g, t) =>
    d.rstate pod g != 3 &&
      !(d.rstate pod g == 2 && !((d.rregion pod g).pos.filterMap id).isEmpty &&
        (t.map fun t => t != d.get F.RDR_POD_RGN_STATE_KEYTYPE pod g).getD false)

/-- The first region that fails (R174, R217). -/
def Dev.regionFails (d : Dev) (pod : Nat) (m : Image) (xs : List StageK) : Option Fail :=
  match xs.find? fun x => !d.joinRegionOk pod m x with
  | some x => some ⟨0x15, swField x.w 48⟩
  | none => (xs.find? fun x => !d.rangeRegionOk pod x).map fun x => ⟨0x15, 16 + swField x.w 48⟩

/-! ### RUN -/

/-- No earlier entry of the ring is still to start (R306); a NOP has nothing to start. -/
def Dev.nextToStart (d : Dev) (r : Run) : Bool :=
  (d.runs.filter fun x => x.ring == r.ring && x.st == .fetched && x.kind != 0).head?.map (fun x => x.index) ==
    some r.index

/-- A validation that leads to no placement counts as a miss of each cluster of the pod (R54; log entry 58). -/
def Dev.countInvalid (d : Dev) (pod : Nat) : Dev :=
  ((List.range 8).filter fun c => (d.podTiles pod).any fun t => t / 8 == c).foldl (fun d c =>
    d.count .CLU_PGC_MISS 1 c) d

/-- The misses of a submission that had to be validated: where the checks that follow end it, no placement
names its clusters (R54; log entry 58). -/
def Dev.countUnplaced (d : Dev) (r : Run) (hit : Bool) : Dev :=
  if !hit && ((d.findRun r.ring r.index).any fun x => x.st == .ended) then d.countInvalid r.pod else d

/-- The submission is the newest, and a hit in every cluster that holds its program (R40, R54). -/
def Dev.noteSubmit (d : Dev) (r : Run) (hit : Bool) : Dev :=
  let d := { d with submits := d.submits + 1 }
  if hit then d.hitProgram r.pod r.handle d.submits else d

/-- What follows the parameter area: the bindings, the checks of K registers, the regions, and placement. R36
resolves the bindings after its checks and before placement; the text on bindings speaks of them after
placement, and nothing but the order of two failures depends on it (DEDUCED, log entry 39). -/
def Dev.bindAndPlace (d : Dev) (r : Run) (m : Image) (ps : List Byte) : Dev :=
  match d.bindAll r.pod ps m.binds.zipIdx m.kFile with
  | .error f => d.failEntry r f
  | .ok ks =>
    let xs := m.stageKs ks
    match d.kFails r m ps xs with
    | some f => d.failEntry r f
    | none =>
      match d.regionFails r.pod m xs with
      | some f => d.failEntry r f
      | none =>
        let r := { r with image := some m, params := ps, kinit := ks, order := d.submits }
        (d.setRun r).tryPlace r

/-- The checks of a submission with its image (R36 and after); `hit`: the program was resident. -/
def Dev.submit (d : Dev) (r : Run) (m : Image) (hit : Bool) : Dev :=
  match d.params r m.paramLen with
  | .wait d => d
  | .fail d f => ((d.noteSubmit r hit).failEntry r f).countUnplaced r hit
  | .ok d ps => ((d.noteSubmit r hit).bindAndPlace r m ps).countUnplaced r hit

/-- A RUN entry is taken up (R35, R36, R471). -/
def Dev.runEntry (d : Dev) (r : Run) : Dev :=
  if d.podFenced r.pod then
    let (w, d) := d.takeFree
    d.failEntry r ⟨0xF2, w.toNat % 256⟩
  else match d.program r.pod r.handle with
    | .error f => (if f.status = 0x10 then d else d.countInvalid r.pod).failEntry r f
    | .ok m => d.submit r m (d.resident r.pod r.handle).isSome

/-- RUN (R36). -/
def execRun (q : RunRef) (s : State) : Host.Outcome State Fault Refusal :=
  s.act fun d =>
    match d.findRun q.ring.val q.index.toNat with
    | some r => if r.st == .fetched && r.kind == 1 && d.nextToStart r && d.podState r.pod == 2 then d.runEntry r else d
    | none => d

end Sys2Proof.Machine
end

