-- ==== Sys2Proof/Machine/Rings.lean ====
section
/-! DEFINITION. Work rings (R302 to R316): enabling, doorbells and pushes, the fetch and checks of
entries, completions in index order, interrupts and their holdoff, ring stops and the halt of a
device in whole-device mode. -/

namespace Sys2Proof.Machine

/-! ### The ring -/

/-- State of a ring (R313): 0 DISABLED, 1 IDLE, 2 ACTIVE, 3 ERROR, 4 HALTED. -/
def Dev.ringState (d : Dev) (n : Nat) : Nat := d.get F.RNG_STATUS_STATE n

/-- Entries in the ring. -/
def Dev.ringSize (d : Dev) (n : Nat) : Nat := 2 ^ d.get F.RNG_CFG_SIZE_LOG2 n

/-- The owning pod. -/
def Dev.ringPod (d : Dev) (n : Nat) : Nat := d.get F.RNG_OWNER_POD n

/-- PASID of the owning pod. -/
def Dev.ringPasid (d : Dev) (n : Nat) : Nat := d.get F.POD_PASID_PASID (d.ringPod n)

/-- The ring is in host memory. -/
def Dev.ringHost (d : Dev) (n : Nat) : Bool := d.get F.RNG_CFG_HOST n == 1

/-- Address of slot `i`. -/
def Dev.ringAddr (d : Dev) (n i : Nat) : Nat := d.get F.RNG_BASE_ADDR n * 4096 + 64 * i

/-- FETCH. -/
def Dev.ringFetch (d : Dev) (n : Nat) : Nat := d.get F.RNG_HEAD_FETCH n

/-- TAIL. -/
def Dev.ringTail (d : Dev) (n : Nat) : Nat := d.get F.RNG_DB_TAIL n % d.ringSize n

/-- DONE. -/
def Dev.ringDone (d : Dev) (n : Nat) : Nat := d.get F.RNG_HEAD_DONE n

/-- Entries of the ring in progress. -/
def Dev.ringRuns (d : Dev) (n : Nat) : List Run := d.runs.filter fun r => r.ring == n

/-- IDLE and ACTIVE (R313). -/
def Dev.settleRing (d : Dev) (n : Nat) : Dev :=
  if d.ringState n = 1 ∨ d.ringState n = 2 then
    d.put F.RNG_STATUS_STATE (if d.ringTail n = d.ringFetch n ∧ (d.ringRuns n).isEmpty = true then 1 else 2) n
  else d

/-- Phase of an entry at FETCH: PHASE is that of one at TAIL (R302, R336). -/
def Dev.fetchPhase (d : Dev) (n : Nat) : Nat :=
  let p := d.get F.RNG_HEAD_PHASE n
  if d.ringFetch n ≤ d.ringTail n then p else 1 - p

/-- TAIL moves, and PHASE with it. -/
def Dev.moveTail (d : Dev) (n t : Nat) : Dev :=
  let p := d.fetchPhase n
  let p := if d.ringFetch n ≤ t then p else 1 - p
  ((d.put F.RNG_DB_TAIL t n).put F.RNG_HEAD_PHASE p n).settleRing n

/-! ### Enabling (R302, R313, R314) -/

/-- The ring lies wholly in the pod's ranges. -/
def Dev.ringInPod (d : Dev) (n : Nat) : Bool := d.inPod (d.ringPod n) (d.ringAddr n 0) (64 * d.ringSize n)

/-- EN written 1 on a DISABLED ring. -/
def Dev.ringStart (d : Dev) (n : Nat) : Dev :=
  if d.get F.RNG_OWNER_ASSIGNED n = 0 then d
  else if !d.ringHost n && !d.ringInPod n then d.violation (d.ringPod n) 0
  else
    let d := (d.put F.RNG_CFG_EN 1 n).put F.RNG_DB_TAIL 0 n
    let d := ((d.put F.RNG_HEAD_FETCH 0 n).put F.RNG_HEAD_DONE 0 n).put F.RNG_HEAD_PHASE 0 n
    let d := (d.put F.RNG_STATUS_CAUSE 0 n).put F.RNG_STATUS_ERR_INDEX 0 n
    { d.put F.RNG_STATUS_STATE 1 n with pushed := d.pushed.filter fun x => x.1 != n }

/-- A write to RNG_n_CFG. -/
def Dev.ringCfgWrite (d : Dev) (n v : Nat) (keepLow : Bool) : Dev :=
  if d.ringState n ≠ 0 then d
  else
    let d := d.applyPlain ⟨.RNG_CFG, n, 0⟩ (setBits v 0 1 0) keepLow
    if !keepLow && fieldIn F.RNG_CFG_EN v == 1 then d.ringStart n else d

/-- RING_ENABLE (R313). -/
def execRingEnable (n : Fin 1024) (a : RegAccess) (s : State) : Host.Outcome State Fault Refusal :=
  s.act fun d => d.access a ⟨.RNG_CFG, n.val, 0⟩ fun d v k => d.ringCfgWrite n.val v k

/-! ### Stops (R316) -/

/-- A run is stopped by the halt of the device. -/
def Dev.haltRun (d : Dev) (index : Nat) (r : Run) : Dev :=
  if r.failure.isSome || r.st == .ended || (r.placed && d.runSettled r.ring r.index) then d
  else if r.placed then d.failRun r.ring r.index ⟨0x02, index⟩ {}
  else d.failEntry r ⟨0x02, index⟩

/-- Another ring of the halted device. -/
def Dev.haltRing (d : Dev) (n : Nat) : Dev :=
  if d.ringState n = 1 ∨ d.ringState n = 2 then
    (d.put F.RNG_STATUS_STATE 4 n).put F.RNG_STATUS_CAUSE 4 n
  else d

/-- Whole-device mode: every other ring of the pod, every run and every DMA channel stops. -/
def Dev.haltDevice (d : Dev) (n index : Nat) : Dev :=
  let p := d.ringPod n
  let d := ((d.podRings p).filter (· != n)).foldl Dev.haltRing d
  let d := d.runs.foldl (fun d r => d.haltRun index r) d
  (d.podChans p).foldl Dev.dmaStop d

/-- An IDLE or ACTIVE ring stops with CAUSE and ERR_INDEX; one that has stopped keeps what it latched (R313). -/
def Dev.stopRing (d : Dev) (n cause index : Nat) : Dev :=
  if d.ringState n ≠ 1 ∧ d.ringState n ≠ 2 then d else
  let d := (d.put F.RNG_STATUS_ERR_INDEX index n).put F.RNG_STATUS_CAUSE cause n
  let d := d.put F.RNG_STATUS_STATE 3 n
  if d.whole then d.haltDevice n index else d

/-- The record of a stop that no entry's own record names. -/
def Dev.recordStop (d : Dev) (n index : Nat) : Dev :=
  d.report { cls := 0x16, pod := some (d.ringPod n), srcKind := 6, source := n, ring := n, index := index }

/-- The query engine is halted: whole-device mode, and a ring of the pod has stopped. -/
def Dev.engineHalted (d : Dev) (p : Nat) : Bool :=
  d.whole && (d.podRings p).any fun n => d.ringState n == 3 || d.ringState n == 4

/-! ### Doorbells and pushes (R302, R303) -/

/-- A write to RNG_n_DB. Doorbells to a stopped ring are ignored (R314). -/
def Dev.ringDbWrite (d : Dev) (n v : Nat) : Dev :=
  let d := d.leaveP1
  let t := fieldIn F.RNG_DB_TAIL v % d.ringSize n
  match d.ringState n with
  | 0 => d.put F.RNG_DB_TAIL t n
  | 1 => d.moveTail n t
  | 2 => d.moveTail n t
  | _ => d

/-- RING_DOORBELL (R303). -/
def execRingDoorbell (n : Fin 1024) (a : RegAccess) (s : State) : Host.Outcome State Fault Refusal :=
  s.act fun d => d.access a ⟨.RNG_DB, n.val, 0⟩ fun d v _ => d.ringDbWrite n.val v

/-- A push to an enabled ring. -/
def Dev.ringPush (d : Dev) (n : Nat) (entry : List Byte) : Dev :=
  let d := d.leaveP1
  if d.ringState n = 1 ∨ d.ringState n = 2 then
    let size := d.ringSize n
    let t := d.ringTail n
    if (t + size - d.ringDone n) % size + 1 = size then (d.recordStop n t).stopRing n 5 t
    else
      let rest := d.pushed.filter fun x => !(x.1 == n && x.2.1 == t)
      { d with pushed := rest ++ [(n, t, entry)] }.moveTail n ((t + 1) % size)
  else d

/-- RING_PUSH (R303): a write to the window that is not one of 64 bytes is ignored and recorded. -/
def execRingPush (n : Fin 1024) (src : RegFrom) (entry : List Byte) (s : State) : Host.Outcome State Fault Refusal :=
  s.act fun d =>
    if !entryOk entry then d.regError (RegRef.addr ⟨.RNG_PUSH, n.val, 0⟩) (windowPod src)
    else if d.reaches src ⟨.RNG_PUSH, n.val, 0⟩ then d.ringPush n.val entry
    else d.refuseAccess src ⟨.RNG_PUSH, n.val, 0⟩

/-! ### Entries (R304 to R306) -/

/-- An entry whose fields are legal and whose phase is the pass's (R305). -/
def entryLegal (e : List Byte) (phase : Nat) : Bool :=
  let f := fieldAt e
  let flag := fun n => (f 1 1).testBit n
  let kind := f 0 1
  let run := kind == 1
  let len := f 0x18 4
  decide (kind ≤ 2) && f 1 1 / 32 == 0 && f 2 2 == 0 && f 1 1 % 2 == phase &&
    (if run then f 4 4 != 0 else f 4 4 == 0) &&
    (kind != 0 || (f 0x10 8 == 0 && f 0x20 8 == 0)) &&
    (if run then decide (len ≤ if flag 3 then 16 else 65536) else len == 0 && f 0x1C 4 == 0) &&
    f 0x20 8 % 64 == 0 && !(flag 3 && (flag 2 || f 0x10 8 != 0)) && !(kind == 2 && flag 4) &&
    allZero (slice e (if flag 3 then 0x30 + len else 0x30) (if flag 3 then 16 - len else 16))

/-- The run of an entry that has been taken. -/
def Run.fresh (n index pod ts : Nat) (e : List Byte) : Run :=
  { ring := n, index := index, pod := pod, entry := e, startTs := BitVec.ofNat 64 ts, st := .fetched, image := none, order := 0,
    params := [], kinit := [], placed := false, failure := none, epochs := [], peerDone := [], joins := [],
    resUsed := 64, resBatches := 0, resRows := 0, resFields := 0, areas := [], rows := 0, bytes := 0,
    jlocks := [], rlocks := [], unwritten := false }

/-- The entry at FETCH is taken. -/
def Dev.takeEntry (d : Dev) (n : Nat) (e : List Byte) : Dev :=
  let i := d.ringFetch n
  let legal := entryLegal e (d.fetchPhase n)
  let d := d.put F.RNG_HEAD_FETCH ((i + 1) % d.ringSize n) n
  let r := Run.fresh n i (d.ringPod n) d.now e
  let d := { d with runs := d.runs ++ [r], pushed := d.pushed.filter fun x => !(x.1 == n && x.2.1 == i) }
  if legal then d.settleRing n else (d.failEntry r ⟨0x01, 0⟩).stopRing n 1 i

/-- Reading the entry failed. -/
def Dev.fetchFault (d : Dev) (n : Nat) : Dev := (d.recordStop n (d.ringFetch n)).stopRing n 2 (d.ringFetch n)

/-- Read the entry at FETCH from ring memory. -/
def Dev.fetchEntry (d : Dev) (n : Nat) (poisoned : Bool) : Dev :=
  let a := d.ringAddr n (d.ringFetch n)
  match d.ringReach (d.ringHost n) (d.ringPasid n) a 64 with
  | .wait => d.askPage (d.ringPasid n) a 64 (.ring n)
  | .fault => (d.forgetFault (d.ringPasid n) a 64).fetchFault n
  | .ok =>
    let d := d.ringSeen (d.ringHost n) (d.ringPasid n) a 64
    if poisoned || (!d.ringHost n && d.poisonAt (d.localForm a) != .clean) then d.fetchFault n
    else d.takeEntry n (d.ringLoad (d.ringHost n) (d.ringPasid n) a 64)

/-- The ring fetches: it is ACTIVE, or it was stopped by an OVERRUN and the entries before ERR_INDEX, which is its
TAIL, are not yet fetched (R316). -/
def Dev.ringFetches (d : Dev) (n : Nat) : Bool :=
  d.ringState n == 2 || d.ringState n == 3 && d.get F.RNG_STATUS_CAUSE n == 5 && !d.whole

/-- The ring may take an entry (R306, R346). -/
def Dev.mayFetch (d : Dev) (n : Nat) : Bool :=
  d.ringFetches n && d.ringFetch n != d.ringTail n && d.podState (d.ringPod n) == 2 &&
    decide ((d.ringRuns n).length < d.get F.RNG_CFG_DEPTH_M1 n + 1) && !d.engineHalted (d.ringPod n) && d.coreLeft

/-- ENTRY_FETCH (R306). -/
def execEntryFetch (n : Fin 1024) (poisoned : Bool) (s : State) : Host.Outcome State Fault Refusal :=
  s.act fun d =>
    if !d.mayFetch n.val then d
    else match d.pushed.find? fun x => x.1 == n.val && x.2.1 == d.ringFetch n.val with
      | some x => d.takeEntry n.val x.2.2
      | none => d.fetchEntry n.val poisoned

/-- NOP: it completes once every earlier entry has (R304). -/
def execNop (q : RunRef) (s : State) : Host.Outcome State Fault Refusal :=
  s.act fun d =>
    match d.findRun q.ring.val q.index.toNat with
    | some r =>
      if r.st == .fetched && r.kind == 0 && r.index == d.ringDone r.ring then
        d.onRun r.ring r.index fun r => { r with st := .ended }
      else d
    | none => d

/-- RUN_TIMEOUT: TIME_LIMIT has passed (R306); it does not count while the pod is at rest (R346). -/
def execRunTimeout (q : RunRef) (s : State) : Host.Outcome State Fault Refusal :=
  s.act fun d =>
    match d.findRun q.ring.val q.index.toNat with
    | some r =>
      if fieldAt r.entry 0x1C 4 == 0 || r.failure.isSome || r.st == .ended || d.podState r.pod != 2 ||
          (r.placed && d.runSettled r.ring r.index) then d
      else if r.placed then d.failRun r.ring r.index ⟨0x03, 0⟩ {}
      else d.failEntry r ⟨0x03, 0⟩
    | none => d

/-! ### Completions (R307 to R311, R319) -/

/-- Every pipeline is DONE on every member of the span (R375). -/
def Dev.spanDone (d : Dev) (r : Run) : Bool :=
  match r.image with
  | none => true
  | some m => (d.runPeers r).all fun k => (List.range m.pipes.length).all fun n => r.peerDone.contains (k, n)

/-- Nothing of the entry runs any more. -/
def Dev.runEnded (d : Dev) (r : Run) : Bool :=
  r.st == .ended ||
    (r.placed && d.runSettled r.ring r.index && (r.failure.isSome || d.spanDone r))

/-- The EMIT to the result buffer: pipeline and stage. -/
def Image.resultEmit (m : Image) : Option (Nat × Nat × Nat) :=
  (m.pipes.zipIdx.flatMap fun (x : Pipe × Nat) => (x.1.stagesWith 0x18).map fun y => (x.2, y.1, y.2)).find? fun x =>
    swField x.2.2 104 == 0xFF

/-- The run's result EMIT. -/
def Run.resultEmit (r : Run) : Option (Nat × Nat × Nat) := r.image.bind Image.resultEmit

/-- What writing the result header comes to. -/
inductive Header where
  | done (d : Dev)
  | wait (d : Dev)

/-- Write the result header of a successful run (R319). -/
def Dev.writeHeader (d : Dev) (r : Run) : Header :=
  match if r.kind = 1 ∧ r.failure.isNone = true then r.resultEmit else none with
  | none => .done d
  | some (pipe, stage, w) =>
    let bs := resultHeader (named (inFields w)).length r.resBatches r.resRows r.resUsed
    let pasid := d.get F.POD_PASID_PASID r.pod
    if !r.flag 4 then .done (d.ioStore (d.localForm r.resultAddr) bs)
    else match d.xlate pasid r.resultAddr 64 with
      | .ok => .done ((d.cacheXlate pasid r.resultAddr 64).hst pasid r.resultAddr bs)
      | .wait => .wait (d.askPage pasid r.resultAddr 64 (.ring r.ring))
      | .fault =>
        .done (((d.forgetFault pasid r.resultAddr 64).recordFailure r.ring r.index ⟨0x51, 0⟩
          { pipe := pipe, stage := stage }).spoilRegions r)

/-- Bytes 0 to 0x3F of a completion (R307). -/
def Dev.completionBytes (d : Dev) (r : Run) : List Byte :=
  let f := r.failure
  let nat := fun (g : Failure → Nat) (none_ : Nat) => (f.map g).getD none_
  let rows := if r.kind = 2 then r.rows else r.resRows
  let bytes := if r.kind = 2 then r.bytes else if f.isNone && r.resultEmit.isSome then r.resUsed else 0
  leBytes 1 r.kind ++ leBytes 1 (fieldAt r.entry 1 1 ^^^ 1) ++ leBytes 2 (nat (fun x => x.status) 0) ++
    leBytes 4 (nat (fun x => x.detail) 0) ++ leBytes 8 r.tag ++ leBytes 8 rows ++ leBytes 8 bytes ++
    leBytes 8 r.startTs.toNat ++ leBytes 8 d.now ++ leBytes 1 (nat (fun x => x.tile) 0xFF) ++
    leBytes 1 (nat (fun x => x.pipe) 0xFF) ++ leBytes 1 (nat (fun x => x.stage) 0xFF) ++ leBytes 1 0 ++
    leBytes 4 (nat (fun x => x.seq) 0) ++ leBytes 4 (nat (fun x => x.errSeq) 0) ++ leBytes 4 0

/-- Regions the run had locked are free; a spilled one becomes INVALID (R171, R181, R216). -/
def Dev.unlockRegions (d : Dev) (r : Run) : Dev :=
  let mine := some (r.ring, r.index)
  let d := r.jlocks.foldl (fun d g =>
    if d.jstate r.pod g = 5 ∨ d.jstate r.pod g = 6 then d.put F.JDR_POD_RGN_STATE_STATE 7 r.pod g else d) d
  let d := (d.rrgns.filter fun x => x.pod == r.pod && x.owner == mine).foldl (fun d x =>
    d.put F.RDR_POD_RGN_STATE_LOCKED 0 x.pod x.rgn) d
  { d with jrgns := mapIf (fun (x : JRegion) => x.pod == r.pod && x.owner == mine)
             (fun x => { x with owner := none, replay := none }) d.jrgns,
           rrgns := mapIf (fun (x : RRegion) => x.pod == r.pod && x.owner == mine)
             (fun x => { x with owner := none }) d.rrgns }

/-- A run leaves the device: its threads end, its slots become FREE and its regions are unlocked. -/
def Dev.retireRun (d : Dev) (r : Run) : Dev :=
  let d := (d.endThreads r.ring r.index).unlockRegions r
  let mine := d.instsOf r.ring r.index
  let at_ := fun (t s : Nat) => mine.any fun i => i.tile == t && i.slot == s
  { d with runs := d.runs.filter fun x => !(x.ring == r.ring && x.index == r.index),
           insts := d.insts.filter fun i => !(i.ring == r.ring && i.index == r.index),
           slots := d.slots.filter fun x => !(x.ring == r.ring && x.index == r.index),
           xrecvs := d.xrecvs.filter fun x => !at_ x.tile x.slot }

/-- The ring's interrupt after a completion (R299, R309). -/
def Dev.ringIrq (d : Dev) (n : Nat) : Dev :=
  let p := d.ringPod n
  let v := d.get F.RNG_CFG_VEC n
  if v < d.get F.POD_SHARES_VEC_COUNT p then
    d.ringVec n (d.get F.POD_SHARES_VEC_BASE p + v) (d.get F.RNG_CFG_HOLDOFF_US n)
  else d.violation p 0

/-- The completion is visible: DONE moves on, the run leaves, and the interrupt follows. -/
def Dev.completed (d : Dev) (r : Run) : Dev :=
  let n := r.ring
  let d := (d.retireRun r).put F.RNG_HEAD_DONE ((r.index + 1) % d.ringSize n) n
  let d := (d.count .RNG_DONE 1 n).settleRing n
  if r.flag 1 then d.ringIrq n else d

/-- Write the completion into the entry's slot (R308, R316). -/
def Dev.writeCompletion (d : Dev) (r : Run) : Dev :=
  let a := d.ringAddr r.ring r.index
  let pasid := d.ringPasid r.ring
  match d.ringReach (d.ringHost r.ring) pasid a 64 with
  | .wait => d.askPage pasid a 64 (.ring r.ring)
  | .fault =>
    (((d.forgetFault pasid a 64).onRun r.ring r.index fun x => { x with unwritten := true }).recordStop r.ring r.index).stopRing
      r.ring 3 r.index
  | .ok => (d.ringStore (d.ringHost r.ring) pasid a (d.completionBytes r)).completed r

/-- COMPLETION_WRITE (R308, R310). -/
def execCompletionWrite (q : RunRef) (s : State) : Host.Outcome State Fault Refusal :=
  s.act fun d =>
    match d.findRun q.ring.val q.index.toNat with
    | none => d
    | some r =>
      if r.index != d.ringDone r.ring || !d.runEnded r || r.unwritten then d
      else match d.writeHeader r with
        | .wait d => d
        | .done d =>
          match d.findRun r.ring r.index with
          | some r => d.writeCompletion r
          | none => d

/-- HOLDOFF_EXPIRY (R309). -/
def execHoldoffExpiry (n : Fin 1024) (s : State) : Host.Outcome State Fault Refusal :=
  s.act fun d => d.endHoldoff n.val
    (d.get F.POD_SHARES_VEC_BASE (d.ringPod n.val) + d.get F.RNG_CFG_VEC n.val) (d.get F.RNG_CFG_HOLDOFF_US n.val)

/-! ### Resets (R315) -/

/-- A ring returns to DISABLED with no completion written. -/
def Dev.resetRing (d : Dev) (n : Nat) : Dev :=
  let d := (d.put F.RNG_STATUS_STATE 0 n).put F.RNG_CFG_EN 0 n
  let host := { d.host with holdoff := d.host.holdoff.filter fun h => h.1 != n }
  { d with pushed := d.pushed.filter fun x => x.1 != n, host := host }

/-- A run stops at once; its slots are freed with it. -/
def Dev.dropRun (d : Dev) (r : Run) : Dev :=
  (((d.instsOf r.ring r.index).foldl Dev.instFailed d).retireRun r)

end Sys2Proof.Machine
end

