-- ==== Sys2Proof/Machine/Convert.lean ====
section
/-! DEFINITION. CONVERT (R322, R323): an Arrow batch (R318, R142, R145) becomes a column set of PLAIN
and DICT blocks (R75, R76, R134). What R322 leaves open of a batch's form is log entry 46. -/

namespace Sys2Proof.Machine

/-- INPUT_INVALID of a field. -/
def inputInvalid (f : Nat) : Fail := ⟨0x81, f⟩

/-- The batch header is not well formed. -/
def badBatch : Fail := inputInvalid 0xFF

/-- A field descriptor of a batch (R318). -/
structure ArrowDesc where
  no : Nat
  atype : Nat
  flags : Nat
  prec : Nat
  scale : Nat
  length : Nat
  nulls : Nat
  validity : Nat
  offs : Nat
  values : Nat
  valuesLen : Nat
  rsv : Nat

/-- Field `f` of a batch. -/
def ArrowDesc.ofBytes (b : List Byte) (f : Nat) : ArrowDesc :=
  let x := fun o n => fieldAt b (0x20 + 32 * f + o) n
  { no := f, atype := x 0 1, flags := x 1 1, prec := x 2 1, scale := x 3 1, length := x 4 4, nulls := x 8 4,
    validity := x 12 4, offs := x 16 4, values := x 20 4, valuesLen := x 24 4, rsv := x 28 4 }

/-- The field holds indices into field DFIELD. -/
def ArrowDesc.isDict (x : ArrowDesc) : Bool := x.flags.testBit 1

/-- The field holds a dictionary. -/
def ArrowDesc.isEntries (x : ArrowDesc) : Bool := x.flags.testBit 2

/-- DFIELD. -/
def ArrowDesc.dfield (x : ArrowDesc) : Nat := x.flags / 16

/-- Device type of a field (R142, R145). -/
def ArrowDesc.typ (x : ArrowDesc) : Nat :=
  if x.atype ≤ 5 then x.atype
  else if x.atype ≤ 9 then x.atype + 4
  else if x.atype = 10 then 0x10
  else if x.atype = 11 then 0x11
  else if x.atype = 12 then 0x18
  else if x.atype = 13 then 0x19
  else if x.atype = 14 then 0x80 + x.scale
  else if x.atype = 15 then 0x06
  else 0x20

/-- The ATYPE is one of R318. -/
def ArrowDesc.known (x : ArrowDesc) : Bool := decide (1 ≤ x.atype ∧ x.atype ≤ 19)

/-- The descriptor is well formed among the fields of its batch. -/
def ArrowDesc.ok (x : ArrowDesc) (rows : Nat) (all : List ArrowDesc) : Bool :=
  x.rsv == 0 && !x.flags.testBit 3 && !(x.isDict && x.isEntries) && (x.isEntries || x.length == rows) &&
    (!x.isDict || (x.atype == 8 && all.any fun y => y.no == x.dfield && y.isEntries && y.nulls == 0))

/-- The header of a batch, or `none` where it is not well formed: its fields and bytes. -/
def batchHeader (b : List Byte) : Option (List ArrowDesc × Nat) :=
  let n := fieldAt b 4 2
  let len := fieldAt b 0x10 4
  let fs := (List.range n).map (ArrowDesc.ofBytes b)
  let outs := (fs.filter fun x => !x.isEntries).length
  if fieldAt b 0 4 = 0x5441424B ∧ 1 ≤ n ∧ n ≤ 8 ∧ allZero (slice b 0x14 12) = true ∧ len % 64 = 0 ∧
      roundUp (32 + 32 * n) 64 ≤ len ∧ 1 ≤ outs ∧ outs ≤ 4 ∧ (fs.all fun x => x.ok (fieldAt b 8 4) fs) = true then
    some (fs, len)
  else none

/-! ### Fields -/

/-- Width of an offset. -/
def ArrowDesc.offWidth (x : ArrowDesc) : Nat := if x.atype = 18 ∨ x.atype = 19 then 8 else 4

/-- Bytes the values of a field of fixed width take. -/
def ArrowDesc.need (x : ArrowDesc) : Nat :=
  if x.typ = 0x20 then 0 else if x.atype = 1 then (x.length + 7) / 8 else x.length * byteWidth x.typ

/-- Every buffer lies in the batch. -/
def ArrowDesc.inside (x : ArrowDesc) (len : Nat) : Bool :=
  decide (x.validity + (x.length + 7) / 8 ≤ len ∧ x.values + x.valuesLen ≤ len ∧ x.need ≤ x.valuesLen) &&
    (x.typ != 0x20 || decide (x.offs + x.offWidth * (x.length + 1) ≤ len))

/-- Offset `i` of a string field. -/
def ArrowDesc.off (x : ArrowDesc) (b : List Byte) (i : Nat) : Nat := fieldAt b (x.offs + x.offWidth * i) x.offWidth

/-- The value of slot `i`, or `none` where R323 refuses it. -/
def ArrowDesc.slot (x : ArrowDesc) (b : List Byte) (i : Nat) : Option Val :=
  let w := byteWidth x.typ
  if x.typ = 0x20 then
    let lo := x.off b i
    let hi := x.off b (i + 1)
    if hi < lo ∨ 65535 < hi - lo ∨ x.valuesLen < hi then none else some (.str (slice b (x.values + lo) (hi - lo)))
  else if x.atype = 1 then some (.int (if (fieldAt b (x.values + i / 8) 1).testBit (i % 8) then 1 else 0))
  else some (valOfNat x.typ (fieldAt b (x.values + i * w) w))

/-- Offsets never decrease, null slots included. -/
def ArrowDesc.offsetsOk (x : ArrowDesc) (b : List Byte) : Bool :=
  x.typ != 0x20 || (List.range x.length).all fun i => decide (x.off b i ≤ x.off b (i + 1))

/-- A decimal within its precision. -/
def ArrowDesc.decOk (x : ArrowDesc) (v : Val) : Bool :=
  match v with
  | .int n => x.atype != 14 || decide (n.natAbs < 10 ^ (if x.prec = 0 then 38 else min x.prec 38))
  | _ => true

/-- The rows of a field: `none` where R323 refuses it. -/
def ArrowDesc.rows (x : ArrowDesc) (b : List Byte) : Option Col :=
  if x.atype = 14 ∧ 38 < x.scale then none
  else if !x.offsetsOk b then none
  else allSome ((List.range x.length).map fun i =>
    if x.nulls != 0 && !(fieldAt b (x.validity + i / 8) 1).testBit (i % 8) then some none
    else match x.slot b i with
      | some v => if x.decOk v then some (some v) else none
      | none => none)

/-- A field of a batch, read: its descriptor and rows. -/
structure ArrowCol where
  d : ArrowDesc
  c : Col

/-- Read the fields in order, up to the first failure. -/
def readFields (b : List Byte) : List ArrowDesc → Except Fail (List ArrowCol)
  | [] => .ok []
  | x :: xs =>
    if !x.known then .error ⟨0x80, x.no⟩
    else if !x.inside b.length then .error (inputInvalid x.no)
    else match x.rows b with
      | none => .error (inputInvalid x.no)
      | some c => (readFields b xs).map fun l => ⟨x, c⟩ :: l

/-- The dictionary of an index field. -/
def dictOf (all : List ArrowCol) (x : ArrowCol) : Option ArrowCol := all.find? fun y => y.d.no == x.d.dfield

/-- The index of a slot. -/
def indexOf (v : Option Val) : Option Nat :=
  match v with
  | some (.int n) => some n.toNat
  | _ => none

/-- R323 on dictionaries: at most 16,384 distinct entries, and indices below their number. -/
def fieldFail (all : List ArrowCol) (x : ArrowCol) : Option Fail :=
  if x.d.isEntries then
    (if 16384 < x.d.length ∨ !distinct x.d.typ false (x.c.filterMap id) then some (inputInvalid x.d.no) else none)
  else if x.d.isDict then
    (match dictOf all x with
    | some y => if x.c.all fun v => ((indexOf v).map fun n => decide (n < y.d.length)).getD true then none
      else some (inputInvalid x.d.no)
    | none => some badBatch)
  else none

/-! ### Blocks -/

/-- Add the zone of values to a husk and seal it. -/
def Husk.zoned (h : Husk) (t : Nat) (c : Col) (raw : List Byte) : List Byte × List Byte :=
  match extremes t c with
  | none => ((h.seal raw).bytes, raw)
  | some (lo, hi) =>
    ((({ h with flags := 1, zmin := zoneBytes t lo, zmax := zoneBytes t hi }).seal raw).bytes, raw)

/-- A dictionary block of entries (R126, R134). -/
def entriesBlock (t : Nat) (c : Col) : List Byte × List Byte :=
  let raw := plainRaw t c
  let es := c.filterMap id
  let sorted := strictly t false es
  let cf := t == 0x20 && strictly t true es
  let h := { plainHusk t c raw with flags := 2 + 4 * sorted.toNat + 8 * cf.toNat }
  ((h.seal raw).bytes, raw)

/-- Rows [16384 × g, …) of a list. -/
def groupRows {α : Type} (l : List α) (g : Nat) : List α := (l.drop (16384 * g)).take 16384

/-- Block `g` of an output field; `base` is the address of its dictionary block. -/
def ArrowCol.block (x : ArrowCol) (all : List ArrowCol) (base g : Nat) : List Byte × List Byte :=
  if x.d.isDict then
    match dictOf all x with
    | some y =>
      let codes := x.c.map indexOf
      let b := dictBlockOf base (codeBits codes) (groupRows codes g)
      let vals : Col := (groupRows codes g).map fun v => v.bind fun n => (y.c.getD n none)
      ({ b.1 with typ := y.d.typ }).zoned y.d.typ vals b.2
    | none => zonedBlock x.d.typ (groupRows x.c g)
  else zonedBlock x.d.typ (groupRows x.c g)

/-- Where the next block goes: the device, the cursor and the addresses written so far. -/
structure ConvAt where
  d : Dev
  base : Nat
  len : Nat
  cursor : Nat
  full : Bool

/-- Write bytes at the cursor, unless the area would overflow. -/
def ConvAt.put (a : ConvAt) (bs : List Byte) : ConvAt :=
  if a.full || decide (a.len < a.cursor + bs.length) then { a with full := true }
  else { a with d := a.d.ioStore (a.d.localForm (a.base + a.cursor)) bs, cursor := a.cursor + bs.length }

/-- Write a list of blocks: their addresses. -/
def ConvAt.putAll (a : ConvAt) : List (List Byte × List Byte) → ConvAt × List Nat
  | [] => (a, [])
  | b :: bs =>
    let r := (a.put (storedBlock b)).putAll bs
    (r.1, (a.base + a.cursor) :: r.2)

/-- Write the dictionary blocks: (field, address). -/
def ConvAt.putDicts (a : ConvAt) (all : List ArrowCol) : ConvAt × List (Nat × Nat) :=
  let es := all.filter fun x => x.d.isEntries
  let r := a.putAll (es.map fun x => entriesBlock x.d.typ x.c)
  (r.1, (es.map fun x => x.d.no).zip r.2)

/-- Write the groups in order: their addresses. -/
def ConvAt.putGroups (a : ConvAt) (all : List ArrowCol) (dicts : List (Nat × Nat)) : List Nat → ConvAt × List (List Nat)
  | [] => (a, [])
  | g :: gs =>
    let base := fun (x : ArrowCol) => ((dicts.find? fun e => e.1 == x.d.dfield).map fun e => e.2).getD 0
    let outs := all.filter fun x => !x.d.isEntries
    let r := a.putAll (outs.map fun x => x.block all (base x) g)
    let s := r.1.putGroups all dicts gs
    (s.1, r.2 :: s.2)

/-- Write the whole area; its pointer and row count come last (R76). -/
def ConvAt.putArea (a : ConvAt) (all : List ArrowCol) (rows : Nat) : ConvAt :=
  let ds := a.putDicts all
  let gs := ds.1.putGroups all ds.2 (List.range ((rows + 16383) / 16384))
  let cols := (all.filter fun x => !x.d.isEntries).length
  let ptr := gs.1.base + gs.1.cursor
  let a := gs.1.put (padTo 64 (setBytes { groups := gs.2, rows := rows } cols))
  if a.full then a
  else { a with d := a.d.ioStore (a.d.localForm a.base) (leBytes 8 ptr ++ leBytes 8 rows) }

/-! ### The entry -/

/-- Write the area of a batch whose fields are good, and end the entry. -/
def Dev.convertArea (d : Dev) (r : Run) (all : List ArrowCol) (rows : Nat) : Dev :=
  let a := ({ d := d, base := r.resultAddr, len := r.resultLen, cursor := 64, full := false } : ConvAt).putArea all rows
  if a.full then a.d.failEntry r destFull
  else a.d.onRun r.ring r.index fun x => { x with st := .ended, rows := rows, bytes := a.cursor }

/-- Check and convert the bytes of a batch. -/
def Dev.convertBatch (d : Dev) (r : Run) (fs : List ArrowDesc) (b : List Byte) : Dev :=
  if !d.inPod r.pod r.resultAddr r.resultLen then d.failEntry r areaFailed
  else match readFields b fs with
    | .error f => d.failEntry r f
    | .ok all =>
      match all.findSome? (fieldFail all) with
      | some f => d.failEntry r f
      | none => d.convertArea r all (fieldAt b 8 4)

/-- What reading a part of the source comes to. -/
inductive Source where
  | ok (d : Dev) (bytes : List Byte)
  | wait (d : Dev)
  | fail (d : Dev) (f : Fail)

/-- Read `n` bytes of the source batch (R294, R322). -/
def Dev.convertRead (d : Dev) (r : Run) (n : Nat) : Source :=
  let a := r.paramAddr
  if r.flag 2 then
    let pasid := d.get F.POD_PASID_PASID r.pod
    match d.xlate pasid a n with
    | .ok => .ok (d.cacheXlate pasid a n) (d.hld pasid a n)
    | .wait => .wait (d.askPage pasid a n (.ring r.ring))
    | .fault => .fail (d.forgetFault pasid a n) ⟨0x51, 0⟩
  else if !d.inPod r.pod a n then .fail d addrFault
  else
    let d := d.ioRead (d.localForm a) n
    match d.poisonIn (d.localForm a) n with
    | .clean => .ok d (d.ld (d.localForm a) n)
    | p => .fail d (poisonFail p)

/-- A CONVERT entry is taken up. -/
def Dev.convertEntry (d : Dev) (r : Run) : Dev :=
  match d.convertRead r 64 with
  | .wait d => d
  | .fail d f => d.failEntry r f
  | .ok d h =>
    match d.convertRead r (roundUp (32 + 32 * min (fieldAt h 4 2) 8) 64) with
    | .wait d => d
    | .fail d f => d.failEntry r f
    | .ok d h =>
      match batchHeader h with
      | none => d.failEntry r badBatch
      | some (fs, len) =>
        match d.convertRead r len with
        | .wait d => d
        | .fail d f => d.failEntry r f
        | .ok d b => d.convertBatch r fs b

/-- CONVERT (R322). -/
def execConvert (q : RunRef) (s : State) : Host.Outcome State Fault Refusal :=
  s.act fun d =>
    match d.findRun q.ring.val q.index.toNat with
    | some r =>
      if r.st == .fetched && r.kind == 2 && d.nextToStart r && d.podState r.pod == 2 && !d.engineHalted r.pod then
        d.convertEntry r
      else d
    | none => d

end Sys2Proof.Machine
end

