-- ==== Sys2Proof/Machine/Scan.lean ====
section
/-! DEFINITION. SCAN, SKIP and DECODE (R75, R78, R79, R21, R81, R135). -/

namespace Sys2Proof.Machine

/-- The type a zone test compares in: strings for a dcode column (R128). -/
def zoneType (t : Nat) : Nat := if t = 0x21 then 0x20 else t

/-- may_hold on a husk of a stream of type `t` with bounds from two K registers (R78). -/
def Act.mayHold (a : Act) (t zlo zhi : Nat) (h : Husk) : Bool :=
  ({ h with typ := zoneType t }).mayHold (a.kVal (zoneType t) zlo) (a.kVal (zoneType t) zhi)

/-- A zero-row block on a stream (R30, R149). -/
def Act.putEmpty (a : Act) (v seq : Nat) : Act :=
  a.putBody v seq (.encoded (emptyBlock (a.p.typeOf (streamNo v))).1 []) none

/-! ### SCAN -/

/-- The column set a SCAN reads, checked under R79 before any block is read. -/
def Act.scanOpen (a : Act) : Except Fail ColSet :=
  let src := a.k (swField a.w 64)
  let open_ := fun addr => match a.openSet addr a.outs.length with
    | .error f => .error f
    | .ok s => if swField a.w 72 ≠ 0xFF ∧ s.cols ≤ swField a.w 72 then .error sourceInvalid else .ok s
  if swMode a.w 1 then
    match a.indirect src with
    | .error f => .error f
    | .ok addr => open_ addr
  else open_ src

/-- What reading the set finds (R225, R265). -/
def Act.lookSource (a : Act) : Act :=
  if a.d.errs.planted.isEmpty then a else
  let src := a.k (swField a.w 64)
  if swMode a.w 1 then
    let a := a.look src 8
    a.lookSet (leNat (a.bytes src 8))
  else a.lookSet src

/-- The first activation claims the groups g with g mod n the instance number (R46), before any that
a parked instance left to this one (R57). -/
def Act.claim (a : Act) (s : ColSet) : Act :=
  if a.st.opened then a
  else
    let n := a.count
    a.onSt fun st =>
      { st with opened := true,
                groups := ((List.range s.groups).filter fun g => g % n == a.i.number) ++ st.groups }

/-- The zone test of a group: true when every output gets a zero-row block (R78). -/
def Act.scanSkips (a : Act) (s : ColSet) (g : Nat) : Except Fail Bool :=
  let zc := swField a.w 72
  if zc = 0xFF then .ok false
  else
    let addr := a.setAddr s g zc
    if addr % 64 ≠ 0 then .error (malformed 1)
    else match a.readFault addr 64 addrFault with
      | some f => .error f
      | none =>
        .ok (!a.mayHold (a.p.typeOf (streamNo (a.outs.getD zc 0))) (swField a.w 104) (swField a.w 112)
          (Husk.ofBytes (a.bytes addr 64)))

/-- Fetch the blocks of a group, column by column: all of them, or what stands in the way. -/
def Act.fetchCols (a : Act) (s : ColSet) (g : Nat) :
    List Nat → Nat → Act × Except (Option Fail) (List (List Byte × List Byte))
  | [], _ => (a, .ok [])
  | v :: vs, c =>
    match a.fetchBlock c (a.p.typeOf (streamNo v)) (a.setAddr s g c) with
    | .ok a' h raw => match a'.fetchCols s g vs (c + 1) with
      | (a'', .ok bs) => (a'', .ok ((h, raw) :: bs))
      | (a'', .error e) => (a'', .error e)
    | .fail a' f => (a', .error (some f))
    | .wait a' => (a', .error none)
    | .full => (a, .error none)

/-- The job queue is full, so a stage that needs a job stalls (R163). -/
def Act.jobsFull (a : Act) : Bool := decide (64 ≤ a.d.stageJobs.length)

/-- The activation without its fetch outcome: results of other columns stay for the next one. With no engine to work
its job the stage stalls (R163, R164). -/
def Act.retry (a b : Act) : Turn :=
  let c := { a with d := { a.d with stageJobs := b.d.stageJobs } }
  if a.jobsFull then .stall else if a.d.enginesOff then .back c else .quiet c

/-- Put the blocks of a group on the outputs. -/
def Act.putGroup (a : Act) (g : Nat) : List Nat → List (List Byte × List Byte) → Act
  | v :: vs, b :: bs => (a.putBody v g (.encoded b.1 b.2) none).putGroup g vs bs
  | _, _ => a

/-- The group has been read. -/
def Act.nextGroup (a : Act) : Act :=
  a.onSt fun st => { st with groups := st.groups.drop 1, finished := st.finished + 1 }

/-- One group of a SCAN. -/
def Act.scanGroup (a : Act) (s : ColSet) (g : Nat) : Turn :=
  let a := if swField a.w 72 = 0xFF then a else a.look (a.setAddr s g (swField a.w 72)) 64
  match a.scanSkips s g with
  | .error f => .fail a f g 0
  | .ok true => .done ((a.outs.foldl (fun a v => a.putEmpty v g) a).nextGroup) false
  | .ok false =>
    match a.fetchCols s g a.outs 0 with
    | (b, .ok bs) => .done ((b.putGroup g a.outs bs).nextGroup) false
    | (b, .error (some f)) => .fail b f g 0
    | (b, .error none) => a.retry b

/-- SCAN: the next claimed group, or the end of its outputs. -/
def scanTurn (a : Act) : List (Nat × Block) × Turn :=
  let a := a.lookSource
  ([], if a.i.life != .running then .hold
    else match (if a.st.opened && a.st.groups.isEmpty then .error none
        else (a.scanOpen.mapError some) : Except (Option Fail) ColSet) with
    | .error none => .quiet a.finish
    | .error (some f) => .fail a f 0 0
    | .ok s =>
      let a := a.claim s
      match a.st.groups with
      | [] => .quiet a.finish
      | g :: _ => if a.outRoom then a.scanGroup s g else .stall)

/-- SCAN (R79). -/
def execScan (w : StageRef) (s : State) : Host.Outcome State Fault Refusal :=
  s.act fun d => d.stage w 0x01 (fun _ => true) scanTurn

/-! ### SKIP -/

/-- Pass or replace a set of blocks. -/
def Act.skipPut (a : Act) (hold : Bool) : List Nat → List (Nat × Block) → Act
  | v :: vs, x :: xs =>
    (if hold then a.putBody v x.2.seq x.2.body none else a.putEmpty v x.2.seq).skipPut hold vs xs
  | _, _ => a

/-- The first failed check of checks 1 to 8 on the blocks of a set. -/
def Act.skipChecks (a : Act) : List (Nat × Block) → Option Fail
  | [] => none
  | (v, b) :: rest =>
    match b.body with
    | .decoded _ => a.skipChecks rest
    | .encoded hb raw =>
      let h := Husk.ofBytes hb
      match h.headCheck (a.p.typeOf (streamNo v)) 0 (h.crc == blockCrc hb raw) with
      | some 3 => some ⟨0x21, 0⟩
      | some n => some (malformed n)
      | none => if h.lengthOk raw then a.skipChecks rest else some (malformed 8)

/-- SKIP tests IN0's block and passes or replaces the set (R78). -/
def skipBody (a : Act) (bs : List (Nat × Block)) : Turn :=
  match bs with
  | [] => .hold
  | (v, b) :: _ =>
    let hold := match b.body with
      | .encoded h _ =>
        a.mayHold (a.p.typeOf (streamNo v)) (swField a.w 48) (swField a.w 56) (Husk.ofBytes h)
      | .decoded _ => true
    match (if hold then a.skipChecks bs else none) with
    | some f => .fail a f b.seq 0
    | none => .done (a.skipPut hold a.outs bs) true

/-- SKIP (R78). -/
def execSkip (w : StageRef) (s : State) : Host.Outcome State Fault Refusal :=
  s.act fun d => d.stage w 0x02 (fun _ => true) fun a => a.streamTurn true skipBody endStage

/-! ### DECODE -/

/-- The replacing dictionary of DICT_K. -/
def Act.dictK (a : Act) : Option Nat := if swField a.w 48 = 0xFF then none else some (a.k (swField a.w 48))

/-- DECODE writes the block in decoded form within R21. -/
def decodeBody (a : Act) (bs : List (Nat × Block)) : Turn :=
  match bs with
  | (v, b) :: _ =>
    match b.body with
    | .decoded _ => .hold
    | .encoded hb raw =>
      let out := a.outs.headD 0
      let t := a.p.typeOf (streamNo out)
      if (Husk.ofBytes hb).typ ≠ t then .fail a (malformed 0) b.seq 0
      else match a.decodeBlock (zoneType (a.p.typeOf (streamNo v))) hb raw a.dictK with
        | .error f => .fail a f b.seq 0
        | .ok (a, c) =>
          if blockLimit < decodedSize t c then .fail a ⟨0x22, 0⟩ b.seq 0
          else .done (a.putBody out b.seq (.decoded c) none) true
  | [] => .hold

/-- DECODE (R21, R135). -/
def execDecode (w : StageRef) (s : State) : Host.Outcome State Fault Refusal :=
  s.act fun d => d.stage w 0x03 (fun _ => true) fun a => a.streamTurn true decodeBody endStage

end Sys2Proof.Machine
end

