-- ==== Sys2Proof/Machine/Lifecycle.lean ====
section
/-! DEFINITION. The lifecycle of instances beyond placement and the governor: the start of a pipeline
(R47, R171, R216), migration and parking (R55 to R57, R379), and quiescing (R49, R346). -/

namespace Sys2Proof.Machine

/-! ### Starting a pipeline (R47) -/

/-- Stage registers at the start. -/
def StageSt.start (k : List Word) : StageSt :=
  { k := k, kPend := [], opened := false, source := none, ended := false, finished := 0, groups := [], cursor := 0, sets := [],
    bufs := [], held := [], runNo := 0, arr := 0, lastKey := none, outRows := none, seqOut := 0, dicts := [],
    skipped := 0, passed := 0, count := 0, heldBlk := false, heldUs := 0, posted := false, liveDone := false,
    waveDone := false, chunks := [], bases := [], exceeded := 0, measured := 0, credits := [], ends := [] }

/-- An instance with its buffer pairs and stage registers, in STARTING. -/
def Inst.begin (i : Inst) (r : Run) (p : Pipe) : Inst :=
  { i with
    life := .starting, epoch := (r.epochs.getD i.pipe 0), accs := [], extInit := false
    chans := p.streams.map fun x => { stream := x.stream, blocks := [], ended := false }
    stages := (List.range p.stages.length).map fun n => StageSt.start (r.kOf i.pipe n) }

/-- A slot holds buffer pairs. -/
def Dev.slotStart (d : Dev) (i : Inst) (pairs : Nat) : Dev :=
  d.onSlot i.tile i.slot fun x => { x with life := .starting, pairs := pairs, epoch := i.epoch, stalls := [] }

/-- Marked words of a tile-store region are wholly rewritten before they are read (R222). -/
def Dev.freshRegion (d : Dev) (i : Inst) (kib : Nat) : Dev :=
  let lo := Config.regionAt i.tile i.slot
  let d := { d with
    tsPoison := d.tsPoison.filter fun y => !(y.1 == i.tile && decide (lo ≤ y.2 ∧ y.2 < lo + 1024 * kib))
    slotMarks := d.slotMarks.filter fun y => !(y.1 == i.tile && y.2.1 == i.slot) }
  d.tsWrite i 0 (1024 * kib)

/-- One instance enters STARTING. -/
def Dev.startInst (d : Dev) (r : Run) (p : Pipe) (i : Inst) : Dev :=
  let i := i.begin r p
  ((d.setInst i).slotStart i p.streams.length).freshRegion i p.tsRegion

/-- Pipelines named in DEPENDS are DONE, on every member of a span run (R47, R375). -/
def Dev.dependsDone (d : Dev) (r : Run) (p : Pipe) : Bool :=
  (List.range 8).all fun j =>
    !p.depends.testBit j ||
      (d.pipeDoneHere r.ring r.index j && (d.runPeers r).all fun k => r.peerDone.contains (k, j))

/-- The range regions a run updates are locked at its first instance's STARTING (R216). -/
def Dev.lockRanges (d : Dev) (r : Run) (m : Image) : Dev :=
  if (d.instsOf r.ring r.index).all fun i => i.life == .placed then
    let d := m.rangesUpdated.foldl (fun d g => d.lockRange r.pod g r.ring r.index) d
    d.onRun r.ring r.index fun x => { x with rlocks := m.rangesUpdated }
  else d

/-- The regions a pipeline builds are locked and clearing (R171). -/
def Dev.beginBuilds (d : Dev) (r : Run) (p : Pipe) (i : Inst) : Dev :=
  let d := (p.stagesWith 0x09).foldl (fun d x => d.beginBuild i p x.2 (r.kOf i.pipe x.1)) d
  d.onRun r.ring r.index fun x => { x with jlocks := (x.jlocks ++ p.builds).eraseDups }

/-- The run may start a pipeline: it is placed and has not failed, and its pod runs (R346). -/
def Dev.mayStart (d : Dev) (r : Run) : Bool :=
  r.st == .running && r.placed && r.failure.isNone && d.podState r.pod == 2 && !d.engineHalted r.pod

/-- Start pipeline `n` of a run. -/
def Dev.startPipe (d : Dev) (r : Run) (n : Nat) : Dev :=
  match r.image, r.pipeAt n, d.pipeInsts r.ring r.index n with
  | some m, some p, i :: rest =>
    if !d.mayStart r || i.life != .placed || !d.dependsDone r p || d.regionsLocked r m then d
    else ((i :: rest).foldl (fun d i => d.startInst r p i) ((d.lockRanges r m).beginBuilds r p i)).admitStarts
  | _, _, _ => d

/-- PIPELINE_START (R47). -/
def execPipelineStart (q : RunRef) (pipe : Fin 8) (s : State) : Host.Outcome State Fault Refusal :=
  s.act fun d =>
    match d.findRun q.ring.val q.index.toNat with
    | some r => d.startPipe r pipe.val
    | none => d

/-! ### Leaving a tile (R55, R56) -/

/-- A slot of a pipeline of a run: one of its instances', one kept for an instance, or one being left. -/
def SlotSt.ofPipe (x : SlotSt) (r : Run) (n : Nat) : Bool := x.ring == r.ring && x.index == r.index && x.pipe == n

/-- Slots of a pipeline of a run. -/
def Dev.pipeSlots (d : Dev) (r : Run) (n : Nat) : List SlotSt := d.slots.filter fun x => x.ofPipe r n

/-- Blocks of a slot that no consumer has accepted. -/
def Dev.undrained (d : Dev) (t s : Nat) : Nat :=
  (d.insts.map fun i => (i.chans.map fun c =>
    (c.blocks.filter fun b => b.tile == t && b.slot == s && !b.taken).length).foldl (· + ·) 0).foldl (· + ·) 0

/-- The epoch of a pipeline advances, and DRAIN of each of its slots is loaded (R56 step 5). -/
def Dev.nextEpoch (d : Dev) (r : Run) (n : Nat) : Dev :=
  let e := (r.epochs.getD n 0 + 1) % 65536
  let d := d.onRun r.ring r.index fun x => { x with epochs := x.epochs.set n e }
  { d with slots := mapIf (fun x => x.ofPipe r n) (fun x => { x with epoch := e, drain := d.undrained x.tile x.slot }) d.slots }

/-- The assemblies of an instance's exchanges. -/
def Dev.xOf (d : Dev) (i : Inst) : List XRecv := d.xrecvs.filter fun x => x.tile == i.tile && x.slot == i.slot

/-- A leaving consumer closes its filling blocks once every granted credit's packet has come (R379). -/
def Dev.closeFilling (d : Dev) (i : Inst) : Dev :=
  (d.xOf i).foldl (fun d x =>
    match d.findInst i.tile i.slot, d.findRun i.ring i.index with
    | some i, some r =>
      (match r.pipeAt i.pipe with
      | some p =>
        if x.granted.isEmpty && !x.rows.isEmpty then
          d.putX (({ i := i, r := r, p := p, x := x, fresh := d.fresh } : XAt).closeRows x.rows.length)
        else d
      | none => d)
    | _, _ => d) d

/-- Every block in the instance's buffers is finished, and no packet is awaited. -/
def Dev.emptied (d : Dev) (i : Inst) : Bool :=
  i.chans.all (fun c => c.blocks.isEmpty) && (d.xOf i).all fun x => x.granted.isEmpty && x.rows.isEmpty

/-- The target of a move: the lowest eligible tile of the leaving tile's cluster, or else of the pod. -/
def Dev.moveTarget (d : Dev) (i : Inst) (r : Run) (m : Image) : Option Nat :=
  let ok := fun t => t != i.tile && d.eligible r.pod (m.load r.ring r.index i.pipe) t
  match (List.range 64).find? fun t => t / 8 == i.tile / 8 && ok t with
  | some t => some t
  | none => (List.range 64).find? ok

/-- The slot reserved for a leaving instance. -/
def Dev.reserved (d : Dev) (i : Inst) : Option SlotSt := d.slots.find? fun x => x.keptFor i

/-- Reserve a slot of a tile (R56 step 2). Its cluster holds the program from then on: R39 copies it for a
cluster that the placement uses (DEDUCED, log entry 78). -/
def Dev.reserve (d : Dev) (i : Inst) (r : Run) (p : Pipe) (t : Nat) : Dev :=
  match d.freeSlotOf t with
  | none => d
  | some s =>
    let x : SlotSt :=
      { tile := t, slot := s, ring := r.ring, index := r.index, pod := r.pod, handle := r.handle, pipe := i.pipe, number := i.number,
        life := .starting, epoch := r.epochs.getD i.pipe 0, drain := 0, pairs := p.streams.length, stalls := [] }
    let d := { d with slots := d.slots ++ [x], lastPod := upsert (fun y => y.1 == t) (t, r.pod) d.lastPod }
    match r.image with
    | some m => d.copyProgram (t / 8) r.pod r.handle r.order m
    | none => d

/-- The instance begins to leave: its slot is MIGRATING and its sources claim no more (R56 step 3). -/
def Dev.beginLeave (d : Dev) (i : Inst) : Dev := d.setLife { i with leaving := true } .migrating

/-- No slot of the pipeline has a DRAIN count, and no other instance of it is on its way, which would load
one: so at most two epochs are in flight (R55). -/
def Dev.mayLeave (d : Dev) (i : Inst) (r : Run) : Bool :=
  i.life == .running && !i.stop && ((d.pipeSlots r i.pipe).all fun x => x.drain == 0) &&
    (d.pipeInsts i.ring i.index i.pipe).all fun j => j.life != .migrating

/-- What is kept by tile and slot follows the instance to its new place (R56 step 6). -/
def Dev.rekey (d : Dev) (t s t' s' kib : Nat) : Dev :=
  let at_ := fun (a b : Nat) => a == t && b == s
  let lo := Config.regionAt t s
  let lo' := Config.regionAt t' s'
  let job := fun (j : Job) => if j.stageJob && at_ j.tile j.slot then { j with tile := t', slot := s' } else j
  { d with
    sels := mapIf (fun x => at_ x.1 x.2.slot) (fun x => (t', { x.2 with slot := s' })) d.sels
    xrecvs := mapIf (fun x => at_ x.tile x.slot) (fun x => { x with tile := t', slot := s' }) d.xrecvs
    tsPoison := mapIf (fun y => y.1 == t && decide (lo ≤ y.2 ∧ y.2 < lo + 1024 * kib))
      (fun y => (t', lo' + (y.2 - lo))) d.tsPoison
    stageJobs := d.stageJobs.map job
    engJobs := d.engJobs.map fun e => { e with job := job e.job }
    jobResults := mapIf (fun x => at_ x.tile x.slot) (fun x => { x with tile := t', slot := s' }) d.jobResults }

/-- The new tile of a consumer announces itself to its producers (R379): `Out.xfer` of kind 6. -/
def Dev.announceMove (d : Dev) (i : Inst) (r : Run) (p : Pipe) : Dev :=
  (p.stagesWith 0x20).foldl (fun d x =>
    (d.spanInsts r i.pipe).foldl (fun d w =>
      d.emit (.xfer w.1 6 [d.get F.LNK_POD_SPAN_GROUP i.pod, r.tag, i.pipe, x.1, i.number, w.2])) d) d

/-- The instance stands at its new place and is released by the governor (R56 steps 5 to 8). -/
def Dev.moveInst (d : Dev) (i : Inst) (r : Run) (p : Pipe) (x : SlotSt) : Dev :=
  let d := d.nextEpoch r i.pipe
  let e := (r.epochs.getD i.pipe 0 + 1) % 65536
  let d := (d.rekey i.tile i.slot x.tile x.slot p.tsRegion).setInst
    { i with tile := x.tile, slot := x.slot, life := .starting, epoch := e, leaving := true }
  let d := d.onSlot i.tile i.slot fun y => { y with pairs := 0, stalls := [] }
  (d.announceMove { i with tile := x.tile } r p).admitStarts

/-- A leaving instance that has emptied moves to the slot reserved for it. -/
def Dev.finishMove (d : Dev) (i : Inst) (r : Run) (p : Pipe) : Dev :=
  let d := d.closeFilling i
  match d.findInst i.tile i.slot with
  | some i =>
    (match d.reserved i with
    | some x => if d.emptied i then d.moveInst i r p x else d
    | none => d)
  | none => d

/-- The first part of a migration: a target is reserved and the slot is MIGRATING. A target that
another pod used last is zeroed first (R224). -/
def Dev.beginMove (d : Dev) (i : Inst) (r : Run) (p : Pipe) (m : Image) : Dev :=
  match d.moveTarget i r m with
  | none => d
  | some t =>
    if d.zeroing t then d
    else if d.foreignTile r.pod t then d.put F.TIL_TS_SCRUB_ZEROING 1 t
    else ((d.reserve i r p t).beginLeave i).finishMove { i with life := .migrating, leaving := true } r p

/-- An instance with its run, pipeline and image. -/
def Dev.instAt (d : Dev) (t s : Nat) : Option (Inst × Run × Pipe × Image) :=
  (d.findInst t s).bind fun i => (d.findRun i.ring i.index).bind fun r => (r.pipeAt i.pipe).bind fun p =>
    r.image.map fun m => (i, r, p, m)

/-- MIGRATE_INSTANCE (R55, R56). -/
def execMigrateInstance (t : Fin 64) (slot : Fin 4) (s : State) : Host.Outcome State Fault Refusal :=
  s.act fun d =>
    match d.instAt t.val slot.val with
    | none => d
    | some (i, r, p, m) =>
      if i.life == .migrating && !i.stop then d.finishMove i r p
      else if d.mayLeave i r && d.podState r.pod == 2 then d.beginMove i r p m
      else d

/-- MIGRATION_COMPLETE: DRAIN has reached zero, or no block of the slot is left (R56 step 8). -/
def execMigrationComplete (t : Fin 64) (slot : Fin 4) (s : State) : Host.Outcome State Fault Refusal :=
  s.act fun d =>
    match d.findSlot t.val slot.val with
    | some x =>
      if x.life == .migrating && (d.findInst t.val slot.val).isNone &&
          (x.drain == 0 || d.undrained t.val slot.val == 0) then d.freeSlot t.val slot.val
      else d
    | none => d

/-! ### Parking (R57) -/

/-- Bytes that the saved region and stage registers take (log entry 7). -/
def savedBytes (p : Pipe) : Nat := 1024 * p.tsRegion + 512 * p.stages.length

/-- A SCAN that has read nothing yet claims its groups, so that they can be given away. -/
def Dev.claimFor (d : Dev) (i : Inst) (r : Run) (p : Pipe) : Inst :=
  (p.stagesWith 0x01).foldl (fun (i : Inst) x =>
    match i.stages[x.1]? with
    | some st =>
      let a : Act := { d := d, i := i, r := r, p := p, n := x.1, st := st }
      (match a.scanOpen with
      | .ok s => { i with stages := i.stages.set x.1 (a.claim s).st }
      | .error _ => i)
    | none => i) i

/-- An instance that goes on when another is parked (R57). -/
def Life.remains : Life → Bool
  | .running => true
  | .starting => true
  | .migrating => true
  | .quiesced => true
  | _ => false

/-- Give the unclaimed groups of stage `n` to the remaining instances in turn, those on their way to another
tile or to RUNNING among them (R57 step 3). -/
def Dev.giveGroups (d : Dev) (i : Inst) (n : Nat) : Dev :=
  let heirs := (List.range 64).filterMap fun k =>
    (d.pipeInsts i.ring i.index i.pipe).find? fun j =>
      j.number == k && j.number != i.number && j.life.remains && !((j.stages[n]?).map fun s => s.ended).getD true
  let gs := ((i.stages[n]?).map fun s => s.groups).getD []
  if heirs.isEmpty then d
  else
    let d := heirs.zipIdx.foldl (fun (d : Dev) x =>
      let mine := (gs.zipIdx.filter fun g => g.2 % heirs.length == x.2).map fun g => g.1
      let stages := x.1.stages.zipIdx.map fun (y : StageSt × Nat) =>
        if y.2 = n then { y.1 with groups := y.1.groups ++ mine } else y.1
      d.setInst { x.1 with stages := stages }) d
    d.setInst { i with stages := i.stages.zipIdx.map fun (y : StageSt × Nat) =>
      if y.2 = n then { y.1 with groups := [] } else y.1 }

/-- The instance is saved and its slot is PARKED (R57). -/
def Dev.parkInst (d : Dev) (i : Inst) (r : Run) (p : Pipe) (area : Nat) : Dev :=
  let d := d.nextEpoch r i.pipe
  let d := d.ioStore (d.localForm area) ((List.range (savedBytes p)).map (Config.imageByte 0))
  let d := d.startBallast p i
  let i := { d.claimFor i r p with life := .parked, parkArea := area }
  let d := (d.setInst i).onSlot i.tile i.slot fun x => { x with life := .parked, pairs := 0, stalls := [] }
  (p.stagesWith 0x01).foldl (fun d x =>
    match d.findInst i.tile i.slot with
    | some i => d.giveGroups i x.1
    | none => d) d

/-- Parking: with no eligible tile and none reserved, the instance stops claiming, and once it has
emptied it is saved. -/
def Dev.park (d : Dev) (i : Inst) (r : Run) (p : Pipe) (area : Nat) : Dev :=
  let d := if i.life == .running then d.beginLeave i else d
  let d := d.closeFilling i
  match d.findInst i.tile i.slot with
  | some i => if d.emptied i then d.parkInst i r p area else d
  | none => d

/-- PARK_INSTANCE (R57): the tile is claimed by self-test and no tile is eligible (R49). -/
def execParkInstance (t : Fin 64) (slot : Fin 4) (area : BitVec 52) (s : State) : Host.Outcome State Fault Refusal :=
  s.act fun d =>
    match d.instAt t.val slot.val with
    | none => d
    | some (i, r, p, m) =>
      if d.tileClaimed t.val && (d.moveTarget i r m).isNone && (d.reserved i).isNone && !i.stop &&
          d.inPod r.pod area.toNat (savedBytes p) &&
          (i.life == .migrating || (d.mayLeave i r && d.podState r.pod == 2)) then
        d.park i r p area.toNat
      else d

/-- The parked instance stands in a slot again and is released by the governor. -/
def Dev.unpark (d : Dev) (i : Inst) (p : Pipe) : Dev :=
  (((d.setInst { i with life := .starting, leaving := true, parkArea := 0 }).onSlot i.tile i.slot fun x =>
    { x with life := .starting, pairs := p.streams.length, stalls := [] })).admitStarts

/-- The same on another tile: the slot it was parked in becomes FREE. -/
def Dev.unparkOn (d : Dev) (i : Inst) (r : Run) (p : Pipe) (t : Nat) : Dev :=
  if d.zeroing t then d
  else if d.foreignTile r.pod t then d.put F.TIL_TS_SCRUB_ZEROING 1 t
  else
    let d := d.reserve i r p t
    match d.reserved i with
    | none => d
    | some x =>
      let d := (d.rekey i.tile i.slot x.tile x.slot p.tsRegion).freeSlot i.tile i.slot
      let j := { i with tile := x.tile, slot := x.slot }
      ((d.setInst j).announceMove j r p).unpark j p

/-- The tile an instance was parked on takes placements again. -/
def Dev.tileReturned (d : Dev) (i : Inst) : Bool := !d.tileClaimed i.tile && !d.tileFenced i.tile && !d.zeroing i.tile

/-- RESTORE_PARKED (R57): on the same tile when it has returned, or on another eligible one. -/
def execRestoreParked (t : Fin 64) (slot : Fin 4) (s : State) : Host.Outcome State Fault Refusal :=
  s.act fun d =>
    match d.instAt t.val slot.val with
    | none => d
    | some (i, r, p, m) =>
      if i.life != .parked || i.stop || d.podState r.pod != 2 then d
      else if d.tileReturned i then d.unpark i p
      else match d.moveTarget i r m with
        | some k => d.unparkOn i r p k
        | none => d

/-! ### Quiescing (R49, R346) -/

/-- INSTANCE_QUIESCE: a RUNNING instance of a QUIESCING pod at its block boundary. -/
def execInstanceQuiesce (t : Fin 64) (slot : Fin 4) (s : State) : Host.Outcome State Fault Refusal :=
  s.act fun d =>
    match d.instAt t.val slot.val with
    | none => d
    | some (i, _, p, _) =>
      if i.life == .running && !i.stop && d.podState i.pod == 3 then (d.startBallast p i).setLife i .quiesced else d

end Sys2Proof.Machine
end

