-- ==== Sys2Proof/Machine/HostLink.lean ====
section
/-! DEFINITION. The host link (R293 to R300): training, configuration requests, translation and page
requests, BAR4 and CXL.mem, host snoops, the loss of the host, interrupts and PTM. -/

namespace Sys2Proof.Machine

/-! ### The link -/

/-- The host as agent 16 is lost (R473). -/
def Dev.loseHost (d : Dev) : Dev :=
  if !d.live 16 then d
  else
    let d := (d.killAgent 16).put F.ERR_FENCE_OTHER_HOST 1
    let d := { d with host := { d.host with cxl := false } }
    d.report { cls := 0x15, srcKind := 9, fence := true }

/-- HOST_LINK_UP (R293): 64 GT/s always runs in flit mode; below 32 GT/s the link carries CXL.io only
(R295). -/
def execHostLinkUp (speed : Fin 6) (width : Fin 5) (flit : Bool) (s : State) : Host.Outcome State Fault Refusal :=
  s.act fun d =>
    let d := if speed.val < 4 then d.loseHost else d
    { d with host := { d.host with up := true, speed := speed.val, width := width.val,
                                   flit := flit || speed.val == 5 } }

/-- HOST_LINK_DOWN (R473). -/
def execHostLinkDown (s : State) : Host.Outcome State Fault Refusal :=
  s.act fun d =>
    let d := d.loseHost
    { d with host := { d.host with up := false, cxl := false, pageReqs := [] } }

/-- HOST_SNOOP_TIMEOUT (R473). -/
def execHostSnoopTimeout (s : State) : Host.Outcome State Fault Refusal := s.act Dev.loseHost

/-- HOST_CXL_ENABLE: agent 16 is admitted once its scrub has completed (R295, R473). -/
def execHostCxlEnable (s : State) : Host.Outcome State Fault Refusal :=
  s.act fun d =>
    if d.host.up && decide (4 ≤ d.host.speed) && !d.scrubs.contains 16 then
      let d := (d.reviveAgent 16).put F.ERR_FENCE_OTHER_HOST 0
      { d with host := { d.host with cxl := true } }
    else d

/-- A capability structure of a function: its number (the first extended one is 2), its ID and its length. -/
structure PciCap where
  k : Nat
  id : Nat
  len : Nat
  deriving DecidableEq, Repr

/-- The capability structures of a function (R293, R295): PCI Express, MSI-X and AER on both, and on PF0 also PASID,
ATS, PRI, PTM, L1 PM Substates and the CXL DVSEC. IDs and layouts are those of the PCIe and CXL specifications
(PRESUMED, log entry 6). -/
def pciCaps (pf1 : Bool) : List PciCap :=
  [⟨0, 0x10, 0x3C⟩, ⟨1, 0x11, 0x0C⟩, ⟨2, 0x01, 0x48⟩] ++
    if pf1 then [] else [⟨3, 0x1B, 8⟩, ⟨4, 0x0F, 8⟩, ⟨5, 0x13, 16⟩, ⟨6, 0x1F, 12⟩, ⟨7, 0x1E, 16⟩, ⟨8, 0x23, 0x3C⟩]

/-- Where a capability structure stands: the first extended one at 0x100. -/
def PciCap.at_ (c : PciCap) (pf1 : Bool) : Nat := if c.k = 2 then 0x100 else Config.capOffset pf1 c.k

/-- The offset of the next structure of its list, 0 after the last. -/
def PciCap.next (c : PciCap) (pf1 : Bool) : Nat :=
  if c.k = 1 then 0 else (((pciCaps pf1).find? fun x => x.k == c.k + 1).map fun x => x.at_ pf1).getD 0

/-- The header of a capability structure over its open bits. -/
def PciCap.header (c : PciCap) (pf1 : Bool) (v : Nat) : Nat :=
  if c.k < 2 then setBits (setBits v 0 8 c.id) 8 8 (c.next pf1)
  else setBits (setBits (setBits v 0 16 c.id) 16 4 1) 20 12 (c.next pf1)

/-- A register of a capability structure, at `rel` in it, over its open bits `v` (R293, R295). -/
def Dev.capReg (d : Dev) (pf1 : Bool) (c : PciCap) (rel v : Nat) : Nat :=
  let v := if rel = 0 then c.header pf1 v else v
  let cap := d.get F.MEM_CFG_CAP_GIB * 2 ^ 30
  match c.id, rel with
  -- Max_Payload_Size 512 and FLR; speed 64 GT/s, width ×16, ASPM L1; the trained speed and width; 10-bit tags, TPH
  -- completer, no AtomicOp; every speed from 2.5 GT/s on
  | 0x10, 0x04 => setBits (setBits v 0 3 2) 28 1 1
  | 0x10, 0x0C => setBits (setBits (setBits v 0 4 6) 4 6 16) 10 2 2
  | 0x10, 0x10 => if d.host.up then setBits (setBits v 16 4 (d.host.speed + 1)) 20 6 (2 ^ d.host.width) else v
  | 0x10, 0x24 => setBits (setBits (setBits v 6 4 0) 12 2 1) 16 2 3
  | 0x10, 0x2C => setBits v 1 7 0x3F
  -- MSI-X: 2,048 or 65 vectors
  | 0x11, 0x00 => setBits v 16 11 (if pf1 then 64 else 2047)
  -- PASID: 20 bits, no Execute and no Privileged Mode
  | 0x1B, 0x04 => setBits (setBits v 1 2 0) 8 5 20
  -- PRI: 512 outstanding page requests
  | 0x13, 0x08 => 512
  -- PTM: a requester
  | 0x1F, 0x04 => setBits v 0 3 1
  -- L1 PM Substates: L1.1 and no L1.2
  | 0x1E, 0x04 => setBits v 0 5 0x1A
  -- CXL: cache, io and mem, one HDM range of the installed capacity, and Memory_Active
  | 0x23, 0x08 => setBits (setBits v 16 3 7) 20 2 1
  | 0x23, 0x18 => cap / 2 ^ 32
  | 0x23, 0x1C => setBits (setBits (setBits v 28 4 (cap / 2 ^ 28)) 0 1 (cap != 0).toNat) 1 1 (d.memReady).toNat
  | _, _ => v

/-- A BAR pair over the address software gave it: 64-bit, its size's address bits hardwired to zero (R297). -/
def barPair (size : Nat) (prefetch upper : Bool) (v : Nat) : Nat :=
  if size = 0 then 0
  else if upper then v / max 1 (size / 2 ^ 32) * max 1 (size / 2 ^ 32)
  else v / min size (2 ^ 32) * min size (2 ^ 32) + 4 + 8 * prefetch.toNat

/-- A register of the configuration header (R297): device and class codes, two functions, the BARs, the list of
capabilities, and no INTx pin. -/
def Dev.headerReg (d : Dev) (pf1 : Bool) (reg v : Nat) : Nat :=
  let cap := d.get F.MEM_CFG_CAP_GIB * 2 ^ 30
  match reg with
  | 0x00 => setBits v 16 16 (if pf1 then 0x8817 else 0x8816)
  | 0x04 => setBits v 20 1 1
  | 0x08 => setBits v 8 24 (if pf1 then 0x010802 else 0x120000)
  | 0x0C => setBits v 16 8 0x80
  | 0x10 => barPair (if pf1 then 2 ^ 14 else 2 ^ 27) false false v
  | 0x14 => barPair (if pf1 then 2 ^ 14 else 2 ^ 27) false true v
  | 0x18 => if pf1 then 0 else barPair (2 ^ 22) false false v
  | 0x1C => if pf1 then 0 else barPair (2 ^ 22) false true v
  | 0x20 => if pf1 then 0 else barPair cap true false v
  | 0x24 => if pf1 then 0 else barPair cap true true v
  | 0x34 => setBits v 0 8 (Config.capOffset pf1 0)
  | 0x3C => setBits v 8 8 0
  | _ => v

/-- A configuration register (R293, R297): the header, a capability structure, or zero where there is none. What the
spec does not state of a register is open (log entry 6). -/
def Dev.configValue (d : Dev) (pf1 : Bool) (reg : Nat) : Nat :=
  let v := (Config.configSpace pf1 reg).toNat
  if reg < 0x40 then d.headerReg pf1 reg v
  else match (pciCaps pf1).find? fun c => decide (c.at_ pf1 ≤ reg ∧ reg < c.at_ pf1 + c.len) with
    | some c => d.capReg pf1 c (reg - c.at_ pf1) v
    | none => 0

/-- Memory sizing is known, or has failed (R297). -/
def Dev.sized (d : Dev) : Bool := d.get F.MEM_CFG_CAP_GIB != 0 || d.get F.MEM_TRAIN_STATE == 4

/-- CONFIG_REQUEST (R297). -/
def execConfigRequest (pf1 : Bool) (reg : BitVec 12) (s : State) : Host.Outcome State Fault Refusal :=
  s.act fun d =>
    if d.sized then d.emit (.config (d.configValue pf1 (reg.toNat / 4 * 4))) else d.emit .retryStatus

/-! ### Translation (R293, R294) -/

/-- ATS_INVALIDATE. -/
def execAtsInvalidate (pasid : BitVec 20) (page : BitVec 52) (pages : BitVec 32) (s : State) :
    Host.Outcome State Fault Refusal :=
  s.act fun d =>
    let lo := page.toNat
    let n := pages.toNat
    let hit := fun (x : Nat × Nat) => x.1 == pasid.toNat && decide (lo ≤ x.2 ∧ x.2 < lo + n)
    { d with host := { d.host with ats := d.host.ats.filter fun x => !hit x,
                                   unmapped := d.host.unmapped ++ (if n = 0 then [] else [(pasid.toNat, lo, n)]) } }

/-- A withdrawn range without one page. -/
def cutPage (g : Nat) (u : Nat × Nat × Nat) : List (Nat × Nat × Nat) :=
  if g < u.2.1 || decide (u.2.1 + u.2.2 ≤ g) then [u]
  else [(u.1, u.2.1, g - u.2.1), (u.1, g + 1, u.2.1 + u.2.2 - (g + 1))].filter fun x => x.2.2 != 0

/-- A page request ends; the page is there, or its next use fails. -/
def Dev.endPageReq (d : Dev) (pasid g : Nat) (good : Bool) : Dev :=
  if !(d.host.pageReqs.any fun q => q.pasid == pasid && q.page == g) then d
  else
    let h := { d.host with pageReqs := d.host.pageReqs.filter fun q => !(q.pasid == pasid && q.page == g) }
    { d with host :=
        if good then { h with unmapped := h.unmapped.flatMap fun u => if u.1 == pasid then cutPage g u else [u] }
        else { h with failed := (pasid, g) :: h.failed.filter (· != (pasid, g)) } }

/-- PAGE_REQUEST_GROUP_RESPONSE (R293, R294). -/
def execPageRequestGroupResponse (pasid : BitVec 20) (page : BitVec 52) (success : Bool) (s : State) :
    Host.Outcome State Fault Refusal :=
  s.act fun d => d.endPageReq pasid.toNat page.toNat success

/-- PAGE_REQUEST_TIMEOUT (R294). -/
def execPageRequestTimeout (pasid : BitVec 20) (page : BitVec 52) (s : State) : Host.Outcome State Fault Refusal :=
  s.act fun d => d.endPageReq pasid.toNat page.toNat false

/-! ### BAR4 and CXL (R295 to R298) -/

/-- The bytes lie in BAR4. -/
def Dev.inBar4 (d : Dev) (off n : Nat) : Bool := decide (off + n ≤ d.get F.MEM_CFG_CAP_GIB * 2 ^ 30)

/-- BAR4_READ (R298). -/
def execBar4Read (off : BitVec 48) (len : Fin 4097) (s : State) : Host.Outcome State Fault Refusal :=
  s.act fun d =>
    let d := d.leaveP1
    let a := off.toNat
    if !d.host.up || !d.inBar4 a len.val then d
    else if !d.memReady then (d.regError a).emit .completerAbort
    else
      let d := d.ioRead a len.val
      d.emit (.data (d.ld a len.val) (d.poisonIn a len.val != .clean))

/-- The write hint of a steering tag: ST[3:0] (R297). -/
def hintOf (tag : Option (BitVec 8)) : Nat :=
  match tag with
  | some t => t.toNat % 16
  | none => 0

/-- BAR4_WRITE (R297, R298, R247). -/
def execBar4Write (off : BitVec 48) (data : List Byte) (tag : Option (BitVec 8)) (s : State) :
    Host.Outcome State Fault Refusal :=
  s.act fun d =>
    let d := d.leaveP1
    let a := off.toNat
    if !d.host.up || !d.inBar4 a data.length then d
    else if !d.memReady then d.regError a
    else (linesOf a data.length).foldl (fun d l => d.sendStash (hintOf tag) l) (d.ioStore a data)

/-- The host owns the sector of a line. -/
def Dev.hostOwns (d : Dev) (a : Nat) : Bool :=
  ((d.findDir (sectorOf a)).map fun e => e.excl && e.ptrs.contains 16).getD false

/-- A CXL.mem access reaches the HDM range. -/
def Dev.inHdm (d : Dev) (a : Nat) : Bool := d.host.cxl && d.inBar4 (lineOf a) 64

/-- HOST_MEMRD (R296, R298). -/
def execHostMemrd (addr : BitVec 52) (mv : MetaValue) (s : State) : Host.Outcome State Fault Refusal :=
  s.act fun d =>
    let d := d.leaveP1
    let a := addr.toNat
    if !d.inHdm a then d
    else if !d.memReady then (d.regError a).emit (.data (List.replicate 64 0) true)
    else
      let k : ReqKind := match mv with
        | .a => .rdUnique
        | .s => .rdShared
        | .i => .rdOnce
      d.homeRequest { agent := 16, addr := addr, group := 0, holds := false } k

/-- HOST_MEMWR (R296, R298): poison is carried (R295). -/
def execHostMemwr (addr : BitVec 52) (data : Bytes64) (poison : Poison) (s : State) : Host.Outcome State Fault Refusal :=
  s.act fun d =>
    let d := d.leaveP1
    let a := addr.toNat
    if !d.inHdm a then d
    else if !d.memReady then d.regError a
    else if d.hostOwns a then d.writeBackMsg 16 a data.toList poison
    else d.homeRequest { agent := 16, addr := addr, group := 0, holds := false } (.wrFull data.toList poison)

/-- The host snoops a line of its own memory. -/
def Dev.hostSnoop (d : Dev) (a : Nat) (inv : Bool) : Dev :=
  if d.live 16 && d.homeAgent a == some 16 then d.snooped 16 a inv else d

/-- HOST_SNPDATA (R296). -/
def execHostSnpdata (addr : BitVec 52) (s : State) : Host.Outcome State Fault Refusal :=
  s.act fun d => d.hostSnoop addr.toNat false

/-- HOST_SNPINV (R296). -/
def execHostSnpinv (addr : BitVec 52) (s : State) : Host.Outcome State Fault Refusal :=
  s.act fun d => d.hostSnoop addr.toNat true

/-- HOST_SNPCUR: the data, and no state change (R296). -/
def execHostSnpcur (addr : BitVec 52) (s : State) : Host.Outcome State Fault Refusal :=
  s.act fun d =>
    let a := lineOf addr.toNat
    if d.live 16 && d.homeAgent a == some 16 then d.emit (.data (d.anyRead a 64) (d.poisonAt a != .clean)) else d

/-! ### Interrupts and time (R299, R300) -/

/-- A vector's mask bit is cleared: a pending message is sent. -/
def Dev.unmask (d : Dev) (pf1 : Bool) (vec : Nat) : Dev :=
  let v := (pf1, vec)
  if (pf1 && decide (65 ≤ vec)) || d.host.unmasked.contains v then d
  else
    let was := d.host.pending.contains v
    let h := { d.host with unmasked := v :: d.host.unmasked, pending := d.host.pending.filter (· != v) }
    let d := { d with host := h }
    if was then d.emit (.irq pf1 vec) else d

/-- VECTOR_UNMASK (R299). -/
def execVectorUnmask (pf1 : Bool) (vec : Fin 2048) (s : State) : Host.Outcome State Fault Refusal :=
  s.act fun d => d.unmask pf1 vec.val

/-- The measured offset is corrected. -/
def Dev.ptmCorrect (d : Dev) (offset : Int) : Dev :=
  let n := offset.natAbs
  let mode := fun (m : Nat) => { d with host := { d.host with ptmMode := m, ptmLeft := n } }
  if offset = 0 then mode 0
  else if offset < 0 then
    if n ≤ 1000000 then mode 1
    else
      let d := { d with host := { d.host with ptmMode := 0, ptmLeft := 0 } }
      (d.put F.CLK_TIMESTAMP_NS (d.now + n)).put F.CLK_PTM_STATUS_STEPPED 1
  else if n ≤ 1000000 then mode 2
  else mode 3

/-- PTM_DIALOGUE (R300, R338). -/
def execPtmDialogue (offset : Int) (s : State) : Host.Outcome State Fault Refusal :=
  s.act fun d =>
    if d.get F.CLK_PTM_CTRL_EN = 0 || !d.host.up then d
    else
      let sat := max (-(2 ^ 31 - 1 : Int)) (min offset (2 ^ 31 - 1))
      ((d.put F.CLK_PTM_STATUS_OFFSET_NS (ofSigned 32 sat)).put F.CLK_PTM_STATUS_VALID 1).ptmCorrect offset

end Sys2Proof.Machine
end

