-- ==== Sys2Proof/Machine/Nvme.lean ====
section
/-! DEFINITION. The NVMe ingest controller of PF1 (R324 to R337): enable and reset, queues, admin
commands, namespaces, the write buffer and I/O. A command row is the fetch of the next entry of its
submission queue; queue entries carry decoded fields, and completions stand in the queues as posted. -/

namespace Sys2Proof.Machine

/-! ### Zeroing -/

/-- Full-line zeros over a range of device memory from the IO die; every cached copy goes (R244, R327,
R332, R344). -/
def Dev.ioZero (d : Dev) (a n : Nat) : Dev :=
  let inside := fun (x : Nat) => decide (a ≤ x ∧ x < a + n)
  let gone := d.dir.filter fun e => inside e.sector
  let d := gone.foldl (fun d e =>
    d.snoop e.slice e.sector true e.bcast ((d.holders e 24).filter fun x => decide (16 ≤ x))) d
  { d with mem := memZero d.mem a n,
           poison := d.poison.filter fun x => !inside x.1,
           dir := d.dir.filter fun e => !inside e.sector,
           lines := d.lines.filter fun l => !inside l.addr,
           errs := { d.errs with planted := d.errs.planted.filter fun x => !(x.1 == 6 && inside x.2.2.1) } }

/-! ### Queues and completions -/

/-- Change the controller. -/
def Dev.onNvme (d : Dev) (f : Nvme → Nvme) : Dev := { d with nvme := f d.nvme }

/-- A submission queue. -/
def Nvme.sq? (v : Nvme) (q : Nat) : Option NvmeSq := v.sqs.find? fun x => x.id == q

/-- A completion queue. -/
def Nvme.cq? (v : Nvme) (q : Nat) : Option NvmeCq := v.cqs.find? fun x => x.id == q

/-- A feature's value (R325); `sel` tells the vectors of Interrupt Vector Configuration apart. Without a
Set Features: 64 queues of each kind, the write cache on, an open temperature threshold, else 0. -/
def Nvme.feature (v : Nvme) (fid sel : Nat) : Nat :=
  match v.features.find? fun x => x.1 == fid + 256 * sel with
  | some x => x.2
  | none =>
    if fid = 4 then (Config.nvmeByte 2 fid 0).toNat + 256 * (Config.nvmeByte 2 fid 1).toNat
    else if fid = 6 then 1
    else if fid = 7 then 63 + 65536 * 63
    else if fid = 9 then sel
    else 0

/-- The vector of a completion queue is sent, or its completions are aggregated (R325: Interrupt
Coalescing does not hold back the admin queue). -/
def Dev.announceCqe (d : Dev) (c : NvmeCq) : Dev :=
  let v := d.nvme
  let f := v.feature 8 0
  let held := c.id != 0 && f % 256 != 0 && f / 256 % 256 != 0 && !(v.feature 9 c.vec).testBit 16
  let put := fun (n : Nat) => d.onNvme fun v =>
    { v with cqs := mapIf (fun (x : NvmeCq) => x.id == c.id) (fun x => { x with unannounced := n }) v.cqs }
  if !c.ien then d
  else if held && decide (c.unannounced + 1 < f % 256 + 1) then put (c.unannounced + 1)
  else (put 0).sendVec true c.vec

/-- Post a completion in its queue, which has room. -/
def Dev.postCqe (d : Dev) (c : NvmeCq) (w : NvmeWait) : Dev :=
  let c' := { c with tail := (c.tail + 1) % c.size, posted := c.posted ++ [⟨w.sq, w.cid, w.status, w.dw0⟩] }
  (d.onNvme fun v => { v with cqs := mapIf (fun (x : NvmeCq) => x.id == c.id) (fun _ => c') v.cqs }).announceCqe c'

/-- The buffer holds an LBA. -/
def Nvme.holds (v : Nvme) (nsid lba : Nat) : Bool := v.buf.any fun b => b.nsid == nsid && b.lba == lba

/-- A completion may be posted, the ones before it in `kept` still waiting. -/
def Nvme.mayPost (v : Nvme) (kept : List NvmeWait) (w : NvmeWait) : Bool :=
  w.after.all (fun x => !v.holds x.1 x.2) &&
    (match w.kind with
     | .delete q => !(kept.any fun k => k.sq == q) && !(v.writeWaits.any fun io => io.sq.val == q)
     | .abort q c => !(kept.any fun k => k.sq == q && k.cid == c)
     | _ => true) &&
    match v.cq? w.cq with
    | some c => decide (c.posted.length + 1 < c.size)
    | none => true

/-- Post every completion that may be posted, in order; one whose queue is gone is dropped. -/
def Dev.settleNvme (d : Dev) : Dev :=
  let r := d.nvme.waits.foldl (fun (x : Dev × List NvmeWait) w =>
    if x.1.nvme.mayPost x.2 w then
      match x.1.nvme.cq? w.cq with
      | some c => (x.1.postCqe c w, x.2)
      | none => x
    else (x.1, x.2 ++ [w])) (d, [])
  r.1.onNvme fun v => { v with waits := r.2 }

/-- The Error Information log takes a failed command (R335: 64 entries). -/
def Nvme.logError (v : Nvme) (sq cid status : Nat) : Nvme :=
  if status = 0 then v
  else
    let n := ((v.errLog.head?.map fun x => x.1).getD 0) + 1
    { v with errLog := ((n, sq, cid, status) :: v.errLog).take 64 }

/-- A command ends: its completion is posted once it may be. -/
def Dev.endCmd (d : Dev) (sq cid status dw0 : Nat) (kind : WaitKind) (after : List (Nat × Nat)) : Dev :=
  match d.nvme.sq? sq with
  | some q =>
    (d.onNvme fun v =>
      { v.logError sq cid status with waits := v.waits ++
          [{ sq := sq, cq := q.cq, cid := cid, status := status, dw0 := dw0, kind := kind, after := after }] }).settleNvme
  | none => d

/-- A command ends at once. -/
def Dev.cmdDone (d : Dev) (sq : Nat) (cid : BitVec 16) (status : Nat) (dw0 : Nat := 0) : Dev :=
  d.endCmd sq cid.toNat status dw0 .other []

/-- Change one submission queue. -/
def Nvme.onSq (v : Nvme) (q : Nat) (f : NvmeSq → NvmeSq) : Nvme :=
  { v with sqs := mapIf (fun (y : NvmeSq) => y.id == q) f v.sqs }

/-- Change one completion queue. -/
def Nvme.onCq (v : Nvme) (q : Nat) (f : NvmeCq → NvmeCq) : Nvme :=
  { v with cqs := mapIf (fun (y : NvmeCq) => y.id == q) f v.cqs }

/-- The next entry of a submission queue is taken: the controller is ready and the queue is not empty. -/
def Dev.takeCmd (d : Dev) (q : Nat) : Option Dev :=
  match d.nvme.sq? q with
  | some x =>
    if d.nvme.rdy && d.host.up && x.head != x.tail then
      some (d.onNvme fun v => v.onSq q fun y => { y with head := (y.head + 1) % y.size })
    else none
  | none => none

/-- Run an admin command. -/
def Dev.admin (d : Dev) (f : Dev → Dev) : Dev :=
  match d.takeCmd 0 with
  | some d => f d
  | none => d

/-! ### Enable and reset (R324, R334) -/

/-- The admin queues, as large as a queue can be: no row gives their sizes (log entry 47). -/
def Nvme.adminQueues (v : Nvme) : Nvme :=
  { v with sqs := [{ id := 0, size := 4096, head := 0, tail := 0, cq := 0, base := 0 }],
           cqs := [{ id := 0, size := 4096, head := 0, tail := 0, vec := 0, ien := true, base := 0, posted := [],
                     unannounced := 0 }] }

/-- CONTROLLER_ENABLE (R324). -/
def execControllerEnable (s : State) : Host.Outcome State Fault Refusal :=
  s.act fun d =>
    if d.nvme.enabled then d
    else d.onNvme fun v =>
      { v.adminQueues with enabled := true, rdy := d.memReady, cfs := d.get F.MEM_TRAIN_STATE == 4 }

/-- Every queue goes without completions; buffered Writes still drain (R334). Features return to their
defaults, as NVMe Base 2.0 has it. -/
def Nvme.stop (v : Nvme) : Nvme :=
  { v with enabled := false, rdy := false, sqs := [], cqs := [], waits := [], writeWaits := [], features := [],
           creating := v.creating.map fun c => { c with cid := none } }

/-- CONTROLLER_RESET (R334). -/
def execControllerReset (s : State) : Host.Outcome State Fault Refusal :=
  s.act fun d => if d.nvme.enabled then d.onNvme Nvme.stop else d

/-- A function's MSI-X table returns to its reset state: every vector masked. -/
def Dev.maskAll (d : Dev) (pf1 : Bool) : Dev :=
  { d with host := { d.host with unmasked := d.host.unmasked.filter fun x => x.1 != pf1,
                                 pending := d.host.pending.filter fun x => x.1 != pf1 } }

/-- PF1_FLR (R334). -/
def execPf1Flr (s : State) : Host.Outcome State Fault Refusal :=
  s.act fun d => (d.onNvme Nvme.stop).maskAll true

/-- NVME_SQ_DOORBELL (R324). -/
def execNvmeSqDoorbell (q : Fin 65) (tail : BitVec 16) (s : State) : Host.Outcome State Fault Refusal :=
  s.act fun d =>
    if !d.nvme.rdy then d
    else d.onNvme fun v => v.onSq q.val fun x => if tail.toNat < x.size then { x with tail := tail.toNat } else x

/-- The consumer has taken the completions up to `head`. -/
def NvmeCq.free (c : NvmeCq) (head : Nat) : NvmeCq :=
  let n := (head + c.size - c.head) % c.size
  if head < c.size ∧ n ≤ c.posted.length then { c with head := head, posted := c.posted.drop n } else c

/-- NVME_CQ_DOORBELL (R324). -/
def execNvmeCqDoorbell (q : Fin 65) (head : BitVec 16) (s : State) : Host.Outcome State Fault Refusal :=
  s.act fun d =>
    if !d.nvme.rdy then d
    else (d.onNvme fun v => v.onCq q.val fun x => x.free head.toNat).settleNvme

/-- INTERRUPT_COALESCING_EXPIRY (R325). -/
def execInterruptCoalescingExpiry (s : State) : Host.Outcome State Fault Refusal :=
  s.act fun d =>
    let due := d.nvme.cqs.filter fun c => c.unannounced != 0
    let d := d.onNvme fun v => { v with cqs := v.cqs.map fun c => { c with unannounced := 0 } }
    due.foldl (fun d c => d.sendVec true c.vec) d

/-! ### Queue commands (R325, R334) -/

/-- Queues of a kind that Number of Queues allows. -/
def Nvme.allowed (v : Nvme) (cq : Bool) : Nat :=
  let f := v.feature 7 0
  (if cq then f / 65536 else f % 65536) + 1

/-- Status of Create I/O CQ: Invalid Field 02h, Invalid Queue Identifier 101h, Invalid Queue Size 102h,
Invalid Interrupt Vector 108h, Invalid PRP Offset 13h. -/
def Nvme.cqStatus (v : Nvme) (q size vec : Nat) (pc : Bool) (base : Nat) : Nat :=
  if !pc then 0x02
  else if q = 0 || v.allowed true < q || (v.cq? q).isSome then 0x101
  else if size = 0 || 4095 < size then 0x102
  else if vec = 0 || 64 < vec then 0x108
  else if base % 4096 ≠ 0 then 0x13
  else 0

/-- CREATE_IO_CQ (R325). -/
def execCreateIoCq (cid q size vec : BitVec 16) (ien pc : Bool) (base : BitVec 64) (s : State) :
    Host.Outcome State Fault Refusal :=
  s.act fun d => d.admin fun d =>
    let st := d.nvme.cqStatus q.toNat size.toNat vec.toNat pc base.toNat
    let c : NvmeCq := { id := q.toNat, size := size.toNat + 1, head := 0, tail := 0, vec := vec.toNat, ien := ien,
                        base := base.toNat, posted := [], unannounced := 0 }
    (if st = 0 then d.onNvme fun v => { v with cqs := v.cqs ++ [c] } else d).cmdDone 0 cid st

/-- Status of Create I/O SQ: Completion Queue Invalid 100h. -/
def Nvme.sqStatus (v : Nvme) (q size cq : Nat) (pc : Bool) (base : Nat) : Nat :=
  if !pc then 0x02
  else if q = 0 || v.allowed false < q || (v.sq? q).isSome then 0x101
  else if size = 0 || 4095 < size then 0x102
  else if cq = 0 || (v.cq? cq).isNone then 0x100
  else if base % 4096 ≠ 0 then 0x13
  else 0

/-- CREATE_IO_SQ (R325). -/
def execCreateIoSq (cid q size cq : BitVec 16) (pc : Bool) (base : BitVec 64) (s : State) :
    Host.Outcome State Fault Refusal :=
  s.act fun d => d.admin fun d =>
    let st := d.nvme.sqStatus q.toNat size.toNat cq.toNat pc base.toNat
    let x : NvmeSq := { id := q.toNat, size := size.toNat + 1, head := 0, tail := 0, cq := cq.toNat, base := base.toNat }
    (if st = 0 then d.onNvme fun v => { v with sqs := v.sqs ++ [x] } else d).cmdDone 0 cid st

/-- A fetched command that has moved no data ends with a status (R333, R334). -/
def Dev.killCmd (d : Dev) (sq cid status : Nat) : Dev :=
  let d := d.onNvme fun v =>
    { v with writeWaits := v.writeWaits.filter fun io => !(io.sq.val == sq && io.cid.toNat == cid),
             waits := v.waits.filter fun w => !(w.kind == .flush && w.sq == sq && w.cid == cid) }
  d.endCmd sq cid status 0 .other []

/-- The commands of a queue that have moved no data. -/
def Nvme.idleCmds (v : Nvme) (q : Nat) : List Nat :=
  ((v.writeWaits.filter fun io => io.sq.val == q).map fun io => io.cid.toNat) ++
    ((v.waits.filter fun w => w.sq == q && w.kind == .flush).map fun w => w.cid)

/-- DELETE_IO_SQ (R334): its commands end first. -/
def execDeleteIoSq (cid q : BitVec 16) (s : State) : Host.Outcome State Fault Refusal :=
  s.act fun d => d.admin fun d =>
    let n := q.toNat
    if n = 0 || (d.nvme.sq? n).isNone then d.cmdDone 0 cid 0x101
    else
      let d := (d.nvme.idleCmds n).foldl (fun d c => d.killCmd n c 0x08) d
      let d := d.onNvme fun v => { v with sqs := v.sqs.filter fun x => x.id != n }
      d.endCmd 0 cid.toNat 0 0 (.delete n) []

/-- DELETE_IO_CQ (R334). -/
def execDeleteIoCq (cid q : BitVec 16) (s : State) : Host.Outcome State Fault Refusal :=
  s.act fun d => d.admin fun d =>
    let n := q.toNat
    if n = 0 || (d.nvme.cq? n).isNone then d.cmdDone 0 cid 0x101
    else if d.nvme.sqs.any fun x => x.cq == n then d.cmdDone 0 cid 0x10C
    else (d.onNvme fun v => { v with cqs := v.cqs.filter fun x => x.id != n }).cmdDone 0 cid 0

/-- Aborts that are outstanding. -/
def Nvme.aborts (v : Nvme) : Nat :=
  (v.waits.filter fun w => match w.kind with
    | .abort _ _ => true
    | _ => false).length

/-- ABORT (R333). -/
def execAbort (cid sqid target : BitVec 16) (s : State) : Host.Outcome State Fault Refusal :=
  s.act fun d => d.admin fun d =>
    let q := sqid.toNat
    if 4 ≤ d.nvme.aborts then d.cmdDone 0 cid 0x103
    else if (d.nvme.idleCmds q).contains target.toNat then
      (d.killCmd q target.toNat 0x07).endCmd 0 cid.toNat 0 0 (.abort q target.toNat) []
    else d.endCmd 0 cid.toNat 0 1 .other []

/-- NVME_INVALID_OPCODE (R325, R326). -/
def execNvmeInvalidOpcode (sq : Fin 65) (cid : BitVec 16) (s : State) : Host.Outcome State Fault Refusal :=
  s.act fun d =>
    match d.takeCmd sq.val with
    | some d => d.cmdDone sq.val cid 0x01
    | none => d

/-! ### Data transfer (R332) -/

/-- The host runs that PRPs name for `n` bytes: the first entry may start inside its page. -/
def prpRuns (prps : List (BitVec 64)) (n : Nat) : List (Nat × Nat) :=
  match prps with
  | [] => if n = 0 then [] else [(0, n)]
  | p :: rest =>
    let off := p.toNat % 4096
    let k := min n (4096 - off)
    (p.toNat, k) :: (if n ≤ k then [] else
      (List.range ((n - k + 4095) / 4096)).map fun i =>
        ((rest.getD i 0).toNat, min 4096 (n - k - 4096 * i)))

/-- Every PRP offset is legal: the first is dword aligned, the others 0. -/
def prpsOk (prps : List (BitVec 64)) (n : Nat) : Bool :=
  match prpRuns prps n with
  | [] => true
  | (a, _) :: rest => a % 4 == 0 && rest.all fun r => r.1 % 4096 == 0

/-- Translation of the runs of a transfer: PF1 requests carry no PASID (R294). -/
def Dev.runsReach (d : Dev) (runs : List (Nat × Nat)) : Xlate :=
  if runs.any fun r => d.xlate 0 r.1 r.2 == .fault then .fault
  else if runs.any fun r => d.xlate 0 r.1 r.2 == .wait then .wait
  else .ok

/-- Page requests for a transfer. -/
def Dev.askPrps (d : Dev) (runs : List (Nat × Nat)) : Dev :=
  runs.foldl (fun d r => d.askPage 0 r.1 r.2 .nvme) d

/-- Write bytes to the host runs. -/
def Dev.storeRuns (d : Dev) (bs : List Byte) : List (Nat × Nat) → Dev
  | [] => d
  | (a, n) :: rest => ((d.cacheXlate 0 a n).hst 0 a (bs.take n)).storeRuns (bs.drop n) rest

/-- Read bytes from the host runs. -/
def Dev.loadRuns (d : Dev) (runs : List (Nat × Nat)) : List Byte := runs.flatMap fun r => d.hld 0 r.1 r.2

/-- An admin command that returns data. -/
def Dev.adminData (d : Dev) (cid : BitVec 16) (prps : List (BitVec 64)) (bs : List Byte) : Dev :=
  let runs := prpRuns prps bs.length
  if !prpsOk prps bs.length then d.admin fun d => d.cmdDone 0 cid 0x13
  else match d.runsReach runs with
    | .wait => d.askPrps runs
    | .fault => d.admin fun d => (d.forgetRuns 0 runs).cmdDone 0 cid 0x04
    | .ok => d.admin fun d => (d.storeRuns bs runs).cmdDone 0 cid 0

/-! ### Namespaces (R327, R337) -/

/-- The namespace exists. -/
def Dev.nsExists (d : Dev) (nsid : Nat) : Bool :=
  decide (1 ≤ nsid ∧ nsid ≤ 256) && d.get F.ING_NS_VALID (nsid - 1) == 1

/-- Its size in LBAs. -/
def Dev.nsLbas (d : Dev) (nsid : Nat) : Nat := d.get F.ING_NS_SIZE_GIB (nsid - 1) * 262144

/-- Its first byte in device memory. -/
def Dev.nsBase (d : Dev) (nsid : Nat) : Nat := d.get F.ING_NS_BASE_GIB (nsid - 1) * 2 ^ 30

/-- Existing namespaces, ascending. -/
def Dev.namespaces (d : Dev) : List Nat := (List.range 257).filter d.nsExists

/-- A namespace of `g` granules from `b` holds granule `x`. -/
def Dev.granuleUsed (d : Dev) (x : Nat) : Bool :=
  d.namespaces.any fun n =>
    let b := d.get F.ING_NS_BASE_GIB (n - 1)
    decide (b ≤ x ∧ x < b + d.get F.ING_NS_SIZE_GIB (n - 1))

/-- The pod that holds `g` granules from `b`. -/
def Dev.podHolding (d : Dev) (b g : Nat) : Option Nat :=
  (List.range 64).find? fun p => d.podState p != 0 && (List.range g).all fun k => d.granuleOf p (b + k)

/-- The lowest-addressed run of `g` free granules within one valid pool range. -/
def Dev.freeRun (d : Dev) (g : Nat) : Option Nat :=
  let starts := (List.range 16).flatMap fun m =>
    if d.get F.ING_POOL_VALID m = 0 then [] else
      let b := d.get F.ING_POOL_BASE_GIB m
      let n := d.get F.ING_POOL_COUNT_GIB m
      ((List.range (n + 1 - g)).map fun k => b + k).filter fun x =>
        ((List.range g).all fun k => !d.granuleUsed (x + k)) && (d.podHolding x g).isSome
  match starts with
  | [] => none
  | x :: rest => some (rest.foldl min x)

/-- The lowest free NSID. -/
def Dev.freeNsid (d : Dev) : Option Nat := (List.range 257).find? fun n => decide (1 ≤ n) && !d.nsExists n

/-- Create a namespace of `g` granules: Invalid Field 02h, Insufficient Capacity 115h, Identifier
Unavailable 116h. -/
def Dev.createNs (d : Dev) (cid : BitVec 16) (g : Nat) : Dev :=
  match d.freeNsid with
  | none => d.cmdDone 0 cid 0x116
  | some n =>
    match d.freeRun g with
    | none => d.cmdDone 0 cid 0x115
    | some b =>
      let d := (d.put F.ING_NS_VALID 1 (n - 1)).put F.ING_NS_POD ((d.podHolding b g).getD 0) (n - 1)
      let d := (d.put F.ING_NS_SIZE_GIB g (n - 1)).put F.ING_NS_BASE_GIB b (n - 1)
      (d.ioZero (b * 2 ^ 30) (g * 2 ^ 30)).onNvme fun v =>
        { v with creating := v.creating ++ [{ nsid := n, cid := some cid.toNat }] }

/-- NAMESPACE_CREATE (R327). -/
def execNamespaceCreate (cid : BitVec 16) (nsze ncap : BitVec 64) (flbas dps nmic : BitVec 8) (s : State) :
    Host.Outcome State Fault Refusal :=
  s.act fun d => d.admin fun d =>
    if flbas != 0 || dps != 0 || nmic != 0 || nsze != ncap || nsze == 0 || nsze.toNat % 262144 != 0 then
      d.cmdDone 0 cid 0x02
    else d.createNs cid (nsze.toNat / 262144)

/-- The namespace is being zeroed. -/
def Nvme.zeroing (v : Nvme) (nsid : Nat) : Bool := v.creating.any fun c => c.nsid == nsid

/-- NAMESPACE_ZEROING_DONE: the create command completes (R327). -/
def execNamespaceZeroingDone (nsid : BitVec 32) (s : State) : Host.Outcome State Fault Refusal :=
  s.act fun d =>
    match d.nvme.creating.find? fun c => c.nsid == nsid.toNat with
    | none => d
    | some c =>
      let d := d.onNvme fun v => { v with creating := v.creating.erase c }
      match c.cid with
      | some cid => d.endCmd 0 cid 0 c.nsid .other []
      | none => d

/-- A namespace is gone, with its buffered Writes. -/
def Dev.dropNs (d : Dev) (nsid : Nat) : Dev :=
  (d.clearReg .ING_NS (nsid - 1)).onNvme fun v =>
    { v with buf := v.buf.filter fun b => b.nsid != nsid, attached := v.attached.filter (· != nsid),
             creating := v.creating.filter fun c => c.nsid != nsid }

/-- The pod of a namespace has runs in progress. -/
def Dev.nsBusy (d : Dev) (nsid : Nat) : Bool := d.runs.any fun r => r.pod == d.get F.ING_NS_POD (nsid - 1)

/-- NAMESPACE_DELETE (R327): Command Sequence Error 0Ch, Invalid Namespace or Format 0Bh; NSID FFFFFFFFh
names every namespace. -/
def execNamespaceDelete (cid : BitVec 16) (nsid : BitVec 32) (s : State) : Host.Outcome State Fault Refusal :=
  s.act fun d => d.admin fun d =>
    let n := nsid.toNat
    let all := if n = 0xFFFFFFFF then d.namespaces else [n]
    if all.any fun x => !d.nsExists x || d.nvme.zeroing x then d.cmdDone 0 cid 0x0B
    else if all.any d.nsBusy then d.cmdDone 0 cid 0x0C
    else (all.foldl Dev.dropNs d).settleNvme.cmdDone 0 cid 0

/-- NAMESPACE_ATTACHMENT (R325): Controller List Invalid 11Ch, Already Attached 118h, Not Attached 11Ah. -/
def execNamespaceAttachment (cid : BitVec 16) (nsid : BitVec 32) (attach : Bool) (ctrl : BitVec 16) (s : State) :
    Host.Outcome State Fault Refusal :=
  s.act fun d => d.admin fun d =>
    let n := nsid.toNat
    let on := d.nvme.attached.contains n
    if !d.nsExists n || d.nvme.zeroing n then d.cmdDone 0 cid 0x0B
    else if ctrl != 1 then d.cmdDone 0 cid 0x11C
    else if attach && on then d.cmdDone 0 cid 0x118
    else if !attach && !on then d.cmdDone 0 cid 0x11A
    else (d.onNvme fun v => { v with attached := if attach then v.attached ++ [n] else v.attached.filter (· != n) }).cmdDone
      0 cid 0

/-- The granules of a pool register's value. -/
def poolHas (v x : Nat) : Bool :=
  bitsOf v 63 1 == 1 && decide (bitsOf v 0 16 ≤ x ∧ x < bitsOf v 0 16 + bitsOf v 32 16)

/-- A namespace's granule would leave the pool. -/
def Dev.poolLoses (d : Dev) (m old new : Nat) : Bool :=
  d.namespaces.any fun n =>
    let b := d.get F.ING_NS_BASE_GIB (n - 1)
    (List.range (d.get F.ING_NS_SIZE_GIB (n - 1))).any fun k =>
      poolHas old (b + k) && !poolHas new (b + k) &&
        !((List.range 16).any fun i => i != m && poolHas (d.rd ⟨.ING_POOL, i, 0⟩) (b + k))

/-- A write to ING_POOLm (R337). -/
def Dev.poolWrite (d : Dev) (m v : Nat) (keepLow : Bool) : Dev :=
  let r : RegRef := ⟨.ING_POOL, m, 0⟩
  let old := d.rd r
  let new := regAfter r.kind.fields old v false keepLow
  let inside := (d.podHolding (bitsOf new 0 16) (bitsOf new 32 16)).isSome
  if (bitsOf new 63 1 = 1 ∧ inside = false) ∨ d.poolLoses m old new = true then d.put F.ING_STATUS_REJECT 1
  else d.wr r new

/-- ING_POOL_WRITE (R337). -/
def execIngPoolWrite (m : Fin 16) (a : RegAccess) (s : State) : Host.Outcome State Fault Refusal :=
  s.act fun d => d.access a ⟨.ING_POOL, m.val, 0⟩ fun d v k => d.poolWrite m.val v k

/-! ### Identify, features and logs (R324, R325, R327, R335) -/

/-- 4,096 bytes of a structure: bytes the spec does not state are open (log entry 6), others replaced. -/
def openBytes (what sel : Nat) (put : List (Nat × List Byte)) (n : Nat) : List Byte :=
  (List.range n).map fun i =>
    match put.find? fun p => decide (p.1 ≤ i ∧ i < p.1 + p.2.length) with
    | some p => p.2.getD (i - p.1) 0
    | none => Config.nvmeByte what sel i

/-- Identify Controller: the fields of R324 at the offsets of NVMe Base 2.0. -/
def idController : List Byte :=
  openBytes 0 1 [(77, leBytes 1 9), (78, leBytes 2 1), (256, leBytes 2 8), (258, leBytes 1 3), (262, leBytes 1 63),
    (516, leBytes 4 256), (520, leBytes 2 8), (525, leBytes 1 7), (526, leBytes 2 511), (528, leBytes 2 0),
    (536, leBytes 4 0)] 4096

/-- Identify Namespace: one format of 4,096 bytes and no metadata, and BASE at 3,072 (R327). -/
def Dev.idNamespace (d : Dev) (nsid : Nat) : List Byte :=
  let n := d.nsLbas nsid
  openBytes 0 0 [(0, leBytes 8 n), (8, leBytes 8 n), (16, leBytes 8 n), (25, leBytes 1 0), (26, leBytes 1 0),
    (128, leBytes 4 (12 * 65536)), (3072, leBytes 8 (d.nsBase nsid))] 4096

/-- A list of namespace identifiers above one, ascending. -/
def nsList (above : Nat) (ns : List Nat) : List Byte :=
  slice (((ns.filter fun n => decide (above < n)).take 1024).flatMap fun n => leBytes 4 n) 0 4096

/-- What Identify returns, or its status. -/
def Dev.identify (d : Dev) (cns nsid : Nat) : Except Nat (List Byte) :=
  let live := fun (n : Nat) => d.nsExists n && !d.nvme.zeroing n
  let named := decide (1 ≤ nsid ∧ nsid ≤ 256)
  let zeros := List.replicate 4096 (0 : Byte)
  if cns = 0x00 then
    if !named then .error 0x0B else .ok (if live nsid && d.nvme.attached.contains nsid then d.idNamespace nsid else zeros)
  else if cns = 0x01 then .ok idController
  else if cns = 0x02 then
    if 0xFFFFFFFE ≤ nsid then .error 0x0B else .ok (nsList nsid (d.namespaces.filter fun n => d.nvme.attached.contains n))
  else if cns = 0x10 then
    if 0xFFFFFFFE ≤ nsid then .error 0x0B else .ok (nsList nsid (d.namespaces.filter live))
  else if cns = 0x11 then if !named then .error 0x0B else .ok (if live nsid then d.idNamespace nsid else zeros)
  else if cns = 0x12 then
    if !named then .error 0x0B
    else .ok (slice (if d.nvme.attached.contains nsid then leBytes 2 1 ++ leBytes 2 1 else []) 0 4096)
  else if cns = 0x13 then .ok (slice (leBytes 2 1 ++ leBytes 2 1) 0 4096)
  else .error 0x02

/-- An admin command that returns data or a status. -/
def Dev.adminAnswer (d : Dev) (cid : BitVec 16) (prps : List (BitVec 64)) (r : Except Nat (List Byte)) : Dev :=
  match r with
  | .ok bs => d.adminData cid prps bs
  | .error st => d.admin fun d => d.cmdDone 0 cid st

/-- A submission queue has an entry for the controller. -/
def Dev.cmdWaits (d : Dev) (q : Nat) : Bool := (d.takeCmd q).isSome

/-- IDENTIFY (R325). -/
def execIdentify (cid : BitVec 16) (cns : BitVec 8) (nsid : BitVec 32) (prps : List (BitVec 64)) (s : State) :
    Host.Outcome State Fault Refusal :=
  s.act fun d => if d.cmdWaits 0 then d.adminAnswer cid prps (d.identify cns.toNat nsid.toNat) else d

/-- The composite temperature in kelvin: the hottest thermal sensor (R335, R450). -/
def Dev.compositeK (d : Dev) : Nat :=
  ((d.shell.readings.filter fun r => decide (1 ≤ r.sensor.toNat ∧ r.sensor.toNat ≤ 40)).foldl
    (fun m r => max m (toSigned 32 r.value.toNat)) 0).toNat + 273

/-- The SMART / Health log (R335). -/
def Dev.smartLog (d : Dev) : List Byte :=
  let v := d.nvme
  let k := d.compositeK
  let hot := decide (v.feature 4 0 % 65536 ≤ k) || decide (k ≤ v.feature 4 1 % 65536 ∧ v.feature 4 1 ≠ 0)
  let units := fun (n : Nat) => leBytes 16 ((n + 999) / 1000)
  let head := leBytes 1 (2 * hot.toNat) ++ leBytes 2 k ++ leBytes 1 100
  slice head 0 32 ++ units v.unitsRead ++ units v.unitsWritten ++ leBytes 16 v.hostReads ++ leBytes 16 v.hostWrites ++
    leBytes 16 0 ++ leBytes 16 d.shell.powerCycle ++ leBytes 16 (v.powerOnHours + d.now / 3600000000000) ++
    leBytes 16 d.shell.powerCycle ++ List.replicate 352 0

/-- The Error Information log (R335): the entry layout is NVMe Base 2.0's. -/
def Dev.errorLog (d : Dev) : List Byte :=
  slice (d.nvme.errLog.flatMap fun e =>
    openBytes 1 e.1 [(0, leBytes 8 e.1), (8, leBytes 2 e.2.1), (10, leBytes 2 e.2.2.1), (12, leBytes 2 (2 * e.2.2.2))] 64)
    0 4096

/-- GET_LOG_PAGE (R335): Invalid Log Page 109h. -/
def execGetLogPage (cid : BitVec 16) (lid : BitVec 8) (bytes : BitVec 16) (prps : List (BitVec 64)) (s : State) :
    Host.Outcome State Fault Refusal :=
  s.act fun d =>
    if !d.cmdWaits 0 then d
    else d.adminAnswer cid prps (
      if lid = 1 then .ok (slice d.errorLog 0 bytes.toNat)
      else if lid = 2 then .ok (slice d.smartLog 0 bytes.toNat)
      else .error 0x109)

/-- The features of R325. -/
def featureOk (fid : Nat) : Bool := [1, 2, 4, 6, 7, 8, 9].contains fid

/-- Status of Set Features: a saved value is Feature Identifier Not Saveable 10Dh; the number of queues
does not change once one exists (Command Sequence Error 0Ch). -/
def Nvme.setStatus (v : Nvme) (fid : Nat) (save : Bool) (dw11 : Nat) : Nat :=
  if !featureOk fid then 0x02
  else if save then 0x10D
  else if fid = 2 && dw11 % 32 != 0 then 0x02
  else if fid = 7 && (dw11 % 65536 == 65535 || dw11 / 65536 == 65535) then 0x02
  else if fid = 7 && decide (1 < v.sqs.length + v.cqs.length - 1) then 0x0C
  else if fid = 9 && decide (64 < dw11 % 65536) then 0x02
  else 0

/-- The value a feature keeps. -/
def featureValue (fid dw11 : Nat) : Nat :=
  if fid = 7 then min (dw11 % 65536) 63 + 65536 * min (dw11 / 65536) 63
  else if fid = 6 then dw11 % 2
  else if fid = 8 then dw11 % 65536
  else if fid = 9 then dw11 % 131072
  else dw11

/-- Which of a feature's values a dword names: the vector, or the over or under threshold of the
composite temperature. -/
def featureSel (fid dw11 : Nat) : Nat :=
  if fid = 9 then dw11 % 65536
  else if fid = 4 then (if bitsOf dw11 16 4 = 0 then bitsOf dw11 20 2 else 16 + bitsOf dw11 16 6)
  else 0

/-- SET_FEATURES (R325). -/
def execSetFeatures (cid : BitVec 16) (fid : BitVec 8) (save : Bool) (dw11 : BitVec 32) (s : State) :
    Host.Outcome State Fault Refusal :=
  s.act fun d => d.admin fun d =>
    let f := fid.toNat
    let st := d.nvme.setStatus f save dw11.toNat
    let x := featureValue f dw11.toNat
    let key := f + 256 * featureSel f dw11.toNat
    if st ≠ 0 then d.cmdDone 0 cid st
    else (d.onNvme fun v => { v with features := upsert (fun y => y.1 == key) (key, x) v.features }).cmdDone 0 cid 0
      (if f = 7 then x else 0)

/-- GET_FEATURES (R325). -/
def execGetFeatures (cid : BitVec 16) (fid : BitVec 8) (s : State) : Host.Outcome State Fault Refusal :=
  s.act fun d => d.admin fun d =>
    if featureOk fid.toNat then d.cmdDone 0 cid 0 (d.nvme.feature fid.toNat 0) else d.cmdDone 0 cid 0x02

/-! ### I/O (R326, R329 to R332) -/

/-- Bytes of a command. -/
def ioBytes (io : NvmeIo) : Nat := (io.nlb.toNat + 1) * 4096

/-- The LBAs a command names. -/
def ioLbas (io : NvmeIo) : List (Nat × Nat) :=
  (List.range (io.nlb.toNat + 1)).map fun i => (io.nsid.toNat, io.slba.toNat + i)

/-- The namespace is attached. -/
def Dev.nsActive (d : Dev) (nsid : Nat) : Bool := d.nsExists nsid && d.nvme.attached.contains nsid

/-- Status of the checks of an I/O command: Invalid Namespace 0Bh, Invalid Field 02h, LBA Out of Range
80h, Invalid PRP Offset 13h. `moves`: it transfers data. -/
def Dev.ioStatus (d : Dev) (io : NvmeIo) (moves : Bool) : Nat :=
  if !d.nsActive io.nsid.toNat then 0x0B
  else if io.prinfo != 0 || (moves && decide (512 < io.nlb.toNat + 1)) then 0x02
  else if d.nsLbas io.nsid.toNat < io.slba.toNat + io.nlb.toNat + 1 then 0x80
  else if moves && !prpsOk io.prps (ioBytes io) then 0x13
  else 0

/-- What the host gives a command's transfer: a translation that fails, poisoned data and a completion timeout are
one failure (R332). -/
def Dev.ioReach (d : Dev) (io : NvmeIo) : Xlate :=
  let r := d.runsReach (prpRuns io.prps (ioBytes io))
  if r = .ok ∧ io.hostFail = true then .fault else r

/-- The command's LBAs that need new entries of the buffer. -/
def Nvme.newEntries (v : Nvme) (io : NvmeIo) : Nat := ((ioLbas io).filter fun x => !v.holds x.1 x.2).length

/-- The buffer has room for a Write. -/
def Nvme.roomFor (v : Nvme) (io : NvmeIo) : Bool := decide (v.buf.length + v.newEntries io ≤ 4096)

/-- A Write's bytes enter the buffer, and it completes; with FUA, or the write cache off, once they are
visible (R326, R329). -/
def Dev.placeWrite (d : Dev) (io : NvmeIo) (bs : List Byte) : Dev :=
  let ls := ioLbas io
  let new := ls.zipIdx.map fun x =>
    ({ nsid := x.1.1, lba := x.1.2, bytes := slice bs (4096 * x.2) 4096, drained := 0 } : BufLba)
  let d := d.onNvme fun v =>
    { v with buf := (v.buf.filter fun b => !ls.contains (b.nsid, b.lba)) ++ new,
             unitsWritten := v.unitsWritten + 8 * ls.length, hostWrites := v.hostWrites + 1 }
  (d.count .ING_WR_BYTES (ioBytes io)).endCmd io.sq.val io.cid.toNat 0 0 .write
    (if io.fua || d.nvme.feature 6 0 == 0 then ls else [])

/-- Fetch a Write's data and place it, when its host pages can be reached. -/
def Dev.runWrite (d : Dev) (io : NvmeIo) : Option Dev :=
  let runs := prpRuns io.prps (ioBytes io)
  match d.ioReach io with
  | .wait => none
  | .fault => some ((d.forgetRuns 0 runs).cmdDone io.sq.val io.cid 0x04)
  | .ok => some ((d.cacheRuns 0 runs).placeWrite io (d.loadRuns runs))

/-- Place the Writes that wait for room, in order. -/
def Dev.placeWaiting (d : Dev) : Nat → Dev
  | 0 => d
  | fuel + 1 =>
    match d.nvme.writeWaits with
    | [] => d
    | io :: rest =>
      if !d.nvme.roomFor io then d
      else match (d.onNvme fun v => { v with writeWaits := rest }).runWrite io with
        | some d' => d'.placeWaiting fuel
        | none => d.askPrps (prpRuns io.prps (ioBytes io))

/-- WRITE (R329). -/
def execWrite (io : NvmeIo) (s : State) : Host.Outcome State Fault Refusal :=
  s.act fun d =>
    if io.sq = 0 then d
    else match d.takeCmd io.sq.val with
      | none => d
      | some t =>
        let st := d.ioStatus io true
        if st ≠ 0 then t.cmdDone io.sq.val io.cid st
        else if !d.nvme.writeWaits.isEmpty || !d.nvme.roomFor io then
          t.onNvme fun v => { v with writeWaits := v.writeWaits ++ [io] }
        else (t.runWrite io).getD (d.askPrps (prpRuns io.prps (ioBytes io)))

/-- An LBA as a Read sees it: its bytes, whether the buffer held it, and whether a line is poisoned. -/
def Dev.readLba (d : Dev) (nsid lba : Nat) : List Byte × Bool × Bool :=
  let a := d.nsBase nsid + 4096 * lba
  match d.nvme.buf.find? fun b => b.nsid == nsid && b.lba == lba with
  | some b => (b.bytes, true, false)
  | none => (d.ld a 4096, false, d.poisonIn a 4096 != .clean)

/-- A Read's LBAs that are not in the buffer are read at their homes, where an uncorrectable line is found (R265,
R330). -/
def Dev.askLbas (d : Dev) (io : NvmeIo) : Dev :=
  (ioLbas io).foldl (fun (d : Dev) x =>
    if d.nvme.holds x.1 x.2 then d else d.ioRead (d.nsBase x.1 + 4096 * x.2) 4096) d

/-- Transfer the LBAs of a Read up to the first poisoned one (R330). -/
def Dev.runRead (d : Dev) (io : NvmeIo) : Dev :=
  let d := d.askLbas io
  let ls := (ioLbas io).map fun x => (x, d.readLba x.1 x.2)
  let good := ls.takeWhile fun x => !x.2.2.2
  let d := d.storeRuns (good.flatMap fun x => x.2.1) (prpRuns io.prps (4096 * good.length))
  let d := (d.count .ING_RD_BYTES (4096 * good.length)).count .ING_BUF_HITS (good.filter fun x => x.2.2.1).length
  let d := d.onNvme fun v => { v with unitsRead := v.unitsRead + 8 * good.length, hostReads := v.hostReads + 1 }
  d.cmdDone io.sq.val io.cid (if good.length = ls.length then 0 else 0x281)

/-- READ (R330). -/
def execRead (io : NvmeIo) (s : State) : Host.Outcome State Fault Refusal :=
  s.act fun d =>
    if io.sq = 0 then d
    else match d.takeCmd io.sq.val with
      | none => d
      | some t =>
        let st := d.ioStatus io true
        let runs := prpRuns io.prps (ioBytes io)
        if st ≠ 0 then t.cmdDone io.sq.val io.cid st
        else match d.ioReach io with
          | .wait => d.askPrps runs
          | .fault => (t.forgetRuns 0 runs).cmdDone io.sq.val io.cid 0x04
          | .ok => t.runRead io

/-- FLUSH (R331). -/
def execFlush (sq : Fin 65) (cid : BitVec 16) (nsid : BitVec 32) (s : State) : Host.Outcome State Fault Refusal :=
  s.act fun d =>
    if sq = 0 then d
    else match d.takeCmd sq.val with
      | none => d
      | some d =>
        let n := nsid.toNat
        if n ≠ 0xFFFFFFFF && !d.nsActive n then d.cmdDone sq.val cid 0x0B
        else
          let ls := (d.nvme.buf.filter fun b => n == 0xFFFFFFFF || b.nsid == n).map fun b => (b.nsid, b.lba)
          d.endCmd sq.val cid.toNat 0 0 .flush ls

/-- WRITE_ZEROES (R332). -/
def execWriteZeroes (io : NvmeIo) (s : State) : Host.Outcome State Fault Refusal :=
  s.act fun d =>
    if io.sq = 0 then d
    else match d.takeCmd io.sq.val with
      | none => d
      | some d =>
        let st := d.ioStatus io false
        if st ≠ 0 then d.cmdDone io.sq.val io.cid st
        else
          let lo := io.slba.toNat
          let n := io.nlb.toNat + 1
          let d := d.ioZero (d.nsBase io.nsid.toNat + 4096 * lo) (4096 * n)
          let d := d.onNvme fun v =>
            { v with buf := v.buf.filter fun b => !(b.nsid == io.nsid.toNat && decide (lo ≤ b.lba ∧ b.lba < lo + n)) }
          (d.cmdDone io.sq.val io.cid 0).settleNvme.placeWaiting (d.nvme.writeWaits.length + 1)

/-- WRITE_BUFFER_DRAIN: the oldest entry's next line is written (R329). -/
def execWriteBufferDrain (s : State) : Host.Outcome State Fault Refusal :=
  s.act fun d =>
    match d.nvme.buf with
    | [] => d
    | b :: rest =>
      let d := d.ioStore (d.nsBase b.nsid + 4096 * b.lba + 64 * b.drained) (slice b.bytes (64 * b.drained) 64)
      if b.drained + 1 < 64 then d.onNvme fun v => { v with buf := { b with drained := b.drained + 1 } :: rest }
      else ((d.onNvme fun v => { v with buf := rest }).settleNvme).placeWaiting (d.nvme.writeWaits.length + 1)

end Sys2Proof.Machine
end

