-- ==== Sys2Proof/Machine/Pods.lean ====
section
/-! DEFINITION. Pods (R339 to R352): creation and its checks, destruction, pod reset and the PF0 FLR,
quiesce and resume, saving and restoring state, and the dirty-page log's buffers. -/

namespace Sys2Proof.Machine

/-! ### Commands and states (R342, R343) -/

/-- A pod enters a state. -/
def Dev.podEnter (d : Dev) (p st : Nat) : Dev := d.put F.POD_STATUS_STATE st p

/-- REASON of a pod. -/
def Dev.podReason (d : Dev) (p r : Nat) : Dev := d.put F.POD_STATUS_REASON r p

/-- A command is accepted: REASON is NONE and SAVE_DONE clears. -/
def Dev.podAccept (d : Dev) (p : Nat) : Dev := (d.podReason p 0).put F.POD_STATUS_SAVE_DONE 0 p

/-- A command not accepted in this state. -/
def Dev.podWrongState (d : Dev) (p : Nat) : Dev := d.podReason p 1

/-- Pods not FREE, but for one. -/
def Dev.otherPods (d : Dev) (p : Nat) : List Nat := (List.range 64).filter fun q => q != p && d.podState q != 0

/-! ### CREATE (R339, R343) -/

/-- Granules of range `j` of a pod, as base and count; `none` when it is not valid. -/
def Dev.podRange (d : Dev) (p j : Nat) : Option (Nat × Nat) :=
  if d.get F.POD_DDR_VALID p j = 1 then some (d.get F.POD_DDR_BASE_GIB p j, d.get F.POD_DDR_COUNT_GIB p j) else none

/-- The pod's valid ranges. -/
def Dev.podRanges (d : Dev) (p : Nat) : List (Nat × Nat) := (List.range 8).filterMap fun j => d.podRange p j

/-- Two runs of granules or vectors share one. -/
def runsMeet (x y : Nat × Nat) : Bool := decide (0 < x.2 ∧ 0 < y.2 ∧ x.1 < y.1 + y.2 ∧ y.1 < x.1 + x.2)

/-- No two of the runs meet. -/
def allApart : List (Nat × Nat) → Bool
  | [] => true
  | x :: xs => xs.all (fun y => !runsMeet x y) && allApart xs

/-- The DDR check. -/
def Dev.podDdrOk (d : Dev) (p : Nat) : Bool :=
  let rs := d.podRanges p
  rs.all (fun r => decide (1 ≤ r.2 ∧ r.1 + r.2 ≤ d.get F.MEM_CFG_CAP_GIB)) && allApart rs &&
    (d.otherPods p).all fun q => (d.podRanges q).all fun y => rs.all fun x => !runsMeet x y

/-- The sum of a share over this pod and every pod not FREE. -/
def Dev.shareSum (d : Dev) (p : Nat) (f : Fld) : Nat := ((p :: d.otherPods p).map fun q => d.get f q).foldl (· + ·) 0

/-- The vectors of a pod. -/
def Dev.podVecs (d : Dev) (p : Nat) : Nat × Nat := (d.get F.POD_SHARES_VEC_BASE p, d.get F.POD_SHARES_VEC_COUNT p)

/-- The vector check. -/
def Dev.podVecsOk (d : Dev) (p : Nat) : Bool :=
  let v := d.podVecs p
  decide (v.1 + v.2 ≤ 2048) && (d.otherPods p).all fun q => !runsMeet v (d.podVecs q)

/-- The cache-way and ring check. -/
def Dev.podOwnersOk (d : Dev) (p : Nat) : Bool :=
  ((List.range 8).all fun c => (d.otherPods p).all fun q =>
    d.get F.CCH_POD_WAYS_WAYS c p &&& d.get F.CCH_POD_WAYS_WAYS c q == 0) &&
    decide ((d.podRings p).length ≤ 16)

/-- REASON of the first check of CREATE that fails, 0 when all pass. -/
def Dev.createReason (d : Dev) (p : Nat) : Nat :=
  let pasid := d.get F.POD_PASID_PASID p
  let mask := d.get F.POD_TILES_MASK p
  let others := d.otherPods p
  if pasid = 0 || others.any (fun q => d.get F.POD_PASID_PASID q == pasid) then 2
  else if mask = 0 || others.any (fun q => d.get F.POD_TILES_MASK q &&& mask != 0) then 3
  else if !d.podDdrOk p then 4
  else if 16384 < d.shareSum p F.POD_SHARES_JDR_B || 32768 < d.shareSum p F.POD_SHARES_RDR_Q then 5
  else if !d.podVecsOk p then 6
  else if !d.podOwnersOk p then 7
  else 0

/-- Zeroing of tile stores begins (R224). -/
def Dev.zeroTiles (d : Dev) (ts : List Nat) : Dev := ts.foldl (fun d t => d.put F.TIL_TS_SCRUB_ZEROING 1 t) d

/-- Every region of a pod is EMPTY, and its buckets and positions are clear. -/
def Dev.emptyRegions (d : Dev) (p : Nat) : Dev :=
  let d := (List.range 16).foldl (fun d g =>
    let d := (d.resetReg .JDR_POD_RGN_STATE p g).resetReg .JDR_POD_RGN_ROWS p g
    let d := (d.resetReg .JDR_POD_RGN_ENTRIES p g).resetReg .JDR_POD_RGN_SPILLED p g
    d.resetReg .RDR_POD_RGN_STATE p g) d
  { d with jents := d.jents.filter fun e => e.pod != p, jrgns := d.jrgns.filter fun r => r.pod != p,
           rrgns := d.rrgns.filter fun r => r.pod != p }

/-- A pod reset or PF0 FLR clears a pod's regions: their registers take their reset values, and a region that
was not EMPTY passes through CLEARING (R171, R181, R216, R218). -/
def Dev.clearRegions (d : Dev) (p : Nat) : Dev :=
  (List.range 16).foldl (fun x g =>
    let x := x.resetReg .RDR_POD_RGN_CFG p g
    let x := if d.jstate p g = 0 then x else x.setJstate p g 1
    if d.rstate p g = 0 then x else x.put F.RDR_POD_RGN_STATE_STATE 1 p g) (d.emptyRegions p)

/-- The clears that a pod's step began have ended: their regions are EMPTY (R343, R345). -/
def Dev.clearsDone (d : Dev) (p : Nat) : Dev :=
  (List.range 16).foldl (fun d g => (d.sweepDone p g).rclearDone p g) d

/-- CREATE of a FREE pod. -/
def Dev.podCreate (d : Dev) (p : Nat) : Dev :=
  let why := d.createReason p
  if why ≠ 0 then d.podReason p why
  else
    let d := (d.podAccept p).podEnter p 1
    let d := d.zeroTiles ((d.podTiles p).filter fun t => !d.lastPod.contains (t, p))
    let pasid := d.get F.POD_PASID_PASID p
    let d := d.clearRegions p
    { d with host := { d.host with ats := d.host.ats.filter fun x => x.1 != pasid } }

/-- CREATE written to CMD. -/
def Dev.cmdCreate (d : Dev) (p : Nat) : Dev :=
  if d.podState p = 0 then d.podCreate p else d.podWrongState p

/-- POD_CREATE (R342, R343). -/
def execPodCreate (p : Fin 64) (s : State) : Host.Outcome State Fault Refusal := s.act fun d => d.cmdCreate p.val

/-! ### Reset (R345) -/

/-- The pod's error registers return to their reset values (R484). -/
def Dev.resetPodErrors (d : Dev) (p : Nat) : Dev :=
  let d := (d.resetReg .ERR_POD_RING_BASE p).resetReg .ERR_POD_RING_CFG p
  let d := (d.resetReg .ERR_POD_RING_PTR p).resetReg .ERR_POD_STATUS p
  let host := { d.host with holdoff := d.host.holdoff.filter fun h => h.1 != 1025 + p }
  ({ d with host := host }).clearLost (some p)

/-- What every reset of a pod does but for the zeroing of its tile stores. -/
def Dev.resetPod (d : Dev) (p : Nat) : Dev :=
  let d := (d.runs.filter fun r => r.pod == p).foldl Dev.dropRun d
  let d := (d.podChans p).foldl Dev.resetChan ((d.podRings p).foldl Dev.resetRing d)
  let d := { d.clearRegions p with pgc := d.pgc.filter fun e => e.pod != p }
  ((d.endPodThreads p).resetPodErrors p).put F.POD_STATUS_SAVE_NEED_MIB 0 p

/-- A pod reset begins. -/
def Dev.podReset (d : Dev) (p : Nat) : Dev :=
  let d := (d.resetPod p).podEnter p 7
  d.zeroTiles (d.podTiles p)

/-- RESET written to CMD. -/
def Dev.cmdReset (d : Dev) (p : Nat) : Dev :=
  if 2 ≤ d.podState p ∧ d.podState p ≤ 6 then (d.podAccept p).podReset p
  else d.podWrongState p

/-- POD_RESET (R342, R345). -/
def execPodReset (p : Fin 64) (s : State) : Host.Outcome State Fault Refusal := s.act fun d => d.cmdReset p.val

/-! ### DESTROY (R344) -/

/-- Destruction begins: the reset, the namespaces, and the zeroing of granules and tile stores. -/
def Dev.podDestroy (d : Dev) (p : Nat) : Dev :=
  let d := (d.resetPod p).podEnter p 8
  let d := ((d.namespaces.filter fun n => d.get F.ING_NS_POD (n - 1) == p).foldl Dev.dropNs d).settleNvme
  let d := (d.podRanges p).foldl (fun d r => d.ioZero (r.1 * 2 ^ 30) (r.2 * 2 ^ 30)) d
  d.zeroTiles (d.podTiles p)

/-- A step of the pod is still under way: a tile's zeroing, or a mailbox command (R403). -/
def Dev.podBusy (d : Dev) (p : Nat) : Bool :=
  ((d.podTiles p).any fun t => d.get F.TIL_TS_SCRUB_ZEROING t == 1) || d.get F.CTL_MBX_CTRL_BUSY p == 1

/-- What waits for the end of a step: 2 DESTROY, 3 the reset of a PF0 FLR. -/
def Dev.podPending (d : Dev) (p what : Nat) : Bool := d.podPend.contains (p, what)

/-- Something waits for the end of the pod's step. -/
def Dev.podLater (d : Dev) (p what : Nat) : Dev :=
  if d.podPending p what then d else { d with podPend := (p, what) :: d.podPend }

/-- Nothing waits any more. -/
def Dev.podNow (d : Dev) (p : Nat) : Dev := { d with podPend := d.podPend.filter fun x => x.1 != p }

/-- A creation or a reset ends: what waited begins, or the pod is ACTIVE. -/
def Dev.podStepEnds (d : Dev) (p : Nat) : Dev :=
  let d := d.clearsDone p
  if d.podPending p 2 then (d.podNow p).podDestroy p
  else if d.podPending p 3 then (d.podNow p).podReset p
  else d.podEnter p 2

/-- POD_CREATE_DONE (R343). -/
def execPodCreateDone (p : Fin 64) (s : State) : Host.Outcome State Fault Refusal :=
  s.act fun d => if d.podState p.val = 1 ∧ d.podBusy p.val = false then d.podStepEnds p.val else d

/-- POD_RESET_DONE (R345, R403). -/
def execPodResetDone (p : Fin 64) (s : State) : Host.Outcome State Fault Refusal :=
  s.act fun d => if d.podState p.val = 7 ∧ d.podBusy p.val = false then d.podStepEnds p.val else d

/-- DESTROY written to CMD. -/
def Dev.cmdDestroy (d : Dev) (p : Nat) : Dev :=
  let st := d.podState p
  if st = 0 ∨ st = 8 then d.podWrongState p
  else if st = 1 ∨ st = 7 then (d.podAccept p).podLater p 2
  else (d.podAccept p).podDestroy p

/-- POD_DESTROY (R342): during CREATING or RESETTING it waits for the end of the step. -/
def execPodDestroy (p : Fin 64) (s : State) : Host.Outcome State Fault Refusal := s.act fun d => d.cmdDestroy p.val

/-- The pod is FREE: its rings, channels, ways and programs are given back. -/
def Dev.podFree (d : Dev) (p : Nat) : Dev :=
  let d := d.clearsDone p
  let d := (d.podRings p).foldl (fun d n => d.put F.RNG_OWNER_ASSIGNED 0 n) d
  let d := (d.podChans p).foldl (fun d n => d.put F.DMA_CH_OWNER_ASSIGNED 0 n) d
  let d := (List.range 8).foldl (fun d c => d.resetReg .CCH_POD_WAYS c p) d
  let tiles := d.podTiles p
  let d := { d with progs := d.progs.filter fun x => x.pod != p, pgc := d.pgc.filter fun e => e.pod != p,
                    lastPod := d.lastPod.filter fun x => !tiles.contains x.1 }
  (d.podNow p).podEnter p 0

/-- POD_DESTROY_DONE (R344). -/
def execPodDestroyDone (p : Fin 64) (s : State) : Host.Outcome State Fault Refusal :=
  s.act fun d => if d.podState p.val = 8 ∧ d.podBusy p.val = false then d.podFree p.val else d

/-- A PF0 FLR meets a pod (R345). -/
def Dev.podFlr (d : Dev) (p : Nat) : Dev :=
  match d.podState p with
  | 0 => d
  | 1 => d.podLater p 3
  | 7 => d
  | 8 => d
  | _ => d.podReset p

/-- PF0_FLR (R345); PF0's MSI-X table returns to its reset state. -/
def execPf0Flr (s : State) : Host.Outcome State Fault Refusal :=
  s.act fun d => ((List.range 64).foldl Dev.podFlr d).maskAll false

/-! ### Self-test of a pod's tiles (R347, R466, R467) -/

/-- A claim that waits on a tile of a pod that quiesces is abandoned (R467). -/
def Dev.abandonClaims (d : Dev) (p : Nat) : Dev :=
  let mine := fun (x : TileTest) => d.podTile p x.tile && !x.testing && !x.retest
  { d with errs := { d.errs with
      tests := mapIf mine (fun x => { x with claimed := false, immediate := false }) d.errs.tests,
      waitTests := d.errs.waitTests.filter fun t => !mine (d.tileTest t) } }

/-! ### Quiesce and resume (R346, R347) -/

/-- QUIESCE written to CMD. -/
def Dev.cmdQuiesce (d : Dev) (p : Nat) : Dev :=
  if d.podState p = 2 then (((d.podAccept p).podEnter p 3).haltPodThreads p).abandonClaims p
  else d.podWrongState p

/-- POD_QUIESCE (R346). -/
def execPodQuiesce (p : Fin 64) (s : State) : Host.Outcome State Fault Refusal := s.act fun d => d.cmdQuiesce p.val

/-- A pipeline instance is at rest. -/
def Inst.atRest (i : Inst) : Bool := i.life != .running && i.life != .migrating

/-- A descriptor's compression job that still waits counts as at rest, since queued jobs of the pod wait. -/
def Dev.curAtRest (d : Dev) (c : DmaCur) : Bool := c.st == .job && d.dmaJobs.any fun j => j.chan == c.chan

/-- Everything of the pod is at rest. -/
def Dev.podAtRest (d : Dev) (p : Nat) : Bool :=
  (d.insts.all fun i => i.pod != p || i.atRest) &&
    (d.dmas.all fun c => !(d.podChans p).contains c.chan || d.curAtRest c) &&
    d.engJobs.all fun x => x.job.pod != p

/-- The pod's dirty lines of host memory are written back as CLEAN_LINE does. -/
def Dev.cleanHostLines (d : Dev) (p : Nat) : Dev :=
  (d.lines.filter fun l => decide (l.agent < 8) && l.st == .m && d.homeAgent l.addr == some 16 &&
      (d.get F.CCH_POD_WAYS_WAYS l.agent p).testBit l.way).foldl (fun d l =>
    (d.writeBack l.agent l.addr (d.anyRead l.addr 64) l.poison).setLine { l with st := .e, stale := none }) d

/-- SAVE_NEED_MIB (R348). -/
def Dev.saveNeed (d : Dev) (p : Nat) : Nat :=
  let bytes := 65536 + 4225 * 1024 * (d.podTiles p).length + 2048 * d.get F.POD_SHARES_JDR_B p +
    40 * d.get F.POD_SHARES_RDR_Q p
  (bytes + 2 ^ 20 - 1) / 2 ^ 20

/-- POD_QUIESCED (R346). -/
def execPodQuiesced (p : Fin 64) (s : State) : Host.Outcome State Fault Refusal :=
  s.act fun d =>
    if d.podState p.val = 3 ∧ d.podAtRest p.val = true then
      ((d.cleanHostLines p.val).put F.POD_STATUS_SAVE_NEED_MIB (d.saveNeed p.val) p.val).podEnter p.val 4
    else d

/-- RESUME written to CMD. -/
def Dev.cmdResume (d : Dev) (p : Nat) : Dev :=
  if d.podState p ≠ 4 then d.podWrongState p
  else
    let d := ((d.podAccept p).put F.POD_STATUS_SAVE_NEED_MIB 0 p).podEnter p 2
    let d := (d.insts.filter fun i => i.pod == p && i.life == .quiesced).foldl (fun d i => d.setLife i .running) d
    let d := (d.podTiles p).foldl (fun d t =>
      if d.tileFenced t || d.get F.ERR_ST_CTRL_EN == 0 then d else d.wantTest t) d
    ((d.podRings p).foldl Dev.settleRing d).schedule

/-- POD_RESUME (R347). -/
def execPodResume (p : Fin 64) (s : State) : Host.Outcome State Fault Refusal := s.act fun d => d.cmdResume p.val

/-! ### Saving (R348) -/

/-- The registers an image holds, in order; those of rings and channels in the pod's order. -/
def Dev.imageRegs (d : Dev) (p : Nat) : List RegRef :=
  let ring := [RegKind.RNG_BASE, .RNG_CFG, .RNG_DB, .RNG_HEAD, .RNG_STATUS, .RNG_DONE]
  let chan := [RegKind.DMA_CH_RING, .DMA_CH_CFG, .DMA_CH_TAIL, .DMA_CH_HEAD, .DMA_CH_STATUS, .DMA_CH_BYTES]
  let jdr := [RegKind.JDR_POD_RGN_STATE, .JDR_POD_RGN_ROWS, .JDR_POD_RGN_ENTRIES, .JDR_POD_RGN_SPILLED,
    .RDR_POD_RGN_CFG, .RDR_POD_RGN_STATE]
  ((d.podRings p).flatMap fun n => ring.map fun k => (⟨k, n, 0⟩ : RegRef)) ++
    ((d.podChans p).flatMap fun n => chan.map fun k => (⟨k, n, 0⟩ : RegRef)) ++
    ((List.range 16).flatMap fun g => jdr.map fun k => (⟨k, p, g⟩ : RegRef)) ++
    (List.range 8).map fun c => (⟨.CCH_STASH_POD, c, p⟩ : RegRef)

/-- The content of an image of pod `p` under content code `c` with a header. -/
def Dev.takeImage (d : Dev) (p c : Nat) (header : List Byte) : PodImage :=
  let tiles := d.podTiles p
  let mine := (d.threads.filter fun t => !t.priv && t.pod == p).map fun t => t.slot
  { code := c, header := header, pod := p, tiles := tiles, rings := d.podRings p, chans := d.podChans p,
    insts := d.insts.filter fun i => i.pod == p, slots := d.slots.filter fun x => x.pod == p,
    sels := d.sels.filter fun x => tiles.contains x.1, jents := d.jents.filter fun e => e.pod == p,
    jrgns := d.jrgns.filter fun r => r.pod == p, rrgns := d.rrgns.filter fun r => r.pod == p,
    runs := d.runs.filter fun r => r.pod == p, pushed := d.pushed.filter fun x => (d.podRings p).contains x.1,
    progs := d.progs.filter fun x => x.pod == p, threads := d.threads.filter fun t => !t.priv && t.pod == p,
    ready := d.ready.filter mine.contains, locks := d.locks.filter fun l => l.bound && l.pod == p,
    regs := (d.imageRegs p).map fun r => BitVec.ofNat 64 (d.rd r),
    stageJobs := d.stageJobs.filter fun j => j.pod == p, dmaJobs := d.dmaJobs.filter fun j => j.pod == p,
    jobResults := d.jobResults.filter fun x => tiles.contains x.tile,
    xrecvs := d.xrecvs.filter fun x => tiles.contains x.tile,
    dmas := d.dmas.filter fun c => (d.podChans p).contains c.chan }

/-- The shape of a pod as its image's header gives it: bytes 0x06 to 0x2F (log entry 49 for DDR). -/
def Dev.podShape (d : Dev) (p : Nat) : List Byte :=
  leBytes 1 (d.podTiles p).length ++ leBytes 1 (d.podRings p).length ++ leBytes 2 (d.get F.POD_SHARES_JDR_B p) ++
    leBytes 2 (d.get F.POD_SHARES_RDR_Q p) ++ leBytes 2 (d.get F.POD_SHARES_VEC_COUNT p) ++
    leBytes 1 (d.podChans p).length ++ leBytes 1 0 ++
    (List.range 8).flatMap fun j =>
      match d.podRange p j with
      | some r => leBytes 2 r.1 ++ leBytes 2 r.2
      | none => leBytes 4 0

/-- The header with a CRC. -/
def Dev.imageHeader (d : Dev) (p magic len crc : Nat) : List Byte :=
  leBytes 4 magic ++ leBytes 1 1 ++ leBytes 1 (d.get F.CTL_DEVICE_ID_STEPPING) ++ d.podShape p ++ leBytes 8 len ++
    leBytes 4 crc ++ leBytes 4 0

/-- Where the pod's image lies: host memory without PASID, or device memory. -/
def Dev.saveHost (d : Dev) (p : Nat) : Bool := d.get F.POD_SAVE_ADDR_HOST p == 1

/-- Its address. -/
def Dev.saveAddr (d : Dev) (p : Nat) : Nat := d.get F.POD_SAVE_ADDR_ADDR p * 4096

/-- Write image bytes. -/
def Dev.imageStore (d : Dev) (p off : Nat) (bs : List Byte) : Dev :=
  if d.saveHost p then d.hst 0 (d.saveAddr p + off) bs else d.ioStore (d.saveAddr p + off) bs

/-- The `n` bytes from `off` of the image space can be reached. -/
def Dev.imageReach (d : Dev) (p off n : Nat) : Xlate :=
  if d.saveHost p then d.xlate 0 (d.saveAddr p + off) n
  else if d.poisonIn (d.saveAddr p + off) n = .clean then .ok else .fault

/-- The image space lies where an image may lie. -/
def Dev.imageAddrOk (d : Dev) (p n : Nat) : Bool := d.saveHost p || d.inNoPod (d.saveAddr p) n

/-- SAVE written to CMD. -/
def Dev.cmdSave (d : Dev) (p : Nat) : Dev :=
  let need := d.get F.POD_STATUS_SAVE_NEED_MIB p
  if d.podState p ≠ 4 then d.podWrongState p
  else if d.get F.POD_SAVE_LEN_LEN_MIB p < need then d.podReason p 0x0C
  else if d.runs.any fun r => r.pod == p && (r.image.map fun m => m.span).getD false then d.podReason p 0x0B
  else if !d.imageAddrOk p (need * 2 ^ 20) then d.podReason p 0x09
  else ((d.podAccept p).podEnter p 5).imageStore p 0 (leBytes 4 0)

/-- POD_SAVE (R342, R348). -/
def execPodSave (p : Fin 64) (s : State) : Host.Outcome State Fault Refusal := s.act fun d => d.cmdSave p.val

/-- Write the image: its body, then its header. -/
def Dev.writeImage (d : Dev) (p : Nat) : Dev :=
  let len := d.saveNeed p * 2 ^ 20
  let c := d.fresh
  let body := (List.range (len - 64)).map fun i => Config.imageByte c (64 + i)
  let head := d.imageHeader p 0x444F504B len (crc32c (d.imageHeader p 0x444F504B len 0 ++ body))
  let image := d.takeImage p c head
  let d := ({ d with fresh := d.fresh + 1 }.imageStore p 64 body).imageStore p 0 head
  { d with images := image :: d.images }

/-- POD_SAVE_DONE (R348); a space that cannot be reached leaves SAVE_DONE 0 (log entry 49). -/
def execPodSaveDone (p : Fin 64) (s : State) : Host.Outcome State Fault Refusal :=
  s.act fun d =>
    if d.podState p.val ≠ 5 then d
    else match if d.saveHost p.val then d.imageReach p.val 0 (d.saveNeed p.val * 2 ^ 20) else .ok with
      | .wait => d.askPage 0 (d.saveAddr p.val) (d.saveNeed p.val * 2 ^ 20) .other
      | .fault => (d.podReason p.val 0x09).podEnter p.val 4
      | .ok => ((d.writeImage p.val).put F.POD_STATUS_SAVE_DONE 1 p.val).podEnter p.val 4

/-! ### Restoring (R349) -/

/-- Read image bytes. -/
def Dev.imageLoad (d : Dev) (p off n : Nat) : List Byte :=
  if d.saveHost p then d.hld 0 (d.saveAddr p + off) n else d.ld (d.saveAddr p + off) n

/-- The pod has no run in progress, and its rings and channels are DISABLED. -/
def Dev.podIdle (d : Dev) (p : Nat) : Bool :=
  (d.runs.all fun r => r.pod != p) && ((d.podRings p).all fun n => d.ringState n == 0) &&
    (d.podChans p).all fun n => d.dmaState n == 0

/-- The header is an image's that this device can load. -/
def Dev.imageHeaderOk (d : Dev) (p : Nat) (h : List Byte) : Bool :=
  let len := fieldAt h 0x30 8
  let body := d.imageLoad p 64 (len - 64)
  fieldAt h 0 4 == 0x444F504B && decide (64 ≤ len) && fieldAt h 4 1 == 1 &&
    fieldAt h 5 1 / 16 == d.get F.CTL_DEVICE_ID_STEPPING / 16 &&
    fieldAt h 0x38 4 == crc32c (h.take 0x38 ++ leBytes 4 0 ++ slice h 0x3C 4 ++ body)

/-- REASON of RESTORE's first check that fails, 0 when all pass. An image that this model has not written
has no content to load (log entry 7) and counts as no image. -/
def Dev.restoreReason (d : Dev) (p : Nat) : Nat :=
  let h := d.imageLoad p 0 64
  let len := fieldAt h 0x30 8
  if d.get F.POD_SAVE_LEN_LEN_MIB p * 2 ^ 20 < len || !d.imageAddrOk p (max len 64) then 0x09
  else if !d.podIdle p then 0x08
  else if !d.imageHeaderOk p h || !(d.images.any fun m => m.header == h) then 0x09
  else if slice h 6 0x2A != d.podShape p then 0x0A
  else 0

/-- A restore that cannot read its image leaves the pod as its reset leaves it. -/
def Dev.abandonRestore (d : Dev) (p : Nat) : Dev := (d.podReason p 0x09).podReset p

/-- RESTORE written to CMD. -/
def Dev.cmdRestore (d : Dev) (p : Nat) : Dev :=
  if d.podState p ≠ 4 then d.podWrongState p
  else match d.imageReach p 0 64 with
    | .wait => d.askPage 0 (d.saveAddr p) 64 .other
    | .fault => d.abandonRestore p
    | .ok =>
      let why := d.restoreReason p
      if why = 0 then (d.podAccept p).podEnter p 6 else d.podReason p why

/-- POD_RESTORE (R342, R349). -/
def execPodRestore (p : Fin 64) (s : State) : Host.Outcome State Fault Refusal := s.act fun d => d.cmdRestore p.val

/-- The number that stands in `new` where `x` stands in `old`. -/
def mapNo (old new : List Nat) (x : Nat) : Nat :=
  match (old.zip new).find? fun y => y.1 == x with
  | some y => y.2
  | none => x

/-- How an image's numbers become the restoring pod's. -/
structure Moved where
  pod : Nat
  tile : Nat → Nat
  ring : Nat → Nat
  chan : Nat → Nat
  thread : Nat → Nat
  lock : Nat → Nat

/-- Free scheduler slots and pool locks for an image's threads and locks, in order. -/
def Dev.movedBy (d : Dev) (p : Nat) (m : PodImage) : Moved :=
  let slots := (slotRange false).filter fun n => (d.thread n).isNone
  let locks := ((List.range 224).map fun n => n + 32).filter fun n => (d.lock n).isNone
  { pod := p, tile := mapNo m.tiles (d.podTiles p), ring := mapNo m.rings (d.podRings p),
    chan := mapNo m.chans (d.podChans p), thread := mapNo (m.threads.map fun t => t.slot) slots,
    lock := mapNo (m.locks.map fun l => l.id) locks }

/-- A run's key moves. -/
def Moved.owner (v : Moved) (o : Option (Nat × Nat)) : Option (Nat × Nat) := o.map fun x => (v.ring x.1, x.2)

/-- A job moves. -/
def Moved.job (v : Moved) (j : Job) : Job :=
  { j with tile := if j.stageJob then v.tile j.tile else j.tile,
           chan := if j.stageJob then j.chan else v.chan j.chan, pod := v.pod }

/-- The lock a blocked thread waits for moves. -/
def Moved.wait (v : Moved) (n : Nat) : Nat := if n < 32 ∨ n = poolWait then n else v.lock n

/-- A join region moves. -/
def Moved.region (v : Moved) (r : JRegion) : JRegion :=
  { r with pod := v.pod, owner := v.owner r.owner, replay := r.replay.map fun x => (v.ring x.1, x.2) }

/-- A lock moves. -/
def Moved.heldLock (v : Moved) (l : HLock) : HLock :=
  { l with id := v.lock l.id, pod := v.pod, ring := v.ring l.ring, owner := v.thread l.owner,
           waiters := l.waiters.map v.thread }

/-- A thread moves; it runs again from its slot's READY state. -/
def Moved.held (v : Moved) (t : Thread) : Thread :=
  { t with slot := v.thread t.slot, pod := v.pod, ring := v.ring t.ring, lockwait := v.wait t.lockwait }

/-- Load an image's content into the pod (R349). -/
def Dev.loadImage (d : Dev) (p : Nat) (m : PodImage) : Dev :=
  let v := d.movedBy p m
  let d := ((d.imageRegs p).zip m.regs).foldl (fun d x => d.wr x.1 x.2.toNat) d
  { d with
    insts := d.insts ++ m.insts.map fun i => { i with ring := v.ring i.ring, pod := p, tile := v.tile i.tile },
    slots := d.slots ++ m.slots.map fun x => { x with tile := v.tile x.tile, pod := p },
    sels := d.sels ++ m.sels.map fun x => (v.tile x.1, x.2),
    jents := d.jents ++ m.jents.map fun e => { e with pod := p },
    jrgns := d.jrgns ++ m.jrgns.map v.region,
    rrgns := d.rrgns ++ m.rrgns.map fun r => { r with pod := p, owner := v.owner r.owner },
    runs := d.runs ++ m.runs.map fun r => { r with ring := v.ring r.ring, pod := p },
    pushed := d.pushed ++ m.pushed.map fun x => (v.ring x.1, x.2),
    progs := (d.progs.filter fun x => x.pod != p) ++ m.progs.map fun x => { x with pod := p },
    threads := d.threads ++ m.threads.map v.held,
    ready := d.ready ++ m.ready.map v.thread,
    locks := d.locks ++ m.locks.map v.heldLock,
    stageJobs := d.stageJobs ++ m.stageJobs.map v.job,
    dmaJobs := d.dmaJobs ++ m.dmaJobs.map v.job,
    jobResults := d.jobResults ++ m.jobResults.map fun x => { x with tile := v.tile x.tile },
    xrecvs := d.xrecvs ++ m.xrecvs.map fun x => { x with tile := v.tile x.tile },
    dmas := d.dmas ++ m.dmas.map fun c => { c with chan := v.chan c.chan } }

/-- The program cache holds the validated form of every restored run where it is placed. -/
def Dev.cacheRestored (d : Dev) (p : Nat) : Dev :=
  (d.insts.filter fun i => i.pod == p).foldl (fun d i =>
    match d.findRun i.ring i.index with
    | some r => match r.image with
      | some m => d.cacheProgram (i.tile / 8) p r.handle r.order m
      | none => d
    | none => d) d

/-- POD_RESTORE_DONE (R349). -/
def execPodRestoreDone (p : Fin 64) (s : State) : Host.Outcome State Fault Refusal :=
  s.act fun d =>
    if d.podState p.val ≠ 6 then d
    else
      let h := d.imageLoad p.val 0 64
      let len := fieldAt h 0x30 8
      match d.imageReach p.val 0 len with
      | .wait => d.askPage 0 (d.saveAddr p.val) len .other
      | .fault => d.abandonRestore p.val
      | .ok =>
        match d.images.find? fun m => m.header == h with
        | some m => ((d.loadImage p.val m).cacheRestored p.val).podEnter p.val 4
        | none => d.abandonRestore p.val

/-! ### The dirty-page log's buffers (R351) -/

/-- A write of 1 to SWAP. -/
def Dev.logSwap (d : Dev) (p : Nat) : Dev :=
  if d.get F.POD_LOG_CFG_SWAP_PEND p = 1 then d
  else (d.put F.POD_LOG_CFG_SEL (1 - d.get F.POD_LOG_CFG_SEL p) p).put F.POD_LOG_CFG_SWAP_PEND 1 p

/-- LOG_SWAP (R351). -/
def execLogSwap (p : Fin 64) (s : State) : Host.Outcome State Fault Refusal := s.act fun d => d.logSwap p.val

/-- LOG_SWAP_DONE (R351). -/
def execLogSwapDone (p : Fin 64) (s : State) : Host.Outcome State Fault Refusal :=
  s.act fun d => d.put F.POD_LOG_CFG_SWAP_PEND 0 p.val

end Sys2Proof.Machine
end

