-- ==== Sys2Proof/Machine/Wake.lean ====
section
/-! DEFINITION. Wakes (R422) and what the lifecycle and the debug level permit (R458). -/

namespace Sys2Proof.Machine

/-! ### The matrix of R458 -/

/-- What a cell says of the Pit: readable, usable by the Hull only, empty, or wiped. -/
inductive PitCell where
  | readable
  | usable
  | empty
  | wiped
  deriving DecidableEq, Repr

/-- The Pit outside S2 and Off, by lifecycle code (R431) and debug level. -/
def pitCell (lifecycle level : Nat) : PitCell :=
  match lifecycle, level with
  | 0, _ => .readable
  | 1, 2 => .empty
  | 1, _ => .usable
  | 2, _ => .usable
  | _, _ => .empty

/-- The highest multiplexer group permitted outside S2 and Off, plus one; 0 for none. -/
def muxLimit (lifecycle level : Nat) : Nat :=
  match lifecycle, level with
  | 0, _ => 0x100
  | 1, 1 => 0x80
  | 1, 2 => 0xF0
  | 2, 1 => 0x80
  | 3, 2 => 0x100
  | _, _ => 0

/-- The wake sources that may begin an exit, one bit for each code (R422): DzLink does not wake a device
that joins no span, and the manager cannot reach one in S2. -/
def wakeMask (lifecycle : Nat) (s2 : Bool) : Nat :=
  let all := match lifecycle with
    | 0 => 0x3A
    | 3 => 0x3A
    | 4 => 0
    | _ => 0x3E
  if s2 then all &&& 0x1E else all

/-- A debug level is legal in a lifecycle state (R454). -/
def levelLegal (lifecycle level : Nat) : Bool :=
  match lifecycle with
  | 0 => level == 2
  | 1 => decide (level ≤ 2)
  | 2 => decide (level ≤ 1)
  | 3 => level == 0 || level == 2
  | _ => level == 0

/-! ### Wakes (R422) -/

/-- PWR_STATE.STATE (R427). -/
def Dev.pstate (d : Dev) : Nat := d.get F.PWR_STATE_STATE

/-- Enter a power state. -/
def Dev.enterPower (d : Dev) (st : Nat) : Dev := d.put F.PWR_STATE_STATE st

/-- The device is in S2, or on its way into it or out of it. -/
def Dev.deep (d : Dev) : Bool :=
  d.pstate == 3 || (d.pstate == 4 && d.pw.target == 3) || (d.pstate == 5 && d.pw.fromState == 3)

/-- The sources of a set that may wake the device. -/
def Dev.wakers (d : Dev) (sources : Nat) : Nat :=
  sources &&& d.get F.PWR_WAKE_EN &&& wakeMask d.hull.otp.lifecycle d.deep

/-- The lowest code of a set of sources. -/
def lowestBit (v : Nat) : Nat := ((List.range 8).find? fun c => v.testBit c).getD 0

/-- Exit begins at step 1 (R421); the Shell processor restarts (R449), and after S2 it has no reading of a voltage
monitor yet (R407). -/
def Dev.beginExit (d : Dev) : Dev :=
  let old := d.pstate
  let readings := if old = 3 then d.shell.readings.filter fun r => !(decide (41 ≤ r.sensor.toNat ∧ r.sensor.toNat ≤ 64))
    else d.shell.readings
  let d := { d with shell := { d.shell with running := true, readings := readings } }
  ((d.enterPower 5).put F.PWR_STATE_STEP 1).onPw fun p => { p with fromState := old }

/-- The same, begun by a wake. -/
def Dev.wakeExit (d : Dev) (src : Nat) : Dev := d.beginExit.put F.PWR_WAKE_LAST src

/-- Wakes are seen: recorded in PENDING; in S1 and S2 exit begins; during an entry they are latched (R422).
P0 and P1 take no wake (R458), and in VOID code 3 starts the responder only. A device without SYS_PWROK
stays in S2 (R491). -/
def Dev.wakeUp (d : Dev) (sources : Nat) : Dev :=
  let ws := d.wakers sources
  if d.pw.off then d
  else if d.hull.otp.lifecycle = 4 then
    (if sources.testBit 3 && (d.get F.PWR_WAKE_EN).testBit 3 then { d with shell := { d.shell with running := true } }
    else d)
  else if ws = 0 ∨ d.pstate ≤ 1 then d
  else
    let d := d.put F.PWR_WAKE_PENDING (d.get F.PWR_WAKE_PENDING ||| ws)
    match d.pstate with
    | 2 => d.wakeExit (lowestBit ws)
    | 3 => if d.pw.pwrokLost then d else d.wakeExit (lowestBit ws)
    | 4 => d.onPw fun p => { p with latched := p.latched ||| ws }
    | _ => d

/-- WAKE (R422). -/
def execWake (sources : BitVec 8) (s : State) : Host.Outcome State Fault Refusal :=
  s.always fun d => d.wakeUp sources.toNat

end Sys2Proof.Machine
end

