-- ==== Sys2Proof/Machine/Span.lean ====
section
/-! DEFINITION. DzLink and the span (R355 to R375, R380, R381): span identity, ports and their training,
codewords and flits, topology and routes, the fencing and readmission of peers, and span runs. In the
`link` outputs the kinds are 1 LPREQ, 2 LPACK, 3 NAK with the last good SEQ, 4 a replayed flit. -/

namespace Sys2Proof.Machine

/-! ### Ports (R364, R365) -/

/-- The state of a port. -/
def Dev.portState (d : Dev) (k : Nat) : Nat := d.get F.LNK_PORT_STATUS_STATE k

/-- A port enters a state. -/
def Dev.enterPort (d : Dev) (k st : Nat) : Dev := d.put F.LNK_PORT_STATUS_STATE st k

/-- Change a port. -/
def Dev.onPort (d : Dev) (k : Nat) (f : Port → Port) : Dev := { d with ports := d.ports.modify k f }

/-- A port. -/
def Dev.port (d : Dev) (k : Nat) : Port := d.ports.getD k Port.reset

/-- Change a peer. -/
def Dev.onPeer (d : Dev) (k : Nat) (f : Peer → Peer) : Dev := { d with peers := d.peers.modify k f }

/-- A peer. -/
def Dev.peer (d : Dev) (k : Nat) : Peer := d.peers.getD k Peer.reset

/-! ### Topology and routes (R367, R368) -/

/-- The links of this device, as (port, neighbour): ports that have been accepted and not lost since. -/
def Dev.ownLinks (d : Dev) : List (Nat × Nat) :=
  ((List.range 4).filter fun k => (d.port k).kept).map fun k => (k, d.get F.LNK_PORT_STATUS_NBR_NO k)

/-- The links of a device of the span. -/
def Dev.linksOf (d : Dev) (x : Nat) : List (Nat × Nat) := if x = d.self then d.ownLinks else (d.peer x).links

/-- A link joins two devices. -/
def Dev.linked (d : Dev) (x y : Nat) : Bool := (d.linksOf x).any fun l => l.2 == y

/-- The devices of a span. -/
def spanNos : List Nat := List.range 8

/-- The length of the shortest path between two devices, when it takes at most 3 hops. -/
def Dev.dist (d : Dev) (x y : Nat) : Option Nat :=
  if x = y then some 0
  else if d.linked x y then some 1
  else if spanNos.any fun z => d.linked x z && d.linked z y then some 2
  else if spanNos.any fun z => d.linked x z && spanNos.any fun w => d.linked z w && d.linked w y then some 3
  else none

/-- The equal-cost ports on which a path to `k` begins. -/
def Dev.firstPorts (d : Dev) (k h : Nat) : List Nat :=
  (d.ownLinks.filter fun l => d.dist l.2 k == some (h - 1)).map fun l => l.1

/-- A mask of bits. -/
def maskOf (l : List Nat) : Nat := l.foldl (fun m b => m ||| 2 ^ b) 0

/-- Compute the route tables (R368). -/
def Dev.computeRoutes (d : Dev) : Dev :=
  spanNos.foldl (fun d k =>
    match d.dist d.self k with
    | some (h + 1) => (d.put F.LNK_ROUTE_HOPS (h + 1) k).put F.LNK_ROUTE_PORTS (maskOf (d.firstPorts k (h + 1))) k
    | _ => (d.put F.LNK_ROUTE_HOPS 0 k).put F.LNK_ROUTE_PORTS 0 k) d

/-- Peers that can be reached. -/
def Dev.reachable (d : Dev) : List Nat := spanNos.filter fun k => k != d.self && (d.dist d.self k).isSome

/-- REACH follows the topology. -/
def Dev.setReach (d : Dev) : Dev := d.put F.LNK_SPAN_STATUS_REACH (maskOf d.reachable)

/-- The neighbour list goes to every peer that can be reached (R368). -/
def Dev.flood (d : Dev) : Dev :=
  let body := d.ownLinks.flatMap fun l => [l.1, l.2]
  d.reachable.foldl (fun d k => d.emit (.span k 0x41 body)) d

/-! ### Fencing a peer (R380) -/

/-- One bit of LNK_SPAN_STATUS. -/
def Dev.spanBit (d : Dev) (f : Fld) (k v : Nat) : Dev := d.put f (setBits (d.get f) k 1 v)

/-- The peer is live. -/
def Dev.isLive (d : Dev) (k : Nat) : Bool := k != d.self && (d.get F.LNK_SPAN_STATUS_LIVE).testBit k

/-- Live peers. -/
def Dev.livePeers (d : Dev) : List Nat := spanNos.filter d.isLive

/-- A CLEAN fence: the peer holds no line of this device's memory, so its pointers go first. -/
def Dev.dropPointers (d : Dev) (x : Nat) : Dev :=
  d.dir.foldl (fun d e =>
    if !e.ptrs.contains x || e.filter then d
    else if e.excl then d.dropDir e.sector
    else
      let ptrs := e.ptrs.filter (· != x)
      if ptrs.isEmpty && !e.bcast then d.dropDir e.sector else d.setDir { e with ptrs := ptrs }) d

/-- Span runs that include a peer. -/
def Dev.spanRunsWith (d : Dev) (k : Nat) : List Run :=
  d.runs.filter fun r => (d.runPeers r).contains k && r.failure.isNone && r.st != .ended

/-- The status of a run that waits for a peer that is lost. -/
def Dev.losePeer (d : Dev) (k : Nat) : Dev :=
  (d.spanRunsWith k).foldl (fun d r =>
    if r.placed then d.failRun r.ring r.index ⟨0x60, k⟩ {} else d.failEntry r ⟨0x60, k⟩) d

/-- A FENCE message. -/
def Out.isFence : Out → Bool
  | .span _ opc _ => opc == 0x43
  | _ => false

/-- Messages to a peer that wait at the ports are dropped; a FENCE for it still leaves. -/
def Dev.dropMessages (d : Dev) (k : Nat) : Dev :=
  { d with ports := d.ports.map fun p =>
      { p with waiting := p.waiting.filter fun w => w.1.isFence || (w.1.peer d.self).all fun x => x.1 != k } }

/-- Steps 1 to 6 of a fence; `tell`: FENCE naming the peer goes to the others. -/
def Dev.fencePeer (d : Dev) (k : Nat) (clean tell : Bool) : Dev :=
  if !d.isLive k then d
  else
    let d := ((d.spanBit F.LNK_SPAN_STATUS_LIVE k 0).spanBit F.LNK_SPAN_STATUS_FENCED k 1).spanBit
      F.LNK_SPAN_STATUS_SCRUBBED k 0
    let d := d.onPeer k fun p => { p with permit := false, readySent := false, readyGot := false, clean := clean }
    let d := if tell then d.livePeers.foldl (fun d j => d.emit (.span j 0x43 [k, 0])) d else d
    let d := d.dropMessages k
    let d := d.report { cls := 0x13, srcKind := 8, source := k, status := 0x60, fence := true }
    let x := d.peerAgent k
    let d := { d with misses := d.misses.filter fun m => d.homeAgent m.addr != some x }
    let d := d.losePeer k
    let d := if clean then d.dropPointers x else d
    (d.killAgent x).computeRoutes

/-! ### A port that goes (R369) -/

/-- A pair of devices whose path crosses the link between this device and `n`. -/
def Dev.crosses (d : Dev) (n : Nat) (w : Nat × Nat) : Bool :=
  match d.dist w.1 w.2, d.dist w.1 d.self, d.dist n w.2, d.dist w.1 n, d.dist d.self w.2 with
  | some h, a, b, a', b' =>
    (match a, b with
    | some a, some b => a + b + 1 == h
    | _, _ => false) ||
    (match a', b' with
    | some a', some b' => a' + b' + 1 == h
    | _, _ => false)
  | _, _, _, _, _ => false

/-- Pairs of live devices of the span, this one among them. -/
def Dev.livePairs (d : Dev) : List (Nat × Nat) :=
  let l := spanNos.filter fun k => k == d.self || d.isLive k
  (l.flatMap fun x => l.map fun y => (x, y)).filter fun w => decide (w.1 < w.2)

/-- PATH_LOST goes to one endpoint of a broken path, naming the other. -/
def Dev.pathLost (d : Dev) (x y : Nat) : Dev :=
  if x = d.self then d else d.emit (.span x 0x42 [y])

/-- The link of a port is lost (log entry 50: of equal-cost paths, each counts as crossing). -/
def Dev.linkLost (d : Dev) (k : Nat) : Dev :=
  if !(d.port k).kept then d
  else
    let n := d.get F.LNK_PORT_STATUS_NBR_NO k
    let pairs := d.livePairs.filter (d.crosses n)
    let d := (d.onPort k fun p => { p with kept := false, replay := [], waiting := [] }).setReach
    let d := pairs.foldl (fun d w => (d.pathLost w.1 w.2).pathLost w.2 w.1) d
    let mine := pairs.filterMap fun w =>
      if w.1 = d.self then some w.2 else if w.2 = d.self then some w.1 else none
    (mine.foldl (fun d j => d.fencePeer j false true) d).flood

/-- A port goes DOWN (R364). -/
def Dev.portDown (d : Dev) (k : Nat) : Dev :=
  ((d.enterPort k 7).report { cls := 0x14, srcKind := 7, source := k, fence := true }).linkLost k

/-- A port retrains; the third retrain within a second sets it DOWN (R364). -/
def Dev.retrainPort (d : Dev) (k : Nat) : Dev :=
  let recent := ((d.port k).retrains.filter fun t => decide (d.now < t + 10 ^ 9)) ++ [d.now]
  let d := d.onPort k fun p => { p with retrains := recent, naks := 0, cwLock := false, cwGood := 0, cwBad := 0 }
  if 3 ≤ recent.length then d.portDown k else d.enterPort k 2

/-! ### Identity and port commands (R355, R364, R365) -/

/-- A write of LNK_SPAN_CFG: LOCK cannot be cleared. -/
def Dev.spanCfgWrite (d : Dev) (v : Nat) (keepLow : Bool) : Dev :=
  let r : RegRef := ⟨.LNK_SPAN_CFG, 0, 0⟩
  let lock := d.get F.LNK_SPAN_CFG_LOCK
  let d := d.applyLocked r v (lock == 1) keepLow
  if lock = 1 then d.put F.LNK_SPAN_CFG_LOCK 1 else d

/-- SPAN_CFG_LOCK (R355, R382). -/
def execSpanCfgLock (a : RegAccess) (s : State) : Host.Outcome State Fault Refusal :=
  s.act fun d => d.access a ⟨.LNK_SPAN_CFG, 0, 0⟩ Dev.spanCfgWrite

/-- EN written 1 (R365). -/
def Dev.portEnable (d : Dev) (k : Nat) : Dev :=
  let d := d.put F.LNK_PORT_CTRL_EN 1 k
  if d.portState k = 0 then d.enterPort k 1 else d

/-- EN written 0 (R365). -/
def Dev.portDisable (d : Dev) (k : Nat) : Dev :=
  let d := (d.put F.LNK_PORT_CTRL_EN 0 k).enterPort k 0
  ((d.linkLost k).clearReg .LNK_PORT_STATUS k).onPort k fun _ => Port.reset

/-- RETRAIN (R365, R382). -/
def Dev.portRetrain (d : Dev) (k : Nat) : Dev :=
  match d.portState k with
  | 2 => d.enterPort k 2
  | 5 => d.enterPort k 1
  | 7 => d.enterPort k 1
  | _ => d

/-- PORT_ENABLE (R365). -/
def execPortEnable (k : Fin 4) (s : State) : Host.Outcome State Fault Refusal := s.act fun d => d.portEnable k.val

/-- PORT_DISABLE (R365). -/
def execPortDisable (k : Fin 4) (s : State) : Host.Outcome State Fault Refusal := s.act fun d => d.portDisable k.val

/-- PORT_RETRAIN (R365). -/
def execPortRetrain (k : Fin 4) (s : State) : Host.Outcome State Fault Refusal := s.act fun d => d.portRetrain k.val

/-- PORT_SIGNAL_DETECT (R364). -/
def execPortSignalDetect (k : Fin 4) (s : State) : Host.Outcome State Fault Refusal :=
  s.act fun d => if d.portState k.val = 1 then d.enterPort k.val 2 else d

/-- PORT_TRAIN_COMPLETE (R364). -/
def execPortTrainComplete (k : Fin 4) (width : Fin 4) (s : State) : Host.Outcome State Fault Refusal :=
  s.act fun d =>
    if d.portState k.val ≠ 2 ∨ width.val = 0 then d
    else if width.val = 3 ∨ d.get F.LNK_PORT_CTRL_NARROW_OK k.val = 1 then
      (d.put F.LNK_PORT_STATUS_WIDTH width.val k.val).enterPort k.val 3
    else d.portDown k.val

/-- PORT_TRAIN_FAIL (R364). -/
def execPortTrainFail (k : Fin 4) (half : Option (Fin 2)) (s : State) : Host.Outcome State Fault Refusal :=
  s.act fun d =>
    let w := d.get F.LNK_PORT_STATUS_WIDTH k.val
    if d.portState k.val ≠ 2 then d
    else match half with
      | some h =>
        if d.get F.LNK_PORT_CTRL_NARROW_OK k.val = 1 ∧ w ≠ 1 ∧ w ≠ 2 then
          (d.put F.LNK_PORT_STATUS_WIDTH (h.val + 1) k.val).enterPort k.val 3
        else d.portDown k.val
      | none => d.portDown k.val

/-- Another port holds a live peer of this number, and this port does not hold it already. -/
def Dev.heldElsewhere (d : Dev) (k n : Nat) : Bool :=
  d.isLive n && !(d.ownLinks.contains (k, n)) && d.ownLinks.any fun l => l.1 != k && l.2 == n

/-- The partner is accepted (R355); a part in BLANK or RETURN joins no span (R457). -/
def Dev.accepts (d : Dev) (k : Nat) (n : NbrParams) : Bool :=
  d.get F.LNK_SPAN_CFG_LOCK == 1 && n.locked && n.spanId.toNat == d.get F.LNK_SPAN_CFG_SPAN_ID &&
    n.spanNo.toNat != d.self && !d.heldElsewhere k n.spanNo.toNat &&
    d.hull.otp.lifecycle != 0 && d.hull.otp.lifecycle != 3

/-- The port becomes ACTIVE: SEQ is reset, credits are loaded, and what the replay buffer holds is sent again (R363,
R364). -/
def Dev.portActive (d : Dev) (k : Nat) : Dev :=
  let n := (d.port k).replay.length
  let d := d.onPort k fun p =>
    { p with kept := true, naks := 0, credits := fullCredits, rxSeq := 0, txSeq := n % 4096, replay := (List.range n).map (· % 4096) }
  let d := if n = 0 then d else d.count .LNK_PORT_REPLAY (min n 256) k
  let d := (List.range (min n 256)).foldl (fun d i => d.emit (.link k 4 i)) d
  (((d.enterPort k 4).sendWaiting k).setReach).flood

/-- PORT_PARAMETERS (R355, R364). -/
def execPortParameters (k : Fin 4) (nbr : NbrParams) (s : State) : Host.Outcome State Fault Refusal :=
  s.act fun d =>
    if d.portState k.val ≠ 3 then d
    else
      let ok := d.accepts k.val nbr
      let moved := !(d.ownLinks.contains (k.val, nbr.spanNo.toNat))
      let d := if !ok || moved then d.linkLost k.val else d
      let d := d.put F.LNK_PORT_STATUS_NBR_ID nbr.spanId.toNat k.val
      let d := (d.put F.LNK_PORT_STATUS_NBR_NO nbr.spanNo.toNat k.val).put F.LNK_PORT_STATUS_NBR_PORT nbr.port.toNat k.val
      if ok then d.portActive k.val else d.enterPort k.val 5

/-! ### Codewords and flits (R359 to R363) -/

/-- A NAK with the last flit received in order. -/
def Dev.sendNak (d : Dev) (k : Nat) : Dev := d.emit (.link k 3 (((d.port k).rxSeq + 4095) % 4096))

/-- Codeword lock after one codeword: 8 good in a row gain it, 4 bad in a row lose it. -/
def Port.tracked (p : Port) (good : Bool) (seq : Nat) : Port :=
  if good then
    { p with cwGood := min (p.cwGood + 1) 8, cwBad := 0, cwSeq := seq, cwLock := p.cwLock || decide (7 ≤ p.cwGood) }
  else
    { p with cwGood := 0, cwBad := if 3 ≤ p.cwBad then 0 else p.cwBad + 1, cwSeq := seq,
             cwLock := p.cwLock && decide (p.cwBad < 3) }

/-- The codeword is good for lock: it decodes, with SYNC and the next CWSEQ; without lock the first one
may carry any. -/
def Port.goodWord (p : Port) (header errors : Nat) : Bool :=
  decide (errors ≤ 15) && bitsOf header 12 8 == 0xA5 &&
    (bitsOf header 4 8 == (p.cwSeq + 1) % 256 || (!p.cwLock && p.cwGood == 0))

/-- CODEWORD (R359, R360): at most 15 symbol errors are corrected. An ACTIVE port that loses lock retrains; a codeword
that is discarded, with too many errors or another TYPE, is answered with NAK (R363). -/
def execCodeword (k : Fin 4) (header : BitVec 20) (errors : BitVec 8) (s : State) : Host.Outcome State Fault Refusal :=
  s.act fun d =>
    if d.portState k.val < 2 ∨ 4 < d.portState k.val then d
    else
      let h := header.toNat
      let e := errors.toNat
      let p := d.port k.val
      let seq := if e ≤ 15 then bitsOf h 4 8 else (p.cwSeq + 1) % 256
      let d := if e = 0 then d
        else if e ≤ 15 then d.count .LNK_PORT_FEC_CORR e k.val
        else d.count .LNK_PORT_FEC_UNCORR 1 k.val
      let q := p.tracked (p.goodWord h e) seq
      let d := d.onPort k.val fun _ => q
      if d.portState k.val ≠ 4 then d
      else if p.cwLock && !q.cwLock then d.retrainPort k.val
      else if 15 < e ∨ 3 ≤ bitsOf h 0 4 then d.sendNak k.val
      else d

/-- The unacknowledged flits after ACK. -/
def afterAck (l : List Nat) (ack : Nat) : List Nat :=
  match l.findIdx? (· == ack) with
  | some i => l.drop (i + 1)
  | none => l

/-- ACK and NAK of an accepted flit: after 16 NAKs without progress the port retrains. -/
def Dev.takeAck (d : Dev) (k ack : Nat) (nak : Bool) : Dev :=
  let old := (d.port k).replay
  let new := afterAck old ack
  let naks := if new.length < old.length then nak.toNat else (d.port k).naks + nak.toNat
  let d := d.onPort k fun p => { p with replay := new, naks := naks }
  if !nak then d
  else
    let sent := new.take 256
    let d := if sent.isEmpty then d else d.count .LNK_PORT_REPLAY sent.length k
    let d := sent.foldl (fun d i => d.emit (.link k 4 i)) d
    if 16 ≤ naks then d.retrainPort k else d

/-- The credits that a flit returns (R361). -/
def Port.returned (p : Port) (credits : List (BitVec 8)) : List Nat :=
  p.credits.zipIdx.map fun x => x.1 + (credits.getD x.2 0).toNat

/-- FLIT (R361, R363): ACK and CREDITS free what waited for them. -/
def execFlit (k : Fin 4) (f : FlitHeader) (s : State) : Host.Outcome State Fault Refusal :=
  s.act fun d =>
    if d.portState k.val ≠ 4 then d
    else if !f.crcOk || f.seq.toNat != (d.port k.val).rxSeq then d.sendNak k.val
    else
      ((d.onPort k.val fun p => { p with rxSeq := (p.rxSeq + 1) % 4096, credits := p.returned f.credits }).takeAck
        k.val f.ack.toNat f.nak).sendWaiting k.val

/-! ### Low power (R366) -/

/-- A port turns its transmitters off. -/
def Dev.portLow (d : Dev) (k : Nat) : Dev := (d.onPort k fun p => { p with lpWait := false }).enterPort k 6

/-- LPREQ (R366). -/
def execLpreq (k : Fin 4) (s : State) : Host.Outcome State Fault Refusal :=
  s.act fun d => if d.portState k.val = 4 then (d.emit (.link k.val 2 0)).portLow k.val else d

/-- LPACK (R366). -/
def execLpack (k : Fin 4) (s : State) : Host.Outcome State Fault Refusal :=
  s.act fun d => if (d.port k.val).lpWait then d.portLow k.val else d

/-- LPACK_TIMEOUT (R366). -/
def execLpackTimeout (k : Fin 4) (s : State) : Host.Outcome State Fault Refusal :=
  s.act fun d => if (d.port k.val).lpWait then d.portLow k.val else d

/-- WAKE_PATTERN (R366, R422): the wake, and a retrain of a device that does not stay asleep. -/
def execWakePattern (k : Fin 4) (s : State) : Host.Outcome State Fault Refusal :=
  s.always fun d =>
    if d.portState k.val ≠ 6 then d
    else
      let d := d.wakeUp 4
      if d.pstate = 2 ∨ d.pstate = 3 ∨ d.pw.off = true then d else d.enterPort k.val 2

/-! ### Readmission (R381) -/

/-- The first three conditions of R381; a peer that was never fenced has nothing to scrub and needs no
permit (log entry 51). -/
def Dev.mayReady (d : Dev) (k : Nat) : Bool :=
  let fenced := (d.get F.LNK_SPAN_STATUS_FENCED).testBit k
  k != d.self && !d.isLive k && (d.get F.LNK_SPAN_STATUS_REACH).testBit k &&
    (!fenced || ((d.get F.LNK_SPAN_STATUS_SCRUBBED).testBit k &&
      (d.get F.LNK_SPAN_CFG_AUTO_READMIT == 1 || (d.peer k).permit)))

/-- The peer is live again. -/
def Dev.readmit (d : Dev) (k : Nat) : Dev :=
  let d := ((d.spanBit F.LNK_SPAN_STATUS_LIVE k 1).spanBit F.LNK_SPAN_STATUS_FENCED k 0).spanBit F.LNK_SPAN_STATUS_SCRUBBED k 0
  let d := d.onPeer k fun p => { p with permit := false, readySent := false, readyGot := false, clean := false }
  (d.reviveAgent (d.peerAgent k)).computeRoutes

/-- READY is sent when the conditions hold, and the peer is readmitted once READY has come back. -/
def Dev.tryReady (d : Dev) (k : Nat) : Dev :=
  if !d.mayReady k then d
  else
    let d := if (d.peer k).readySent then d
      else (d.onPeer k fun p => { p with readySent := true }).emit (.span k 0x44 [])
    if (d.peer k).readyGot then d.readmit k else d

/-- The same for every peer. -/
def Dev.tryAll (d : Dev) : Dev := spanNos.foldl Dev.tryReady d

/-- A message of a peer has arrived. -/
def Dev.hear (d : Dev) (k : Nat) : Dev := d.onPeer k fun p => { p with lastHeard := d.now }

/-- READMIT written (R381, R382). -/
def Dev.readmitWrite (d : Dev) (v : Nat) : Dev :=
  (spanNos.foldl (fun d k => if v.testBit k then d.onPeer k fun p => { p with permit := true } else d) d).tryAll

/-- READMIT_PERMIT (R381). -/
def execReadmitPermit (a : RegAccess) (s : State) : Host.Outcome State Fault Refusal :=
  s.act fun d => d.access a ⟨.LNK_SPAN_CTRL, 0, 0⟩ fun d v keep => if keep then d else d.readmitWrite v

/-- READY (R381): from a peer that is live here it means that the peer has fenced this device, which
answers with FENCE. -/
def execReady (k : Fin 8) (s : State) : Host.Outcome State Fault Refusal :=
  s.act fun d =>
    let d := d.hear k.val
    if d.isLive k.val then ((d.emit (.span k.val 0x43 [k.val, 0])).fencePeer k.val false true).onPeer k.val fun p =>
      { p with readyGot := false }
    else (d.onPeer k.val fun p => { p with readyGot := true }).tryReady k.val

/-! ### Span control messages (R368 to R372, R380) -/

/-- HELLO_SEND (R372). -/
def execHelloSend (s : State) : Host.Outcome State Fault Refusal :=
  s.act fun d => (d.reachable.foldl (fun d k => d.emit (.span k 0x40 [])) d).tryAll

/-- HELLO (R372). -/
def execHello (k : Fin 8) (s : State) : Host.Outcome State Fault Refusal :=
  s.act fun d => if k.val = d.self then d else (d.hear k.val).tryReady k.val

/-- LINKSTATE (R368). -/
def execLinkstate (k : Fin 8) (nbrs : List (Fin 4 × Fin 8)) (s : State) : Host.Outcome State Fault Refusal :=
  s.act fun d =>
    if k.val = d.self then d
    else (((d.hear k.val).onPeer k.val fun p =>
      { p with links := nbrs.map fun x => (x.1.val, x.2.val) }).setReach).tryAll

/-- PATH_LOST (R369): the other endpoint, which the operand names, is fenced. -/
def execPathLost (k : Fin 8) (s : State) : Host.Outcome State Fault Refusal :=
  s.act fun d => d.fencePeer k.val false true

/-- FENCE_MESSAGE (R372, R380): from `k`, naming this device, another peer, or the sender itself. -/
def execFenceMessage (k named : Fin 8) (selfFence clean : Bool) (s : State) : Host.Outcome State Fault Refusal :=
  s.act fun d =>
    if !d.isLive k.val then d
    else if selfFence || named.val == d.self then d.fencePeer k.val clean true
    else d.fencePeer named.val false true

/-- PEER_TIMEOUT (R380). -/
def execPeerTimeout (k : Fin 8) (s : State) : Host.Outcome State Fault Refusal :=
  s.act fun d => d.fencePeer k.val false true

/-! ### Before a reset or a power state (R380, R420) -/

/-- The device fences itself from its peers: caches of peer memory are flushed, FENCE SELF with CLEAN goes
out, and the peers are fenced here. -/
def Dev.fenceSelf (d : Dev) : Dev :=
  let peers := d.livePeers
  let d := (d.lines.filter fun l => (d.homeAgent l.addr).any fun h => decide (17 ≤ h)).foldl (fun d l =>
    let d := if l.st == .m then d.writeBack l.agent l.addr (d.anyRead l.addr 64) l.poison else d
    d.dropLine l.agent l.addr) d
  let d := peers.foldl (fun d k => d.emit (.span k 0x43 [d.self, 3])) d
  peers.foldl (fun d k => d.fencePeer k true false) d

/-! ### Span runs (R373 to R375) -/

/-- The entry of this device for a span run. -/
def Dev.spanRun (d : Dev) (group : BitVec 16) (tag : BitVec 64) : Option Run :=
  d.runs.find? fun r => d.get F.LNK_POD_SPAN_GROUP r.pod == group.toNat && r.tag == tag.toNat &&
    (r.image.map fun m => m.span).getD true && r.st != .ended

/-- JOIN (R374). -/
def execJoin (k : Fin 8) (group : BitVec 16) (tag : BitVec 64) (crc : BitVec 32) (counts : List (BitVec 8))
    (s : State) : Host.Outcome State Fault Refusal :=
  s.act fun d =>
    let j : JoinMsg :=
      { member := k.val, group := group.toNat, tag := tag, crc := crc.toNat, counts := counts.map BitVec.toNat }
    if !d.isLive k.val then d
    else
      let d := d.hear k.val
      match d.spanRun group tag with
      | some r =>
        if !r.placed then { d with joins := (d.joins.filter fun x =>
            !(x.member == j.member && x.group == j.group && x.tag == j.tag)) ++ [j] }
        else if !(d.runPeers r).contains k.val then d
        else
          let d := d.onRun r.ring r.index fun r =>
            { r with joins := upsert (fun x => x.member == j.member) j r.joins }
          if ((r.image.map fun m => m.crc) == some j.crc) then d.admitStarts
          else if r.failure.isSome then d
          else d.failRun r.ring r.index ⟨0x11, 16⟩ {}
      | none => { d with joins := (d.joins.filter fun x =>
          !(x.member == j.member && x.group == j.group && x.tag == j.tag)) ++ [j] }

/-- JOIN_TIMEOUT (R374). -/
def execJoinTimeout (q : RunRef) (s : State) : Host.Outcome State Fault Refusal :=
  s.act fun d =>
    match d.findRun q.ring.val q.index.toNat with
    | none => d
    | some r =>
      if !r.placed || r.failure.isSome then d
      else match (d.runPeers r).find? fun k => !(r.joins.any fun j => j.member == k) with
        | some k => d.failRun r.ring r.index ⟨0x60, k⟩ {}
        | none => d

/-- JOIN_HOLD_EXPIRY (R374): without its local entry the JOIN is dropped. -/
def execJoinHoldExpiry (k : Fin 8) (group : BitVec 16) (tag : BitVec 64) (s : State) :
    Host.Outcome State Fault Refusal :=
  s.act fun d =>
    if (d.spanRun group tag).isSome then d
    else { d with joins := d.joins.filter fun x =>
      !(x.member == k.val && x.group == group.toNat && x.tag == tag) }

/-- PIPE_DONE (R375). -/
def execPipeDone (k : Fin 8) (group : BitVec 16) (tag : BitVec 64) (pipe : Fin 8) (s : State) :
    Host.Outcome State Fault Refusal :=
  s.act fun d =>
    if !d.isLive k.val then d
    else match d.spanRun group tag with
      | some r => (d.hear k.val).onRun r.ring r.index fun r =>
          if r.peerDone.contains (k.val, pipe.val) then r else { r with peerDone := r.peerDone ++ [(k.val, pipe.val)] }
      | none => d.hear k.val

/-- ABORT_MESSAGE (R375). -/
def execAbortMessage (k : Fin 8) (group : BitVec 16) (tag : BitVec 64) (status : BitVec 16) (detail : BitVec 32)
    (s : State) : Host.Outcome State Fault Refusal :=
  s.act fun d =>
    if !d.isLive k.val then d
    else match d.spanRun group tag with
      | some r =>
        if r.failure.isSome then d.hear k.val
        else
          let d := (d.hear k.val).failRun r.ring r.index ⟨status.toNat, detail.toNat⟩ { received := true }
          if r.placed then d else d.onRun r.ring r.index fun x => { x with st := .ended }
      | none => d.hear k.val

end Sys2Proof.Machine
end

