-- ==== Sys2Proof/Machine/Mailbox.lean ====
section
/-! DEFINITION. The pods' mailboxes (R403, R404), registration (R19, R35, R41) and the completion of a
mailbox command by the executive. -/

namespace Sys2Proof.Machine

/-! ### Registration (R19, R41, R404) -/

/-- A registered program of a pod. -/
def Dev.progOf (d : Dev) (p handle : Nat) : Option ProgReg := d.progs.find? fun g => g.pod == p && g.handle == handle

/-- The next handle from the pod's counter: it skips 0 and every handle in use, and wraps at 2^32. -/
def Dev.handleFrom (d : Dev) (p : Nat) : Nat → Nat → Nat
  | 0, h => h
  | fuel + 1, h => if h = 0 ∨ (d.progOf p h).isSome = true then d.handleFrom p fuel ((h + 1) % 2 ^ 32) else h

/-- The pod's counter. -/
def Dev.handleNext (d : Dev) (p : Nat) : Nat := ((d.handles.find? fun x => x.1 == p).map fun x => x.2).getD 1

/-- Programs registered by a pod. -/
def Dev.progCount (d : Dev) (p : Nat) : Nat := (d.progs.filter fun g => g.pod == p).length

/-- REGISTER: the response words and the device. -/
def Dev.mbxRegister (d : Dev) (p addr len : Nat) : List Nat × Dev :=
  if 1024 ≤ d.progCount p then ([2], d)
  else
    let h := d.handleFrom p 1026 (d.handleNext p)
    ([0, h], { d with
      progs := d.progs ++ [{ pod := p, handle := h, addr := addr, len := len, dereg := false }]
      handles := upsert (fun x => x.1 == p) (p, (h + 1) % 2 ^ 32) d.handles })

/-- DEREGISTER marks the program. -/
def Dev.mbxDeregister (d : Dev) (p h : Nat) : List Nat × Dev :=
  match d.progOf p h with
  | none => ([3], d)
  | some _ => ([0], { d with
      progs := mapIf (fun (g : ProgReg) => g.pod == p && g.handle == h) (fun g => { g with dereg := true }) d.progs })

/-- The clusters that hold a program. -/
def Dev.residentMask (d : Dev) (p h : Nat) : Nat :=
  maskOf ((List.range 8).filter fun c => d.pgc.any fun e => e.cluster == c && e.pod == p && e.handle == h)

/-- QUERY. -/
def Dev.mbxQuery (d : Dev) (p h : Nat) : List Nat × Dev :=
  match d.progOf p h with
  | none => ([3], d)
  | some g => ([0, g.addr, g.len, d.residentMask p h + 256 * g.dereg.toNat], d)

/-- INFO. -/
def Dev.mbxInfo (d : Dev) (p : Nat) : List Nat × Dev := ([0, Config.executiveVersion.toNat, d.progCount p], d)

/-- A program's last active run has ended: its cache entries and its handle go (R41). -/
def Dev.forgetProg (d : Dev) (p h : Nat) : Dev :=
  { d with progs := d.progs.filter fun g => !(g.pod == p && g.handle == h)
           pgc := d.pgc.filter fun e => !(e.pod == p && e.handle == h) }

/-- DEREGISTER_TAKES_EFFECT (R41). -/
def execDeregisterTakesEffect (p : Fin 64) (handle : BitVec 32) (s : State) : Host.Outcome State Fault Refusal :=
  s.act fun d =>
    match d.progOf p.val handle.toNat with
    | some g =>
      if g.dereg && d.runs.all fun r => r.pod != p.val || r.handle != handle.toNat then d.forgetProg p.val handle.toNat
      else d
    | none => d

/-! ### The mailbox (R403, R404) -/

/-- Command word `j`. -/
def Dev.mbxWord (d : Dev) (p j : Nat) : Nat := d.get F.CTL_MBX_CMD_CMD p j

/-- The command words from `j` on are zero. -/
def Dev.mbxZeroFrom (d : Dev) (p j : Nat) : Bool := (List.range 8).all fun k => decide (k < j) || d.mbxWord p k == 0

/-- The command in CMD0 to CMD7, worked. -/
def Dev.mbxRun (d : Dev) (p : Nat) : List Nat × Dev :=
  let w := d.mbxWord p 0
  let st := d.podState p
  if st ≠ 2 ∧ st ≠ 4 then ([4], d)
  else if 2 ^ 9 ≤ w then ([1], d)
  else match w % 256 with
    | 1 => if d.mbxZeroFrom p 3 then d.mbxRegister p (d.mbxWord p 1) (d.mbxWord p 2) else ([1], d)
    | 2 => if d.mbxZeroFrom p 2 then d.mbxDeregister p (d.mbxWord p 1) else ([1], d)
    | 3 => if d.mbxZeroFrom p 2 then d.mbxQuery p (d.mbxWord p 1) else ([1], d)
    | 4 => if d.mbxZeroFrom p 1 then d.mbxInfo p else ([1], d)
    | _ => ([1], d)

/-- A write of 1 to GO: ignored while BUSY. -/
def Dev.mbxGo (d : Dev) (p : Nat) : Dev :=
  let d := d.leaveP1
  if d.get F.CTL_MBX_CTRL_BUSY p = 1 then d.put F.CTL_MBX_CTRL_REJ 1 p
  else
    let irq := (d.mbxWord p 0).testBit 8
    let r := (d.put F.CTL_MBX_CTRL_BUSY 1 p).mbxRun p
    { r.2 with mbxs := r.2.mbxs ++ [{ pod := p, rsp := r.1.map (BitVec.ofNat 64), irq := irq }] }

/-- Command words are written, and GO. -/
def Dev.mbxIssue (d : Dev) (p : Nat) (ws : List Nat) : Dev :=
  ((List.range 8).foldl (fun d j => d.put F.CTL_MBX_CMD_CMD (ws.getD j 0) p j) d).mbxGo p

/-- CMD0 of a command. -/
def mbxOp (op : Nat) (irq : Bool) : Nat := op + 256 * irq.toNat

/-- REGISTER (R404). -/
def execRegister (p : Fin 64) (irq : Bool) (addr len : BitVec 64) (s : State) : Host.Outcome State Fault Refusal :=
  s.act fun d => d.mbxIssue p.val [mbxOp 1 irq, addr.toNat, len.toNat]

/-- DEREGISTER (R41, R404). -/
def execDeregister (p : Fin 64) (irq : Bool) (handle : BitVec 64) (s : State) : Host.Outcome State Fault Refusal :=
  s.act fun d => d.mbxIssue p.val [mbxOp 2 irq, handle.toNat]

/-- QUERY (R404). -/
def execQuery (p : Fin 64) (irq : Bool) (handle : BitVec 64) (s : State) : Host.Outcome State Fault Refusal :=
  s.act fun d => d.mbxIssue p.val [mbxOp 3 irq, handle.toNat]

/-- INFO (R404). -/
def execInfo (p : Fin 64) (irq : Bool) (s : State) : Host.Outcome State Fault Refusal :=
  s.act fun d => d.mbxIssue p.val [mbxOp 4 irq]

/-- BAD_COMMAND (R404): GO with the given words, CMD0 first; words that spell a command run it. -/
def execBadCommand (p : Fin 64) (words : List (BitVec 64)) (s : State) : Host.Outcome State Fault Refusal :=
  s.act fun d => d.mbxIssue p.val (words.map BitVec.toNat)

/-- The executive writes the response (R403). -/
def Dev.mbxFinish (d : Dev) (p : Nat) (m : Mbx) : Dev :=
  let d := { d with mbxs := d.mbxs.filter fun x => x.pod != p }
  let d := (List.range 8).foldl (fun d j => d.put F.CTL_MBX_RSP_RSP (m.rsp.getD j 0).toNat p j) d
  let d := (d.put F.CTL_MBX_CTRL_BUSY 0 p).put F.CTL_MBX_CTRL_DONE 1 p
  if m.irq then d.podVec p (d.get F.CTL_MBX_CTRL_VEC p) else d

/-- MAILBOX_COMPLETE (R398, R403): without a free executive slot the command stays BUSY. -/
def execMailboxComplete (p : Fin 64) (s : State) : Host.Outcome State Fault Refusal :=
  s.act fun d =>
    match d.mbxs.find? fun x => x.pod == p.val with
    | none => d
    | some m =>
      if !d.coreLeft then d
      else if (d.freeThreadSlot 0 true).isNone then d.countStall
      else d.mbxFinish p.val m

end Sys2Proof.Machine
end

