-- ==== Sys2Proof/Machine/Errors.lean ====
section
/-! DEFINITION. Faults of tiles, clusters, the mesh and the control cores (R384, R465 to R475), the
rotating self-test (R466, R467), error rings (R478) and the arming of injections (R482, R483). -/

namespace Sys2Proof.Machine

/-- A passed retest unfences a tile. -/
def Dev.unfenceTile (d : Dev) (t : Nat) : Dev :=
  d.put F.ERR_FENCE_TILE_FENCED (setBits (d.get F.ERR_FENCE_TILE_FENCED) t 1 0)

/-! ### Residue and watchdog faults (R465, R471) -/

/-- RESIDUE_MISMATCH (R471, R476): INFO holds the unit and the block. -/
def execResidueMismatch (t : Fin 64) (unit : Fin 8) (slot : Fin 4) (stage : Fin 32) (seq : BitVec 32) (s : State) :
    Host.Outcome State Fault Refusal :=
  s.act fun d =>
    let inj := d.armed 2 t.val && d.errs.inj.mode == unit.val
    match d.findInst t.val slot.val with
    | none => d
    | some i =>
      if d.tileFenced t.val || !(i.life == .running || i.life == .migrating) then d
      else (d.fireIf inj).tileFault t.val 3 (unit.val * 2 ^ 56 + seq.toNat) inj (some (slot.val, stage.val, seq.toNat))

/-- TILE_WATCHDOG (R465, R471). -/
def execTileWatchdog (t : Fin 64) (s : State) : Host.Outcome State Fault Refusal :=
  s.act fun d => if d.tileFenced t.val then d else d.tileFault t.val 4 0 false none

/-! ### The rotating self-test (R466 to R468) -/

/-- The tiles of a cluster. -/
def clusterTiles (c : Nat) : List Nat := (List.range 8).map fun k => 8 * c + k

/-- A test of the cluster runs. -/
def Dev.clusterTesting (d : Dev) (c : Nat) : Bool := (clusterTiles c).any fun t => (d.tileTest t).testing

/-- The tile that a cluster's next waiting immediate test or retest is for. -/
def Dev.nextTest (d : Dev) (c : Nat) : Option Nat := d.errs.waitTests.find? fun t => t / 8 == c

/-- The pod of a tile holds it at rest. -/
def Dev.tileQuiesced (d : Dev) (t : Nat) : Bool :=
  match d.podOfTile t with
  | some p => decide (3 ≤ d.podState p ∧ d.podState p ≤ 6)
  | none => false

/-- A tile that the rotation may claim. -/
def Dev.claimable (d : Dev) (t : Nat) : Bool := !d.tileFenced t && !d.zeroing t && !d.tileQuiesced t

/-- The tile whose last pass is oldest, the lowest among equals. -/
def Dev.oldestTested (d : Dev) : List Nat → Option Nat
  | [] => none
  | t :: ts =>
    match d.oldestTested ts with
    | some u => if (d.tileTest u).lastPass < (d.tileTest t).lastPass then some u else some t
    | none => some t

/-- SELFTEST_CLAIM (R466): a cluster with a claim or a waiting test makes no new one. -/
def execSelftestClaim (c : Fin 8) (s : State) : Host.Outcome State Fault Refusal :=
  s.act fun d =>
    let ts := clusterTiles c.val
    if d.get F.ERR_ST_CTRL_EN = 0 ∨ (ts.any fun t => (d.tileTest t).claimed || (d.tileTest t).testing) = true ∨
        (d.nextTest c.val).isSome = true then d
    else match d.oldestTested (ts.filter d.claimable) with
      | some t => d.setTest { d.tileTest t with claimed := true }
      | none => d

/-- No instance stands on the tile that has state to lose. -/
def Dev.tileEmptied (d : Dev) (t : Nat) : Bool :=
  d.insts.all fun i => i.tile != t || ([.placed, .parked, .done, .failed] : List Life).contains i.life

/-- The tile's test is next in its cluster: waiting tests in their order, then the rotation's claim. -/
def Dev.testDue (d : Dev) (t : Nat) : Bool :=
  !d.clusterTesting (t / 8) &&
    (match d.nextTest (t / 8) with
    | some u => u == t || (d.tileTest t).claimed
    | none => (d.tileTest t).claimed)

/-- SELFTEST_START (R467, R468). EN clear stops the rotation's claims; an immediate test or a retest still
runs (DEDUCED; log entry 57). -/
def execSelftestStart (t : Fin 64) (s : State) : Host.Outcome State Fault Refusal :=
  s.act fun d =>
    if (d.get F.ERR_ST_CTRL_EN = 1 ∨ d.nextTest (t.val / 8) = some t.val) ∧ d.testDue t.val = true ∧ d.tileEmptied t.val = true ∧ d.asleep = false then
      let d := d.setTest { d.tileTest t.val with testing := true }
      { d with errs := { d.errs with waitTests := d.errs.waitTests.filter (· != t.val) } }
    else d

/-- Active runs that used the tile since its last pass. -/
def Dev.usersOf (d : Dev) (t : Nat) : List Run :=
  d.runs.filter fun r => d.errs.used.contains (t, r.ring, r.index) && r.st != .ended

/-- The uses of a tile are forgotten. -/
def Dev.forgetUses (d : Dev) (t : Nat) : Dev :=
  { d with errs := { d.errs with used := d.errs.used.filter fun x => x.1 != t } }

/-- A passed test: the tile is zeroed and returns to placement; a retest unfences it. -/
def Dev.testPassed (d : Dev) (t : Nat) : Dev :=
  let x := d.tileTest t
  let d := if x.retest then d.unfenceTile t else d
  let d := d.setTest { x with lastPass := d.now, late := false, claimed := false, testing := false, immediate := false,
                              retest := false, firstTested := true }
  (d.forgetUses t).zeroTiles [t]

/-- A failed test fences the tile and fails the runs it touched (R467, R475). -/
def Dev.testFailed (d : Dev) (t : Nat) (inj : Bool) : Dev :=
  let users := d.usersOf t
  let d := (d.fenceTile t).forgetUses t
  if users.isEmpty then
    d.report { cls := 5, srcKind := 0, source := t, pod := d.podOfTile t, fence := true, injected := inj }
  else users.foldl (fun d r => d.failRun r.ring r.index ⟨0xF2, 5⟩ { tile := t, fence := true, injected := inj }) d

/-- SELFTEST_DONE (R467); an armed injection of target 11 makes the test fail. -/
def execSelftestDone (t : Fin 64) (pass : Bool) (s : State) : Host.Outcome State Fault Refusal :=
  s.act fun d =>
    let inj := d.armed 11 t.val
    if !(d.tileTest t.val).testing then d
    else if pass && !inj then d.testPassed t.val
    else (d.fireIf inj).testFailed t.val inj

/-- SELFTEST_LATE (R466, R468). -/
def execSelftestLate (t : Fin 64) (s : State) : Host.Outcome State Fault Refusal :=
  s.act fun d =>
    let x := d.tileTest t.val
    if d.get F.ERR_ST_CTRL_EN = 0 ∨ x.late = true ∨ d.tileFenced t.val = true then d
    else (d.setTest { x with late := true }).report { cls := 6, srcKind := 0, source := t.val, pod := d.podOfTile t.val }

/-- A write of ERR_RETEST (R483). -/
def Dev.retestWrite (d : Dev) (v : Nat) : Dev :=
  (List.range 64).foldl (fun d t =>
    if v.testBit t && d.tileFenced t && !(d.get F.ERR_FENCE_OTHER_CLUSTER).testBit (t / 8) then
      d.queueTest { d.tileTest t with retest := true }
    else d) d

/-- RETEST (R483). -/
def execRetest (a : RegAccess) (s : State) : Host.Outcome State Fault Refusal :=
  s.act fun d => d.access a ⟨.ERR_RETEST, 0, 0⟩ fun d v _ => d.retestWrite v

/-! ### Clusters and the mesh (R470, R472) -/

/-- The join-directory slice of a cluster is lost: every join region of every pod is INVALID (R472). -/
def Dev.loseRegions (d : Dev) (c : Nat) : Dev :=
  let pods := (List.range 64).filter fun p => d.podState p != 0
  let d := pods.foldl (fun d p => (List.range 16).foldl (fun d g => d.put F.JDR_POD_RGN_STATE_STATE 7 p g) d) d
  { d with jents := d.jents.filter fun e => e.slice != c, errs := { d.errs with jdrLost := true } }

/-- CLUSTER_FAULT (R472). -/
def execClusterFault (c : Fin 8) (s : State) : Host.Outcome State Fault Refusal :=
  s.act fun d =>
    if (d.get F.ERR_FENCE_OTHER_CLUSTER).testBit c.val then d
    else
      let d := d.put F.ERR_FENCE_OTHER_CLUSTER (setBits (d.get F.ERR_FENCE_OTHER_CLUSTER) c.val 1 1)
      let d := d.report { cls := 9, srcKind := 1, source := c.val, fence := true }
      let d := (clusterTiles c.val).foldl (fun d t =>
        (d.stopTile t ⟨0xF2, 9⟩ { fence := true } none).fenceTile t) d
      (d.killAgent c.val).loseRegions c.val

/-- Parity failures of the message on a segment. -/
def Dev.parityCount (d : Dev) (seg : Nat) : Nat := ((d.errs.parity.find? fun x => x.1 == seg).map fun x => x.2).getD 0

/-- The third failure of a message fences the segment. -/
def Dev.fabricFail (d : Dev) (seg : Nat) (run : Option RunRef) (inj : Bool) : Dev :=
  let d := { d with errs := { d.errs with segFenced := seg :: d.errs.segFenced,
                                          parity := d.errs.parity.filter fun x => x.1 != seg } }
  let d := d.report { cls := 0x0B, srcKind := 12, source := seg, fence := true, injected := inj }
  match run with
  | some q => d.failRun q.ring.val q.index.toNat ⟨0xF1, 0x0B⟩ { fence := true, injected := inj }
  | none => d

/-- FABRIC_PARITY (R470): the hop replays the message; a persistent injection fails three times. -/
def execFabricParity (segment : BitVec 16) (run : Option RunRef) (s : State) : Host.Outcome State Fault Refusal :=
  s.act fun d =>
    let seg := segment.toNat
    let inj := d.get F.ERR_INJ_ARMED == 1 && d.errs.inj.target == 7
    let hard := inj && d.errs.inj.mode == 2
    if d.errs.segFenced.contains seg then d
    else
      let d := d.fireIf inj
      let n := if hard then 3 else d.parityCount seg + 1
      if 3 ≤ n then d.fabricFail seg run inj
      else ({ d with errs := { d.errs with parity := upsert (fun x => x.1 == seg) (seg, n) d.errs.parity } }).report
        { cls := 0x0A, srcKind := 12, source := seg, injected := inj }

/-! ### Control cores (R384) -/

/-- The completion of a run says RESOURCE_FENCED, whatever it met before. -/
def Run.coreless (r : Run) : Run :=
  { r with failure := r.failure.map fun f => { f with status := 0xF2, detail := 0x11 } }

/-- The last core is fenced: every run stops, and its completion says RESOURCE_FENCED. -/
def Dev.noCores (d : Dev) : Dev :=
  d.runs.foldl (fun d r =>
    let d := if r.placed then d.failRun r.ring r.index ⟨0xF2, 0x11⟩ {} else d.failEntry r ⟨0xF2, 0x11⟩
    d.onRun r.ring r.index Run.coreless) d

/-- The running thread of a fenced core ends, its locks poisoned, and its run fails. -/
def Dev.killThread (d : Dev) (slot : Nat) : Dev :=
  match d.thread slot with
  | none => d
  | some t =>
    let d := d.endThread slot true
    if t.priv then d else d.failRun t.ring t.index ⟨0xF2, 0x11⟩ {}

/-- LOCKSTEP_MISCOMPARE (R384). -/
def execLockstepMiscompare (core : Fin 8) (s : State) : Host.Outcome State Fault Refusal :=
  s.act fun d =>
    let c := d.core core.val
    if c.fenced then d
    else
      let inj := d.armed 8 core.val
      let d := (d.fireIf inj).onCore core.val fun _ => { fenced := true, cur := none, next := none }
      let d := d.killAgent (8 + core.val)
      let d := match c.next with
        | some n => d.readyFirst n
        | none => d
      let d := match c.cur with
        | some n => d.killThread n
        | none => d
      let last := !d.coreLeft
      let d := d.report { cls := 0x11, srcKind := 3, source := core.val, fence := true, injected := inj, fatal := last }
      if last then d.noCores else d.schedule

/-! ### Error rings (R478, R483) -/

/-- A pod's ring does not lie where it may. -/
def Dev.errRingBad (d : Dev) (p : Nat) : Bool :=
  d.get F.ERR_POD_RING_BASE_HOST p == 0 &&
    !d.inPod p (d.get F.ERR_POD_RING_BASE_ADDR p * 4096) (64 * 2 ^ d.get F.ERR_POD_RING_CFG_SIZE_LOG2 p)

/-- A write of ERR_RING_CFG: setting EN zeroes HEAD and TAIL. -/
def Dev.errRingCfg (d : Dev) (v : Nat) (keepLow : Bool) : Dev :=
  let en := d.get F.ERR_RING_CFG_EN
  let d := d.applyPlain ⟨.ERR_RING_CFG, 0, 0⟩ v keepLow
  if en = 0 ∧ d.get F.ERR_RING_CFG_EN = 1 then (d.put F.ERR_RING_PTR_HEAD 0).put F.ERR_RING_PTR_TAIL 0 else d

/-- A write of a pod ring's configuration: a ring out of place stays disabled. -/
def Dev.errPodRingCfg (d : Dev) (p v : Nat) (keepLow : Bool) : Dev :=
  let en := d.get F.ERR_POD_RING_CFG_EN p
  let d := d.applyPlain ⟨.ERR_POD_RING_CFG, p, 0⟩ v keepLow
  if en = 0 ∧ d.get F.ERR_POD_RING_CFG_EN p = 1 then
    if d.errRingBad p then
      (d.put F.ERR_POD_RING_CFG_EN 0 p).reportManager
        { cls := 0x18, pod := some p, addr := (⟨.ERR_POD_RING_CFG, p, 0⟩ : RegRef).addr }
    else (d.put F.ERR_POD_RING_PTR_HEAD 0 p).put F.ERR_POD_RING_PTR_TAIL 0 p
  else d

/-- ERROR_RING_ENABLE (R478). -/
def execErrorRingEnable (pod : Option (Fin 64)) (a : RegAccess) (s : State) : Host.Outcome State Fault Refusal :=
  s.act fun d =>
    match pod with
    | some p => d.access a ⟨.ERR_POD_RING_CFG, p.val, 0⟩ fun d v keep => d.errPodRingCfg p.val v keep
    | none => d.access a ⟨.ERR_RING_CFG, 0, 0⟩ Dev.errRingCfg

/-! ### Injection (R482) -/

/-- How many instances a target's INDEX can name. -/
def injCount (target : Nat) : Nat :=
  match target with
  | 1 => 64
  | 2 => 64
  | 3 => 64
  | 4 => 8
  | 5 => 16
  | 6 => 256
  | 7 => 8
  | 8 => 8
  | 9 => 8
  | 10 => 4
  | 11 => 64
  | _ => 0

/-- MODE is one that the target's row lists, or 0 where it lists none. -/
def injMode (target mode : Nat) : Bool :=
  if target = 2 then decide (mode < 8)
  else if [1, 4, 5, 6, 7].contains target then mode == 1 || mode == 2
  else mode == 0

/-- A write of 1 to ARM. -/
def Dev.armInjection (d : Dev) : Dev :=
  let t := d.get F.ERR_INJ_TARGET
  let n := d.get F.ERR_INJ_INDEX
  let mode := d.get F.ERR_INJ_MODE
  if d.get F.ERR_INJ_ARMED = 1 ∨ injCount t ≤ n ∨ injMode t mode = false then d
  else if t = 3 then
    let d := d.put F.ERR_INJ_FIRED 1
    if d.tileFenced n then d else d.tileFault n 4 0 true none
  else { d.put F.ERR_INJ_ARMED 1 with errs := { d.errs with inj := ⟨t, n, mode, d.get F.ERR_INJ_ADDR_ADDR⟩ } }

/-- A write of ERR_INJ. -/
def Dev.injWrite (d : Dev) (v : Nat) (keepLow : Bool) : Dev :=
  let d := d.applyPlain ⟨.ERR_INJ, 0, 0⟩ v keepLow
  if v.testBit 61 then d.armInjection else d

/-- INJECTION_ARM (R482). -/
def execInjectionArm (a : RegAccess) (s : State) : Host.Outcome State Fault Refusal :=
  s.act fun d => d.access a ⟨.ERR_INJ, 0, 0⟩ Dev.injWrite

end Sys2Proof.Machine
end

