-- ==== Sys2Proof/Machine/Keccak.lean ====
section
/-! DEFINITION. Keccak and the functions of the digest engine built on it (R433 to R441): SHA3-256,
SHA3-512, SHAKE256 and KMAC256, as FIPS 202 and SP 800-185 define them. -/

namespace Sys2Proof.Machine

/-! The state is 25 lanes, lane (x, y) at place x + 5 y, so that five places in a row are one plane. -/

/-- One step of the feedback register that yields the bits of the round constants (FIPS 202, rc). -/
def rcShift (r : Nat) : Nat := if r < 128 then 2 * r else (2 * r - 256) ^^^ 0x71

/-- The bit that the register yields after `t` steps from 1. -/
def rcBit (t : Nat) : Nat := Nat.repeat rcShift t 1 % 2

/-- The constant of a round: bit 2^j - 1 is the register's bit j + 7 round (FIPS 202, iota). -/
def roundConst (round : Nat) : Word :=
  BitVec.ofNat 64 ((List.range 7).foldl (fun c j => c + rcBit (7 * round + j) * 2 ^ (2 ^ j - 1)) 0)

/-- The five planes of a state. -/
def planes (a : List Word) : List (List Word) := (List.range 5).map fun y => (a.drop (5 * y)).take 5

/-- Theta: each lane takes the parity of the column to its left and, turned by one, of that to its right. -/
def theta (a : List Word) : List Word :=
  let parity := (planes a).foldl (List.zipWith BitVec.xor) (List.replicate 5 0)
  let mix := List.zipWith BitVec.xor (parity.rotateRight 1) ((parity.rotateLeft 1).map fun w => w.rotateLeft 1)
  (planes a).flatMap (List.zipWith BitVec.xor mix)

/-- Rho and pi along the walk (x, y) to (y, 2x + 3y) that FIPS 202 takes from (1, 0): the lane carried lands,
turned by the step's triangular number, on the next place, and the lane found there is carried on. -/
def rhoPi : Nat → Nat → Nat → Word → List Word → List Word
  | 0, _, _, _, a => a
  | left + 1, x, y, carried, a =>
    let t := 24 - left
    let y' := (2 * x + 3 * y) % 5
    let place := y + 5 * y'
    rhoPi left y y' (a.getD place 0) (a.set place (carried.rotateLeft (t * (t + 1) / 2 % 64)))

/-- Chi, plane by plane. -/
def chi (a : List Word) : List Word :=
  (planes a).flatMap fun p =>
    List.zipWith BitVec.xor p (List.zipWith (fun u v => BitVec.and (BitVec.not u) v) (p.rotateLeft 1) (p.rotateLeft 2))

/-- One round. -/
def keccakRound (a : List Word) (round : Nat) : List Word :=
  let b := theta a
  (chi (rhoPi 24 1 0 (b.getD 1 0) b)).modifyHead (BitVec.xor (roundConst round))

/-- The permutation: 24 rounds. -/
def keccakF (a : List Word) : List Word := (List.range 24).foldl keccakRound a

/-- The little-endian words of a block. -/
def blockWords (bs : List Byte) : List Word := (List.range 25).map fun i => BitVec.ofNat 64 (fieldAt bs (8 * i) 8)

/-- The blocks of `rate` bytes of a padded message, at most `n`. -/
def rateBlocks (rate : Nat) : Nat → List Byte → List (List Byte)
  | 0, _ => []
  | n + 1, bs => bs.take rate :: rateBlocks rate n (bs.drop rate)

/-- A block is added to the state, which is then permuted. -/
def absorb (a : List Word) (block : List Byte) : List Word := keccakF (List.zipWith BitVec.xor a (blockWords block))

/-- The bytes of the state. -/
def stateBytes (a : List Word) : List Byte := a.flatMap fun w => leBytes 8 w.toNat

/-- `n` bytes squeezed from a state, at most `fuel` permutations on. -/
def squeeze (rate : Nat) : Nat → Nat → List Word → List Byte
  | 0, n, a => (stateBytes a).take (min n rate)
  | fuel + 1, n, a =>
    if n ≤ rate then (stateBytes a).take n else (stateBytes a).take rate ++ squeeze rate fuel (n - rate) (keccakF a)

/-- The padding of a message of `len` bytes: the domain suffix, zeros, and the last bit of the block. -/
def padding (rate suffix len : Nat) : List Byte :=
  let free := rate - len % rate
  leBytes free (suffix + 2 ^ (8 * free - 1))

/-- The sponge: `n` bytes of output. -/
def sponge (rate suffix n : Nat) (m : List Byte) : List Byte :=
  let p := m ++ padding rate suffix m.length
  squeeze rate n n ((rateBlocks rate (p.length / rate) p).foldl absorb (List.replicate 25 0))

/-- SHA3-256. -/
def sha3_256 (m : List Byte) : List Byte := sponge 136 0x06 32 m

/-- SHA3-512. -/
def sha3_512 (m : List Byte) : List Byte := sponge 72 0x06 64 m

/-- SHAKE256. -/
def shake256 (n : Nat) (m : List Byte) : List Byte := sponge 136 0x1F n m

/-- The shortest big-endian bytes of a number, at least one. -/
def bigBytes (v : Nat) : List Byte :=
  let n := max 1 ((Nat.log2 v + 8) / 8)
  (leBytes n v).reverse

/-- left_encode. -/
def leftEncode (v : Nat) : List Byte := BitVec.ofNat 8 (bigBytes v).length :: bigBytes v

/-- right_encode. -/
def rightEncode (v : Nat) : List Byte := bigBytes v ++ [BitVec.ofNat 8 (bigBytes v).length]

/-- encode_string. -/
def encodeString (s : List Byte) : List Byte := leftEncode (8 * s.length) ++ s

/-- bytepad to the rate of 136. -/
def bytepad (s : List Byte) : List Byte :=
  let z := leftEncode 136 ++ s
  z ++ List.replicate ((136 - z.length % 136) % 136) 0

/-- KMAC256 with an empty customisation string: `n` bytes. -/
def kmac256 (key m : List Byte) (n : Nat) : List Byte :=
  let name := bytepad (encodeString [0x4B, 0x4D, 0x41, 0x43] ++ encodeString [])
  sponge 136 0x04 n (name ++ bytepad (encodeString key) ++ m ++ rightEncode (8 * n))

end Sys2Proof.Machine
end

