-- ==== Sys2Proof/Machine/Hull.lean ====
section
/-! DEFINITION. The Hull (R429 to R445, R454, R455, R459, R460): signed images, Acorn's boot and the
identity seed, the digest engine, the Pit, random numbers, Sesame and the debug multiplexer. -/

namespace Sys2Proof.Machine

/-- Change the Hull. -/
def Dev.onHull (d : Dev) (f : Hull → Hull) : Dev := { d with hull := f d.hull }

/-- Change the Shell. -/
def Dev.onShell (d : Dev) (f : Shell → Shell) : Dev := { d with shell := f d.shell }

/-! ### The Pit (R444) -/

/-- A Pit slot that holds a value. -/
def Hull.pitSlot (h : Hull) (n : Nat) : Option PitSlot := h.pit.find? fun p => p.slot == n

/-- Write a Pit slot; it is locked until the Pit is wiped. -/
def Hull.writePit (h : Hull) (n : Nat) (bs : List Byte) : Hull :=
  { h with pit := (h.pit.filter fun p => p.slot != n) ++ [{ slot := n, bytes := slice bs 0 64, locked := true }] }

/-- Wipe the Pit. -/
def Hull.wipePit (h : Hull) : Hull := { h with pit := [] }

/-- What the matrix of R458 says of the Pit now. -/
def Dev.pitNow (d : Dev) : PitCell := pitCell d.hull.otp.lifecycle d.hull.debug

/-! ### Signed images (R433) -/

/-- The signature of an image. -/
def imageSig (im : List Byte) : List Byte := slice im 0x40 29792

/-- Header and body: what is signed and measured. -/
def imageSigned (im : List Byte) : List Byte := im.take 64 ++ slice im 0x74A0 (fieldAt im 8 4)

/-- The greatest BODY_LEN of a kind; a policy's is exactly 64. -/
def bodyLenOk (kind n : Nat) : Bool :=
  match kind with
  | 1 => decide (1 ≤ n ∧ n ≤ 393216)
  | 2 => decide (1 ≤ n ∧ n ≤ 15728640)
  | 3 => n == 64
  | _ => false

/-- The Hull accepts an image of a kind. -/
def Otp.accepts (o : Otp) (kind : Nat) (im : List Byte) : Bool :=
  let key := fieldAt im 5 1
  let svn := fieldAt im 6 2
  fieldAt im 0 4 == 0x4E47534B && fieldAt im 4 1 == kind && decide (key ≤ 1) && !(key == 0 && o.retired) &&
    decide (o.svn ≤ svn ∧ svn ≤ 256) && bodyLenOk kind (fieldAt im 8 4) &&
    decide (0x74A0 + fieldAt im 8 4 ≤ im.length) && allZero (slice im 0x1C 36) &&
    (kind == 3 || allZero (slice im 0x0C 16)) &&
    Config.slhVerify (o.keys.getD key []) (imageSigned im) (imageSig im)

/-- The body of a policy image. -/
def policyBody (im : List Byte) : List Byte := slice im 0x74A0 64

/-- The policy names this part, or every part. -/
def Otp.policySerial (o : Otp) (im : List Byte) : Bool × Bool :=
  (slice im 0x0C 16 == o.serial, allZero (slice im 0x0C 16))

/-- A lifecycle transition that a policy may make (R432). -/
def transition (lc target : Nat) : Bool :=
  (lc == 1 && (target == 2 || target == 3)) || (lc == 2 && target == 3) || (lc != 4 && target == 4)

/-- The body of a policy is legal for this part. -/
def Otp.policyOk (o : Otp) (im : List Byte) : Bool :=
  let b := policyBody im
  let target := fieldAt b 2 1
  let named := (o.policySerial im).1
  let all := (o.policySerial im).2
  (named || all) && decide (fieldAt b 0 2 ≤ 256) && allZero (slice b 4 60) && decide (fieldAt b 3 1 ≤ 1) &&
    (fieldAt b 3 1 == 0 || fieldAt im 5 1 == 1) &&
    (target == 0xFF || (named && transition o.lifecycle target))

/-- Burn the fuses of an accepted policy. -/
def Otp.burn (o : Otp) (im : List Byte) : Otp :=
  let b := policyBody im
  let target := fieldAt b 2 1
  { o with svn := max o.svn (fieldAt b 0 2), retired := o.retired || fieldAt b 3 1 == 1,
           lifecycle := if target = 0xFF then o.lifecycle else target }

/-! ### Boot (R434 to R437) -/

/-- The identity seed. -/
def Otp.seed (o : Otp) : List Byte :=
  kmac256 o.uds [0x44, 0x5A, 0x38, 0x38, 0x31, 0x36, 0x20, 0x49, 0x44, 0x45, 0x4E, 0x54, 0x49, 0x54, 0x59] 96

/-- Step 4: the seed goes into Pit slots 0 and 1. -/
def Hull.deriveSeed (h : Hull) : Hull :=
  if h.otp.lifecycle = 1 ∨ h.otp.lifecycle = 2 then
    ((h.writePit 0 (h.otp.seed.take 64)).writePit 1 (h.otp.seed.drop 64))
  else h

/-- The image in a flash slot. -/
def Shell.image (s : Shell) (component : Nat) (slotB : Bool) : Option (List Byte) :=
  (s.flash.find? fun x => x.component == component && x.slotB == slotB).map fun x => x.image

/-- The active slot of a component. -/
def Shell.active (s : Shell) (component : Nat) : Bool :=
  ((s.activeB.find? fun x => x.1 == component).map fun x => x.2).getD false

/-- The image of a slot that the Hull accepts. -/
def Dev.acceptedIn (d : Dev) (component kind : Nat) (slotB : Bool) : Option (List Byte) :=
  (d.shell.image component slotB).filter fun im => d.hull.otp.accepts kind im

/-- Event data of a security event: lifecycle, level and Sesame result. -/
def Dev.securityData (d : Dev) : List Byte :=
  leBytes 1 d.hull.otp.lifecycle ++ leBytes 1 d.hull.debug ++ leBytes 1 d.hull.sesameResult

/-- Step 3: a pending accepted policy is applied. -/
def Dev.applyPolicy (d : Dev) : Dev :=
  match d.shell.policy with
  | none => d
  | some im =>
    let d := (d.onHull fun h => { h with otp := h.otp.burn im }).onShell fun s => { s with policy := none }
    d.logEvent 3 0 (Config.eventCode 1) d.securityData []

/-- Steps 5 to 7: Sprout from its active slot, or the other, which starts training (R258); with neither,
RECOVERY. -/
def Dev.startSprout (d : Dev) : Dev :=
  let b := d.shell.active 1
  match (d.acceptedIn 1 1 b).orElse fun _ => d.acceptedIn 1 1 (!b) with
  | some im => (d.onHull fun h => { h with mode := 0, measure2 := sha3_512 (imageSigned im) }).beginTraining
  | none => d.onHull fun h => { h with mode := 3 }

/-- Acorn (R434): in VOID the dies stay in reset and the responder answers. -/
def Dev.acorn (d : Dev) : Dev :=
  if d.hull.otp.lifecycle = 4 then ((d.onPw fun p => { p with clocksStopped := true }).enterPower 3)
  else
    let d := d.applyPolicy
    if d.hull.otp.lifecycle = 4 then ((d.onPw fun p => { p with clocksStopped := true }).enterPower 3)
    else ((d.onHull fun h => { h.deriveSeed with debug := if h.otp.lifecycle = 0 then 2 else 0 })).startSprout

/-- The Hull's part of a warm reset (R437): the Pit is wiped and the seed derived again. -/
def Dev.warmHull (d : Dev) : Dev :=
  d.onHull fun h =>
    let h : Hull := { h.wipePit with mode := 0, digest := Digest.reset, drbgReady := true, healthFail := false,
                                     drbgCount := 0, measure3 := List.replicate 64 0 }
    if h.debug = 2 ∧ h.otp.lifecycle ≠ 0 then h else h.deriveSeed

/-- MODE as SEC_STATUS reports it (R459). -/
def Hull.modeNow (h : Hull) : Nat :=
  if h.otp.lifecycle = 0 ∨ h.otp.lifecycle = 3 ∨ h.debug = 2 then 2 else h.mode

/-- A write of 1 to END_BOOT (R435, R459). -/
def Dev.endBoot (d : Dev) (src : RegFrom) : Dev :=
  if src ≠ .bar0 ∧ src ≠ .pf1 ∧ d.hull.mode = 0 then d.onHull fun h => { h with mode := 1 } else d

/-- END_BOOT (R435). -/
def execEndBoot (src : RegFrom) (s : State) : Host.Outcome State Fault Refusal :=
  s.act fun d =>
    if d.reaches src ⟨.SEC_CTRL, 0, 0⟩ then d.endBoot src else d.refuseAccess src ⟨.SEC_CTRL, 0, 0⟩

/-- The executive's first thread (log entry 52). -/
def executiveThread : NewThread :=
  { pod := 0, priv := true, ring := 0, index := 0, pipe := 0, inst := 0, stage := 0, prio := 0, pc := 0, g := [] }

/-- EXECUTIVE_START (R435): with neither slot accepted, an event is logged and the Shell stays reachable. -/
def execExecutiveStart (slotA : Bool) (s : State) : Host.Outcome State Fault Refusal :=
  s.act fun d =>
    if d.get F.MEM_TRAIN_STATE ≠ 3 ∨ d.hull.mode ≠ 0 then d
    else match (d.acceptedIn 2 2 (!slotA)).orElse fun _ => d.acceptedIn 2 2 slotA with
      | none => d.logEvent 5 2 (Config.eventCode 2) [] []
      | some im =>
        let d := d.onHull fun h => { h with measure3 := sha3_512 (imageSigned im), mode := 1 }
        match d.spawn executiveThread with
        | some r => r.2.schedule
        | none => d

/-! ### The digest engine (R439 to R443) -/

/-- The rate of an algorithm. -/
def Digest.rate (g : Digest) : Nat := if g.alg = 1 then 72 else 136

/-- The bytes of its result. -/
def Digest.outBytes (g : Digest) : Nat := if g.alg = 0 then 32 else if g.alg = 1 then 64 else g.outlen

/-- The result over the message. -/
def Digest.hash (g : Digest) : List Byte :=
  match g.alg with
  | 0 => sha3_256 g.message
  | 1 => sha3_512 g.message
  | 2 => shake256 g.outlen g.message
  | _ => kmac256 g.key g.message g.outlen

/-- Every byte of LEN is absorbed, or stands in the block being absorbed. -/
def Digest.full (g : Digest) : Bool := g.message.length == g.len

/-- A word enters: bytes beyond LEN are ignored; a full block, or the end of the message, is absorbed. -/
def Digest.take (g : Digest) (w : Word) : Digest :=
  let m := g.message ++ (leBytes 8 w.toNat).take (g.len - g.message.length)
  { g with message := m, latch := none, absorbing := m.length % g.rate == 0 || m.length == g.len }

/-- A DATA write of the owner. -/
def Digest.write (g : Digest) (w : Word) : Digest :=
  if g.full then { g with trunc := true }
  else if g.absorbing then (if g.latch.isSome then { g with lost := true } else { g with latch := some w })
  else g.take w

/-- What a refused requester reads: REASON, and 4 while REFUSED is set. -/
def Digest.refuse (g : Digest) (who : HullUser) (reason : Nat) : Digest :=
  { g with refused := upsert (fun x => x.1 == who) (who, reason + 4) g.refused }

/-- REASON of an OPEN that is refused, 0 for none. -/
def Dev.openReason (d : Dev) (who : HullUser) (v : Nat) : Nat :=
  let g := d.hull.digest
  let alg := fieldIn F.SEC_DG_CTRL_ALG v
  let dest := fieldIn F.SEC_DG_CTRL_DEST v
  let outlen := fieldIn F.SEC_DG_CTRL_OUTLEN v
  let key := fieldIn F.SEC_DG_CTRL_KEYSEL v
  if g.owner.isSome ∧ g.owner ≠ some who then 1
  else if dest < 64 ∧ (d.hull.modeNow = 1 ∨ ((d.hull.pitSlot dest).any fun p => p.locked) = true) then 2
  else if 3 < alg ∨ (64 ≤ dest ∧ dest ≠ 255) ∨ (2 ≤ alg ∧ (outlen = 0 ∨ 64 < outlen)) ∨ 63 < key ∨
      (alg = 3 ∧ (d.hull.pitSlot key).isNone = true) then 3
  else 0

/-- The parameters latched by an OPEN. -/
def Dev.digestLatch (d : Dev) (who : HullUser) (v : Nat) : Dev :=
  let len := fieldIn F.SEC_DG_CTRL_LEN v
  let key := ((d.hull.pitSlot (fieldIn F.SEC_DG_CTRL_KEYSEL v)).map fun p => p.bytes).getD []
  let d := (d.put F.SEC_DG_CTRL_LEN len).put F.SEC_DG_CTRL_KEYSEL (fieldIn F.SEC_DG_CTRL_KEYSEL v)
  let d := (d.put F.SEC_DG_CTRL_DEST (fieldIn F.SEC_DG_CTRL_DEST v)).put F.SEC_DG_CTRL_OUTLEN
    (fieldIn F.SEC_DG_CTRL_OUTLEN v)
  let d := d.put F.SEC_DG_CTRL_ALG (fieldIn F.SEC_DG_CTRL_ALG v)
  d.onHull fun h => { h with digest :=
    { Digest.reset with owner := some who, alg := fieldIn F.SEC_DG_CTRL_ALG v, len := len,
                        outlen := fieldIn F.SEC_DG_CTRL_OUTLEN v, dest := fieldIn F.SEC_DG_CTRL_DEST v,
                        absorbing := len == 0, key := key,
                        refused := h.digest.refused.filter fun x => x.1 != who, expired := h.digest.expired } }

/-- EXPIRED holds a requester's accesses off (R443). -/
def Dev.digestExpired (d : Dev) (who : HullUser) : Bool := d.hull.digest.expired.contains who

/-- A SEC_DG_CTRL write with OP OPEN (R439). -/
def Dev.digestOpen (d : Dev) (who : HullUser) (v : Nat) : Dev :=
  if d.digestExpired who then d
  else
    let why := d.openReason who v
    if why ≠ 0 then d.onHull fun h => { h with digest := h.digest.refuse who why }
    else d.digestLatch who v

/-- The engine is free; what each requester still reads stays. -/
def Digest.freed (g : Digest) : Digest := { Digest.reset with refused := g.refused, expired := g.expired }

/-- A SEC_DG_CTRL write with OP CLOSE (R439). -/
def Dev.digestClose (d : Dev) (who : HullUser) : Dev :=
  if d.digestExpired who || d.hull.digest.owner != some who then d
  else d.onHull fun h => { h with digest := h.digest.freed }

/-- A SEC_DG_DATA write (R440, R441). -/
def Dev.digestData (d : Dev) (who : HullUser) (w : Word) : Dev :=
  if d.digestExpired who || d.hull.digest.owner != some who then d
  else d.onHull fun h => { h with digest := h.digest.write w }

/-- OPEN (R439). -/
def execDigestOpen (who : HullUser) (value : BitVec 64) (s : State) : Host.Outcome State Fault Refusal :=
  s.act fun d => d.digestOpen who value.toNat

/-- CLOSE (R439). -/
def execDigestClose (who : HullUser) (s : State) : Host.Outcome State Fault Refusal :=
  s.act fun d => d.digestClose who

/-- DIGEST_DATA (R440). -/
def execDigestData (who : HullUser) (word : BitVec 64) (s : State) : Host.Outcome State Fault Refusal :=
  s.act fun d => d.digestData who word

/-- The first `n` bytes of EXPECT. -/
def Hull.expected (h : Hull) (n : Nat) : List Byte := (h.expect.flatMap fun w => leBytes 8 w.toNat).take n

/-- The message is complete: the result is squeezed and delivered (R441, R442). -/
def Hull.deliver (h : Hull) : Hull :=
  let g := h.digest
  let g := { g with absorbing := false, done := true }
  if g.lost then { h with digest := { g with result := 3 } }
  else
    let out := g.hash
    if g.dest = 255 then
      { h with digest := { g with output := out, result := if out = h.expected g.outBytes then 1 else 2 } }
    else { h.writePit g.dest out with digest := { g with output := out, result := 1 } }

/-- ABSORB_DONE (R440, R441): a permutation ends. -/
def execAbsorbDone (s : State) : Host.Outcome State Fault Refusal :=
  s.act fun d =>
    let g := d.hull.digest
    if !g.absorbing then d
    else if g.full then d.onHull Hull.deliver
    else
      let g := { g with absorbing := false }
      d.onHull fun h => { h with digest := match g.latch with
        | some w => g.take w
        | none => g }

/-- DIGEST_WATCHDOG (R443). -/
def execDigestWatchdog (s : State) : Host.Outcome State Fault Refusal :=
  s.act fun d =>
    match d.hull.digest.owner with
    | none => d
    | some who => d.onHull fun h =>
        { h with digest := { h.digest.freed with
            expired := if h.digest.expired.contains who then h.digest.expired else who :: h.digest.expired } }

/-- Code of a requester (R459 OWNER). -/
def HullUser.code : HullUser → Nat
  | .shell => 1
  | .exec => 2
  | .host => 3

/-- ABSORBED: the bytes of the blocks whose permutations have run, and LEN at the end. -/
def Digest.absorbed (g : Digest) : Nat :=
  let n := g.message.length
  if g.done then n else if g.absorbing then (n - 1) / g.rate * g.rate else n / g.rate * g.rate

/-- SEC_DG_STATUS as a requester reads it. -/
def Digest.status (g : Digest) (who : HullUser) : Nat :=
  let r := ((g.refused.find? fun x => x.1 == who).map fun x => x.2).getD 0
  g.absorbed * 2 ^ 32 +
    ((g.owner.map HullUser.code).getD 0) * 2 ^ 14 + (g.owner == some who).toNat * 2 ^ 13 + r % 4 * 2 ^ 10 +
    (r / 4) * 2 ^ 9 + (g.expired.contains who).toNat * 2 ^ 7 + g.lost.toNat * 2 ^ 6 + g.trunc.toNat * 2 ^ 5 +
    g.result * 4 + g.done.toNat * 2 + g.absorbing.toNat

/-- A read of SEC_DG_STATUS: EXPIRED and REFUSED clear for the reader. -/
def Dev.digestStatusRead (d : Dev) (who : HullUser) : Nat × Dev :=
  (d.hull.digest.status who, d.onHull fun h => { h with digest := { h.digest with
    expired := h.digest.expired.filter (· != who)
    refused := mapIf (fun x => x.1 == who) (fun x => (x.1, x.2 % 4)) h.digest.refused } })

/-- DIGEST_STATUS_READ (R443). -/
def execDigestStatusRead (who : HullUser) (s : State) : Host.Outcome State Fault Refusal :=
  s.act fun d =>
    let r := d.digestStatusRead who
    r.2.emit (.regRead r.1)

/-! ### Random numbers and the Pit (R445, R459) -/

/-- A DRBG word (log entry 2). -/
def Dev.drbg (d : Dev) : Word × Dev :=
  (Config.drbg d.fresh, ({ d with fresh := d.fresh + 1 }).onHull fun h => { h with drbgCount := h.drbgCount + 1 })

/-- A read of SEC_RNG. -/
def Dev.rngRead (d : Dev) : Nat × Dev :=
  if d.hull.drbgReady then (d.drbg.1.toNat, d.drbg.2) else (0, d)

/-- RNG_READ (R445). -/
def execRngRead (_who : HullUser) (s : State) : Host.Outcome State Fault Refusal :=
  s.act fun d =>
    let r := d.rngRead
    r.2.emit (.regRead r.1)

/-- DRBG_RESEED (R445). -/
def execDrbgReseed (s : State) : Host.Outcome State Fault Refusal :=
  s.act fun d => if d.hull.drbgReady then d.onHull fun h => { h with drbgCount := 0 } else d

/-- ENTROPY_HEALTH_FAIL (R445). -/
def execEntropyHealthFail (s : State) : Host.Outcome State Fault Refusal :=
  s.act fun d =>
    if d.hull.healthFail then d
    else (d.onHull fun h => { h with healthFail := true, drbgReady := false }).report { cls := 0x1B, srcKind := 10 }

/-- A read of SEC_PIT_DATA: where the Pit is not readable it reads zero and records a violation. -/
def Dev.pitRead (d : Dev) : Nat × Dev :=
  if d.pitNow = .readable then
    (((d.hull.pitSlot (d.get F.SEC_PIT_SEL_SLOT)).map fun p => fieldAt p.bytes (8 * d.get F.SEC_PIT_SEL_WORD) 8).getD 0, d)
  else (0, d.report { cls := 0x18, srcKind := 10, addr := (⟨.SEC_PIT_DATA, 0, 0⟩ : RegRef).addr })

/-- PIT_READ (R459). -/
def execPitRead (_who : HullUser) (s : State) : Host.Outcome State Fault Refusal :=
  s.act fun d =>
    let r := d.pitRead
    r.2.emit (.regRead r.1)

/-! ### Sesame (R454, R455) -/

/-- Four fresh words. -/
def Dev.drbg4 (d : Dev) : List Word × Dev :=
  let a := d.drbg
  let b := a.2.drbg
  let c := b.2.drbg
  let e := c.2.drbg
  ([a.1, b.1, c.1, e.1], e.2)

/-- REQUEST: a new challenge (R455, R460). -/
def Dev.sesameRequest (d : Dev) (level : Nat) : Dev :=
  let d := d.put F.DBG_SESAME_CTRL_LEVEL_REQ level
  if d.hull.locked || d.hull.healthFail then d
  else
    let r := d.drbg4
    let d := r.2.onHull fun h => { h with nonce := some r.1, level := level, token := [], tokenOver := false }
    (List.range 4).foldl (fun d j => d.put F.DBG_SESAME_NONCE_NONCE ((r.1.getD j 0).toNat) j) d

/-- The challenge that was issued. -/
def Dev.challenge (d : Dev) (nonce : List Word) : List Byte :=
  (nonce.flatMap fun w => leBytes 8 w.toNat) ++ slice d.hull.otp.serial 0 16 ++ leBytes 1 d.hull.otp.lifecycle ++
    leBytes 1 d.hull.level ++ leBytes 1 (d.get F.CTL_DEVICE_ID_STEPPING) ++ List.replicate 13 0

/-- A word of the token. -/
def Dev.sesameWord (d : Dev) (w : Word) : Dev :=
  d.onHull fun h => if h.token.length < 3732 then { h with token := h.token ++ [w] } else { h with tokenOver := true }

/-- SUBMIT: the nonce is consumed, and a token that carries the issued challenge goes to verification. -/
def Dev.sesameSubmit (d : Dev) : Dev :=
  if d.hull.verifying then d
  else
    let bytes := d.hull.token.flatMap fun w => leBytes 8 w.toNat
    let ok := match d.hull.nonce with
      | some n => !d.hull.tokenOver && d.hull.token.length == 3732 && bytes.take 64 == d.challenge n
      | none => false
    d.onHull fun h => { h with nonce := none, verifying := true, submitted := if ok then bytes else [] }

/-- The token is good: it carries a signature by the root key in use, and its level is legal. -/
def Hull.tokenGood (h : Hull) : Bool :=
  let level := fieldAt h.submitted 49 1
  !h.submitted.isEmpty && (level == 1 || level == 2) && levelLegal h.otp.lifecycle level &&
    Config.slhVerify (h.otp.keys.getD h.otp.retired.toNat []) (h.submitted.take 64) (h.submitted.drop 64)

/-- Verification ends. -/
def Dev.sesameDone (d : Dev) : Dev :=
  if !d.hull.verifying then d
  else
    let level := fieldAt d.hull.submitted 49 1
    let d := if d.hull.tokenGood then
        d.onHull fun h =>
          let h := if h.otp.lifecycle = 1 ∧ level = 2 then h.wipePit else h
          { h with debug := level, sesameResult := 1 }
      else d.onHull fun h => { h with fails := h.fails + 1, sesameResult := 2, locked := decide (16 ≤ h.fails + 1) }
    let d := d.onHull fun h => { h with verifying := false, submitted := [] }
    d.logEvent 3 0 (Config.eventCode 3) d.securityData []

/-- DROP: D0, or D2 in BLANK. -/
def Dev.sesameDrop (d : Dev) : Dev := d.onHull fun h => { h with debug := if h.otp.lifecycle = 0 then 2 else 0 }

/-- SESAME_REQUEST (R455). -/
def execSesameRequest (level : BitVec 2) (s : State) : Host.Outcome State Fault Refusal :=
  s.act fun d => d.sesameRequest level.toNat

/-- SESAME_RESPONSE_WORD (R460). -/
def execSesameResponseWord (word : BitVec 64) (s : State) : Host.Outcome State Fault Refusal :=
  s.act fun d => d.sesameWord word

/-- SESAME_SUBMIT (R455). -/
def execSesameSubmit (s : State) : Host.Outcome State Fault Refusal := s.act Dev.sesameSubmit

/-- SESAME_VERIFY_DONE (R455). -/
def execSesameVerifyDone (s : State) : Host.Outcome State Fault Refusal := s.act Dev.sesameDone

/-- SESAME_DROP (R455). -/
def execSesameDrop (s : State) : Host.Outcome State Fault Refusal := s.act Dev.sesameDrop

/-! ### The debug multiplexer (R456, R458) -/

/-- The group is not permitted in the current cell. -/
def Dev.muxDenied (d : Dev) (group : Nat) : Bool := decide (muxLimit d.hull.otp.lifecycle d.hull.debug ≤ group)

/-- DENIED of DBG_MUX: the group that is to be driven is not permitted in the current cell (R456, R460). -/
def Dev.muxRefused (d : Dev) : Bool := d.get F.DBG_MUX_EN == 1 && d.muxDenied (d.get F.DBG_MUX_GROUP)

/-- DEBUG_MUX_SELECT (R456). -/
def execDebugMuxSelect (group : BitVec 8) (en : Bool) (s : State) : Host.Outcome State Fault Refusal :=
  s.act fun d => (d.put F.DBG_MUX_GROUP group.toNat).put F.DBG_MUX_EN en.toNat

end Sys2Proof.Machine
end

