-- ==== Sys2Proof/Machine/Joins.lean ====
section
/-! DEFINITION. BUILD, PROBE, the spill of a build side and the replay of a probe side (R175 to
R178, R182 to R186), LOOKUP (R179) and the Bloom stages (R87, R180). -/

namespace Sys2Proof.Machine

/-! ### BUILD (R175, R182) -/

/-- Byte length of the normalised key of a type that can spill. -/
def keyLen (t : Nat) : Nat := if wide t then 16 else 8

/-- The region a stage names. -/
def Act.rgn (a : Act) : Nat := bitsOf a.w 48 8 % 16

/-- The state of that region. -/
def Act.jst (a : Act) : Nat := a.d.jstate a.i.pod a.rgn

/-- One build record of a BUILD instance. -/
def Act.spillBuild (a : Act) (x : BRec) : Except Fail Act :=
  let r := a.d.region a.i.pod a.rgn
  match Dev.spillRecord a.storer a.d r.spillArea r.spillLen a.st.chunks (hashPart x.hash) x.bytes with
  | none => .error destFull
  | some y =>
    let d := y.1.addTo F.JDR_POD_RGN_SPILLED_RECORDS 1 a.i.pod a.rgn
    .ok { a with d := d, st := { a.st with chunks := y.2 } }

/-- The switch to spilling (R182 step 1). -/
def Act.switchBuild (a : Act) : Except Fail Act :=
  let r := a.d.region a.i.pod a.rgn
  match Dev.initSpill a.storer a.d r.spillArea r.spillLen with
  | none => .error destFull
  | some d => .ok { a with d := (d.setRegion { r with unloaded := false }).setJstate a.i.pod a.rgn 4 }

/-- One present key of a BUILD (R175). -/
def Act.buildKey (a : Act) (pay : Nat) (x : BRec) : Act × Option Fail :=
  if pay = 1 ∧ 2 ^ 32 ≤ x.rownum then (a, some destFull)
  else if a.jst = 4 then
    match a.spillBuild x with
    | .ok b => (b, none)
    | .error f => (a, some f)
  else match a.d.insertRow a.storer (a.d.region a.i.pod a.rgn) pay x with
    | .ok d => ({ a with d := d }, none)
    | .fail d f => ({ a with d := d }, some f)
    | .overflow d =>
      if !swMode a.w 0 then ({ a with d := d }, some ⟨0x40, a.rgn⟩)
      else match ({ a with d := d } : Act).switchBuild with
        | .error f => ({ a with d := d }, some f)
        | .ok b =>
          match b.spillBuild x with
          | .ok c => (c, none)
          | .error f => (b, some f)

/-- One row of a BUILD: counted, and NULLKEY for a null key. -/
def Act.buildRow (a : Act) (pay : Nat) (x : Option BRec) : Act × Option Fail :=
  let p := a.i.pod
  let d := a.d.addTo F.JDR_POD_RGN_ROWS_BUILD_ROWS 1 p a.rgn
  match x with
  | none => ({ a with d := d.put F.JDR_POD_RGN_STATE_NULLKEY 1 p a.rgn }, none)
  | some y => ({ a with d := d } : Act).buildKey pay y

/-- The rows of a block, until one ends the stage. -/
def Act.buildRows (a : Act) (pay : Nat) : List (Option BRec) → Act × Option Fail
  | [] => (a, none)
  | x :: xs =>
    let y := a.buildRow pay x
    match y.2 with
    | some f => (y.1, some f)
    | none => y.1.buildRows pay xs

/-- The build rows of a block: key, hash annotation, row number and IN1's value. -/
def Act.buildRecs (a : Act) (v : Nat) (b : Block) (cols : List Col) : List (Option BRec) :=
  let t := a.p.typeOf (streamNo v)
  let cf := a.d.get F.JDR_POD_RGN_STATE_CASEFOLD a.i.pod a.rgn == 1
  let tv := a.p.typeOf (streamNo (swField a.w 16))
  let pick := keepRows (a.selected b.seq b.body.rowCount) (List.range b.body.rowCount)
  pick.map fun r => ((cols.getD 0 []).getD r none).map fun k =>
    let x : Option Val := (cols.getD 1 []).getD r none
    { hash := b.annAt r, rownum := rowNumber b.seq r, key := normKey t cf k,
      value := (x.map fun y => laneNat tv y % 2 ^ 32).getD 0, vnull := swField a.w 56 == 2 && x.isNone }

/-- BUILD over one block. -/
def buildBody (a : Act) (bs : List (Nat × Block)) : Turn :=
  match a.readAll bs, bs with
  | .error f, _ => .fail a f (setSeq bs) 0
  | .ok _, [] => .hold
  | .ok (a, cols), (v, b) :: _ =>
    let y := a.buildRows (swField a.w 56) (a.buildRecs v b cols)
    match y.2 with
    | some f => .fail y.1 f b.seq 0
    | none => .done y.1 true

/-- BUILD (R175). -/
def execBuild (w : StageRef) (s : State) : Host.Outcome State Fault Refusal :=
  s.act fun d => d.stage w 0x09 (fun _ => true) fun a => a.streamTurn false (annotated buildBody) endStage

/-- Build records of one entry: its own, or one for each link of its chain (R182 step 3). -/
def Dev.unloadEntry (d : Dev) (r : JRegion) (pay : Nat) (e : JEntry) : List BRec :=
  let h := kh64 r.seed.toNat e.key
  let v := if pay = 2 then e.payload else 0
  let one := fun row => ({ hash := h, rownum := row, key := e.key, value := v, vnull := e.vnull } : BRec)
  if pay = 0 then (match d.chainOf r e with
    | .ok l => l.map one
    | .error _ => [])
  else [one e.rowmin]

/-- Write the records of the walk. -/
def Dev.unloadRecs (d : Dev) (r : JRegion) (chunks : List (Nat × Nat)) : List BRec → Option Dev
  | [] => some d
  | x :: xs =>
    match Dev.spillRecord plainStore d r.spillArea r.spillLen chunks (hashPart x.hash) x.bytes with
    | none => none
    | some y => (y.1.addTo F.JDR_POD_RGN_SPILLED_RECORDS 1 r.pod r.rgn).unloadRecs r y.2 xs

/-- Instances of the run that holds a region and that build it. -/
def Dev.builders (d : Dev) (r : JRegion) : List (Inst × Pipe) :=
  d.insts.filterMap fun i =>
    if r.owner = some (i.ring, i.index) ∧ i.pod = r.pod then
      ((d.findRun i.ring i.index).bind fun x => x.pipeAt i.pipe).bind fun p =>
        if p.builds.contains r.rgn then some (i, p) else none
    else none

/-- Builders whose stages had all ended are DONE now (R182 step 4). -/
def Dev.releaseBuilders (d : Dev) (r : JRegion) : Dev :=
  (d.builders r).foldl (fun d x =>
    if x.1.life == .running && x.1.stages.all fun st => st.ended then d.instDone x.1 x.2 else d) d

/-- The BUILD stage of a pipeline for a region. -/
def Pipe.buildStage (p : Pipe) (g : Nat) : Nat :=
  (((p.stagesWith 0x09).find? fun x => bitsOf x.2 48 8 % 16 == g).map fun x => x.1).getD 0

/-- The end of the walk of R182. -/
def Dev.unloadDone (d : Dev) (p g : Nat) : Dev :=
  let r := d.region p g
  if d.jstate p g ≠ 4 ∨ r.unloaded then d else
  let es := d.jents.filter fun e => e.pod == p && e.rgn == g
  if es.any fun e => e.ue then (d.builders r).foldl (fun d x =>
      if x.1.life == .running then d.failInst x.1 (x.2.buildStage g) dirFail 0 0 else d) d
  else match (d.freeEntries p g).unloadRecs r [] (es.flatMap fun e => d.unloadEntry r (d.regionPay p g) e) with
  | some d => (d.setRegion { r with unloaded := true }).releaseBuilders r
  | none => (d.builders r).foldl (fun d x =>
      if x.1.life == .running then d.failInst x.1 (x.2.buildStage g) destFull 0 0 else d) d

/-- SPILL_UNLOAD_COMPLETE (R182). -/
def execSpillUnloadComplete (p : Fin 64) (rgn : Fin 16) (s : State) : Host.Outcome State Fault Refusal :=
  s.act fun d => d.unloadDone p.val rgn.val

/-! ### PROBE: one row (R176 to R178) -/

/-- No match, or false. -/
def annNone : Nat := 0xFFFFFFFFFFFFFFFF

/-- Unknown. -/
def annUnknown : Nat := 0xFFFFFFFFFFFFFFFE

/-- A match whose VALUE is null. -/
def annNullValue : Nat := 0xFFFFFFFFFFFFFFFD

/-- The annotation of an entry's payload (R177). -/
def JEntry.ann (e : JEntry) : Nat := if e.vnull then annNullValue else e.payload

/-- The table of R176: whether the selection bit stays, and the annotation. `m`: the payload of a
match. -/
def probeAnn (join : Nat) (keyNull : Bool) (m : Option Nat) (nullkey empty : Bool) : Bool × Nat :=
  match join with
  | 0 => (m.isSome, m.getD annNone)
  | 1 => (true, m.getD annNone)
  | 2 => (m.isSome, m.getD annNone)
  | 3 => (m.isNone, m.getD annNone)
  | _ =>
    if keyNull then (true, if empty then annNone else annUnknown)
    else (true, m.getD (if nullkey then annUnknown else annNone))

/-- Values OUT1 of an INNER or LEFT expand takes for a match (R178). -/
def Act.payloadRows (a : Act) (e : JEntry) : Except Fail (List (Option Val)) :=
  if a.d.regionPay a.i.pod a.rgn = 0 then
    (a.d.chainOf (a.d.region a.i.pod a.rgn) e).map fun l => l.map fun x => some (.int (x : Nat))
  else .ok [if e.vnull then none else some (.int (e.payload : Nat))]

/-- The JOIN code of a PROBE. -/
def Act.join (a : Act) : Nat := bitsOf a.w 40 3

/-- OUT1's rows of the expand form for one probed row. -/
def Act.expandRows (a : Act) (o : Bool × Nat) (m : Option JEntry) : Except Fail (List (Option Val)) :=
  match a.join with
  | 0 => (match m with
    | some e => a.payloadRows e
    | none => .ok [])
  | 1 => (match m with
    | some e => a.payloadRows e
    | none => .ok [none])
  | 2 => .ok (if o.1 then [none] else [])
  | 3 => .ok (if o.1 then [none] else [])
  | _ => .ok [if m.isSome then some (.int 1) else if o.2 = annUnknown then none else some (.int 0)]

/-- What one probed row gives: its selection bit, its annotation and its expand rows. -/
structure Probed where
  bit : Bool
  ann : Nat
  rows : List (Option Val)

/-- Probe one row: its hash and key, or no key. -/
def Act.probeRow (a : Act) (h : Nat) (key : Option (List Byte)) : Except Fail (Act × Probed) :=
  let p := a.i.pod
  let nk := a.d.get F.JDR_POD_RGN_STATE_NULLKEY p a.rgn == 1
  let empty := a.d.get F.JDR_POD_RGN_ROWS_BUILD_ROWS p a.rgn == 0
  let found : Except Fail (Act × Option JEntry) := match key with
    | none => .ok (a, none)
    | some k => (a.d.jfind p a.rgn h k).map fun e =>
        ({ a with d := a.d.count .JDR_SLICE_PROBES 1 (hashSlice h) }, e)
  match found with
  | .error f => .error f
  | .ok (a, m) =>
    let o := probeAnn a.join key.isNone (m.map JEntry.ann) nk empty
    if swMode a.w 3 then (a.expandRows o m).map fun l => (a, ⟨o.1, o.2, l⟩)
    else .ok (a, ⟨o.1, o.2, []⟩)

/-! ### The live pass (R176, R184) -/

/-- Streams a PROBE of a spilled region carries: those of IN0's group that a lower stage produces
and a later one consumes (R184). -/
def Act.carried (a : Act) : List StreamDesc :=
  if swMode a.w 3 then [] else a.p.streams.filter fun x =>
    x.key == a.p.groupOfStage a.n && decide (x.producer < a.n) && decide (a.n < x.consumer)

/-- The block of a carried stream with a sequence number, once lower taps have finished it. -/
def Act.carriedBlock (a : Act) (seq s : Nat) : Option Block :=
  ((a.i.chan s).blocks.find? fun b => b.seq == seq).filter fun b =>
    (a.p.tappers s).all fun m => decide (a.n ≤ m) || b.tapped.contains m

/-- One carried value of a probe record: 16-byte lane form and annotation (R183). -/
def carriedBytes (t : Nat) (v : Option Val) (ann : Nat) : List Byte :=
  slice ((v.map (laneBytes t)).getD []) 0 16 ++ leBytes 8 ann

/-- A carried stream's rows in the live pass. -/
structure Carry where
  desc : StreamDesc
  block : Block
  col : Col

/-- Read the carried blocks. -/
def Act.readCarried (a : Act) (seq : Nat) : List StreamDesc → Except Fail (Act × List Carry)
  | [] => .ok (a, [])
  | x :: xs =>
    match a.carriedBlock seq x.stream with
    | none => a.readCarried seq xs
    | some b =>
      match a.readBlock x.stream b with
      | .error f => .error f
      | .ok (a, c) => (a.readCarried seq xs).map fun y => (y.1, ⟨x, b, c⟩ :: y.2)

/-- The probe record of a row (R183). -/
def probeRecord (h rownum : Nat) (key : List Byte) (cs : List Carry) (r : Nat) : List Byte :=
  let vals := cs.map fun c => c.col.getD r none
  leBytes 8 h ++ leBytes 8 rownum ++ slice key 0 16 ++ leBytes 4 (bitmap (vals.map fun v => v.isSome)) ++
    leBytes 4 0 ++ ((cs.zip vals).flatMap fun x => carriedBytes x.1.desc.typ x.2 (x.1.block.annAt r))

/-- The instance's part of the probe spill area (R77, R173). -/
def Act.probeArea (a : Act) : Area := if a.k 2 = 0 ∨ a.k 3 = 0 then ⟨0, 0⟩ else a.area 2

/-- Write a probe record; the area's header comes first (log entry 23). -/
def Act.spillProbe (a : Act) (h : Nat) (rec_ : List Byte) : Except Fail Act :=
  let r := a.probeArea
  let start := if a.st.chunks.isEmpty then Dev.initSpill a.storer a.d r.base r.len else some a.d
  match start.bind fun d => Dev.spillRecord a.storer d r.base r.len a.st.chunks (hashPart h) rec_ with
  | none => .error destFull
  | some y => .ok { a with d := y.1, st := { a.st with chunks := y.2 } }

/-- One live row of a PROBE. `spilled`: the region is, so a row with a key becomes a record. -/
def Act.liveRow (a : Act) (spilled live : Bool) (h rownum : Nat) (key : Option (List Byte))
    (cs : List Carry) (r : Nat) : Except Fail (Act × Probed) :=
  if !live then .ok (a, ⟨true, annNone, []⟩)
  else match spilled, key with
    | true, some k => (a.spillProbe h (probeRecord h rownum k cs r)).map fun a => (a, ⟨false, annNone, []⟩)
    | _, _ => a.probeRow h key

/-- The rows of a live block. -/
def Act.liveRows (a : Act) (spilled : Bool) (b : Block) (keys : List (Option (List Byte))) (cs : List Carry) :
    List (Nat × Bool) → Except Fail (Act × List Probed)
  | [] => .ok (a, [])
  | (r, live) :: rest =>
    match a.liveRow spilled live (b.annAt r) (rowNumber b.seq r) (keys.getD r none) cs r with
    | .error f => .error f
    | .ok (a, x) => (a.liveRows spilled b keys cs rest).map fun y => (y.1, x :: y.2)

/-- Keep what replay needs to restore the carried streams (R185 step 6). -/
def Act.noteCarried (a : Act) (cs : List Carry) : Act :=
  let bases := cs.map fun c =>
    let base := match c.block.body with
      | .encoded h _ => (Husk.ofBytes h).base
      | .decoded _ => 0
    (c.desc.stream, base, c.block.ann.isSome)
  a.onSt fun st => { st with bases := bases.foldl (fun l x => upsert (fun y => y.1 == x.1) x l) st.bases }

/-- The expand rows of probed rows: row number and OUT1 (R178). -/
def expandOut (nums : List Nat) (ps : List Probed) : List (List (Option Val)) :=
  (nums.zip ps).flatMap fun x => x.2.rows.map fun v => [some (.int (x.1 : Nat)), v]

/-- Put one output block of expand rows. -/
def Act.putExpand (a : Act) (seq : Nat) (rows : List (List (Option Val))) : Act :=
  (a.outs.zipIdx).foldl (fun a x => a.put x.1 seq (colOfRows rows x.2)) a

/-- The next output block of pending expand rows; the input is finished with the last one. -/
def Act.emitExpand (a : Act) (seq : Nat) (rows : List (List (Option Val))) : Turn :=
  let b := a.putExpand seq (rows.take a.maxRows)
  let rest := rows.drop a.maxRows
  if rest.isEmpty then .done (b.onSt fun st => { st with outRows := none }) true
  else .done (b.onSt fun st => { st with outRows := some rest }) false

/-- The results of a live block. -/
def Act.finishLive (a : Act) (bs : List (Nat × Block)) (b : Block) (ps : List Probed) : Turn :=
  let a := a.onSt fun st => { st with seqOut := max st.seqOut (b.seq + 1) }
  if swMode a.w 3 then
    a.emitExpand b.seq (expandOut ((List.range ps.length).map (rowNumber b.seq)) ps)
  else
    let a := match bs with
      | _ :: (v, b1) :: _ => a.annotate v b1 (ps.map fun (x : Probed) => BitVec.ofNat 64 x.ann)
      | _ => a
    .done (a.writeSel (a.p.groupOfStage a.n) b.seq (ps.map fun (x : Probed) => x.bit)) true

/-- PROBE over one live block. -/
def probeBody (a : Act) (bs : List (Nat × Block)) : Turn :=
  match bs, a.st.outRows with
  | [], _ => .hold
  | (_, b) :: _, some rows => a.emitExpand b.seq rows
  | (v, b) :: _, none =>
    let spilled := a.jst == 5 || a.jst == 6
    let want := if spilled then a.carried else []
    if !(swMode a.w 3) && !a.selRoom (a.p.groupOfStage a.n) b.seq then .stall
    else if want.any fun x => (a.carriedBlock b.seq x.stream).isNone then .hold
    else match a.readBlock v b with
      | .error f => .fail a f b.seq 0
      | .ok (a, col) =>
        match a.readCarried b.seq want with
        | .error f => .fail a f b.seq 0
        | .ok (a, cs) =>
          let cf := a.d.get F.JDR_POD_RGN_STATE_CASEFOLD a.i.pod a.rgn == 1
          let keys := col.map fun x => x.map (normKey (a.p.typeOf (streamNo v)) cf)
          let n := b.body.rowCount
          match a.liveRows spilled b keys cs ((List.range n).zip (a.selected b.seq n)) with
          | .error f => .fail a f b.seq 0
          | .ok (a, ps) => (a.noteCarried cs).finishLive bs b ps

/-- The end of a PROBE's live pass: it ends, or waits for the replay (R185). -/
def probeFinal (a : Act) : Turn :=
  if a.jst = 5 ∨ a.jst = 6 then .quiet (a.onSt fun st => { st with liveDone := true })
  else .quiet a.finish

/-! ### Replay (R185) -/

/-- Bytes of a probe record. -/
def Act.recLen (a : Act) : Nat := 40 + 24 * a.carried.length

/-- The instance's records of the current wave and sub-range. -/
def Act.waveRecords (a : Act) : List (List Byte) :=
  let p := a.i.pod
  let g := a.rgn
  let r := a.probeArea
  let lo := a.d.get F.JDR_POD_RGN_STATE_WAVE_FIRST p g
  let hi := a.d.get F.JDR_POD_RGN_STATE_WAVE_LAST p g
  let slo := a.d.get F.JDR_POD_RGN_STATE_SUB_FIRST p g
  let shi := a.d.get F.JDR_POD_RGN_STATE_SUB_LAST p g
  if a.st.chunks.isEmpty then [] else
  ((List.range (hi + 1 - lo)).flatMap fun k => a.d.partRecords r.base r.len a.recLen (lo + k)).filter fun x =>
    let v := hashSub (fieldAt x 0 8)
    decide (slo ≤ v ∧ v ≤ shi)

/-- Probe the records of a replay block. -/
def Act.probeRecs (a : Act) (klen : Nat) : List (List Byte) → Except Fail (Act × List Probed)
  | [] => .ok (a, [])
  | x :: xs =>
    match a.probeRow (fieldAt x 0 8) (some (slice x 16 klen)) with
    | .error f => .error f
    | .ok (a, y) => (a.probeRecs klen xs).map fun z => (z.1, y :: z.2)

/-- A carried value of a record. -/
def carriedVal (t : Nat) (x : List Byte) (j : Nat) : Option Val :=
  if (fieldAt x 32 4).testBit j then some (valOfNat t (fieldAt x (40 + 24 * j) (if wide t then 16 else 8)))
  else none

/-- Put one carried stream's replay block: taps up to this stage have finished it. -/
def Act.putCarried (a : Act) (seq j : Nat) (x : StreamDesc) (recs : List (List Byte)) (ps : List Probed) : Act :=
  let note := a.st.bases.find? fun y => y.1 == x.stream
  let base := note.map fun y => y.2.1
  let had := (note.map fun y => y.2.2).getD false
  let mine := streamNo (swField a.w 16) == x.stream
  let ann := if mine then some (ps.map fun y => BitVec.ofNat 64 y.ann)
    else if had then some (recs.map fun y => BitVec.ofNat 64 (fieldAt y (56 + 24 * j) 8)) else none
  let a := a.putCol x.stream seq base (recs.map fun y => carriedVal x.typ y j)
  let done := (a.p.tappers x.stream).filter fun m => decide (m ≤ a.n)
  let mark := mapIf (fun (b : Block) => b.seq == seq % 2 ^ 32) fun b => { b with ann := ann, tapped := done }
  { a with i := a.i.onChan x.stream fun c => { c with blocks := mark c.blocks } }

/-- The replay block in the annotate form: its selection, which RELEASE frees again, and one more finished block
(R71). -/
def Act.replayAnnotate (a : Act) (recs : List (List Byte)) (ps : List Probed) : Act :=
  let seq := a.st.seqOut % 2 ^ 32
  let a := (a.carried.zipIdx).foldl (fun a x => a.putCarried seq x.2 x.1 recs ps) a
  let a := a.writeSel (a.p.groupOfStage a.n) seq (ps.map fun (x : Probed) => x.bit)
  let a := if a.w.testBit 47 then a.freeSel (a.p.groupOfStage a.n) seq else a
  a.onSt fun st => { st with finished := st.finished + 1 }

/-- After a replay block: the next number, the records read, and whether the wave is finished. -/
def Act.replayed (a : Act) (used : Nat) (last : Bool) : Act :=
  a.onSt fun st => { st with seqOut := st.seqOut + 1, cursor := st.cursor + used, waveDone := last && st.outRows.isNone }

/-- A replay block in the expand form, from rows not yet put. -/
def Act.replayExpand (a : Act) (used : Nat) (last : Bool) (rows : List (List (Option Val))) : Turn :=
  if rows.isEmpty then .done (a.onSt fun st =>
    { st with cursor := st.cursor + used, outRows := none, waveDone := last }) false
  else
    let rest := rows.drop a.maxRows
    let b := (a.putExpand a.st.seqOut (rows.take a.maxRows)).onSt fun st =>
      { st with outRows := if rest.isEmpty then none else some rest }
    .done (b.replayed used last) false

/-- Buffers and selection entry for a replay block. -/
def Act.replayRoom (a : Act) : Bool :=
  if swMode a.w 3 then a.outRoom
  else a.selRoom (a.p.groupOfStage a.n) (a.st.seqOut % 2 ^ 32) &&
    a.carried.all fun x => decide ((a.i.chan x.stream).blocks.length < 2)

/-- One activation of a PROBE in its replay. In an instance that a LIMIT has ended, nothing is produced (R90). -/
def Act.replayTurn (a : Act) : Turn :=
  let r := a.d.region a.i.pod a.rgn
  if a.jst ≠ 6 ∨ r.replay ≠ some (a.i.ring, a.i.index, a.i.pipe, a.n) ∨ a.st.waveDone then .hold
  else if a.limited then .quiet (a.onSt fun st => { st with outRows := none, waveDone := true })
  else if !a.replayRoom then .stall
  else
    let left := a.waveRecords.drop a.st.cursor
    match a.st.outRows with
    | some rows => a.replayExpand 0 left.isEmpty rows
    | none =>
      let batch := left.take a.maxRows
      let last := decide (left.length ≤ batch.length)
      if batch.isEmpty then .quiet (a.onSt fun st => { st with waveDone := true })
      else match a.probeRecs (keyLen r.keyType) batch with
        | .error f => .fail a f a.st.seqOut 0
        | .ok (a, ps) =>
          if swMode a.w 3 then a.replayExpand batch.length last (expandOut (batch.map fun x => fieldAt x 8 8) ps)
          else .done ((a.replayAnnotate batch ps).replayed batch.length last) false

/-- PROBE (R176). -/
def execProbe (w : StageRef) (s : State) : Host.Outcome State Fault Refusal :=
  s.act fun d => d.stage w 0x0A (fun _ => true) fun a =>
    if a.st.liveDone then ([], a.replayTurn) else a.streamTurn true (annotated probeBody) probeFinal

/-! ### Waves -/

/-- What loading a wave comes to. -/
inductive Load where
  | ok (d : Dev)
  | full (d : Dev)
  | fail (d : Dev) (f : Fail)

/-- Offer the records of a wave. -/
def Dev.loadRecs (d : Dev) (r : JRegion) (pay : Nat) : List BRec → Load
  | [] => .ok d
  | x :: xs =>
    match d.insertRow plainStore r pay x with
    | .ok d => d.loadRecs r pay xs
    | .overflow d => .full d
    | .fail d f => .fail d f

/-- Clear the region and load partitions `p` to `q`, sub-range `lo` to `hi` (R185 step 3). -/
def Dev.loadWave (d : Dev) (r : JRegion) (p q lo hi : Nat) : Load :=
  let pay := d.regionPay r.pod r.rgn
  let d := d.freeEntries r.pod r.rgn
  let d := if pay = 0 then d.zeroCount r.chain else d
  let recs := (List.range (q + 1 - p)).flatMap fun k => d.partRecords r.spillArea r.spillLen 40 (p + k)
  let mine := (recs.map (BRec.ofBytes (keyLen r.keyType))).filter fun x =>
    decide (lo ≤ hashSub x.hash ∧ hashSub x.hash ≤ hi)
  d.loadRecs r pay mine

/-- Report a wave. -/
def Dev.setWave (d : Dev) (r : JRegion) (p q lo hi : Nat) : Dev :=
  let x := r.pod
  let g := r.rgn
  (((d.put F.JDR_POD_RGN_STATE_WAVE_FIRST p x g).put F.JDR_POD_RGN_STATE_WAVE_LAST q x g).put
    F.JDR_POD_RGN_STATE_SUB_FIRST lo x g).put F.JDR_POD_RGN_STATE_SUB_LAST hi x g

/-- Form a wave (R185 steps 3 to 5): drop the last partition, or halve the sub-range, until the
load fits. -/
def Dev.formWave : Nat → Dev → JRegion → Nat → Nat → Nat → Nat → Except (Dev × Fail) Dev
  | 0, d, _, _, _, _, _ => .error (d, destFull)
  | fuel + 1, d, r, p, q, lo, hi =>
    match d.loadWave r p q lo hi with
    | .ok d => .ok (d.setWave r p q lo hi)
    | .fail d f => .error (d, f)
    | .full d =>
      if p < q then Dev.formWave fuel d r p (q - 1) lo hi
      else if lo < hi then Dev.formWave fuel d r p p lo ((lo + hi) / 2)
      else .error (d, destFull)

/-- The last partition of a wave from `q` on: at most `left` more records (R185 step 2). -/
def Dev.waveEnd (d : Dev) (r : JRegion) : Nat → Nat → Nat → Nat
  | 0, q, _ => q
  | fuel + 1, q, left =>
    let c := d.partCount r.spillArea (q + 1)
    if 255 ≤ q ∨ left < c then q else d.waveEnd r fuel (q + 1) (left - c)

/-- Form the wave that starts at partition `p`. -/
def Dev.waveFrom (d : Dev) (r : JRegion) (p : Nat) : Except (Dev × Fail) Dev :=
  let q := d.waveEnd r 256 p (56 * d.jB r.pod - d.partCount r.spillArea p)
  Dev.formWave 300 d r p q 0 255

/-- The instances of a replay. -/
def Dev.replayInsts (d : Dev) (x : Nat × Nat × Nat × Nat) : List Inst := d.pipeInsts x.1 x.2.1 x.2.2.1

/-- A stage of an instance. -/
def Inst.stAt (i : Inst) (n : Nat) (f : StageSt → Bool) : Bool := ((i.stages[n]?).map f).getD false

/-- The wave stands, and its instances read it from its start; or every instance ends (R185). -/
def Dev.startWave (x : Nat × Nat × Nat × Nat) : Except (Dev × Fail) Dev → Dev
  | .ok d => (d.replayInsts x).foldl (fun d i =>
      let st := mapIf (fun (y : StageSt × Nat) => y.2 == x.2.2.2)
        (fun y => ({ y.1 with waveDone := false, cursor := 0 }, y.2)) i.stages.zipIdx
      d.setInst { i with stages := st.map fun y => y.1 }) d
  | .error (d, f) => (d.replayInsts x).foldl (fun d i => d.failInst i x.2.2.2 f 0 0) d

/-- A pipeline whose PROBE instances of the region have all ended their live pass. -/
def Dev.replayReady (d : Dev) (p g : Nat) : Option (Nat × Nat × Nat × Nat) :=
  d.insts.findSome? fun i =>
    if i.pod ≠ p then none else
    ((d.findRun i.ring i.index).bind fun r => r.pipeAt i.pipe).bind fun q =>
      ((q.stagesWith 0x0A).find? fun x => bitsOf x.2 48 8 % 16 == g &&
        (d.pipeInsts i.ring i.index i.pipe).all fun j =>
          (j.life == .running || j.life == .migrating) &&
            j.stAt x.1 fun st => st.liveDone && !st.ended).map fun x => (i.ring, i.index, i.pipe, x.1)

/-- REPLAY_START (R185). -/
def execReplayStart (p : Fin 64) (rgn : Fin 16) (s : State) : Host.Outcome State Fault Refusal :=
  s.act fun d =>
    if d.jstate p.val rgn.val ≠ 5 then d else
    match d.replayReady p.val rgn.val with
    | none => d
    | some x =>
      let r := { d.region p.val rgn.val with replay := some x }
      let d := (d.setRegion r).setJstate p.val rgn.val 6
      Dev.startWave x (d.waveFrom r 0)

/-- A PROBE stage ends with its outputs and carried streams (R185 step 8). -/
def Dev.endReplay (d : Dev) (i : Inst) (n : Nat) : Dev :=
  match d.findRun i.ring i.index with
  | none => d
  | some r =>
    match r.pipeAt i.pipe, i.stages[n]? with
    | some p, some st => ({ d := d, i := i, r := r, p := p, n := n, st := st } : Act).finish.commit
    | _, _ => d

/-- The last wave is done. -/
def Dev.replayOver (d : Dev) (r : JRegion) (x : Nat × Nat × Nat × Nat) : Dev :=
  let d := (d.setRegion { r with replay := none }).setJstate r.pod r.rgn 5
  let d := (d.put F.JDR_POD_RGN_STATE_SUB_FIRST 0 r.pod r.rgn).put F.JDR_POD_RGN_STATE_SUB_LAST 255 r.pod r.rgn
  (d.replayInsts x).foldl (fun d i => d.endReplay i x.2.2.2) d

/-- The lowest set bit of a sub-range start: the width of the range that begins there. -/
def lowBit : Nat → Nat → Nat
  | 0, _ => 1
  | fuel + 1, s => if s % 2 = 1 then 1 else 2 * lowBit fuel (s / 2)

/-- The wave after the current one (R185 step 7). -/
def Dev.nextWave (d : Dev) (r : JRegion) (x : Nat × Nat × Nat × Nat) : Dev :=
  let q := d.get F.JDR_POD_RGN_STATE_WAVE_LAST r.pod r.rgn
  let hi := d.get F.JDR_POD_RGN_STATE_SUB_LAST r.pod r.rgn
  if hi < 255 then
    Dev.startWave x (Dev.formWave 300 d r q q (hi + 1) (hi + lowBit 8 (hi + 1)))
  else if q < 255 then Dev.startWave x (d.waveFrom r (q + 1))
  else d.replayOver r x

/-- REPLAY_WAVE_DONE (R185). -/
def execReplayWaveDone (p : Fin 64) (rgn : Fin 16) (s : State) : Host.Outcome State Fault Refusal :=
  s.act fun d =>
    let r := d.region p.val rgn.val
    match r.replay with
    | none => d
    | some x =>
      if d.jstate p.val rgn.val ≠ 6 ∨
          !((d.replayInsts x).all fun i => i.stAt x.2.2.2 fun st => st.waveDone) then d
      else
        let n := d.get F.JDR_POD_RGN_STATE_WAVES p.val rgn.val
        (d.put F.JDR_POD_RGN_STATE_WAVES (n + 1) p.val rgn.val).nextWave r x

/-! ### Bloom filters (R87, R180) -/

/-- FILT_K of a Bloom stage. -/
def Act.filter (a : Act) : Nat := a.k (swField a.w 104)

/-- Positions of a hash in the filter. -/
def Act.bloom (a : Act) (h : Nat) : List (Nat × Nat) := bloomBits h (bitsOf a.w 48 8) (swField a.w 56)

/-- What reading the filter's bytes of some keys finds. -/
def Act.lookBits (a : Act) (hs : List Nat) : Act :=
  if a.d.errs.planted.isEmpty then a else
  hs.foldl (fun a h => (a.bloom h).foldl (fun (a : Act) x => a.look (a.filter + x.1) 1) a) a

/-- Set the bits of a key. -/
def Act.bloomSet (a : Act) (h : Nat) : Except Fail Act :=
  let ps := a.bloom h
  match ps.findSome? fun x => a.readFault (a.filter + x.1) 1 addrFault with
  | some f => .error f
  | none => .ok (ps.foldl (fun a x =>
      let addr := a.filter + x.1
      let old := cellGet a.d.mem (a.d.localForm addr)
      a.atomicByte addr (old ||| BitVec.ofNat 8 (2 ^ x.2))) a)

/-- The bits of a key are all set. -/
def Act.bloomTest (a : Act) (h : Nat) : Except Fail (Act × Bool) :=
  let ps := a.bloom h
  match ps.findSome? fun x => a.readFault (a.filter + x.1) 1 addrFault with
  | some f => .error f
  | none =>
    let line := a.d.localForm (a.filter + (ps.head?.map fun x => x.1).getD 0)
    .ok (a.touch 0 line 1, ps.all fun x =>
      (cellGet a.d.mem (a.d.localForm (a.filter + x.1))).toNat.testBit x.2)

/-- BLOOMSET over the present keys of a block. -/
def Act.bloomSetRows (a : Act) : List Nat → Except Fail Act
  | [] => .ok a
  | h :: hs =>
    match a.bloomSet h with
    | .error f => .error f
    | .ok a => a.bloomSetRows hs

/-- BLOOMTEST over the rows of a block: `none` is a null key. -/
def Act.bloomTestRows (a : Act) : List (Option Nat) → Except Fail (Act × List Bool)
  | [] => .ok (a, [])
  | none :: hs => (a.bloomTestRows hs).map fun y => (y.1, false :: y.2)
  | some h :: hs =>
    match a.bloomTest h with
    | .error f => .error f
    | .ok (a, b) => (a.bloomTestRows hs).map fun y => (y.1, b :: y.2)

/-- Hashes of the rows of a block, `none` for a null key. -/
def keyHashes (b : Block) (c : Col) : List (Option Nat) :=
  c.zipIdx.map fun x => x.1.map fun _ => b.annAt x.2

/-- BLOOMSET over one block. -/
def bloomsetBody (a : Act) (bs : List (Nat × Block)) : Turn :=
  match bs with
  | [] => .hold
  | (v, b) :: _ =>
    match a.readBlock v b with
    | .error f => .fail a f b.seq 0
    | .ok (a, c) =>
      let hs := (keepRows (a.selected b.seq c.length) (keyHashes b c)).filterMap id
      let a := a.lookBits hs
      match a.bloomSetRows hs with
      | .error f => .fail a f b.seq 0
      | .ok a => .done a true

/-- BLOOMSET (R87). -/
def execBloomset (w : StageRef) (s : State) : Host.Outcome State Fault Refusal :=
  s.act fun d => d.stage w 0x22 (fun _ => true) fun a => a.streamTurn false (annotated bloomsetBody) endStage

/-- BLOOMTEST over one block. -/
def bloomtestBody (a : Act) (bs : List (Nat × Block)) : Turn :=
  match bs with
  | [] => .hold
  | (v, b) :: _ =>
    let g := a.p.groupOfStage a.n
    if !a.selRoom g b.seq then .stall
    else match a.readBlock v b with
      | .error f => .fail a f b.seq 0
      | .ok (a, c) =>
        let a := a.lookBits ((keyHashes b c).filterMap id)
        match a.bloomTestRows (keyHashes b c) with
        | .error f => .fail a f b.seq 0
        | .ok (a, bits) => .done (a.writeSel g b.seq bits) true

/-- BLOOMTEST (R180). -/
def execBloomtest (w : StageRef) (s : State) : Host.Outcome State Fault Refusal :=
  s.act fun d => d.stage w 0x23 (fun _ => true) fun a => a.streamTurn false (annotated bloomtestBody) endStage

end Sys2Proof.Machine
end

