-- ==== Sys2Proof/Machine/Power.lean ====
section
/-! DEFINITION. Power, clocks and reset (R406 to R425, R491, R497): CCLK and its limits, the droop
stretch, thermal trips, power states and their entry and exit, and the resets. -/

namespace Sys2Proof.Machine

/-! ### CCLK (R408, R409) -/

/-- The grade's highest CCLK (R2, R4). -/
def Dev.maxMhz (d : Dev) : Nat := if d.hull.otp.gradeB then 1600 else 1900

/-- A request after its clamps: the grade maximum, 800 MHz, and a 50 MHz step. -/
def Dev.clampMhz (d : Dev) (mhz : Nat) : Nat := max 800 (min mhz d.maxMhz) / 50 * 50

/-- The VDDC setpoint of a CCLK, 700 to 900 mV (log entry 5). -/
def vddcOf (mhz : Nat) : Nat := 700 + Config.vddcTable mhz % 201

/-- A voltage is written to the VDDC regulator. -/
def Dev.setVddc (d : Dev) (mhz : Nat) : Dev :=
  ((d.emit (.avs false (vddcOf mhz))).put F.CLK_CCLK_STATUS_VDDC_MV (vddcOf mhz)).onPw fun p => { p with avsWait := true }

/-- The least of the request and the limits. -/
def Dev.targetMhz (d : Dev) : Nat := min (d.get F.CLK_CCLK_STATUS_CLAMPED_MHZ) (min d.pw.powerMhz d.pw.thermalMhz)

/-- CCLK follows its target: a raise writes the voltage first and waits; lowering comes before the voltage. -/
def Dev.retune (d : Dev) : Dev :=
  let d := d.put F.CLK_CCLK_STATUS_LIMIT_MHZ (min d.pw.powerMhz d.pw.thermalMhz)
  let mhz := d.get F.CLK_CCLK_STATUS_MHZ
  let t := d.targetMhz
  if t < mhz then ((d.put F.CLK_CCLK_STATUS_MHZ t).setVddc t).onPw fun p => { p with pendingMhz := none }
  else if mhz < t then
    (if d.pw.pendingMhz = some t then d else (d.setVddc t).onPw fun p => { p with pendingMhz := some t })
  else if d.pw.pendingMhz.isSome then (d.setVddc mhz).onPw fun p => { p with pendingMhz := none }
  else d

/-- A write of CLK_CCLK_REQ: the register reads back what was written. -/
def Dev.cclkWrite (d : Dev) (v : Nat) (keepLow : Bool) : Dev :=
  let d := d.applyPlain ⟨.CLK_CCLK_REQ, 0, 0⟩ v keepLow
  (d.put F.CLK_CCLK_STATUS_CLAMPED_MHZ (d.clampMhz (d.get F.CLK_CCLK_REQ_MHZ))).retune

/-- CCLK_REQUEST (R2, R409). -/
def execCclkRequest (a : RegAccess) (s : State) : Host.Outcome State Fault Refusal :=
  s.act fun d => d.access a ⟨.CLK_CCLK_REQ, 0, 0⟩ Dev.cclkWrite

/-- AVS_COMPLETION (R408). -/
def execAvsCompletion (s : State) : Host.Outcome State Fault Refusal :=
  s.act fun d =>
    if !d.pw.avsWait then d
    else
      let d' := d.onPw fun p => { p with avsWait := false, pendingMhz := none }
      match d.pw.pendingMhz with
      | some m => d'.put F.CLK_CCLK_STATUS_MHZ m
      | none => d'

/-- AVS_TIMEOUT (R408). -/
def execAvsTimeout (s : State) : Host.Outcome State Fault Refusal :=
  s.act fun d =>
    if !d.pw.avsWait then d
    else ((d.onPw fun p => { p with avsWait := false, pendingMhz := none }).put F.PWR_STATUS_AVS_FAULT 1).report
      { cls := 0x1A, srcKind := 11 }

/-- One step down from the operating CCLK. -/
def Dev.stepDown (d : Dev) (limit : Nat) : Nat := max 800 (min limit (d.get F.CLK_CCLK_STATUS_MHZ) - 50)

/-- One step up. -/
def Dev.stepUp (d : Dev) (limit : Nat) : Nat := min d.maxMhz (limit + 50)

/-- POWER_LIMIT_TICK (R410). -/
def execPowerLimitTick (watts : BitVec 16) (s : State) : Host.Outcome State Fault Refusal :=
  s.act fun d =>
    let tdp := d.get F.PWR_LIMIT_TDP_W
    let w := watts.toNat
    if tdp < w then (d.onPw fun p => { p with powerMhz := d.stepDown p.powerMhz }).retune
    else if 100 * w < 98 * tdp then (d.onPw fun p => { p with powerMhz := d.stepUp p.powerMhz }).retune
    else d

/-! ### Droop (R417) -/

/-- DROOP_DETECT (R417). -/
def execDroopDetect (c : Fin 8) (s : State) : Host.Outcome State Fault Refusal :=
  s.act fun d =>
    if d.pw.stretched.contains c.val then d
    else (d.onPw fun p => { p with stretched := p.stretched ++ [c.val] }).count .PWR_DROOP_EVT 1

/-- DROOP_RECOVER (R417). -/
def execDroopRecover (c : Fin 8) (s : State) : Host.Outcome State Fault Refusal :=
  s.act fun d => d.onPw fun p => { p with stretched := p.stretched.filter (· != c.val) }

/-! ### What a reset and a power state lose (R418, R424) -/

/-- Fields whose value goes over from one device to another. -/
def Dev.carry (e d : Dev) (fs : List Fld) : Dev := fs.foldl (fun e f => e.put f (d.get f)) e

/-- The always-on records among the registers (R424). -/
def alwaysOn : List Fld := [F.PWR_RESET_CAUSE_HISTORY, F.PWR_RESET_CAUSE_CAUSE, F.PWR_WAKE_LAST]

/-- The RWS fields (R13). -/
def rwsFields : List Fld := [F.MEM_CFG_SPEED_MAX, F.PWR_WAKE_EN, F.PWR_LIMIT_TDP_W]

/-- Fields of the Shell island, which a warm reset and S2 leave (R418, R424). -/
def shellFields : List Fld :=
  [F.PWR_WAKE_PENDING, F.DBG_SESAME_CTRL_LEVEL_REQ, F.DBG_MUX_GROUP, F.DBG_MUX_EN, F.SHL_LOG_STATE_DROPPED,
    F.SHL_LOG_STATE_HEAD_SEQ, F.SHL_LOG_INDEX_ENTRY]

/-- A device that has lost everything of its dies. What lies outside them stays: host memory and the host's
page tables, peers' memory, and what has left the device. -/
def Dev.lost (d : Dev) : Dev :=
  { Dev.reset with
    hmem := d.hmem, peerMem := d.peerMem, poison := d.poison.filter fun x => decide (2 ^ 44 ≤ x.1),
    out := d.out, images := d.images, fresh := d.fresh, msgTag := d.msgTag,
    host := { HostSt.reset with unmapped := d.host.unmapped }, hull := { Hull.reset with otp := d.hull.otp } }

/-- What the Shell keeps in its flash and its log (R424, R446, R453). -/
def Shell.kept (s : Shell) : Shell :=
  { Shell.reset with flash := s.flash, activeB := s.activeB, policy := s.policy, trainKey := s.trainKey,
                     flashOk := s.flashOk, log := s.log, logSeq := s.logSeq, powerCycle := s.powerCycle }

/-- The device after a power-on, a brown-out or a cold reset. -/
def Dev.coldLoss (d : Dev) : Dev :=
  let e := ({ d.lost with shell := d.shell.kept }).carry d alwaysOn
  if d.shell.logSeq = 0 then e else e.put F.SHL_LOG_STATE_HEAD_SEQ (d.shell.logSeq - 1)

/-- The Sesame state of the Shell island (R455). -/
def Hull.withSesame (h old : Hull) : Hull :=
  { h with debug := old.debug, nonce := old.nonce, level := old.level, token := old.token, tokenOver := old.tokenOver,
           verifying := old.verifying, submitted := old.submitted, fails := old.fails,
           sesameResult := old.sesameResult, locked := old.locked }

/-- The nonce registers go with it. -/
def Dev.carryNonce (e d : Dev) : Dev :=
  (List.range 4).foldl (fun e j => e.put F.DBG_SESAME_NONCE_NONCE (d.get F.DBG_SESAME_NONCE_NONCE j) j) e

/-- Registers of the Shell island keep their staged lower halves: no reset of the dies clears them (R10). -/
def Dev.carryStaging (e d : Dev) : Dev :=
  let kept := ([F.PWR_WAKE_EN, F.PWR_LIMIT_TDP_W] ++ shellFields).map fun f => RegRef.addr ⟨f.kind, 0, 0⟩
  { e with staging := d.staging.filter fun x => kept.contains x.1 }

/-- The device after a warm reset: the Shell keeps running. -/
def Dev.warmLoss (d : Dev) : Dev :=
  let e := ((((d.lost.carry d alwaysOn).carry d rwsFields).carry d shellFields).carryNonce d).carryStaging d
  let hull := { (Hull.reset.withSesame d.hull) with otp := d.hull.otp, measure2 := d.hull.measure2 }
  ({ e with shell := d.shell, hull := hull }).warmHull

/-- The device in S2: the Shell island only, with its processor halted. The Pit is wiped and a Sesame grant
ends (R455, R458). -/
def Dev.deepLoss (d : Dev) : Dev :=
  let e := ((((d.lost.carry d alwaysOn).carry d rwsFields).carry d shellFields).carryNonce d).carryStaging d
  let h := Hull.reset.withSesame d.hull
  let hull := { h with otp := d.hull.otp, measure2 := d.hull.measure2, debug := if d.hull.otp.lifecycle = 0 then 2 else 0 }
  let e := { e with shell := { d.shell with running := false, update := none, signing := none }, hull := hull }
  let e := e.onPw fun p => { p with clocksStopped := true, latched := d.pw.latched, thermtripN := d.pw.thermtripN,
                                    tripPending := d.pw.tripPending, pwrokLost := d.pw.pwrokLost }
  let e := (List.range 4).foldl (fun e k => if d.portState k = 6 then e.enterPort k 6 else e) e
  e.enterPower 3

/-! ### Resets (R424, R425) -/

/-- The cause of a reset. -/
def Dev.setCause (d : Dev) (c : Nat) : Dev :=
  (d.put F.PWR_RESET_CAUSE_CAUSE c).put F.PWR_RESET_CAUSE_HISTORY (d.get F.PWR_RESET_CAUSE_HISTORY ||| 2 ^ (c - 1))

/-- VDDM is set to 0.80 V (R408). -/
def Dev.setVddm (d : Dev) : Dev := (d.emit (.avs true 800)).onPw fun p => { p with avsWait := true }

/-- Power-on (R408, R424): the cycle is counted, Acorn runs, and VDDM is set unless the part stays in S2. -/
def Dev.powerOn (d : Dev) : Dev :=
  let e := ((d.coldLoss.setCause 1).onShell fun s => { s with powerCycle := s.powerCycle + 1 }).acorn
  if e.pstate = 3 then e else e.setVddm

/-- A cold reset. -/
def Dev.coldReset (d : Dev) (cause : Nat) : Dev := ((d.fenceSelf.coldLoss).setCause cause).acorn

/-- A warm reset: Sprout starts training anew (R258, R424). -/
def Dev.warmReset (d : Dev) (cause : Nat) : Dev :=
  let d := (d.fenceSelf.warmLoss).setCause cause
  if d.hull.otp.lifecycle = 4 then d else d.beginTraining

/-- A reset is possible: VAUX and the other rails are up, and no thermal trip is pending, which outranks
it; it takes precedence over an entry or an exit (R424). -/
def Dev.mayReset (d : Dev) : Bool := !d.pw.off && !d.pw.tripPending && !d.pw.pwrokLost && d.pstate != 3

/-- POWER_ON_RESET (R424, R425). -/
def execPowerOnReset (s : State) : Host.Outcome State Fault Refusal := s.always Dev.powerOn

/-- COLD_RESET (R424, R425): the pin, or a command. -/
def execColdReset (cmd : Bool) (s : State) : Host.Outcome State Fault Refusal :=
  s.always fun d => if d.mayReset then d.coldReset (if cmd then 4 else 3) else d

/-- WARM_RESET (R424, R425): PERST_N, or a command. -/
def execWarmReset (cmd : Bool) (s : State) : Host.Outcome State Fault Refusal :=
  s.always fun d => if d.mayReset then d.warmReset (if cmd then 7 else 6) else d

/-- SHELL_WATCHDOG (R449). -/
def execShellWatchdog (s : State) : Host.Outcome State Fault Refusal :=
  s.always fun d => if d.shellRuns ∧ d.mayReset = true then d.warmReset 8 else d

/-- BROWNOUT (R423): in S2 the island restarts as at power-on, and the device stays in S2. -/
def execBrownout (s : State) : Host.Outcome State Fault Refusal :=
  s.always fun d =>
    if d.pw.off ∨ d.pstate ≠ 3 then d
    else
      let e := (d.coldLoss.setCause 2).deepLoss
      e.onPw fun p => { p with latched := 0, thermtripN := d.pw.thermtripN, tripPending := d.pw.tripPending,
                               pwrokLost := d.pw.pwrokLost }

/-- VAUX_REMOVED (R418): the always-on records are what a later power-on finds. -/
def execVauxRemoved (s : State) : Host.Outcome State Fault Refusal :=
  s.always fun d =>
    if d.pw.off then d
    else (d.coldLoss.onPw fun p => { p with off := true, clocksStopped := true }).onShell fun s =>
      { s with running := false }

/-- PLL_LOCK_LOSS (R497): in P0, P1 and S1. -/
def execPllLockLoss (_pll : Fin 8) (s : State) : Host.Outcome State Fault Refusal :=
  s.act fun d => if 2 < d.pstate then d else (d.logEvent 2 3 0x20 [] []).coldReset 4

/-! ### Thermal limits and trips (R411, R412) -/

/-- Event data of a rail or thermal event: sensor ID and reading (R453). -/
def sensorData (id v : Nat) : List Byte := leBytes 2 id ++ leBytes 4 v

/-- A thermal trip: the clocks stop and the device stays in S2. -/
def Dev.trip (d : Dev) (sensor v : Nat) : Dev :=
  let d := d.report { cls := 0x1C, srcKind := 11, source := sensor, fence := true, fatal := true }
  let d := (d.logEvent 2 3 (Config.eventCode 4) (sensorData sensor v) []).onPw fun p =>
    { p with thermtripN := true, tripPending := true }
  d.deepLoss

/-- THERMAL_TRIP (R412): a sensor at 115 °C or above. -/
def execThermalTrip (sensor : Fin 40) (reading : BitVec 8) (s : State) : Host.Outcome State Fault Refusal :=
  s.act fun d => if 115 ≤ reading.toNat then d.trip (sensor.val + 1) reading.toNat else d

/-- Thermal throttling begins: one record. -/
def Dev.throttle (d : Dev) : Dev :=
  if d.get F.PWR_THERMAL_THROTTLE = 1 then d
  else (d.put F.PWR_THERMAL_THROTTLE 1).report { cls := 0x1C, srcKind := 11 }

/-- One millisecond of the thermal limit. -/
def Dev.thermalStep (d : Dev) (tj : Nat) : Dev :=
  let d := d.put F.PWR_THERMAL_TJ_MAX tj
  if 100 ≤ tj then (d.throttle.onPw fun p => { p with thermalMhz := d.stepDown p.thermalMhz }).retune
  else if tj < 97 then
    let d := (d.onPw fun p => { p with thermalMhz := d.stepUp p.thermalMhz }).retune
    if d.pw.thermalMhz = d.maxMhz then d.put F.PWR_THERMAL_THROTTLE 0 else d
  else d

/-- THERMAL_TICK (R411). -/
def execThermalTick (tj : BitVec 8) (s : State) : Host.Outcome State Fault Refusal :=
  s.act fun d => d.thermalStep tj.toNat

/-! ### P1 (R419) -/

/-- P1_ENTRY (R419): every tile is idle and no run is in progress. -/
def execP1Entry (s : State) : Host.Outcome State Fault Refusal :=
  s.act fun d =>
    if d.pstate = 0 ∧ d.runs.isEmpty = true ∧ d.insts.isEmpty = true ∧ (d.errs.tests.all fun t => !t.testing) = true then
      d.enterPower 1
    else d

/-- P1_EXIT (R419). -/
def execP1Exit (s : State) : Host.Outcome State Fault Refusal := s.act Dev.leaveP1

/-! ### Entry to S1 and S2 (R420) -/

/-- A request is refused. -/
def Dev.refusePower (d : Dev) (reason : Nat) : Dev := (d.put F.PWR_STATE_REJECT 1).put F.PWR_STATE_REASON reason

/-- Nothing keeps the device in P0: no run, and every ring and DMA channel IDLE or DISABLED. -/
def Dev.quiet (d : Dev) : Bool :=
  d.runs.isEmpty && ((List.range 1024).all fun n => decide (d.ringState n ≤ 1)) &&
    (List.range 32).all fun n => decide (d.dmaState n ≤ 1)

/-- Steps 1 and 2 of an entry, and LPREQ on every ACTIVE port (R366). -/
def Dev.beginEntry (d : Dev) (target : Nat) : Dev :=
  let d := d.fenceSelf
  let d := (d.lines.filter fun l => l.st == .m && (d.homeAgent l.addr).isSome).foldl (fun d l =>
    (d.writeBack l.agent l.addr (d.anyRead l.addr 64) l.poison).setLine { l with st := .e, stale := none }) d
  let d := (List.range 4).foldl (fun d k =>
    if d.portState k = 4 then (d.onPort k fun p => { p with lpWait := true }).emit (.link k 1 0) else d) d
  let from_ := d.pstate
  ((d.put F.PWR_STATE_REASON 0).enterPower 4).onPw fun p => { p with target := target, fromState := from_, latched := 0 }

/-- A request for a power state: 0 P0, 2 S1, 3 S2 (R420, R422, R427). -/
def Dev.powerRequest (d : Dev) (req : Nat) : Dev :=
  match d.pstate with
  | 5 => d.onPw fun p => { p with heldReq := some req }
  | st =>
    if req = 0 then
      (if st = 1 then d.enterPower 0
      else if st = 2 ∨ (st = 4 ∧ d.pw.target = 2) then d.wakeUp 0x20
      else d)
    else if st = 4 then d.refusePower 1
    else if st = req then d
    else if d.quiet then d.beginEntry req
    else d.refusePower 1

/-- REQUEST_S1 (R420). -/
def execRequestS1 (s : State) : Host.Outcome State Fault Refusal := s.act fun d => d.powerRequest 2

/-- REQUEST_S2 (R420). -/
def execRequestS2 (s : State) : Host.Outcome State Fault Refusal := s.act fun d => d.powerRequest 3

/-- REQUEST_P0 (R422). -/
def execRequestP0 (s : State) : Host.Outcome State Fault Refusal := s.act fun d => d.powerRequest 0

/-- A write of PWR_STATE: REJECT is cleared by 1, and REQ asks for a state. -/
def Dev.powerStateWrite (d : Dev) (v : Nat) (keepLow : Bool) : Dev :=
  let d := d.applyPlain ⟨.PWR_STATE, 0, 0⟩ v keepLow
  let req := fieldIn F.PWR_STATE_REQ v
  if keepLow then d
  else if req = 0 ∨ req = 2 ∨ req = 3 then d.powerRequest req
  else d.refusePower 2

/-- Tiles and clusters lose their state (R418): stores, caches, directories of joins and ranges, and the
program caches. Lines of this device's own memory count as written back (log entry 53). -/
def Dev.gateTiles (d : Dev) : Dev :=
  let d := (List.range 64).foldl (fun d p => if d.podState p = 0 then d else d.emptyRegions p) d
  let dir := (d.dir.map fun e => { e with ptrs := e.ptrs.filter fun x => decide (8 ≤ x) }).filter fun e =>
    !e.ptrs.isEmpty || e.bcast
  { d with lines := d.lines.filter fun l => decide (8 ≤ l.agent)
           misses := [], missWait := [], hints := [], wbb := [], maint := [], pfs := [], pgc := [], tsPoison := [], slotMarks := []
           dir := dir
           lastPod := [], sels := []
           errs := { d.errs with planted := d.errs.planted.filter fun x => x.1 != 1 && x.1 != 4 } }

/-- The latched wakes are replayed (R422). -/
def Dev.replayWakes (d : Dev) : Dev :=
  let ws := d.pw.latched
  let d := d.onPw fun p => { p with latched := 0 }
  if ws = 0 then d else d.wakeUp ws

/-- POWER_ENTRY_COMPLETE (R420): no tile is under test and every port is in LOWPOWER. -/
def execPowerEntryComplete (s : State) : Host.Outcome State Fault Refusal :=
  s.act fun d =>
    if d.pstate ≠ 4 ∨ (d.errs.tests.any fun t => t.testing) = true ∨ (d.ports.any fun p => p.lpWait) = true then d
    else if d.pw.target = 2 then (d.gateTiles.enterPower 2).replayWakes
    else (d.deepLoss.emit .pmbusOff).replayWakes

/-! ### Exit (R407, R412, R421) -/

/-- The range of a rail in mV: 0 VDDC, 1 VDDM, 2 VPHY, 3 VDDQ_PHY, 4 V18, 5 VAUX (R489). -/
def Dev.railRange (d : Dev) (rail : Nat) : Option (Nat × Nat) :=
  match rail with
  | 0 =>
    let v := d.get F.CLK_CCLK_STATUS_VDDC_MV
    if v = 0 then none else some (v - 30, v + 30)
  | 1 => some (776, 824)
  | 2 => some (735, 765)
  | 3 => some (1067, 1133)
  | 4 => some (1710, 1890)
  | _ => some (1700, 3600)

/-- A voltage monitor's reading is out of its rail's range: 0x10 low, 0x11 high (R491). -/
def Dev.railFault (d : Dev) (r : SensorReading) : Option Nat :=
  let id := r.sensor.toNat
  let v := r.value.toNat
  if id < 41 ∨ 64 < id then none
  else (d.railRange (Config.monitorRail id % 6)).bind fun x =>
    if v < x.1 then some 0x10 else if x.2 < v then some 0x11 else none

/-- The Shell's check of the rails before the return order: the first reading out of range, with its code (R407; log
entry 88). -/
def Dev.badRail (d : Dev) : Option (SensorReading × Nat) :=
  d.shell.readings.findSome? fun r => (d.railFault r).map fun c => (r, c)

/-- A step's ready signal: the next step starts. -/
def Dev.nextStep (d : Dev) : Dev := d.put F.PWR_STATE_STEP (d.get F.PWR_STATE_STEP + 1)

/-- Step 1 is ready: the regulators stand at their setpoints. -/
def Dev.regulatorsUp (d : Dev) : Dev :=
  let mhz := d.get F.CLK_CCLK_STATUS_MHZ
  let d := if d.pw.fromState = 3 then d.setVddm else d
  (d.setVddc mhz).onPw fun p => { p with avsWait := false }

/-- The die is still hot after a trip: the device goes back to S2 (R412). -/
def Dev.stayDown (d : Dev) (tj : Nat) : Dev :=
  ((((d.logEvent 2 2 (Config.eventCode 5) (sensorData 0 tj) []).emit .pmbusOff).put F.PWR_STATE_STEP 0).enterPower 3).onShell
    fun s => { s with running := false }

/-- The exit completes: after S2 the bring-up of a cold reset follows, and after a trip the reset itself. -/
def Dev.exitDone (d : Dev) : Dev :=
  let deep := d.pw.fromState == 3
  let held := d.pw.heldReq
  let d := ((d.put F.PWR_STATE_STEP 0).enterPower 0).onPw fun p => { p with clocksStopped := false, heldReq := none }
  if d.pw.tripPending then (d.coldLoss.setCause 5).acorn
  else
    let d := if deep then d.acorn else d
    match held with
    | some r => d.powerRequest r
    | none => d

/-- A rail is out of tolerance: the device stays in S2, and the log names the rail by its monitor (R407, R491). -/
def Dev.railHolds (d : Dev) (r : SensorReading) (code : Nat) : Dev :=
  ((((d.logEvent 2 1 code (sensorData r.sensor.toNat r.value.toNat) []).put F.PWR_STATE_STEP 0).enterPower 3)).onShell
    fun s => { s with running := false }

/-- Step 1 of the exit: after S2 the Shell checks the rails first (R407). -/
def Dev.exitRegulators (d : Dev) : Dev :=
  match if d.pw.fromState = 3 then d.badRail else none with
  | some x => d.railHolds x.1 x.2
  | none => d.regulatorsUp.nextStep

/-- Step 3: after S1 every channel leaves self-refresh (R261, R421). -/
def Dev.exitMemories (d : Dev) : Dev := (if d.pw.fromState = 2 then d.leaveSelfRefresh else d).nextStep

/-- EXIT_STEP_READY (R407, R412, R421); `tj` is the hottest die sensor, which the Shell reads after step 2. -/
def execExitStepReady (tj : BitVec 8) (s : State) : Host.Outcome State Fault Refusal :=
  s.always fun d =>
    if d.pstate ≠ 5 ∨ d.pw.off = true then d
    else match d.get F.PWR_STATE_STEP with
      | 1 => d.exitRegulators
      | 2 => if d.pw.tripPending ∧ 90 ≤ tj.toNat then d.stayDown tj.toNat else d.nextStep
      | 3 => d.exitMemories
      | _ => d.exitDone

/-! ### SYS_PWROK (R491) -/

/-- PWROK_LOSS (R491): outside an S2 entry that the device made. -/
def execPwrokLoss (s : State) : Host.Outcome State Fault Refusal :=
  s.always fun d =>
    if d.pw.off ∨ d.pstate = 3 ∨ (d.pstate = 4 ∧ d.pw.target = 3) then d
    else ((d.logEvent 2 3 0x12 [] []).onPw fun p => { p with pwrokLost := true }).deepLoss

/-- SYS_PWROK_RISE (R491): an exit from S2 without a wake source or a reset cause. -/
def execSysPwrokRise (s : State) : Host.Outcome State Fault Refusal :=
  s.always fun d =>
    if d.pw.pwrokLost then (d.onPw fun p => { p with pwrokLost := false }).beginExit else d

/-! ### Sensors (R449, R491) -/

/-- One reading: a voltage out of range is logged. -/
def Dev.sample (d : Dev) (r : SensorReading) : Dev :=
  let id := r.sensor.toNat
  let v := r.value.toNat
  let d := d.onShell fun s => { s with readings := upsert (fun x => x.sensor == r.sensor) r s.readings }
  match d.railFault r with
  | some code => d.logEvent 2 1 code (sensorData id v) []
  | none => d

/-- SENSOR_SAMPLE (R449, R491): outside S2. -/
def execSensorSample (readings : List SensorReading) (s : State) : Host.Outcome State Fault Refusal :=
  s.always fun d => if d.shellRuns ∧ d.pstate ≠ 3 then readings.foldl Dev.sample d else d

end Sys2Proof.Machine
end

