-- ==== Sys2Proof/Machine/Shell.lean ====
section
/-! DEFINITION. The Shell's endpoints (R446 to R453, R457): MCTP control, PLDM firmware update and sensors,
SPDM, event-log reads and the test access port. A response is `Out.mctp`: the binding, a kind, and its
bytes. Kinds: 0x100 + command for MCTP control, 0x200 + command for PLDM Type 2, 0x500 + command for PLDM
Type 5, 0x1000 + response code for SPDM, 0x7E00 for vendor messages. Completion codes, command numbers and
layouts are those of the cited DMTF specifications (PRESUMED, log entry 6). -/

namespace Sys2Proof.Machine

/-! ### What is served (R438, R452) -/

/-- The kinds of request. -/
inductive Ask where
  | control
  | sensors
  | update
  | version
  | measure (signed : Bool)
  | spdm
  | vendor
  deriving DecidableEq, Repr

/-- The endpoint of a binding answers a kind of request: in VOID the responder only, in RECOVERY the
firmware receiver on SMBus only. -/
def Dev.serves (d : Dev) (b : Binding) (k : Ask) : Bool :=
  d.shellRuns && (b != .pcie || d.host.up) &&
    (if d.hull.otp.lifecycle = 4 then
      b != .pcie && (k == .control || k == .sensors || k == .version || k == .measure false)
    else if d.hull.mode = 3 then b == .smbus && k == .update
    else true)

/-- A request of the Shell's endpoint. -/
def State.mgmt (s : State) (b : Binding) (k : Ask) (f : Dev → Dev) : Host.Outcome State Fault Refusal :=
  s.always fun d => if d.serves b k then f d else d

/-- Send a response. -/
def Dev.mctpAnswer (d : Dev) (b : Binding) (kind : Nat) (body : List Nat) : Dev := d.emit (.mctp b kind body)

/-- Bytes as the numbers of a response. -/
def natsOf (bs : List Byte) : List Nat := bs.map BitVec.toNat

/-! ### MCTP control (R451) -/

/-- The EID of a binding. -/
def Shell.eid (s : Shell) (b : Binding) : Nat := ((s.eids.find? fun x => x.1 == b).map fun x => x.2).getD 0

/-- One control message: 1 Set Endpoint ID, 2 Get Endpoint ID, 4 Get Version, 5 Get Message Types. -/
def Dev.mctpControl (d : Dev) (b : Binding) (command eid : Nat) : Dev :=
  match command with
  | 1 =>
    if eid = 0 ∨ eid = 255 then d.mctpAnswer b 0x101 [2]
    else (d.onShell fun s => { s with eids := upsert (fun x => x.1 == b) (b, eid) s.eids }).mctpAnswer b 0x101 [0, 0, eid]
  | 2 => d.mctpAnswer b 0x102 [0, d.shell.eid b]
  | 4 => d.mctpAnswer b 0x104 (0 :: natsOf (Config.mgmtBytes 4 []))
  | 5 => d.mctpAnswer b 0x105 [0, 4, 0x00, 0x01, 0x05, 0x7E]
  | c => d.mctpAnswer b (0x100 + c) [5]

/-- MCTP_CONTROL (R451). -/
def execMctpControl (b : Binding) (command eid : BitVec 8) (s : State) : Host.Outcome State Fault Refusal :=
  s.mgmt b .control fun d => d.mctpControl b command.toNat eid.toNat

/-! ### Firmware update (R446, R447) -/

/-- The update of a binding, when one is in progress. -/
def Dev.updateOf (d : Dev) (b : Binding) : Option Update := d.shell.update.filter fun u => u.binding == b

/-- Replace it. -/
def Dev.setUpdate (d : Dev) (u : Option Update) : Dev := d.onShell fun s => { s with update := u }

/-- A command of an update in one of some states; otherwise NOT_IN_UPDATE_MODE or INVALID_STATE. -/
def Dev.inUpdate (d : Dev) (b : Binding) (command : Nat) (states : List Nat) (f : Update → Dev) : Dev :=
  match d.updateOf b with
  | none => d.mctpAnswer b (0x500 + command) [0x80]
  | some u => if states.contains u.state then f u else d.mctpAnswer b (0x500 + command) [0x84]

/-- A component that can be updated: in RECOVERY only Sprout. -/
def Dev.componentOk (d : Dev) (c : Nat) : Bool :=
  if d.hull.mode = 3 then c == 1 else c == 1 || c == 2 || c == 3

/-- The size of a component's slot. -/
def slotSize (c : Nat) : Nat :=
  match c with
  | 1 => 2 ^ 20
  | 2 => 2 ^ 24
  | _ => 2 ^ 16

/-- Put an image into a flash slot. -/
def Shell.setImage (s : Shell) (c : Nat) (slotB : Bool) (im : List Byte) : Shell :=
  { s with flash := upsert (fun x => x.component == c && x.slotB == slotB) ⟨c, slotB, im⟩ s.flash }

/-- The slot an update writes: the inactive one; the policy image has one place. -/
def Shell.target (s : Shell) (c : Nat) : Bool := if c = 3 then false else !s.active c

/-- QUERY_DEVICE_IDENTIFIERS (R447). -/
def execQueryDeviceIdentifiers (b : Binding) (s : State) : Host.Outcome State Fault Refusal :=
  s.mgmt b .update fun d => d.mctpAnswer b 0x501 (0 :: natsOf (Config.mgmtBytes 1 []))

/-- GET_FIRMWARE_PARAMETERS (R447). -/
def execGetFirmwareParameters (b : Binding) (s : State) : Host.Outcome State Fault Refusal :=
  s.mgmt b .update fun d =>
    d.mctpAnswer b 0x502 (0 :: natsOf (Config.mgmtBytes 2 [(d.shell.active 1).toNat, (d.shell.active 2).toNat]))

/-- REQUEST_UPDATE (R447). -/
def execRequestUpdate (b : Binding) (s : State) : Host.Outcome State Fault Refusal :=
  s.mgmt b .update fun d =>
    if d.shell.update.isSome then d.mctpAnswer b 0x510 [0x81]
    else (d.setUpdate (some { binding := b, state := 1, component := 0, size := 0, received := [] })).mctpAnswer b 0x510 [0, 0, 0]

/-- PASS_COMPONENT_TABLE (R447). -/
def execPassComponentTable (b : Binding) (comp : BitVec 16) (s : State) : Host.Outcome State Fault Refusal :=
  s.mgmt b .update fun d => d.inUpdate b 0x13 [1, 2] fun u =>
    (d.setUpdate (some { u with state := 2 })).mctpAnswer b 0x513 [0, if d.componentOk comp.toNat then 0 else 1]

/-- UPDATE_COMPONENT (R447). -/
def execUpdateComponent (b : Binding) (comp : BitVec 16) (size : BitVec 32) (s : State) :
    Host.Outcome State Fault Refusal :=
  s.mgmt b .update fun d => d.inUpdate b 0x14 [2] fun u =>
    if d.componentOk comp.toNat && decide (size.toNat ≤ slotSize comp.toNat) then
      ((d.setUpdate (some { u with state := 3, component := comp.toNat, size := size.toNat, received := [] })).onShell
        fun s => s.setImage comp.toNat (s.target comp.toNat) []).mctpAnswer b 0x514 [0, 0]
    else d.mctpAnswer b 0x514 [0, 1]

/-- A chunk arrives: at most the 1,024 bytes that were asked for. -/
def Dev.takeChunk (d : Dev) (b : Binding) (u : Update) (chunk : List Byte) : Dev :=
  let got := (u.received ++ chunk.take 1024).take u.size
  let d := d.mctpAnswer b 0x515 [u.received.length, 1024]
  (d.setUpdate (some { u with received := got })).onShell fun s => s.setImage u.component (s.target u.component) got

/-- REQUEST_FIRMWARE_DATA (R447): the device asks for the next 1,024 bytes and gets them. -/
def execRequestFirmwareData (b : Binding) (chunk : List Byte) (s : State) : Host.Outcome State Fault Refusal :=
  s.mgmt b .update fun d => d.inUpdate b 0x15 [3] fun u => d.takeChunk b u chunk

/-- TRANSFER_COMPLETE (R447): a short transfer fails. -/
def execTransferComplete (b : Binding) (s : State) : Host.Outcome State Fault Refusal :=
  s.mgmt b .update fun d => d.inUpdate b 0x16 [3] fun u =>
    if u.received.length = u.size then (d.setUpdate (some { u with state := 4 })).mctpAnswer b 0x516 [0]
    else d.mctpAnswer b 0x516 [2]

/-- The Hull accepts the image of an update. -/
def Dev.updateGood (d : Dev) (u : Update) : Bool :=
  d.hull.otp.accepts u.component u.received && (u.component != 3 || d.hull.otp.policyOk u.received)

/-- VERIFY_COMPLETE (R447). -/
def execVerifyComplete (b : Binding) (s : State) : Host.Outcome State Fault Refusal :=
  s.mgmt b .update fun d => d.inUpdate b 0x17 [4] fun u =>
    if d.updateGood u then (d.setUpdate (some { u with state := 5 })).mctpAnswer b 0x517 [0] else d.mctpAnswer b 0x517 [1]

/-- The slot is active from the next cold reset; a policy waits for Acorn. -/
def Shell.apply (s : Shell) (u : Update) : Shell :=
  if u.component = 3 then { s with policy := some u.received }
  else { s with activeB := upsert (fun x => x.1 == u.component) (u.component, s.target u.component) s.activeB }

/-- APPLY_COMPLETE (R438, R447): in RECOVERY a cold reset follows. -/
def execApplyComplete (b : Binding) (s : State) : Host.Outcome State Fault Refusal :=
  s.mgmt b .update fun d => d.inUpdate b 0x18 [5] fun u =>
    let d := (d.onShell fun s => s.apply u).setUpdate (some { u with state := 2, received := [] })
    let d := (d.logEvent 4 0 (Config.eventCode 6) (leBytes 2 u.component) []).mctpAnswer b 0x518 [0]
    if d.hull.mode = 3 then d.coldReset 4 else d

/-- ACTIVATE_FIRMWARE (R447): a cold reset is needed, and self-contained activation is not permitted. -/
def execActivateFirmware (b : Binding) (selfContained : Bool) (s : State) : Host.Outcome State Fault Refusal :=
  s.mgmt b .update fun d => d.inUpdate b 0x1A [2] fun _ =>
    if selfContained then d.mctpAnswer b 0x51A [0x8C] else (d.setUpdate none).mctpAnswer b 0x51A [0, 1]

/-- GET_STATUS (R447). -/
def execGetStatus (b : Binding) (s : State) : Host.Outcome State Fault Refusal :=
  s.mgmt b .update fun d => d.mctpAnswer b 0x51B [0, (d.shell.update.map fun u => u.state).getD 0]

/-- CANCEL_UPDATE_COMPONENT (R447). -/
def execCancelUpdateComponent (b : Binding) (s : State) : Host.Outcome State Fault Refusal :=
  s.mgmt b .update fun d => d.inUpdate b 0x1C [3, 4, 5] fun u =>
    (d.setUpdate (some { u with state := 2, received := [] })).mctpAnswer b 0x51C [0]

/-- CANCEL_UPDATE (R447). -/
def execCancelUpdate (b : Binding) (s : State) : Host.Outcome State Fault Refusal :=
  s.mgmt b .update fun d => d.inUpdate b 0x1D [1, 2, 3, 4, 5] fun _ => (d.setUpdate none).mctpAnswer b 0x51D [0]

/-! ### Sensors (R449, R450) -/

/-- GET_PDR_REPOSITORY_INFO (R450). -/
def execGetPdrRepositoryInfo (b : Binding) (s : State) : Host.Outcome State Fault Refusal :=
  s.mgmt b .sensors fun d => d.mctpAnswer b 0x250 (0 :: natsOf (Config.mgmtBytes 3 []))

/-- GET_PDR (R450). -/
def execGetPdr (b : Binding) (handle : BitVec 32) (s : State) : Host.Outcome State Fault Refusal :=
  s.mgmt b .sensors fun d => d.mctpAnswer b 0x251 (0 :: natsOf (Config.pdrRecord handle.toNat))

/-- The last reading of a sensor. -/
def Shell.reading (s : Shell) (id : Nat) : Option Nat :=
  (s.readings.find? fun r => r.sensor.toNat == id).map fun r => r.value.toNat

/-- GET_SENSOR_READING (R450): numeric sensors 1 to 71. -/
def execGetSensorReading (b : Binding) (sensor : BitVec 16) (s : State) : Host.Outcome State Fault Refusal :=
  s.mgmt b .sensors fun d =>
    if sensor.toNat = 0 ∨ 71 < sensor.toNat then d.mctpAnswer b 0x211 [0x80]
    else match d.shell.reading sensor.toNat with
      | some v => d.mctpAnswer b 0x211 [0, 0, v]
      | none => d.mctpAnswer b 0x211 [0, 2]

/-- GET_STATE_SENSOR_READINGS (R450): 100 power state, 101 lifecycle. -/
def execGetStateSensorReadings (b : Binding) (sensor : BitVec 16) (s : State) : Host.Outcome State Fault Refusal :=
  s.mgmt b .sensors fun d =>
    match sensor.toNat with
    | 100 => d.mctpAnswer b 0x221 [0, d.pstate]
    | 101 => d.mctpAnswer b 0x221 [0, d.hull.otp.lifecycle]
    | _ => d.mctpAnswer b 0x221 [0x80]

/-! ### Attestation (R436, R448) -/

/-- An identity exists: not in BLANK, RETURN or VOID, and not while D2 is granted. -/
def Hull.identity (h : Hull) : Bool := (h.otp.lifecycle == 1 || h.otp.lifecycle == 2) && h.debug != 2

/-- A measurement block. -/
def Dev.measurement (d : Dev) (index : Nat) : List Byte :=
  let h := d.hull
  match index with
  | 1 => Config.acornDigest
  | 2 => h.measure2
  | 3 => h.measure3
  | 4 => leBytes 1 h.otp.lifecycle ++ leBytes 1 h.debug ++ leBytes 1 h.modeNow ++
      leBytes 1 (d.get F.CTL_DEVICE_ID_STEPPING) ++ leBytes 1 (if h.otp.gradeB then 0x0B else 0x0A) ++ leBytes 3 0
  | _ => leBytes 2 h.otp.svn ++ leBytes 1 h.otp.retired.toNat ++ leBytes 5 0

/-- Blocks asked for: 0 their number, 0xFF all of them. -/
def Dev.measured (d : Dev) (index : Nat) : Option (List Nat) :=
  if index = 0 then some [5]
  else if index = 0xFF then some (5 :: ((List.range 5).flatMap fun i => (i + 1) :: natsOf (d.measurement (i + 1))))
  else if index ≤ 5 then some (1 :: index :: natsOf (d.measurement index))
  else none

/-- An ERROR response: code and data. -/
def Dev.spdmError (d : Dev) (b : Binding) (code data : Nat) : Dev := d.mctpAnswer b 0x107F [code, data]

/-- Add to the transcript that a signature covers. -/
def Dev.transcribe (d : Dev) (bs : List Byte) : Dev := d.onShell fun s => { s with transcript := s.transcript ++ bs }

/-- Answer an SPDM request, and transcribe both. -/
def Dev.spdmAnswer (d : Dev) (b : Binding) (req rsp : Nat) (body : List Nat) : Dev :=
  (d.transcribe (BitVec.ofNat 8 req :: BitVec.ofNat 8 rsp :: body.map (BitVec.ofNat 8))).mctpAnswer b (0x1000 + rsp) body

/-- GET_VERSION (R448): 1.2 only; a new transcript begins. -/
def execGetVersion (b : Binding) (s : State) : Host.Outcome State Fault Refusal :=
  s.mgmt b .version fun d => (d.onShell fun s => { s with transcript := [] }).spdmAnswer b 0x84 0x04 [1, 0x12]

/-- GET_CAPABILITIES (R448): CERT_CAP, CHAL_CAP and MEAS_CAP. -/
def execGetCapabilities (b : Binding) (s : State) : Host.Outcome State Fault Refusal :=
  s.mgmt b .spdm fun d =>
    let i := d.hull.identity
    d.spdmAnswer b 0xE1 0x61 [2 * i.toNat + 4 * i.toNat + (if i then 16 else 8)]

/-- NEGOTIATE_ALGORITHMS (R448): SHA3-512 twice, no base asymmetric algorithm, and one extended entry. -/
def execNegotiateAlgorithms (b : Binding) (s : State) : Host.Outcome State Fault Refusal :=
  s.mgmt b .spdm fun d => d.spdmAnswer b 0xE3 0x63 ([0x40, 0, 0x20, 1] ++ natsOf (Config.mgmtBytes 5 []))

/-- GET_DIGESTS (R448). -/
def execGetDigests (b : Binding) (s : State) : Host.Outcome State Fault Refusal :=
  s.mgmt b .spdm fun d =>
    if d.hull.identity then d.spdmAnswer b 0x81 0x01 (1 :: natsOf (sha3_512 Config.certificateChain))
    else d.spdmError b 0x07 0x81

/-- GET_CERTIFICATE (R448): slot 0 only. -/
def execGetCertificate (b : Binding) (slot : BitVec 8) (off len : BitVec 16) (s : State) :
    Host.Outcome State Fault Refusal :=
  s.mgmt b .spdm fun d =>
    if !d.hull.identity then d.spdmError b 0x07 0x82
    else if slot ≠ 0 then d.spdmError b 0x01 0
    else
      let part := (Config.certificateChain.drop off.toNat).take len.toNat
      d.spdmAnswer b 0x82 0x02 ([part.length, Config.certificateChain.length - off.toNat - part.length] ++ natsOf part)

/-- A request that is signed: one signature at a time, and fresh nonces need a healthy source (R445). -/
def Dev.beginSign (d : Dev) (b : Binding) (req : Nat) (ask : List Byte) (body : List Nat) : Dev :=
  if d.shell.signing.isSome then d.spdmError b 0x42 16
  else if d.hull.healthFail then d.spdmError b 0x05 0
  else
    let r := d.drbg4
    let nonce := r.1.flatMap fun w => leBytes 8 w.toNat
    let rsp := body.map (BitVec.ofNat 8) ++ nonce
    let d := r.2.transcribe (BitVec.ofNat 8 req :: ask ++ rsp)
    let sig := Config.slhSign d.hull.otp.seed (sha3_512 d.shell.transcript)
    d.onShell fun s => { s with signing := some (b, BitVec.ofNat 8 (req - 0x80) :: rsp ++ sig), transcript := [] }

/-- CHALLENGE (R448). -/
def execChallenge (b : Binding) (slot : BitVec 8) (nonce : Bytes32) (s : State) : Host.Outcome State Fault Refusal :=
  s.mgmt b .spdm fun d =>
    if !d.hull.identity then d.spdmError b 0x07 0x83
    else if slot ≠ 0 then d.spdmError b 0x01 0
    else d.beginSign b 0x83 nonce.toList (natsOf (sha3_512 Config.certificateChain))

/-- GET_MEASUREMENTS (R436, R448). -/
def execGetMeasurements (b : Binding) (index : BitVec 8) (signed : Bool) (nonce : Bytes32) (s : State) :
    Host.Outcome State Fault Refusal :=
  s.mgmt b (.measure signed) fun d =>
    match d.measured index.toNat with
    | none => d.spdmError b 0x01 0
    | some body =>
      if !signed then d.spdmAnswer b 0xE0 0x60 body
      else if !d.hull.identity then d.spdmError b 0x07 0xE0
      else d.beginSign b 0xE0 nonce.toList body

/-- SPDM_SIGN_DONE (R448). -/
def execSpdmSignDone (s : State) : Host.Outcome State Fault Refusal :=
  s.always fun d =>
    match d.shell.signing with
    | none => d
    | some x =>
      if !d.shellRuns then d
      else (d.onShell fun s => { s with signing := none }).mctpAnswer x.1 (0x1000 + fieldAt x.2 0 1) (natsOf (x.2.drop 1))

/-! ### The event log (R453) -/

/-- The 128 bytes of an entry slot of the log. -/
def Shell.logSlot (s : Shell) (slot : Nat) : List Byte :=
  ((s.log.find? fun e => e.seq % 32768 == slot).map fun e => e.bytes).getD (List.replicate 128 0)

/-- EVENT_LOG_READ_MESSAGE (R451, R453). -/
def execEventLogReadMessage (b : Binding) (entry : BitVec 15) (s : State) : Host.Outcome State Fault Refusal :=
  s.mgmt b .vendor fun d => d.mctpAnswer b 0x7E00 (natsOf (d.shell.logSlot entry.toNat))

/-! ### The test access port (R457) -/

/-- The TAP is powered: not in S2 or Off. -/
def Dev.tapUp (d : Dev) : Bool := !d.pw.off && d.pstate != 3

/-- A TAP instruction. -/
def State.tap (s : State) (f : Dev → Dev) : Host.Outcome State Fault Refusal :=
  s.always fun d => if d.tapUp then f d else d

/-- The instruction register. -/
def Dev.setIr (d : Dev) (ir : Nat) : Dev := d.onShell fun s => { s with tapIr := ir }

/-- TAP_RESET (R457): IDCODE is selected, as IEEE 1149.1 has it, and the pins return. -/
def execTapReset (s : State) : Host.Outcome State Fault Refusal :=
  s.tap fun d => (d.setIr 0).onShell fun s => { s with extest := false }

/-- BYPASS: one bit, which reads 0. -/
def execBypass (s : State) : Host.Outcome State Fault Refusal := s.tap fun d => (d.setIr 1).emit (.jtag 0 1)

/-- SAMPLE_PRELOAD: the pins' levels are not the model's (log entry 6). -/
def execSamplePreload (s : State) : Host.Outcome State Fault Refusal :=
  s.tap fun d => ({ d.setIr 2 with fresh := d.fresh + 1 }).emit (.jtag (Config.padSample d.fresh) 0)

/-- EXTEST takes the pins until the TAP is reset. -/
def execExtest (s : State) : Host.Outcome State Fault Refusal :=
  s.tap fun d => (d.setIr 3).onShell fun s => { s with extest := true }

/-- The identification code: version 1, part 0x8816, the manufacturer code, and the marker bit. -/
def idcode : Nat := 1 * 2 ^ 28 + 0x8816 * 2 ^ 12 + Config.manufacturerCode % 2 ^ 11 * 2 + 1

/-- IDCODE (R457). -/
def execIdcode (s : State) : Host.Outcome State Fault Refusal := s.tap fun d => (d.setIr 0).emit (.jtag idcode 32)

end Sys2Proof.Machine
end

