-- ==== Sys2Proof/Machine/RegRead.lean ====
section
/-! DEFINITION. What a register reads (R11 to R18). Fields that report something the device holds
elsewhere are composed here from it; WO fields read zero; an instance that a pod window does not
show reads zero. -/

namespace Sys2Proof.Machine

/-- Fields laid into a register: (lowest bit, value) over the stored value. -/
def laid (v : Nat) (parts : List (Fld × Nat)) : Nat :=
  parts.foldl (fun v p => setBits v p.1.lo p.1.width p.2) v

/-- CTL_THREAD's STATE code (R395). -/
def ThSt.code : ThSt → Nat
  | .ready => 1
  | .running => 2
  | .next => 3
  | .delayed => 4
  | .waiting => 5
  | .blocked => 6
  | .stalled => 7

/-- The requester the Hull sees (R429). -/
def hullUserOf : RegFrom → HullUser
  | .shell => .shell
  | .exec => .exec
  | .bar0 => .host
  | .pf1 => .host
  | .window _ => .host

/-! ### Tiles and clusters (R51, R52, R54) -/

/-- What the device holds of TIL_PIPE_SLOTn and TIL_PIPE_PROGn of a tile. -/
def Dev.readPipe (d : Dev) (k : RegKind) (t n : Nat) : Nat :=
  match d.slots.find? fun (s : SlotSt) => s.tile == t && s.slot == n with
  | none => (⟨k, t, n⟩ : RegRef).reset
  | some s =>
    if k = .TIL_PIPE_SLOT then
      laid 0 [(F.TIL_PIPE_SLOT_HANDLE, s.handle), (F.TIL_PIPE_SLOT_EPOCH, s.epoch),
        (F.TIL_PIPE_SLOT_PIPE, s.pipe), (F.TIL_PIPE_SLOT_STATE, s.life.code), (F.TIL_PIPE_SLOT_POD, s.pod)]
    else
      laid 0 [(F.TIL_PIPE_PROG_DRAIN, s.drain), (F.TIL_PIPE_PROG_INSTANCE, s.number),
        (F.TIL_PIPE_PROG_PAIRS, s.pairs), (F.TIL_PIPE_PROG_STALL_STAGE, s.stalls.foldl min 0x3F)]

/-- CLU_PGC_STATUS (R54). -/
def Dev.readPgc (d : Dev) (c : Nat) : Nat :=
  let es := d.pgc.filter fun e => e.cluster == c
  laid 0 [(F.CLU_PGC_STATUS_PINNED, (es.filter d.pinned).length), (F.CLU_PGC_STATUS_RESIDENT, es.length)]

/-- ERR_ST_STATUS: the test each cluster runs (R483); EN clear reads zero. -/
def Dev.readTests (d : Dev) : Nat :=
  if d.get F.ERR_ST_CTRL_EN = 0 then 0
  else (List.range 8).foldl (fun v c =>
    match (List.range 8).find? fun k => (d.tileTest (8 * c + k)).testing with
    | some k => v + (0x80 + (8 * c + k)) * 2 ^ (8 * c)
    | none => v) 0

/-! ### Directories and memory (R194, R218, R251, R252, R291, R292) -/

/-- Valid entries of the range directory, which every slice holds (R208). -/
def Dev.rangeUsed (d : Dev) : Nat := (d.rrgns.map fun r => r.entries.length).foldl (· + ·) 0

/-- The column cache's status and maintenance registers. -/
def Dev.readCache (d : Dev) (k : RegKind) (c v : Nat) : Nat :=
  if k = .CCH_STATUS then
    laid v [(F.CCH_STATUS_MR_BUSY, (d.misses.filter fun m => m.cluster == c).length),
      (F.CCH_STATUS_WBB_BUSY, (d.wbb.any fun w => w.1 == c).toNat)]
  else laid v [(F.CCH_MAINT_BUSY, (d.maint.any fun m => m.1 == c).toNat)]

/-- A bit for each of the first `n` numbers that satisfy `p`. -/
def bitsWhere (n : Nat) (p : Nat → Bool) : Nat :=
  ((List.range n).filter p).foldl (fun v k => v + 2 ^ k) 0

/-! ### The control complex (R405) -/

/-- CTL_COREn_STATUS. -/
def Dev.readCore (d : Dev) (n : Nat) : Nat :=
  let c := d.core n
  laid 0 [(F.CTL_CORE_STATUS_NEXT, c.next.getD 0), (F.CTL_CORE_STATUS_CUR, c.cur.getD 0),
    (F.CTL_CORE_STATUS_NEXT_VALID, c.next.isSome.toNat), (F.CTL_CORE_STATUS_CUR_VALID, c.cur.isSome.toNat),
    (F.CTL_CORE_STATUS_PRIV, (((c.cur.bind d.thread).map fun t => t.priv).getD false).toNat),
    (F.CTL_CORE_STATUS_FENCED, c.fenced.toNat)]

/-- CTL_LOCKn. -/
def Dev.readLock (d : Dev) (n : Nat) : Nat :=
  match d.lock n with
  | none => 0
  | some l =>
    laid 0 [(F.CTL_LOCK_HELD, l.held.toNat), (F.CTL_LOCK_POISON, l.poison.toNat), (F.CTL_LOCK_BOUND, l.bound.toNat),
      (F.CTL_LOCK_POD, if n < 32 then 0 else l.pod), (F.CTL_LOCK_OWNER, if l.held then l.owner else 0),
      (F.CTL_LOCK_WAITERS, l.waiters.length), (F.CTL_LOCK_LOCAL, l.local_)]

/-- CTL_THREADn. -/
def Dev.readThread (d : Dev) (n : Nat) : Nat :=
  match d.thread n with
  | none => 0
  | some t =>
    laid 0 [(F.CTL_THREAD_NUMBER, t.number), (F.CTL_THREAD_POD, if t.priv then 0 else t.pod),
      (F.CTL_THREAD_PRIV, t.priv.toNat), (F.CTL_THREAD_PRIO, t.prio),
      (F.CTL_THREAD_LOCKWAIT, if t.st = .blocked then t.lockwait else 0), (F.CTL_THREAD_STATE, t.st.code)]

/-! ### Hull, debug and Shell (R459 to R461) -/

/-- SEC_STATUS. -/
def Hull.readStatus (h : Hull) : Nat :=
  laid 0 [(F.SEC_STATUS_SVN, h.otp.svn), (F.SEC_STATUS_KEY, h.otp.retired.toNat), (F.SEC_STATUS_MODE, h.modeNow),
    (F.SEC_STATUS_DEBUG, h.debug), (F.SEC_STATUS_LIFECYCLE, h.otp.lifecycle)]

/-- DBG_SESAME_CTRL over its stored request level. -/
def Hull.readSesame (h : Hull) (v : Nat) : Nat :=
  laid v [(F.DBG_SESAME_CTRL_FAILS, min 15 h.fails), (F.DBG_SESAME_CTRL_LOCKED, h.locked.toNat),
    (F.DBG_SESAME_CTRL_RESULT, h.sesameResult), (F.DBG_SESAME_CTRL_BUSY, h.verifying.toNat)]

/-- SHL_STATUS: the Sprout version is that of the image in the active slot (log entry 6). -/
def Shell.readStatus (s : Shell) : Nat :=
  let slot := s.active 1
  laid 0 [(F.SHL_STATUS_FW_VERSION, (Config.sproutVersion ((s.image 1 slot).getD [])).toNat),
    (F.SHL_STATUS_UPDATE, s.update.isSome.toNat), (F.SHL_STATUS_SLOT, slot.toNat),
    (F.SHL_STATUS_FLASH_OK, s.flashOk.toNat)]

/-! ### The whole map -/

/-- WO fields read zero (R13). -/
def woClear (k : RegKind) (v : Nat) : Nat :=
  k.fields.foldl (fun v f => if f.acc = .wo then setBits v f.lo f.width 0 else v) v

/-- The value of an instance that exists, as requester `src` reads it. -/
def Dev.readShown (d : Dev) (src : RegFrom) (r : RegRef) : Nat :=
  let v := woClear r.kind (d.rd r)
  match r.kind with
  | .CTL_DEVICE_ID =>
    if d.hull.otp.gradeB then laid v [(F.CTL_DEVICE_ID_GRADE, 0x0B), (F.CTL_DEVICE_ID_MAX_CCLK_MHZ, 1600)] else v
  | .TIL_PIPE_SLOT => d.readPipe r.kind r.i r.j
  | .TIL_PIPE_PROG => d.readPipe r.kind r.i r.j
  | .CLU_PGC_STATUS => d.readPgc r.i
  | .CMP_ENG_STATUS =>
    laid v [(F.CMP_ENG_STATUS_ENABLED,
      ((d.get F.CMP_CTRL_ENG_EN).testBit r.i && d.get F.CMP_ENG_STATUS_FENCED r.i == 0).toNat)]
  | .JDR_SLICE_USED => laid v [(F.JDR_SLICE_USED_ENTRIES, (d.jents.filter fun e => e.slice == r.i).length)]
  | .JDR_POD_RGN_ENTRIES =>
    laid v [(F.JDR_POD_RGN_ENTRIES_ENTRIES, (d.jents.filter fun e => e.pod == r.i && e.rgn == r.j).length)]
  | .RDR_SLICE_USED => laid v [(F.RDR_SLICE_USED_ENTRIES, if d.sliceLives r.i then d.rangeUsed else 0)]
  | .CCH_STATUS => d.readCache r.kind r.i v
  | .CCH_MAINT => d.readCache r.kind r.i v
  | .DIR_SLICE_USED => laid v [(F.DIR_SLICE_USED_ENTRIES, (d.dir.filter fun e => e.slice == r.i).length)]
  | .MEM_SCRUB => laid v [(F.MEM_SCRUB_ACTIVE, (d.chans.any fun c => c.scrubC != 0).toNat)]
  | .MEM_CH_STATUS =>
    laid v [(F.MEM_CH_STATUS_RQ, (d.memCh r.i).rq.length), (F.MEM_CH_STATUS_WQ, (d.memCh r.i).wq.length),
      (F.MEM_CH_STATUS_DRAIN, (d.draining r.i).toNat),
      (F.MEM_CH_STATUS_REFRESH, (d.refreshing r.i 0 || d.refreshing r.i 1).toNat),
      (F.MEM_CH_STATUS_MAINT, (d.maintRuns r.i).toNat)]
  | .DMA_ACTIVE =>
    bitsWhere 32 fun n => [2, 4].contains (d.get F.DMA_CH_STATUS_STATE n)
  | .RNG_STATUS =>
    laid v [(F.RNG_STATUS_RUNS, (d.runs.filter fun x => x.ring == r.i).length)]
  | .ING_STATUS =>
    laid v [(F.ING_STATUS_BUF_USED, d.nvme.buf.length),
      (F.ING_STATUS_NS_COUNT, ((List.range 256).filter fun n => d.get F.ING_NS_VALID n == 1).length)]
  | .POD_GLOBAL =>
    let live := (List.range 64).filter fun p => d.podState p != 0
    laid v [(F.POD_GLOBAL_PODS, live.length),
      (F.POD_GLOBAL_WHOLE, (live.any fun p => d.get F.POD_TILES_MASK p == 2 ^ 64 - 1).toNat)]
  | .LNK_SPAN_STATUS => v ||| 2 ^ d.self
  | .CTL_CORE_STATUS => d.readCore r.i
  | .CTL_SCHED_STATUS => laid v [(F.CTL_SCHED_STATUS_FREE, 1024 - d.threads.length)]
  | .CTL_LOCK => d.readLock r.i
  | .CTL_THREAD => d.readThread r.i
  | .PWR_GOV_STATUS =>
    laid v [(F.PWR_GOV_STATUS_QUEUED, min 255 d.pw.queue.length), (F.PWR_GOV_STATUS_LSTEP, d.pw.lstep.toNat),
      (F.PWR_GOV_STATUS_RAMPING, d.pw.ramping.toNat)]
  | .SEC_STATUS => d.hull.readStatus
  | .SEC_DG_STATUS => (d.digestStatusRead (hullUserOf src)).1
  | .SEC_RNG => d.rngRead.1
  | .SEC_RNG_STATUS =>
    laid v [(F.SEC_RNG_STATUS_HEALTH_FAIL, d.hull.healthFail.toNat), (F.SEC_RNG_STATUS_READY, d.hull.drbgReady.toNat)]
  | .SEC_PIT_DATA => d.pitRead.1
  | .DBG_SESAME_CTRL => d.hull.readSesame v
  | .DBG_MUX => laid v [(F.DBG_MUX_DENIED, d.muxRefused.toNat)]
  | .SHL_STATUS => d.shell.readStatus
  | .SHL_LOG_DATA => fieldAt (d.shell.logSlot (d.get F.SHL_LOG_INDEX_ENTRY)) (8 * r.i) 8
  | .ERR_ST_STATUS => d.readTests
  | _ => v

/-- What a 64-bit read of a register returns (R11, R13, R18). -/
def Dev.readReg (d : Dev) (src : RegFrom) (r : RegRef) : Nat :=
  if d.reaches src r then d.readShown src r else 0

/-! ### Reads as software makes them (R9, R11, R12) -/

/-- The bytes of a register that a read covers: the whole register, one aligned half, or the bytes that
partial byte enables name (R9, R12). -/
inductive ReadUnit where
  | full
  | lower
  | upper
  | bytes (enables : BitVec 8)
  deriving DecidableEq, Repr

/-- The byte enables of a read. -/
def ReadUnit.enables : ReadUnit → BitVec 8
  | .full => 0xFF
  | .lower => 0x0F
  | .upper => 0xF0
  | .bytes be => be

/-- The enabled bytes of a value; the others read zero. -/
def enabledBytes (be : BitVec 8) (v : Nat) : Nat :=
  (List.range 8).foldl (fun acc k => if be.getLsbD k then acc + bitsOf v (8 * k) 8 * 2 ^ (8 * k) else acc) 0

/-- What a read changes (R443, R445, R459): the flags of SEC_DG_STATUS are reported once, a random number is
drawn once, and a Pit word that may not be read is recorded. -/
def Dev.readEffect (d : Dev) (src : RegFrom) (r : RegRef) : Dev :=
  match r.kind with
  | .SEC_DG_STATUS => (d.digestStatusRead (hullUserOf src)).2
  | .SEC_RNG => d.rngRead.2
  | .SEC_PIT_DATA => d.pitRead.2
  | _ => d

/-- One read of a register: one sample of its current value, so that two halves are two samples (R11), and
through a pod window that does not show it zero and a violation (R18). -/
def Dev.sampleReg (d : Dev) (src : RegFrom) (u : ReadUnit) (r : RegRef) : Nat × Dev :=
  if d.reaches src r then (enabledBytes u.enables (d.readShown src r), d.readEffect src r)
  else (0, d.refuseAccess src r)

end Sys2Proof.Machine
end

