-- ==== Sys2Proof/Machine/RegWrite.lean ====
section
/-! DEFINITION. REGISTER_WRITE, CSRR and CSRW (R10 to R18, R353, R386, R500): which register an
address names, and what a write to each register does. Registers whose write is a command of its own
go through that command's operation. -/

namespace Sys2Proof.Machine

/-! ### Addresses (R353, R500) -/

/-- The instance of a register kind at an address of PF0 BAR0. -/
def RegKind.at (k : RegKind) (a : Nat) : Option RegRef :=
  let g := k.geom
  if a < g.1 then none
  else
    let rel := a - g.1
    let i := if g.2.1 = 0 then 0 else rel / g.2.1
    let rem := rel - i * g.2.1
    let j := if g.2.2.2.1 = 0 then 0 else rem / g.2.2.2.1
    if i < g.2.2.1 ∧ j < g.2.2.2.2 ∧ rem = j * g.2.2.2.1 then some ⟨k, i, j⟩ else none

/-- The register at an address of PF0 BAR0, if one is defined there (R15, R500). -/
def barReg (a : Nat) : Option RegRef := RegKind.all.findSome? fun k => k.at a

/-- The register at instance `pos` of a pod's own instances `own`, in a block of them at `base`. -/
def ownReg (own : List Nat) (base stride pos o : Nat) : Option RegRef :=
  match own[pos]? with
  | some n => barReg (base + stride * n + o)
  | none => none

/-- The register at an offset of pod window `p` (R353). -/
def Dev.windowReg (d : Dev) (p off : Nat) : Option RegRef :=
  if off = 0 then some ⟨.CTL_DEVICE_ID, 0, 0⟩
  else if off = 8 then some ⟨.POD_STATUS, p, 0⟩
  else if off = 0x10 then some ⟨.POD_TILES, p, 0⟩
  else if off = 0x18 then some ⟨.POD_SHARES, p, 0⟩
  else if off = 0x20 then some ⟨.CLK_TIMESTAMP, 0, 0⟩
  else if 0x40 ≤ off ∧ off < 0x80 then some ⟨.POD_DDR, p, (off - 0x40) / 8⟩
  else if 0x800 ≤ off ∧ off < 0x1000 then ownReg (d.podRings p) 0xA0000 0x80 ((off - 0x800) / 0x80) (off % 0x80)
  else if 0x1000 ≤ off ∧ off < 0x1800 then ownReg (d.podChans p) 0xC1000 0x40 ((off - 0x1000) / 0x40) (off % 0x40)
  else if 0x1800 ≤ off ∧ off < 0x1A00 then barReg (0x101000 + 0x200 * p + (off - 0x1800))
  else if off = 0x1A00 then some ⟨.JDR_POD_CLEAR, p, 0⟩
  else if 0x1C00 ≤ off ∧ off < 0x1E00 then barReg (0x111000 + 0x200 * p + (off - 0x1C00))
  else if off = 0x1E00 then some ⟨.RDR_POD_CLEAR, p, 0⟩
  else if 0x1F00 ≤ off ∧ off < 0x1F40 then some ⟨.CCH_STASH_POD, (off - 0x1F00) / 8, p⟩
  else if 0x2000 ≤ off ∧ off < 0x2040 then barReg (0x89000 + 0x40 * p + (off - 0x2000))
  else if 0x4000 ≤ off ∧ off < 0x4100 then barReg (0x10000 + 0x100 * p + (off - 0x4000))
  else if 0x8000 ≤ off ∧ off < 0x10000 then ownReg (d.podTiles p) 0x300000 0x1000 ((off - 0x8000) / 0x200) (off % 0x200)
  else none

/-- The register that a source's offset names. -/
def Dev.regAt (d : Dev) (src : RegFrom) (off : Nat) : Option RegRef :=
  match src with
  | .window p => d.windowReg p.val off
  | .pf1 => none
  | .bar0 => barReg off
  | .shell => barReg off
  | .exec => barReg off

/-! ### PF1 BAR0 (R500): the NVMe properties of R324 in the layout of NVMe Base 2.0 (log entry 76) -/

/-- Something is defined at an offset of PF1 BAR0: the properties, the doorbells of 65 queue pairs, the
MSI-X table of 65 entries and its pending bits. -/
def pf1Defined (off : Nat) : Bool :=
  decide (off < 0x40 ∨ (0x1000 ≤ off ∧ off < 0x1208) ∨ (0x2000 ≤ off ∧ off < 0x2410) ∨ (0x3000 ≤ off ∧ off < 0x3010))

/-- CAP (R324): MQES, CQR, TO, the NVM command set, and MPSMAX. -/
def nvmeCap : Nat := 4095 + 2 ^ 16 + 15 * 2 ^ 24 + 2 ^ 37 + 4 * 2 ^ 52

/-- Bits of a word that tell which of the vectors `64 k` to `64 k + 63` of a function are pending. -/
def Dev.pendingWord (d : Dev) (pf1 : Bool) (k : Nat) : Nat := bitsWhere 64 fun b => d.host.pending.contains (pf1, 64 * k + b)

/-- The vector control of an MSI-X entry in the upper half of its second word; address and data are the
host's own (log entry 48). -/
def Dev.msixWord (d : Dev) (pf1 : Bool) (rel : Nat) : Nat :=
  if rel % 16 = 8 then (if d.host.unmasked.contains (pf1, rel / 16) then 0 else 2 ^ 32) else 0

/-- The 8 bytes at an offset of PF1 BAR0; an offset with nothing defined reads zero (R15). -/
def Dev.pf1Word (d : Dev) (off : Nat) : Nat :=
  if off = 0 then nvmeCap
  else if off = 8 then 0x20000
  else if off = 0x10 then d.nvme.enabled.toNat * 2 ^ 32
  else if off = 0x18 then (d.nvme.rdy.toNat + 2 * d.nvme.cfs.toNat) * 2 ^ 32
  else if 0x2000 ≤ off ∧ off < 0x2410 then d.msixWord true (off - 0x2000)
  else if 0x3000 ≤ off ∧ off < 0x3010 then d.pendingWord true ((off - 0x3000) / 8)
  else 0

/-- A word of the CXL component registers: the HDM decoder reports the installed capacity (R295, R297), and
what the spec does not state of the others is open (log entry 48). -/
def Dev.componentWord (d : Dev) (rel : Nat) : Nat :=
  if rel / 8 = Config.hdmSizeWord then d.get F.MEM_CFG_CAP_GIB * 2 ^ 30 else (Config.componentWord (rel / 8)).toNat

/-- The 8 bytes at an offset of PF0 BAR0 outside the register blocks (R500). -/
def Dev.standardWord (d : Dev) (off : Nat) : Nat :=
  if 0x7F00000 ≤ off ∧ off < 0x7F08000 then d.msixWord false (off - 0x7F00000)
  else if 0x7F10000 ≤ off ∧ off < 0x7F10100 then d.pendingWord false ((off - 0x7F10000) / 8)
  else if 0x4000000 ≤ off ∧ off < 0x4010000 then d.componentWord (off - 0x4000000)
  else 0

/-! ### Reads (R9, R11, R12, R15, R18) -/

/-- A read of the aligned 8 bytes that hold an offset, covering `u` of them: what it returns, and the device
after it. An offset at which nothing is defined reads zero (R15). -/
def Dev.readAt (d : Dev) (src : RegFrom) (u : ReadUnit) (off : Nat) : Nat × Dev :=
  let a := off / 8 * 8
  match src, d.regAt src a with
  | _, some r => d.sampleReg src u r
  | .pf1, none => (enabledBytes u.enables (d.pf1Word a), d)
  | .window _, none => (0, d)
  | _, none => (enabledBytes u.enables (d.standardWord a), d)

/-! ### Writes of one register -/

/-- The value the register would hold. -/
def Dev.after (d : Dev) (r : RegRef) (v : Nat) (keepLow : Bool) : Nat :=
  regAfter r.kind.fields (d.rd r) v false keepLow

/-- A write that takes effect only when the resulting value passes a check. -/
def Dev.applyIf (d : Dev) (r : RegRef) (v : Nat) (keepLow : Bool) (ok : Nat → Bool) : Dev :=
  if ok (d.after r v keepLow) then d.applyPlain r v keepLow else d

/-- A field of a value within a range. -/
def fldIn (f : Fld) (lo hi v : Nat) : Bool := decide (lo ≤ fieldIn f v ∧ fieldIn f v ≤ hi)

/-- PWR_GOV_CFG's ranges (R427). -/
def govCfgOk (v : Nat) : Bool :=
  fldIn F.PWR_GOV_CFG_STEP_THR 5 700 v && fldIn F.PWR_GOV_CFG_DB_WINDOW 0 (fieldIn F.PWR_GOV_CFG_STEP_THR v) v &&
    fldIn F.PWR_GOV_CFG_LSTEP_ADV 2 20 v && fldIn F.PWR_GOV_CFG_SLEW 5 100 v

/-- PWR_DROOP_CFG's ranges (R427). -/
def droopCfgOk (v : Nat) : Bool :=
  fldIn F.PWR_DROOP_CFG_HOLD_NS 20 10000 v && fldIn F.PWR_DROOP_CFG_DROOP_MV 20 100 v

/-- MEM_RT_CFG's ranges (R291). -/
def rtCfgOk (v : Nat) : Bool :=
  let on := fieldIn F.MEM_RT_CFG_IO_ON v
  let off := fieldIn F.MEM_RT_CFG_IO_OFF v
  let lon := fieldIn F.MEM_RT_CFG_LNK_ON v
  let loff := fieldIn F.MEM_RT_CFG_LNK_OFF v
  decide (1 ≤ off ∧ off < on ∧ on ≤ 1024 ∧ 1 ≤ loff ∧ loff < lon ∧ lon ≤ 1024)

/-- A ring's or channel's OWNER: the assignment of a pod that is not FREE does not change, nor any
field while the instance is not DISABLED (R292, R336, R339). -/
def Dev.ownerWrite (d : Dev) (r : RegRef) (v : Nat) (keepLow disabled : Bool) : Dev :=
  let old := d.rd r
  let new := d.after r v keepLow
  let held := fun (x : Nat) => x.testBit 0 && d.podState (bitsOf x 8 6) != 0
  let moves := old.testBit 0 != new.testBit 0 || bitsOf old 8 6 != bitsOf new 8 6
  if !disabled || (moves && (held old || held new)) then d else d.applyPlain r v keepLow

/-- A register of a DMA channel: ignored while the channel is assigned to no pod (R281). -/
def Dev.chanWrite (d : Dev) (n : Nat) (f : Dev → Dev) : Dev :=
  if d.get F.DMA_CH_OWNER_ASSIGNED n = 0 then d else f d

/-- POD_p_CMD (R342). -/
def Dev.podCmd (d : Dev) (p code : Nat) : Dev :=
  match code with
  | 1 => d.cmdCreate p
  | 2 => d.cmdDestroy p
  | 3 => d.cmdReset p
  | 4 => d.cmdQuiesce p
  | 5 => d.cmdResume p
  | 6 => d.cmdSave p
  | 7 => d.cmdRestore p
  | _ => d

/-- POD_p_LOG_CFG (R354): SPAN_LOG2 holds while EN was 1. -/
def Dev.logCfgWrite (d : Dev) (p v : Nat) (keepLow : Bool) : Dev :=
  let span := d.get F.POD_LOG_CFG_SPAN_LOG2 p
  let en := d.get F.POD_LOG_CFG_EN p
  let d := d.applyPlain ⟨.POD_LOG_CFG, p, 0⟩ v keepLow
  let d := if en = 1 then d.put F.POD_LOG_CFG_SPAN_LOG2 span p else d
  if fieldIn F.POD_LOG_CFG_SWAP v = 1 then d.logSwap p else d

/-- Registers that ignore writes while `busy`. -/
def Dev.applyUnless (d : Dev) (busy : Bool) (r : RegRef) (v : Nat) (keepLow : Bool) : Dev :=
  if busy then d else d.applyPlain r v keepLow

/-- LNK_PORTk_CTRL (R365, R382). -/
def Dev.portCtrlWrite (d : Dev) (k v : Nat) (keepLow : Bool) : Dev :=
  if keepLow then d
  else
    let en := fieldIn F.LNK_PORT_CTRL_EN v
    let d := d.put F.LNK_PORT_CTRL_NARROW_OK (fieldIn F.LNK_PORT_CTRL_NARROW_OK v) k
    if en = 0 then (if d.get F.LNK_PORT_CTRL_EN k = 0 then d else d.portDisable k)
    else
      let d := if d.get F.LNK_PORT_CTRL_EN k = 1 then d else d.portEnable k
      if fieldIn F.LNK_PORT_CTRL_RETRAIN v = 1 then d.portRetrain k else d

/-- CTL_MBXp_CTRL (R404, R405). -/
def Dev.mbxCtrlWrite (d : Dev) (p v : Nat) (keepLow : Bool) : Dev :=
  let d := d.applyPlain ⟨.CTL_MBX_CTRL, p, 0⟩ v keepLow
  if fieldIn F.CTL_MBX_CTRL_GO v = 1 then d.mbxGo p else d

/-- PWR_RESET (R424, R427): a cold reset outranks a warm one written with it. -/
def Dev.resetWrite (d : Dev) (v : Nat) : Dev :=
  if !d.mayReset then d
  else if fieldIn F.PWR_RESET_COLD v = 1 then d.coldReset 4
  else if fieldIn F.PWR_RESET_WARM v = 1 then d.warmReset 7
  else d

/-- SEC_DG_CTRL (R439, R459). -/
def Dev.digestCtrlWrite (d : Dev) (who : HullUser) (v : Nat) (keepLow : Bool) : Dev :=
  if d.digestExpired who then d
  else match fieldIn F.SEC_DG_CTRL_OP v with
    | 1 => d.digestOpen who v
    | 2 => d.digestClose who
    | _ => d.applyPlain ⟨.SEC_DG_CTRL, 0, 0⟩ v keepLow

/-- SEC_DG_EXPECTj (R442, R459). -/
def Dev.expectWrite (d : Dev) (who : HullUser) (j v : Nat) : Dev :=
  if d.digestExpired who then d else d.onHull fun h => { h with expect := h.expect.set j (BitVec.ofNat 64 v) }

/-- DBG_SESAME_CTRL (R455, R460). -/
def Dev.sesameCtrlWrite (d : Dev) (v : Nat) (keepLow : Bool) : Dev :=
  let d := d.applyPlain ⟨.DBG_SESAME_CTRL, 0, 0⟩ v keepLow
  let d := if fieldIn F.DBG_SESAME_CTRL_REQUEST v = 1 then d.sesameRequest (fieldIn F.DBG_SESAME_CTRL_LEVEL_REQ v) else d
  let d := if fieldIn F.DBG_SESAME_CTRL_SUBMIT v = 1 then d.sesameSubmit else d
  if fieldIn F.DBG_SESAME_CTRL_DROP v = 1 then d.sesameDrop else d

/-- ERR_RING_PTR: HEAD's bits at and above SIZE_LOG2 are ignored (R483). -/
def Dev.errPtrWrite (d : Dev) (v : Nat) (keepLow : Bool) : Dev :=
  d.applyPlain ⟨.ERR_RING_PTR, 0, 0⟩ (fieldIn F.ERR_RING_PTR_HEAD v % 2 ^ d.get F.ERR_RING_CFG_SIZE_LOG2) keepLow

/-- Rings, DMA channels and the ingest controller. -/
def Dev.writeRings (d : Dev) (r : RegRef) (v : Nat) (keepLow : Bool) : Dev :=
  let n := r.i
  match r.kind with
  | .RNG_BASE => d.applyUnless (d.ringState n != 0) r v keepLow
  | .RNG_CFG => d.ringCfgWrite n v keepLow
  | .RNG_DB => d.ringDbWrite n v
  | .RNG_OWNER => d.ownerWrite r v keepLow (d.ringState n == 0)
  | .DMA_CH_CFG => d.dmaCfgWrite n v keepLow
  | .DMA_CH_TAIL => d.dmaTailWrite n v keepLow
  | .DMA_CH_CTRL => d.dmaCtrlWrite n v
  | .DMA_CH_OWNER => d.ownerWrite r v keepLow (d.dmaState n == 0)
  | .DMA_CH_RING => d.chanWrite n fun d => d.applyPlain r v keepLow
  | .DMA_CH_BYTES => d.chanWrite n fun d => d.applyPlain r v keepLow
  | .ING_POOL => d.poolWrite n v keepLow
  | _ => d.applyPlain r v keepLow

/-- Caches, directories and memory channels. -/
def Dev.writeMemory (d : Dev) (r : RegRef) (v : Nat) (keepLow : Bool) : Dev :=
  match r.kind with
  | .CCH_CTRL => d.cchCtrlWrite r.i v keepLow
  | .CCH_MAINT => if keepLow then d else d.maintWrite r.i (fieldIn F.CCH_MAINT_OP v) (fieldIn F.CCH_MAINT_GLOBAL v == 1)
  | .CCH_POD_WAYS => d.applyUnless (d.podState r.j != 0) r v keepLow
  | .JDR_POD_CLEAR => d.jdrClear r.i (fieldIn F.JDR_POD_CLEAR_REGIONS v)
  | .RDR_POD_CLEAR => d.rdrClear r.i (fieldIn F.RDR_POD_CLEAR_REGIONS v)
  | .RDR_POD_RGN_CFG => d.rcfgWrite r.i r.j v keepLow
  | .MEM_RT_CFG => (d.applyIf r v keepLow rtCfgOk).settlePanic
  | .MEM_CH_WM => d.watermarkWrite r.i v keepLow
  | .MEM_CH_SLOT_COMMIT => if keepLow then d else d.slotCommitWrite r.i v
  | _ => d.applyPlain r v keepLow

/-- Pods, DzLink, mailboxes and error reporting. -/
def Dev.writePods (d : Dev) (r : RegRef) (v : Nat) (keepLow : Bool) : Dev :=
  let p := r.i
  match r.kind with
  | .POD_CMD => d.podCmd p (fieldIn F.POD_CMD_CMD v)
  | .POD_TILES => d.applyUnless (d.podState p != 0) r v keepLow
  | .POD_SHARES => d.applyUnless (d.podState p != 0) r v keepLow
  | .POD_PASID => d.applyUnless (d.podState p != 0) r v keepLow
  | .POD_DDR => d.applyUnless (d.podState p != 0) r v keepLow
  | .LNK_POD_SPAN => d.applyUnless (d.podState p != 0) r v keepLow
  | .POD_LOG_CFG => d.logCfgWrite p v keepLow
  | .POD_LOG_BASE => d.applyUnless (d.get F.POD_LOG_CFG_EN p == 1) r v keepLow
  | .POD_LOG_BUF => d.applyUnless (d.get F.POD_LOG_CFG_EN p == 1) r v keepLow
  | .LNK_SPAN_CFG => d.spanCfgWrite v keepLow
  | .LNK_SPAN_CTRL => if keepLow then d else d.readmitWrite v
  | .LNK_PORT_CTRL => d.portCtrlWrite p v keepLow
  | .CTL_MBX_CTRL => d.mbxCtrlWrite p v keepLow
  | .ERR_RING_BASE => d.applyUnless (d.get F.ERR_RING_CFG_EN == 1) r v keepLow
  | .ERR_RING_CFG => d.errRingCfg v keepLow
  | .ERR_RING_PTR => d.errPtrWrite v keepLow
  | .ERR_RETEST => d.retestWrite v
  | .ERR_INJ => d.injWrite v keepLow
  | .ERR_POD_RING_BASE => d.applyUnless (d.get F.ERR_POD_RING_CFG_EN p == 1) r v keepLow
  | .ERR_POD_RING_CFG => d.errPodRingCfg p v keepLow
  | _ => d.applyPlain r v keepLow

/-- Power, clocks, the Hull, debug and the Shell. -/
def Dev.writeSystem (d : Dev) (src : RegFrom) (r : RegRef) (v : Nat) (keepLow : Bool) : Dev :=
  match r.kind with
  | .PWR_STATE => d.powerStateWrite v keepLow
  | .PWR_RESET => d.resetWrite v
  | .PWR_GOV_CFG => d.applyIf r v keepLow govCfgOk
  | .PWR_DROOP_CFG => d.applyIf r v keepLow droopCfgOk
  | .CLK_CCLK_REQ => d.cclkWrite v keepLow
  | .SEC_CTRL => if fieldIn F.SEC_CTRL_END_BOOT v = 1 then d.endBoot src else d
  | .SEC_DG_CTRL => d.digestCtrlWrite (hullUserOf src) v keepLow
  | .SEC_DG_DATA => d.digestData (hullUserOf src) (BitVec.ofNat 64 v)
  | .SEC_DG_EXPECT => d.expectWrite (hullUserOf src) r.i v
  | .DBG_SESAME_CTRL => d.sesameCtrlWrite v keepLow
  | .DBG_SESAME_RESP => d.sesameWord (BitVec.ofNat 64 v)
  | _ => d.applyPlain r v keepLow

/-- A write to a register, by its block. -/
def Dev.writeReg (d : Dev) (src : RegFrom) (r : RegRef) (v : Nat) (keepLow : Bool) : Dev :=
  let a := r.addr
  if 0x80000 ≤ a ∧ a < 0x88000 then d.writeSystem src r v keepLow
  else if 0xA0000 ≤ a ∧ a < 0xC8000 then d.writeRings r v keepLow
  else if (0xD0000 ≤ a ∧ a < 0x120000) ∨ (0x210000 ≤ a ∧ a < 0x218000) then d.writeMemory r v keepLow
  else d.writePods r v keepLow

/-- The vector control of an entry of PF0's MSI-X table, in the upper half of its second 8 bytes: bit 0
masks the vector (R299, R500; log entry 48). -/
def Dev.msixWrite (d : Dev) (a : RegAccess) (off : Nat) : Dev :=
  let vec := (off - 0x7F00000) / 16
  let control := match a.lanes with
    | .full => some (a.value.toNat / 2 ^ 32)
    | .upper => some a.value.toNat
    | _ => none
  match (if off % 16 = 8 then control else none) with
  | none => d
  | some x =>
    if x.testBit 0 then { d with host := { d.host with unmasked := d.host.unmasked.filter (· != (false, vec)) } }
    else d.unmask false vec

/-- A write outside the register blocks. In PF0 BAR0: the MSI-X table, its pending bits, and the CXL
component registers, whose layout the spec leaves to CXL 3.1 (R500; log entry 48). In PF1 BAR0: writes to
CC, to doorbells and to vector controls are commands of their own (CONTROLLER_ENABLE, CONTROLLER_RESET,
NVME_SQ_DOORBELL, NVME_CQ_DOORBELL, VECTOR_UNMASK), so this one changes nothing (log entry 76). -/
def Dev.standardWrite (d : Dev) (a : RegAccess) (off : Nat) : Option Dev :=
  if a.src = .pf1 then (if pf1Defined off then some d else none)
  else if (a.src matches .window _) then none
  else if 0x4000000 ≤ off ∧ off < 0x4010000 then some d
  else if 0x7F00000 ≤ off ∧ off < 0x7F08000 then some (d.msixWrite a off)
  else if 0x7F10000 ≤ off ∧ off < 0x7F10100 then some d
  else none

/-- REGISTER_WRITE (R10, R12, R15): an address with no register is ignored and recorded. -/
def Dev.registerWrite (d : Dev) (a : RegAccess) (off : Nat) : Dev :=
  match d.standardWrite a off with
  | some d' => d'
  | none =>
  match (if off % 8 = 0 then d.regAt a.src off else none) with
  | none => d.regError off (windowPod a.src)
  | some r => d.access a r fun d v keepLow => d.writeReg a.src r v keepLow

/-- REGISTER_WRITE (R10). -/
def execRegisterWrite (a : RegAccess) (off : BitVec 27) (s : State) : Host.Outcome State Fault Refusal :=
  s.act fun d => d.registerWrite a off.toNat

/-! ### CSRR and CSRW (R386, R388) -/

/-- The CTL_ register at offset 8 × IMM. -/
def csrReg (imm : BitVec 16) : Option RegRef := barReg (8 * imm.toNat)

/-- A privileged thread of a core runs `f`; pod code holds no CSRR or CSRW (R389). -/
def Dev.csr (d : Dev) (core : Nat) (f : Dev → Thread → Dev) : Dev :=
  match d.running core with
  | some t => if t.priv then f d t else d
  | none => d

/-- CSRR: RD := the register. -/
def Dev.csrRead (d : Dev) (t : Thread) (rd : BitVec 5) (imm : BitVec 16) : Dev :=
  d.setThread (t.put rd (((csrReg imm).map fun r => d.readReg .exec r).getD 0))

/-- CSRW: the register := RD, as one 64-bit write. -/
def Dev.csrWrite (d : Dev) (t : Thread) (rd : BitVec 5) (imm : BitVec 16) : Dev :=
  let a : RegAccess := { src := .exec, lanes := .full, value := BitVec.ofNat 64 (t.reg rd.toNat) }
  (d.setThread t.step).registerWrite a (8 * imm.toNat)

/-- CSRR (R386). -/
def execCtlCsrr (f : IFmt) (s : State) : Host.Outcome State Fault Refusal :=
  s.legal (iNoRa f) fun d => d.csr f.core.val fun d t => d.csrRead t f.rd f.imm

/-- CSRW (R386). -/
def execCtlCsrw (f : IFmt) (s : State) : Host.Outcome State Fault Refusal :=
  s.legal (iNoRa f) fun d => d.csr f.core.val fun d t => d.csrWrite t f.rd f.imm

end Sys2Proof.Machine
end

