-- ==== Sys2Proof/Machine/Dispatch.lean ====
section
/-! DEFINITION. One arm for each command: the meaning it calls. -/

namespace Sys2Proof.Machine

def exec (i : Instr) (s : State) : Host.Outcome State Fault Refusal :=
  match i with
  | .registerWrite a off => Sys2Proof.Machine.execRegisterWrite a off s
  | .cclkRequest a => Sys2Proof.Machine.execCclkRequest a s
  | .avsCompletion => Sys2Proof.Machine.execAvsCompletion s
  | .avsTimeout => Sys2Proof.Machine.execAvsTimeout s
  | .register p irq addr len => Sys2Proof.Machine.execRegister p irq addr len s
  | .deregister p irq handle => Sys2Proof.Machine.execDeregister p irq handle s
  | .deregisterTakesEffect p handle => Sys2Proof.Machine.execDeregisterTakesEffect p handle s
  | .query p irq handle => Sys2Proof.Machine.execQuery p irq handle s
  | .info p irq => Sys2Proof.Machine.execInfo p irq s
  | .mailboxComplete p => Sys2Proof.Machine.execMailboxComplete p s
  | .ringEnable n a => Sys2Proof.Machine.execRingEnable n a s
  | .ringDoorbell n a => Sys2Proof.Machine.execRingDoorbell n a s
  | .ringPush n src entry => Sys2Proof.Machine.execRingPush n src entry s
  | .entryFetch n poisoned => Sys2Proof.Machine.execEntryFetch n poisoned s
  | .nop r => Sys2Proof.Machine.execNop r s
  | .run r => Sys2Proof.Machine.execRun r s
  | .convert r => Sys2Proof.Machine.execConvert r s
  | .placementRetry => Sys2Proof.Machine.execPlacementRetry s
  | .pipelineStart r pipe => Sys2Proof.Machine.execPipelineStart r pipe s
  | .lstepAdvanceEnd => Sys2Proof.Machine.execLstepAdvanceEnd s
  | .governorTick => Sys2Proof.Machine.execGovernorTick s
  | .lstepDeassert => Sys2Proof.Machine.execLstepDeassert s
  | .scan w => Sys2Proof.Machine.execScan w s
  | .skip w => Sys2Proof.Machine.execSkip w s
  | .decode w => Sys2Proof.Machine.execDecode w s
  | .filter w => Sys2Proof.Machine.execFilter w s
  | .compute w => Sys2Proof.Machine.execCompute w s
  | .compact w => Sys2Proof.Machine.execCompact w s
  | .hash w => Sys2Proof.Machine.execHash w s
  | .build w => Sys2Proof.Machine.execBuild w s
  | .spillUnloadComplete p rgn => Sys2Proof.Machine.execSpillUnloadComplete p rgn s
  | .clearSweepDone p rgn => Sys2Proof.Machine.execClearSweepDone p rgn s
  | .probe w => Sys2Proof.Machine.execProbe w s
  | .replayStart p rgn => Sys2Proof.Machine.execReplayStart p rgn s
  | .replayWaveDone p rgn => Sys2Proof.Machine.execReplayWaveDone p rgn s
  | .agg w => Sys2Proof.Machine.execAgg w s
  | .part w => Sys2Proof.Machine.execPart w s
  | .spill w => Sys2Proof.Machine.execSpill w s
  | .sortrun w => Sys2Proof.Machine.execSortrun w s
  | .mergeRuns w => Sys2Proof.Machine.execMergeRuns w s
  | .mergeRegions w => Sys2Proof.Machine.execMergeRegions w s
  | .topk w => Sys2Proof.Machine.execTopk w s
  | .rangeFloor w => Sys2Proof.Machine.execRangeFloor w s
  | .rangeExact w => Sys2Proof.Machine.execRangeExact w s
  | .rangeCover w => Sys2Proof.Machine.execRangeCover w s
  | .rangeInsert w => Sys2Proof.Machine.execRangeInsert w s
  | .rangeDelete w => Sys2Proof.Machine.execRangeDelete w s
  | .genMarkingDone p rgn => Sys2Proof.Machine.execGenMarkingDone p rgn s
  | .lookup w => Sys2Proof.Machine.execLookup w s
  | .bloomset w => Sys2Proof.Machine.execBloomset w s
  | .bloomtest w => Sys2Proof.Machine.execBloomtest w s
  | .exchange w => Sys2Proof.Machine.execExchange w s
  | .emit w => Sys2Proof.Machine.execEmit w s
  | .limit w => Sys2Proof.Machine.execLimit w s
  | .yieldStage w => Sys2Proof.Machine.execYieldStage w s
  | .yieldTimeout w => Sys2Proof.Machine.execYieldTimeout w s
  | .stopAtBlockBoundary t slot => Sys2Proof.Machine.execStopAtBlockBoundary t slot s
  | .runTimeout r => Sys2Proof.Machine.execRunTimeout r s
  | .completionWrite r => Sys2Proof.Machine.execCompletionWrite r s
  | .holdoffExpiry n => Sys2Proof.Machine.execHoldoffExpiry n s
  | .migrateInstance t slot => Sys2Proof.Machine.execMigrateInstance t slot s
  | .migrationComplete t slot => Sys2Proof.Machine.execMigrationComplete t slot s
  | .parkInstance t slot area => Sys2Proof.Machine.execParkInstance t slot area s
  | .restoreParked t slot => Sys2Proof.Machine.execRestoreParked t slot s
  | .instanceQuiesce t slot => Sys2Proof.Machine.execInstanceQuiesce t slot s
  | .dz4400ModeRequest c a => Sys2Proof.Machine.execDz4400ModeRequest c a s
  | .dz4400ModeSwitch c => Sys2Proof.Machine.execDz4400ModeSwitch c s
  | .cleanLine c global addr => Sys2Proof.Machine.execCleanLine c global addr s
  | .flushLine c global addr => Sys2Proof.Machine.execFlushLine c global addr s
  | .discardLine c global addr => Sys2Proof.Machine.execDiscardLine c global addr s
  | .cleanAll c global => Sys2Proof.Machine.execCleanAll c global s
  | .flushAll c global => Sys2Proof.Machine.execFlushAll c global s
  | .maintComplete c => Sys2Proof.Machine.execMaintComplete c s
  | .cacheDisable c a => Sys2Proof.Machine.execCacheDisable c a s
  | .cacheEnable c a => Sys2Proof.Machine.execCacheEnable c a s
  | .cacheDisableComplete c => Sys2Proof.Machine.execCacheDisableComplete c s
  | .tsPatrolScrub t off e => Sys2Proof.Machine.execTsPatrolScrub t off e s
  | .tileZeroingDone t => Sys2Proof.Machine.execTileZeroingDone t s
  | .rdshared q => Sys2Proof.Machine.execRdshared q s
  | .rdunique q => Sys2Proof.Machine.execRdunique q s
  | .upgrade q => Sys2Proof.Machine.execUpgrade q s
  | .rdonce q => Sys2Proof.Machine.execRdonce q s
  | .wrfull q data => Sys2Proof.Machine.execWrfull q data s
  | .wrpart q data be => Sys2Proof.Machine.execWrpart q data be s
  | .atomic q op operand compare cached => Sys2Proof.Machine.execAtomic q op operand compare cached s
  | .wrback q data poison => Sys2Proof.Machine.execWrback q data poison s
  | .snpshared agent sector => Sys2Proof.Machine.execSnpshared agent sector s
  | .snpinv agent sector => Sys2Proof.Machine.execSnpinv agent sector s
  | .snpstash c addr => Sys2Proof.Machine.execSnpstash c addr s
  | .datas agent addr poison => Sys2Proof.Machine.execDatas agent addr poison s
  | .datae agent addr poison => Sys2Proof.Machine.execDatae agent addr poison s
  | .cmp agent addr => Sys2Proof.Machine.execCmp agent addr s
  | .wback c addr => Sys2Proof.Machine.execWback c addr s
  | .rspdata agent sector lines => Sys2Proof.Machine.execRspdata agent sector lines s
  | .rspclean agent sector => Sys2Proof.Machine.execRspclean agent sector s
  | .rspmiss agent sector => Sys2Proof.Machine.execRspmiss agent sector s
  | .dirRetry slice => Sys2Proof.Machine.execDirRetry slice s
  | .scrubComplete => Sys2Proof.Machine.execScrubComplete s
  | .trainingComplete dimms verified => Sys2Proof.Machine.execTrainingComplete dimms verified s
  | .trainingFail ch step dimms => Sys2Proof.Machine.execTrainingFail ch step dimms s
  | .refresh ch sub trfc => Sys2Proof.Machine.execRefresh ch sub trfc s
  | .dimmThermalPoll ch temps => Sys2Proof.Machine.execDimmThermalPoll ch temps s
  | .zqCalibration ch => Sys2Proof.Machine.execZqCalibration ch s
  | .retrainPass ch => Sys2Proof.Machine.execRetrainPass ch s
  | .grantOpportunity ch => Sys2Proof.Machine.execGrantOpportunity ch s
  | .readIssue ch e => Sys2Proof.Machine.execReadIssue ch e s
  | .readAging ch => Sys2Proof.Machine.execReadAging ch s
  | .writeDrain ch => Sys2Proof.Machine.execWriteDrain ch s
  | .readIdleDrain ch => Sys2Proof.Machine.execReadIdleDrain ch s
  | .rowIdleClose ch sub bank => Sys2Proof.Machine.execRowIdleClose ch sub bank s
  | .slotCommit ch a => Sys2Proof.Machine.execSlotCommit ch a s
  | .slotCommitApply ch => Sys2Proof.Machine.execSlotCommitApply ch s
  | .watermarkWrite ch a => Sys2Proof.Machine.execWatermarkWrite ch a s
  | .dmaEnable n a => Sys2Proof.Machine.execDmaEnable n a s
  | .dmaDisable n a => Sys2Proof.Machine.execDmaDisable n a s
  | .dmaTail n a => Sys2Proof.Machine.execDmaTail n a s
  | .dmaRestart n a => Sys2Proof.Machine.execDmaRestart n a s
  | .dmaNop n => Sys2Proof.Machine.execDmaNop n s
  | .dmaCopy n => Sys2Proof.Machine.execDmaCopy n s
  | .dmaFill n => Sys2Proof.Machine.execDmaFill n s
  | .dmaCjob n => Sys2Proof.Machine.execDmaCjob n s
  | .dmaBeat fault => Sys2Proof.Machine.execDmaBeat fault s
  | .dmaReadbackDone n => Sys2Proof.Machine.execDmaReadbackDone n s
  | .engineTakeJob e => Sys2Proof.Machine.execEngineTakeJob e s
  | .decompress e fault => Sys2Proof.Machine.execDecompress e fault s
  | .compress e fault => Sys2Proof.Machine.execCompress e fault s
  | .jobStop e => Sys2Proof.Machine.execJobStop e s
  | .jdrRegionClear p a => Sys2Proof.Machine.execJdrRegionClear p a s
  | .rdrRegionClear p a => Sys2Proof.Machine.execRdrRegionClear p a s
  | .rdrClearDone p rgn => Sys2Proof.Machine.execRdrClearDone p rgn s
  | .rdrRegionCfg p rgn a => Sys2Proof.Machine.execRdrRegionCfg p rgn a s
  | .creditRequest x => Sys2Proof.Machine.execCreditRequest x s
  | .creditGrant x => Sys2Proof.Machine.execCreditGrant x s
  | .creditHold x => Sys2Proof.Machine.execCreditHold x s
  | .holdRepeat x => Sys2Proof.Machine.execHoldRepeat x s
  | .creditTimeout x => Sys2Proof.Machine.execCreditTimeout x s
  | .exchangePacket x rows => Sys2Proof.Machine.execExchangePacket x rows s
  | .endMarker x => Sys2Proof.Machine.execEndMarker x s
  | .pf0Flr => Sys2Proof.Machine.execPf0Flr s
  | .pf1Flr => Sys2Proof.Machine.execPf1Flr s
  | .configRequest pf1 reg => Sys2Proof.Machine.execConfigRequest pf1 reg s
  | .hostLinkUp speed width flit => Sys2Proof.Machine.execHostLinkUp speed width flit s
  | .atsInvalidate pasid page pages => Sys2Proof.Machine.execAtsInvalidate pasid page pages s
  | .pageRequestTimeout pasid page => Sys2Proof.Machine.execPageRequestTimeout pasid page s
  | .bar4Read off len => Sys2Proof.Machine.execBar4Read off len s
  | .bar4Write off data tag => Sys2Proof.Machine.execBar4Write off data tag s
  | .hostMemrd addr mv => Sys2Proof.Machine.execHostMemrd addr mv s
  | .hostMemwr addr data poison => Sys2Proof.Machine.execHostMemwr addr data poison s
  | .hostSnpdata addr => Sys2Proof.Machine.execHostSnpdata addr s
  | .hostSnpinv addr => Sys2Proof.Machine.execHostSnpinv addr s
  | .hostSnpcur addr => Sys2Proof.Machine.execHostSnpcur addr s
  | .hostSnoopTimeout => Sys2Proof.Machine.execHostSnoopTimeout s
  | .hostLinkDown => Sys2Proof.Machine.execHostLinkDown s
  | .hostCxlEnable => Sys2Proof.Machine.execHostCxlEnable s
  | .vectorUnmask pf1 vec => Sys2Proof.Machine.execVectorUnmask pf1 vec s
  | .ptmDialogue offset => Sys2Proof.Machine.execPtmDialogue offset s
  | .controllerEnable => Sys2Proof.Machine.execControllerEnable s
  | .controllerReset => Sys2Proof.Machine.execControllerReset s
  | .nvmeSqDoorbell q tail => Sys2Proof.Machine.execNvmeSqDoorbell q tail s
  | .nvmeCqDoorbell q head => Sys2Proof.Machine.execNvmeCqDoorbell q head s
  | .createIoSq cid q size cq pc base => Sys2Proof.Machine.execCreateIoSq cid q size cq pc base s
  | .createIoCq cid q size vec ien pc base => Sys2Proof.Machine.execCreateIoCq cid q size vec ien pc base s
  | .deleteIoSq cid q => Sys2Proof.Machine.execDeleteIoSq cid q s
  | .deleteIoCq cid q => Sys2Proof.Machine.execDeleteIoCq cid q s
  | .getLogPage cid lid bytes prps => Sys2Proof.Machine.execGetLogPage cid lid bytes prps s
  | .identify cid cns nsid prps => Sys2Proof.Machine.execIdentify cid cns nsid prps s
  | .abort cid sqid target => Sys2Proof.Machine.execAbort cid sqid target s
  | .setFeatures cid fid save dw11 => Sys2Proof.Machine.execSetFeatures cid fid save dw11 s
  | .getFeatures cid fid => Sys2Proof.Machine.execGetFeatures cid fid s
  | .namespaceCreate cid nsze ncap flbas dps nmic => Sys2Proof.Machine.execNamespaceCreate cid nsze ncap flbas dps nmic s
  | .namespaceZeroingDone nsid => Sys2Proof.Machine.execNamespaceZeroingDone nsid s
  | .namespaceDelete cid nsid => Sys2Proof.Machine.execNamespaceDelete cid nsid s
  | .namespaceAttachment cid nsid attach ctrl => Sys2Proof.Machine.execNamespaceAttachment cid nsid attach ctrl s
  | .nvmeInvalidOpcode sq cid => Sys2Proof.Machine.execNvmeInvalidOpcode sq cid s
  | .write io => Sys2Proof.Machine.execWrite io s
  | .read io => Sys2Proof.Machine.execRead io s
  | .flush sq cid nsid => Sys2Proof.Machine.execFlush sq cid nsid s
  | .writeZeroes io => Sys2Proof.Machine.execWriteZeroes io s
  | .writeBufferDrain => Sys2Proof.Machine.execWriteBufferDrain s
  | .ingPoolWrite m a => Sys2Proof.Machine.execIngPoolWrite m a s
  | .podCreate p => Sys2Proof.Machine.execPodCreate p s
  | .podCreateDone p => Sys2Proof.Machine.execPodCreateDone p s
  | .podDestroy p => Sys2Proof.Machine.execPodDestroy p s
  | .podDestroyDone p => Sys2Proof.Machine.execPodDestroyDone p s
  | .podReset p => Sys2Proof.Machine.execPodReset p s
  | .podResetDone p => Sys2Proof.Machine.execPodResetDone p s
  | .podQuiesce p => Sys2Proof.Machine.execPodQuiesce p s
  | .podQuiesced p => Sys2Proof.Machine.execPodQuiesced p s
  | .podResume p => Sys2Proof.Machine.execPodResume p s
  | .podSave p => Sys2Proof.Machine.execPodSave p s
  | .podSaveDone p => Sys2Proof.Machine.execPodSaveDone p s
  | .podRestore p => Sys2Proof.Machine.execPodRestore p s
  | .podRestoreDone p => Sys2Proof.Machine.execPodRestoreDone p s
  | .logSwap p => Sys2Proof.Machine.execLogSwap p s
  | .logSwapDone p => Sys2Proof.Machine.execLogSwapDone p s
  | .spanCfgLock a => Sys2Proof.Machine.execSpanCfgLock a s
  | .portEnable k => Sys2Proof.Machine.execPortEnable k s
  | .portDisable k => Sys2Proof.Machine.execPortDisable k s
  | .portRetrain k => Sys2Proof.Machine.execPortRetrain k s
  | .portSignalDetect k => Sys2Proof.Machine.execPortSignalDetect k s
  | .portTrainComplete k width => Sys2Proof.Machine.execPortTrainComplete k width s
  | .portTrainFail k half => Sys2Proof.Machine.execPortTrainFail k half s
  | .portParameters k nbr => Sys2Proof.Machine.execPortParameters k nbr s
  | .codeword k header errors => Sys2Proof.Machine.execCodeword k header errors s
  | .flit k f => Sys2Proof.Machine.execFlit k f s
  | .lpreq k => Sys2Proof.Machine.execLpreq k s
  | .lpack k => Sys2Proof.Machine.execLpack k s
  | .lpackTimeout k => Sys2Proof.Machine.execLpackTimeout k s
  | .wakePattern k => Sys2Proof.Machine.execWakePattern k s
  | .helloSend => Sys2Proof.Machine.execHelloSend s
  | .hello d => Sys2Proof.Machine.execHello d s
  | .linkstate d nbrs => Sys2Proof.Machine.execLinkstate d nbrs s
  | .pathLost d => Sys2Proof.Machine.execPathLost d s
  | .fenceMessage d named selfFence clean => Sys2Proof.Machine.execFenceMessage d named selfFence clean s
  | .peerTimeout d => Sys2Proof.Machine.execPeerTimeout d s
  | .readmitPermit a => Sys2Proof.Machine.execReadmitPermit a s
  | .ready d => Sys2Proof.Machine.execReady d s
  | .join d group tag crc counts => Sys2Proof.Machine.execJoin d group tag crc counts s
  | .joinTimeout r => Sys2Proof.Machine.execJoinTimeout r s
  | .joinHoldExpiry d group tag => Sys2Proof.Machine.execJoinHoldExpiry d group tag s
  | .pipeDone d group tag pipe => Sys2Proof.Machine.execPipeDone d group tag pipe s
  | .abortMessage d group tag status detail => Sys2Proof.Machine.execAbortMessage d group tag status detail s
  | .lockstepMiscompare core => Sys2Proof.Machine.execLockstepMiscompare core s
  | .ctlAdd f => Sys2Proof.Machine.execCtlAdd f s
  | .ctlSub f => Sys2Proof.Machine.execCtlSub f s
  | .ctlAnd f => Sys2Proof.Machine.execCtlAnd f s
  | .ctlOr f => Sys2Proof.Machine.execCtlOr f s
  | .ctlXor f => Sys2Proof.Machine.execCtlXor f s
  | .ctlSll f => Sys2Proof.Machine.execCtlSll f s
  | .ctlSrl f => Sys2Proof.Machine.execCtlSrl f s
  | .ctlSra f => Sys2Proof.Machine.execCtlSra f s
  | .ctlSlt f => Sys2Proof.Machine.execCtlSlt f s
  | .ctlSltu f => Sys2Proof.Machine.execCtlSltu f s
  | .ctlMul f => Sys2Proof.Machine.execCtlMul f s
  | .ctlMulhu f => Sys2Proof.Machine.execCtlMulhu f s
  | .ctlDivu f => Sys2Proof.Machine.execCtlDivu f s
  | .ctlRemu f => Sys2Proof.Machine.execCtlRemu f s
  | .ctlDivs f => Sys2Proof.Machine.execCtlDivs f s
  | .ctlRems f => Sys2Proof.Machine.execCtlRems f s
  | .ctlAddi f => Sys2Proof.Machine.execCtlAddi f s
  | .ctlAndi f => Sys2Proof.Machine.execCtlAndi f s
  | .ctlOri f => Sys2Proof.Machine.execCtlOri f s
  | .ctlXori f => Sys2Proof.Machine.execCtlXori f s
  | .ctlShiSll f => Sys2Proof.Machine.execCtlShiSll f s
  | .ctlShiSrl f => Sys2Proof.Machine.execCtlShiSrl f s
  | .ctlShiSra f => Sys2Proof.Machine.execCtlShiSra f s
  | .ctlMovz f => Sys2Proof.Machine.execCtlMovz f s
  | .ctlMovk f => Sys2Proof.Machine.execCtlMovk f s
  | .ctlLdu8 f => Sys2Proof.Machine.execCtlLdu8 f s
  | .ctlLdu16 f => Sys2Proof.Machine.execCtlLdu16 f s
  | .ctlLdu32 f => Sys2Proof.Machine.execCtlLdu32 f s
  | .ctlLd64 f => Sys2Proof.Machine.execCtlLd64 f s
  | .ctlLds8 f => Sys2Proof.Machine.execCtlLds8 f s
  | .ctlLds16 f => Sys2Proof.Machine.execCtlLds16 f s
  | .ctlLds32 f => Sys2Proof.Machine.execCtlLds32 f s
  | .ctlSt8 f => Sys2Proof.Machine.execCtlSt8 f s
  | .ctlSt16 f => Sys2Proof.Machine.execCtlSt16 f s
  | .ctlSt32 f => Sys2Proof.Machine.execCtlSt32 f s
  | .ctlSt64 f => Sys2Proof.Machine.execCtlSt64 f s
  | .ctlSwap f => Sys2Proof.Machine.execCtlSwap f s
  | .ctlAadd f => Sys2Proof.Machine.execCtlAadd f s
  | .ctlAand f => Sys2Proof.Machine.execCtlAand f s
  | .ctlAor f => Sys2Proof.Machine.execCtlAor f s
  | .ctlCas f => Sys2Proof.Machine.execCtlCas f s
  | .ctlFence core => Sys2Proof.Machine.execCtlFence core s
  | .ctlBeq f => Sys2Proof.Machine.execCtlBeq f s
  | .ctlBne f => Sys2Proof.Machine.execCtlBne f s
  | .ctlBlt f => Sys2Proof.Machine.execCtlBlt f s
  | .ctlBge f => Sys2Proof.Machine.execCtlBge f s
  | .ctlBltu f => Sys2Proof.Machine.execCtlBltu f s
  | .ctlBgeu f => Sys2Proof.Machine.execCtlBgeu f s
  | .ctlJal core off => Sys2Proof.Machine.execCtlJal core off s
  | .ctlJalr f => Sys2Proof.Machine.execCtlJalr f s
  | .ctlCsrr f => Sys2Proof.Machine.execCtlCsrr f s
  | .ctlCsrw f => Sys2Proof.Machine.execCtlCsrw f s
  | .ctlKrd f => Sys2Proof.Machine.execCtlKrd f s
  | .ctlKwr f => Sys2Proof.Machine.execCtlKwr f s
  | .ctlResume core => Sys2Proof.Machine.execCtlResume core s
  | .ctlExit core => Sys2Proof.Machine.execCtlExit core s
  | .ctlYieldcpu core => Sys2Proof.Machine.execCtlYieldcpu core s
  | .ctlSleep f => Sys2Proof.Machine.execCtlSleep f s
  | .ctlWait f => Sys2Proof.Machine.execCtlWait f s
  | .ctlPost f => Sys2Proof.Machine.execCtlPost f s
  | .ctlSpawn f => Sys2Proof.Machine.execCtlSpawn f s
  | .ctlSetpri f => Sys2Proof.Machine.execCtlSetpri f s
  | .ctlSelf f => Sys2Proof.Machine.execCtlSelf f s
  | .ctlNow f => Sys2Proof.Machine.execCtlNow f s
  | .ctlLock f => Sys2Proof.Machine.execCtlLock f s
  | .ctlTrylock f => Sys2Proof.Machine.execCtlTrylock f s
  | .ctlUnlock f => Sys2Proof.Machine.execCtlUnlock f s
  | .ctlClrpoison f => Sys2Proof.Machine.execCtlClrpoison f s
  | .tick => Sys2Proof.Machine.execTick s
  | .timeSlice core => Sys2Proof.Machine.execTimeSlice core s
  | .powerLimitTick watts => Sys2Proof.Machine.execPowerLimitTick watts s
  | .thermalTick tj => Sys2Proof.Machine.execThermalTick tj s
  | .thermalTrip sensor reading => Sys2Proof.Machine.execThermalTrip sensor reading s
  | .droopDetect c => Sys2Proof.Machine.execDroopDetect c s
  | .droopRecover c => Sys2Proof.Machine.execDroopRecover c s
  | .p1Entry => Sys2Proof.Machine.execP1Entry s
  | .p1Exit => Sys2Proof.Machine.execP1Exit s
  | .requestS1 => Sys2Proof.Machine.execRequestS1 s
  | .requestS2 => Sys2Proof.Machine.execRequestS2 s
  | .requestP0 => Sys2Proof.Machine.execRequestP0 s
  | .powerEntryComplete => Sys2Proof.Machine.execPowerEntryComplete s
  | .wake sources => Sys2Proof.Machine.execWake sources s
  | .exitStepReady tj => Sys2Proof.Machine.execExitStepReady tj s
  | .brownout => Sys2Proof.Machine.execBrownout s
  | .powerOnReset => Sys2Proof.Machine.execPowerOnReset s
  | .coldReset cmd => Sys2Proof.Machine.execColdReset cmd s
  | .warmReset cmd => Sys2Proof.Machine.execWarmReset cmd s
  | .pwrokLoss => Sys2Proof.Machine.execPwrokLoss s
  | .pllLockLoss pll => Sys2Proof.Machine.execPllLockLoss pll s
  | .sensorSample readings => Sys2Proof.Machine.execSensorSample readings s
  | .shellWatchdog => Sys2Proof.Machine.execShellWatchdog s
  | .executiveStart slotA => Sys2Proof.Machine.execExecutiveStart slotA s
  | .endBoot src => Sys2Proof.Machine.execEndBoot src s
  | .digestOpen who value => Sys2Proof.Machine.execDigestOpen who value s
  | .digestClose who => Sys2Proof.Machine.execDigestClose who s
  | .digestData who word => Sys2Proof.Machine.execDigestData who word s
  | .absorbDone => Sys2Proof.Machine.execAbsorbDone s
  | .digestWatchdog => Sys2Proof.Machine.execDigestWatchdog s
  | .digestStatusRead who => Sys2Proof.Machine.execDigestStatusRead who s
  | .rngRead who => Sys2Proof.Machine.execRngRead who s
  | .drbgReseed => Sys2Proof.Machine.execDrbgReseed s
  | .entropyHealthFail => Sys2Proof.Machine.execEntropyHealthFail s
  | .pitRead who => Sys2Proof.Machine.execPitRead who s
  | .sesameRequest level => Sys2Proof.Machine.execSesameRequest level s
  | .sesameResponseWord word => Sys2Proof.Machine.execSesameResponseWord word s
  | .sesameSubmit => Sys2Proof.Machine.execSesameSubmit s
  | .sesameVerifyDone => Sys2Proof.Machine.execSesameVerifyDone s
  | .sesameDrop => Sys2Proof.Machine.execSesameDrop s
  | .debugMuxSelect group en => Sys2Proof.Machine.execDebugMuxSelect group en s
  | .queryDeviceIdentifiers b => Sys2Proof.Machine.execQueryDeviceIdentifiers b s
  | .getFirmwareParameters b => Sys2Proof.Machine.execGetFirmwareParameters b s
  | .requestUpdate b => Sys2Proof.Machine.execRequestUpdate b s
  | .passComponentTable b comp => Sys2Proof.Machine.execPassComponentTable b comp s
  | .updateComponent b comp size => Sys2Proof.Machine.execUpdateComponent b comp size s
  | .requestFirmwareData b chunk => Sys2Proof.Machine.execRequestFirmwareData b chunk s
  | .transferComplete b => Sys2Proof.Machine.execTransferComplete b s
  | .verifyComplete b => Sys2Proof.Machine.execVerifyComplete b s
  | .applyComplete b => Sys2Proof.Machine.execApplyComplete b s
  | .activateFirmware b selfContained => Sys2Proof.Machine.execActivateFirmware b selfContained s
  | .getStatus b => Sys2Proof.Machine.execGetStatus b s
  | .cancelUpdateComponent b => Sys2Proof.Machine.execCancelUpdateComponent b s
  | .cancelUpdate b => Sys2Proof.Machine.execCancelUpdate b s
  | .getPdrRepositoryInfo b => Sys2Proof.Machine.execGetPdrRepositoryInfo b s
  | .getPdr b handle => Sys2Proof.Machine.execGetPdr b handle s
  | .getSensorReading b sensor => Sys2Proof.Machine.execGetSensorReading b sensor s
  | .getStateSensorReadings b sensor => Sys2Proof.Machine.execGetStateSensorReadings b sensor s
  | .getVersion b => Sys2Proof.Machine.execGetVersion b s
  | .getCapabilities b => Sys2Proof.Machine.execGetCapabilities b s
  | .negotiateAlgorithms b => Sys2Proof.Machine.execNegotiateAlgorithms b s
  | .getDigests b => Sys2Proof.Machine.execGetDigests b s
  | .getCertificate b slot off len => Sys2Proof.Machine.execGetCertificate b slot off len s
  | .challenge b slot nonce => Sys2Proof.Machine.execChallenge b slot nonce s
  | .getMeasurements b index signed nonce => Sys2Proof.Machine.execGetMeasurements b index signed nonce s
  | .spdmSignDone => Sys2Proof.Machine.execSpdmSignDone s
  | .mctpControl b command eid => Sys2Proof.Machine.execMctpControl b command eid s
  | .eventLogReadMessage b entry => Sys2Proof.Machine.execEventLogReadMessage b entry s
  | .tapReset => Sys2Proof.Machine.execTapReset s
  | .bypass => Sys2Proof.Machine.execBypass s
  | .samplePreload => Sys2Proof.Machine.execSamplePreload s
  | .extest => Sys2Proof.Machine.execExtest s
  | .idcode => Sys2Proof.Machine.execIdcode s
  | .residueMismatch t unit slot stage seq => Sys2Proof.Machine.execResidueMismatch t unit slot stage seq s
  | .tileWatchdog t => Sys2Proof.Machine.execTileWatchdog t s
  | .selftestClaim c => Sys2Proof.Machine.execSelftestClaim c s
  | .selftestStart t => Sys2Proof.Machine.execSelftestStart t s
  | .selftestDone t pass => Sys2Proof.Machine.execSelftestDone t pass s
  | .selftestLate t => Sys2Proof.Machine.execSelftestLate t s
  | .clusterFault c => Sys2Proof.Machine.execClusterFault c s
  | .fabricParity segment run => Sys2Proof.Machine.execFabricParity segment run s
  | .errorRingEnable pod a => Sys2Proof.Machine.execErrorRingEnable pod a s
  | .injectionArm a => Sys2Proof.Machine.execInjectionArm a s
  | .retest a => Sys2Proof.Machine.execRetest a s
  | .sysPwrokRise => Sys2Proof.Machine.execSysPwrokRise s
  | .vauxRemoved => Sys2Proof.Machine.execVauxRemoved s
  | .badCommand p words => Sys2Proof.Machine.execBadCommand p words s
  | .pageRequestGroupResponse pasid page success => Sys2Proof.Machine.execPageRequestGroupResponse pasid page success s
  | .interruptCoalescingExpiry => Sys2Proof.Machine.execInterruptCoalescingExpiry s

end Sys2Proof.Machine
end

