-- ==== Sys2Proof/Safety.lean ====
section
/-! DEFINITION. The terms that statements about the device are made in: a command that completes
with a given device, the instruction a control core is about to execute, a thread after it, and a
register write as software makes one. -/

namespace Sys2Proof.Machine

/-- The command completes: the device is `d` and the queue is as it was. -/
def Gives (c : Instr) (s : State) (d : Dev) : Prop := exec c s = .next { s with dev := d }

/-- The functional clocks run (R412, R418). -/
abbrev Dev.clocked (d : Dev) : Prop := d.halted = false

/-- Every memory of the device is in its canonical form. -/
def Dev.memOk (d : Dev) : Bool := Mem.wf d.mem && Mem.wf d.hmem && Mem.wf d.peerMem

/-! ### Control cores (R385, R388) -/

/-- The next instruction of the live core is `c`, of thread `t`: a pod thread's is the word of its
run's validated code at its PC. -/
abbrev Dev.executes (d : Dev) (core : Fin 8) (t : Thread) (c : CIns) : Prop :=
  d.running core.val = some t ∧ (t.priv = false → ((d.codeOf t)[t.pc / 4]?).bind CIns.decode = some c)

/-- A general register as a word: G0 is zero (R385). -/
def Thread.word (t : Thread) (r : BitVec 5) : Word := if r = 0 then 0 else t.g.getD r.toNat 0

/-- The general registers after a write: G0 keeps none (R385). -/
def Thread.withReg (t : Thread) (r : BitVec 5) (w : Word) : List Word :=
  if r = 0 then t.g else t.g.set r.toNat w

/-- The thread at another PC. -/
def Thread.atPc (t : Thread) (pc : Word) : Thread := { t with pc := pc.toNat }

/-- The PC as a word. -/
def Thread.pcWord (t : Thread) : Word := BitVec.ofNat 64 t.pc

/-- The thread past its instruction, with `w` in register `r` and nothing else changed. -/
def Thread.wrote (t : Thread) (r : BitVec 5) (w : Word) : Thread :=
  { t with g := t.withReg r w, pc := (t.pcWord + 4).toNat }

/-- The thread past its instruction, with nothing else changed. -/
def Thread.passed (t : Thread) : Thread := { t with pc := (t.pcWord + 4).toNat }

/-- The device with the thread of slot `t.slot` replaced. -/
def Dev.withThread (d : Dev) (t : Thread) : Dev :=
  { d with threads := d.threads.map fun u => if u.slot = t.slot then t else u }

/-- An R-format instruction writes `op RA RB` to RD and goes on. -/
def RWrites (c : RFmt → Instr) (i : BitVec 5 → BitVec 5 → BitVec 5 → CIns) (op : Word → Word → Word) : Prop :=
  ∀ (s : State) (f : RFmt) (t : Thread), s.dev.clocked → s.dev.executes f.core t (i f.rd f.ra f.rb) →
    Gives (c f) s (s.dev.withThread (t.wrote f.rd (op (t.word f.ra) (t.word f.rb))))

/-- An I-format instruction writes `op RA IMM` to RD and goes on. -/
def IWrites (c : IFmt → Instr) (i : BitVec 5 → BitVec 5 → BitVec 16 → CIns) (op : Word → BitVec 16 → Word) : Prop :=
  ∀ (s : State) (f : IFmt) (t : Thread), s.dev.clocked → s.dev.executes f.core t (i f.rd f.ra f.imm) →
    Gives (c f) s (s.dev.withThread (t.wrote f.rd (op (t.word f.ra) f.imm)))

/-- The address that a load or store of RA and IMM names (R386). -/
def Thread.target (t : Thread) (ra : BitVec 5) (imm : BitVec 16) : Nat := (t.word ra + imm.signExtend 64).toNat

/-- An address that the thread may use and that is aligned to `n` bytes (R387, R388). -/
abbrev Dev.usable (d : Dev) (t : Thread) (a n : Nat) : Prop := a % n = 0 ∧ d.mayUse t a n = true

/-- The device once the core's data cache has asked for the line of a load, or for its ownership, and an uncorrectable
error in it has been found (R265, R274). -/
def Dev.loadSeen (d : Dev) (t : Thread) (a : Nat) (own : Bool) : Dev := (d.coreAsk t a own).lineUsed a

/-- A load of `n` unmarked bytes, zero- or sign-extended, goes to RD. -/
def Loads (c : IFmt → Instr) (k : Fin 7) (n : Nat) (signed : Bool) : Prop :=
  ∀ (s : State) (f : IFmt) (t : Thread), s.dev.clocked → s.dev.executes f.core t (.load k f.rd f.ra f.imm) →
    s.dev.usable t (t.target f.ra f.imm) n →
    let d := s.dev.loadSeen t (t.target f.ra f.imm) false
    d.anyPoison (t.target f.ra f.imm) n = .clean →
    Gives (c f) s (d.withThread (t.wrote f.rd
      (let v := BitVec.ofNat (8 * n) (leNat (d.anyRead (t.target f.ra f.imm) n))
       if signed then v.signExtend 64 else v.zeroExtend 64)))

/-- A store of the low `n` bytes of RD. -/
def Stores (c : IFmt → Instr) (k : Fin 4) (n : Nat) : Prop :=
  ∀ (s : State) (f : IFmt) (t : Thread), s.dev.clocked → s.dev.executes f.core t (.store k f.rd f.ra f.imm) →
    s.dev.usable t (t.target f.ra f.imm) n →
    Gives (c f) s (((s.dev.coreAsk t (t.target f.ra f.imm) true).anyWrite (t.target f.ra f.imm) (leBytes n (t.word f.rd).toNat)).withThread t.passed)

/-- An atomic on the 8 bytes at RA: RD gets the old value, and `op old RB RD` is written where it is some. -/
def Atomics (c : RFmt → Instr) (k : Fin 5) (op : Word → Word → Word → Option Word) : Prop :=
  ∀ (s : State) (f : RFmt) (t : Thread), s.dev.clocked → s.dev.executes f.core t (.atom k f.rd f.ra f.rb) →
    s.dev.usable t (t.word f.ra).toNat 8 →
    let a := (t.word f.ra).toNat
    let d := s.dev.loadSeen t a true
    d.anyPoison a 8 = .clean →
    let old := BitVec.ofNat 64 (leNat (d.anyRead a 8))
    Gives (c f) s (((op old (t.word f.rb) (t.word f.rd)).elim d fun w =>
      d.anyWrite a (leBytes 8 w.toNat)).withThread (t.wrote f.rd old))

/-- A branch goes to PC + 4 × OFF when RA compares with RB as named, and on otherwise. -/
def Branches (c : BFmt → Instr) (k : Fin 6) (test : Word → Word → Bool) : Prop :=
  ∀ (s : State) (f : BFmt) (t : Thread), s.dev.clocked → s.dev.executes f.core t (.branch k f.ra f.rb f.off) →
    Gives (c f) s (s.dev.withThread (t.atPc
      (if test (t.word f.ra) (t.word f.rb) then t.pcWord + 4 * f.off.signExtend 64 else t.pcWord + 4)))

/-- A misaligned access, or one out of the thread's reach, is a thread fault with ADDR_FAULT. -/
def AddressFaults (c : IFmt → Instr) (i : BitVec 5 → BitVec 5 → BitVec 16 → CIns) (n : Nat) : Prop :=
  ∀ (s : State) (f : IFmt) (t : Thread), s.dev.clocked → s.dev.executes f.core t (i f.rd f.ra f.imm) →
    (t.target f.ra f.imm % n ≠ 0 ∨ s.dev.mayUse t (t.target f.ra f.imm) n = false) →
    Gives (c f) s (s.dev.threadFault t ⟨0x50, 0⟩)

/-- An atomic not on 8-byte boundary, or out of the thread's reach, is a thread fault with ADDR_FAULT. -/
def AtomicFaults (c : RFmt → Instr) (k : Fin 5) : Prop :=
  ∀ (s : State) (f : RFmt) (t : Thread), s.dev.clocked → s.dev.executes f.core t (.atom k f.rd f.ra f.rb) →
    ((t.word f.ra).toNat % 8 ≠ 0 ∨ s.dev.mayUse t (t.word f.ra).toNat 8 = false) →
    Gives (c f) s (s.dev.threadFault t ⟨0x50, 0⟩)

/-! ### The scheduler (R394 to R399) -/

/-- The cores after a thread leaves the one it runs on. -/
def Dev.coresWithout (d : Dev) (slot : Nat) : List Core :=
  d.cores.map fun c => if c.cur = some slot then { c with cur := none } else c

/-- The thread gives up its core in the state `t`, and the scheduler dispatches. -/
def Dev.parks (d : Dev) (t : Thread) : Dev :=
  ({ d with cores := d.coresWithout t.slot }.withThread t).schedule

/-- The thread goes from its core to the tail of its ready list, and the scheduler dispatches. -/
def Dev.requeues (d : Dev) (t : Thread) : Dev :=
  ({ d with cores := d.coresWithout t.slot,
            ready := (d.ready.filter fun x => x ≠ t.slot) ++ [t.slot] }.withThread
    { t with st := .ready, lockwait := 0 }).schedule

/-- A thread's delay expires at tick `n`, compared modulo 2^32 (R397). -/
def Dev.expires (d : Dev) (n slot : Nat) : Bool :=
  (d.thread slot).any fun t => t.st == .delayed && decide ((n + 2 ^ 32 - t.expiry) % 2 ^ 32 < 2 ^ 31)

/-- The thread of the caller's run, or of the executive, that has a number (R394). -/
def Dev.numbered (d : Dev) (t : Thread) (n : Word) : Option Thread :=
  d.threads.find? fun u => t.kin u && u.number == n.toNat

/-! ### Stages (R27, R58) -/

/-- A stage command on its stage works one turn of it and closes it; on another stage, or on none, it changes
nothing. -/
def StageTurns (c : StageRef → Instr) (opc : Nat) (ok : Nat → Bool) (turn : Act → List (Nat × Block) × Turn) : Prop :=
  ∀ (s : State) (w : StageRef), s.dev.clocked →
    (s.dev.actOf w = none → Gives (c w) s s.dev) ∧
    (∀ a, s.dev.actOf w = some a →
      (¬(swOp a.w = opc ∧ ok a.w = true) → Gives (c w) s s.dev) ∧
      (swOp a.w = opc → ok a.w = true → (s.dev.errs.jdrLost && joinStage a.w) = true →
        Gives (c w) s (s.dev.failInst a.i a.n ⟨0xF2, 0x09⟩ 0 0)) ∧
      (swOp a.w = opc → ok a.w = true → (s.dev.errs.jdrLost && joinStage a.w) = false → a.slotBad = true →
        Gives (c w) s ((s.dev.bump16 F.TIL_TS_ECC_UE_COUNT a.i.tile).failInst a.i a.n ⟨0xF0, 0x02⟩ 0 0)) ∧
      (swOp a.w = opc → ok a.w = true → (s.dev.errs.jdrLost && joinStage a.w) = false → a.slotBad = false →
        s.dev.get F.ERR_INJ_ARMED = 0 →
        Gives (c w) s (a.applyK.close w.act.toNat (turn a.applyK).1 (turn a.applyK).2)))

/-- The turn of a stage command that nothing keeps from its stage: the activation, with the KWR writes in effect. -/
def Dev.turnAt (d : Dev) (w : StageRef) (opc : Nat) : Option Act :=
  ((d.actOf w).map Act.applyK).filter fun a =>
    d.get F.ERR_INJ_ARMED == 0 && swOp a.w == opc && !a.slotBad && !(d.errs.jdrLost && joinStage a.w)

/-- Blocks at every input that the stage accepts, aligned, past their writers and with a buffer for every output: the
activation that works them, and the blocks. -/
def Act.offer (a : Act) : Option (Act × List (Nat × Block)) :=
  let bs := a.ins.filterMap fun v => (a.inBlock v).map fun b => (v, b)
  if (a.ins.all fun v => (a.inBlock v).isSome) && aligned bs && a.writersDone && a.outRoom then
    (a.accept bs).map fun b => (b.lookDicts bs, bs)
  else none

/-- The same for the stage of a command. -/
def Dev.offerAt (d : Dev) (w : StageRef) (opc : Nat) : Option (Act × List (Nat × Block)) := (d.turnAt w opc).bind Act.offer

/-- The stage of a command whose inputs have all ended. -/
def Dev.endAt (d : Dev) (w : StageRef) (opc : Nat) : Option Act :=
  (d.turnAt w opc).filter fun a => (a.ins.any fun v => (a.inBlock v).isNone) && a.ins.all a.inEnded

/-- The stage of a source command, of an instance that runs, with a buffer for every output. -/
def Dev.sourceAt (d : Dev) (w : StageRef) (opc : Nat) : Option Act :=
  (d.turnAt w opc).filter fun a => a.i.life == .running && a.outRoom

/-- A block of a stage has been worked: its intensity is measured, and the stage's results stand. -/
def Act.worked (a : Act) (w : StageRef) : Dev := (a.measure w.act.toNat).commit

/-- The same with its input blocks finished. -/
def Act.finished (a : Act) (w : StageRef) (bs : List (Nat × Block)) : Dev := (a.takeBlocks bs).worked w

/-! ### The clocks (R412, R418) -/

/-- Commands that come with the functional clocks stopped as well: resets, what brings power down or back, wakes, and
what the Shell or the test access port answers. -/
def Instr.anyTime : Sys2Proof.Instr → Bool
  | .wakePattern .. | .wake .. | .exitStepReady .. | .brownout | .powerOnReset | .coldReset .. | .warmReset ..
  | .pwrokLoss | .sysPwrokRise | .vauxRemoved | .shellWatchdog | .sensorSample .. => true
  | .queryDeviceIdentifiers .. | .getFirmwareParameters .. | .requestUpdate .. | .passComponentTable ..
  | .updateComponent .. | .requestFirmwareData .. | .transferComplete .. | .verifyComplete .. | .applyComplete ..
  | .activateFirmware .. | .getStatus .. | .cancelUpdateComponent .. | .cancelUpdate .. => true
  | .getPdrRepositoryInfo .. | .getPdr .. | .getSensorReading .. | .getStateSensorReadings .. | .mctpControl ..
  | .eventLogReadMessage .. => true
  | .getVersion .. | .getCapabilities .. | .negotiateAlgorithms .. | .getDigests .. | .getCertificate .. | .challenge ..
  | .getMeasurements .. | .spdmSignDone => true
  | .tapReset | .bypass | .samplePreload | .extest | .idcode => true
  | _ => false

/-! ### Checksums and hashes as the spec writes them (R129, R166) -/

/-- One bit into a division by the Castagnoli polynomial 0x1EDC6F41, most significant bit first. -/
def castagnoli (c : BitVec 32) (b : Bool) : BitVec 32 :=
  if c.msb != b then (c <<< 1) ^^^ 0x1EDC6F41 else c <<< 1

/-- The bits of a message in the order of a reflected division: each byte from its least significant bit. -/
def bitsOfBytes (bs : List Byte) : List Bool := bs.flatMap fun b => (List.range 8).map fun i => b.getLsbD i

/-- CRC-32C by its definition: the division begins with all ones, and its remainder is reflected and inverted (R129). -/
def castagnoliCrc (bs : List Byte) : BitVec 32 :=
  ((bitsOfBytes bs).foldl castagnoli (BitVec.allOnes 32)).reverse ^^^ BitVec.allOnes 32

/-- The little-endian words of a key, missing bytes zero. -/
def keyWords (k : List Byte) : List Word :=
  (List.range ((k.length + 7) / 8)).map fun i => BitVec.ofNat 64 (leNat ((k.drop (8 * i)).take 8))

/-- KH64 on 64-bit words, as R166 writes it. -/
def keyHash (seed : Word) (k : List Byte) : Word :=
  let mixed := (keyWords k).foldl (fun (h w : Word) =>
    let m := ((h ^^^ w).rotateLeft 27) * 0x8F31D6C52A7BE469
    m ^^^ (m >>> 31)) (seed ^^^ (BitVec.ofNat 64 k.length * 0xB7E45A1D3C926F0B))
  let x := (mixed ^^^ (mixed >>> 32)) * 0xE3A907F5B46C1D2D
  let y := (x ^^^ (x >>> 29)) * 0xB7E45A1D3C926F0B
  y ^^^ (y >>> 32)

end Sys2Proof.Machine
end

