-- ==== Sys2Proof/Certificates/Slice0/Obligations.lean ====
section
/-! DEFINITION. What is to be proved of the model. Every `Gives c s d` is an equation of the whole
next state: what `d` does not change is unchanged, in registers, memory and everything else, and
the queue is as it was. -/

open Sys2Proof Sys2Proof.Machine

/-! ### The queue -/

/-- A step takes the front command of the queue and runs it with the queue's rest. -/
def Obligations.StepRunsFrontCommand : Prop :=
  ∀ (s : State) (c : Instr) (rest : List Instr), s.pending = c :: rest →
    step s = exec c { s with pending := rest }

/-- Each of the 380 commands completes on all operands in every state: it changes the device only and leaves the queue
alone. No queue of commands stops the machine: every step takes at most the front command. -/
def Obligations.CommandsAlwaysComplete : Prop :=
  (∀ (c : Instr) (s : State), ∃ d, Gives c s d) ∧
  (∀ s : State, ∃ t, step s = .next t ∧ t.pending = s.pending.drop 1)

/-! ### Reset and the clocks -/

/-- Reset leaves the queue empty, every memory canonical, the pods FREE, memory not trained, BOOT and the cause of
reset POWER_ON, and its values for what the spec leaves open are the model's own (NOTES.md). On an empty queue a
step changes no memory and, without a PTM correction, the timestamp goes on by one nanosecond (the model's choice,
log entry 11). -/
def Obligations.ResetAndIdleSteps : Prop :=
  State.reset.pending = [] ∧ State.reset.dev.memOk = true ∧ State.reset.dev.clocked ∧
  State.reset.dev.get F.PWR_RESET_CAUSE_CAUSE = 1 ∧ State.reset.dev.get F.MEM_TRAIN_STATE = 0 ∧
  State.reset.dev.hull.mode = 0 ∧ (∀ p : Fin 64, State.reset.dev.podState p.val = 0) ∧
  (∀ s : State, s.pending = [] → ∃ t, step s = .next t ∧ t.pending = [] ∧ t.dev.mem = s.dev.mem ∧
    t.dev.hmem = s.dev.hmem ∧
    (s.dev.clocked → s.dev.host.ptmMode = 0 → s.dev.now + 1 < 2 ^ 64 → t.dev.now = s.dev.now + 1))

/-- With every functional clock stopped, a command other than a reset, a wake, a step of the power-up, a loss of power
or what the Shell or the test access port answers changes nothing (the model's reading of R412 and R418). -/
def Obligations.StoppedClocksFreezeTheDevice : Prop :=
  ∀ (s : State) (c : Instr), s.dev.halted = true → Instr.anyTime c = false → Gives c s s.dev

/-! ### Control instructions -/

/-- Encoding and decoding of control-class instructions agree in both directions: every instruction is read back from
its word, and a word that decodes is the word of what it decodes to. -/
def Obligations.ControlCodeRoundTrip : Prop :=
  (∀ c : CIns, CIns.decode c.encode = some c) ∧
  (∀ (w : BitVec 32) (c : CIns), CIns.decode w = some c → c.encode = w)

/-- The R-format operations of OPC 0x00 write RA op RB, modulo 2^64, to RD. Division: a zero divisor gives all ones or
−1 as the quotient and RA as the remainder, and −2^63 by −1 gives −2^63 and 0. ADDI, the bitwise immediates, the
immediate shifts, MOVZ and MOVK. -/
def Obligations.ControlComputations : Prop :=
  (RWrites .ctlAdd (.alu 0) (· + ·) ∧ RWrites .ctlSub (.alu 1) (· - ·) ∧ RWrites .ctlAnd (.alu 2) (· &&& ·) ∧
   RWrites .ctlOr (.alu 3) (· ||| ·) ∧ RWrites .ctlXor (.alu 4) (· ^^^ ·) ∧
   RWrites .ctlSll (.alu 5) (fun a b => a <<< (b.toNat % 64)) ∧
   RWrites .ctlSrl (.alu 6) (fun a b => a >>> (b.toNat % 64)) ∧
   RWrites .ctlSra (.alu 7) (fun a b => a.sshiftRight (b.toNat % 64)) ∧
   RWrites .ctlSlt (.alu 8) (fun a b => if a.slt b then 1 else 0) ∧
   RWrites .ctlSltu (.alu 9) (fun a b => if a.ult b then 1 else 0) ∧
   RWrites .ctlMul (.alu 10) (· * ·) ∧
   RWrites .ctlMulhu (.alu 11) (fun a b => BitVec.ofNat 64 (a.toNat * b.toNat / 2 ^ 64))) ∧
  (RWrites .ctlDivu (.alu 12) (fun a b => if b = 0 then BitVec.allOnes 64 else a / b) ∧
   RWrites .ctlRemu (.alu 13) (fun a b => if b = 0 then a else a % b) ∧
   RWrites .ctlDivs (.alu 14) (fun a b =>
     if b = 0 then BitVec.allOnes 64 else if a = BitVec.intMin 64 ∧ b = BitVec.allOnes 64 then BitVec.intMin 64
     else BitVec.ofInt 64 (a.toInt.tdiv b.toInt)) ∧
   RWrites .ctlRems (.alu 15) (fun a b =>
     if b = 0 then a else if a = BitVec.intMin 64 ∧ b = BitVec.allOnes 64 then 0
     else BitVec.ofInt 64 (a.toInt.tmod b.toInt))) ∧
  (IWrites .ctlAddi .addi (fun a i => a + i.signExtend 64) ∧
   IWrites .ctlAndi (.logic 0) (fun a i => a &&& i.zeroExtend 64) ∧
   IWrites .ctlOri (.logic 1) (fun a i => a ||| i.zeroExtend 64) ∧
   IWrites .ctlXori (.logic 2) (fun a i => a ^^^ i.zeroExtend 64) ∧
   (∀ (s : State) (f : ShiFmt) (t : Thread), s.dev.clocked →
     (s.dev.executes f.core t (.shi 0 f.rd f.ra f.amount) →
       Gives (.ctlShiSll f) s (s.dev.withThread (t.wrote f.rd (t.word f.ra <<< f.amount.toNat)))) ∧
     (s.dev.executes f.core t (.shi 1 f.rd f.ra f.amount) →
       Gives (.ctlShiSrl f) s (s.dev.withThread (t.wrote f.rd (t.word f.ra >>> f.amount.toNat)))) ∧
     (s.dev.executes f.core t (.shi 2 f.rd f.ra f.amount) →
       Gives (.ctlShiSra f) s (s.dev.withThread (t.wrote f.rd ((t.word f.ra).sshiftRight f.amount.toNat))))) ∧
   (∀ (s : State) (f : MovFmt) (t : Thread), s.dev.clocked →
     (s.dev.executes f.core t (.mov false f.rd f.sh f.imm) →
       Gives (.ctlMovz f) s (s.dev.withThread (t.wrote f.rd (f.imm.zeroExtend 64 <<< (16 * f.sh.toNat))))) ∧
     (s.dev.executes f.core t (.mov true f.rd f.sh f.imm) →
       Gives (.ctlMovk f) s (s.dev.withThread (t.wrote f.rd
         ((t.word f.rd &&& ~~~((0xFFFF : Word) <<< (16 * f.sh.toNat))) |||
           (f.imm.zeroExtend 64 <<< (16 * f.sh.toNat))))))))

/-- LDU8 to LD64 and LDS8 to LDS32. ST8 to ST64. SWAP, AADD, AAND, AOR and CAS. Accesses not naturally aligned, and
those out of the thread's reach, are thread faults with ADDR_FAULT. -/
def Obligations.ControlMemoryAccesses : Prop :=
  (Loads .ctlLdu8 0 1 false ∧ Loads .ctlLdu16 1 2 false ∧ Loads .ctlLdu32 2 4 false ∧ Loads .ctlLd64 3 8 false ∧
   Loads .ctlLds8 4 1 true ∧ Loads .ctlLds16 5 2 true ∧ Loads .ctlLds32 6 4 true) ∧
  (Stores .ctlSt8 0 1 ∧ Stores .ctlSt16 1 2 ∧ Stores .ctlSt32 2 4 ∧ Stores .ctlSt64 3 8) ∧
  (Atomics .ctlSwap 0 (fun _ b _ => some b) ∧ Atomics .ctlAadd 1 (fun old b _ => some (old + b)) ∧
   Atomics .ctlAand 2 (fun old b _ => some (old &&& b)) ∧ Atomics .ctlAor 3 (fun old b _ => some (old ||| b)) ∧
   Atomics .ctlCas 4 (fun old b rd => if old = rd then some b else none)) ∧
  (AddressFaults .ctlLdu8 (.load 0) 1 ∧ AddressFaults .ctlLdu16 (.load 1) 2 ∧ AddressFaults .ctlLdu32 (.load 2) 4 ∧
   AddressFaults .ctlLd64 (.load 3) 8 ∧ AddressFaults .ctlLds8 (.load 4) 1 ∧ AddressFaults .ctlLds16 (.load 5) 2 ∧
   AddressFaults .ctlLds32 (.load 6) 4 ∧
   AddressFaults .ctlSt8 (.store 0) 1 ∧ AddressFaults .ctlSt16 (.store 1) 2 ∧ AddressFaults .ctlSt32 (.store 2) 4 ∧
   AddressFaults .ctlSt64 (.store 3) 8 ∧
   AtomicFaults .ctlSwap 0 ∧ AtomicFaults .ctlAadd 1 ∧ AtomicFaults .ctlAand 2 ∧ AtomicFaults .ctlAor 3 ∧
   AtomicFaults .ctlCas 4)

/-- Branches, JAL, JALR and FENCE: where the PC goes, and the link register. -/
def Obligations.ControlTransfers : Prop :=
  Branches .ctlBeq 0 (fun a b => a == b) ∧ Branches .ctlBne 1 (fun a b => a != b) ∧
  Branches .ctlBlt 2 (fun a b => a.slt b) ∧ Branches .ctlBge 3 (fun a b => !a.slt b) ∧
  Branches .ctlBltu 4 (fun a b => a.ult b) ∧ Branches .ctlBgeu 5 (fun a b => !a.ult b) ∧
  (∀ (s : State) (core : Fin 8) (off : BitVec 26) (t : Thread), s.dev.clocked → s.dev.executes core t (.jal off) →
    Gives (.ctlJal core off) s (s.dev.withThread
      { t with g := t.withReg 31 (t.pcWord + 4), pc := (t.pcWord + 4 * off.signExtend 64).toNat })) ∧
  (∀ (s : State) (f : IFmt) (t : Thread), s.dev.clocked → s.dev.executes f.core t (.jalr f.rd f.ra f.imm) →
    Gives (.ctlJalr f) s (s.dev.withThread
      { t with g := t.withReg f.rd (t.pcWord + 4),
               pc := ((t.word f.ra + f.imm.signExtend 64) &&& ~~~(3 : Word)).toNat })) ∧
  (∀ (s : State) (core : Fin 8) (t : Thread), s.dev.clocked → s.dev.executes core t .fence →
    Gives (.ctlFence core) s (s.dev.withThread t.passed))

/-- CSRR and CSRW of a privileged thread: RD := the register at offset 8 × IMM, and that register := RD as one 64-bit
register write. KRD, KWR and RESUME on the instance of the thread's ancestry. The INDEX_RANGE thread faults: KRD
and KWR of a stage or K number outside its range, a SLEEP of 2^31 ticks or more, and a lock number above 15 (or
above 255 for the executive). -/
def Obligations.ControlRegisterAndStageAccess : Prop :=
  (∀ (s : State) (f : IFmt) (t : Thread), s.dev.clocked → f.ra = 0 → s.dev.running f.core.val = some t → t.priv = true →
     (∀ r : RegRef, barReg (8 * f.imm.toNat) = some r →
       Gives (.ctlCsrr f) s (s.dev.withThread (t.wrote f.rd (BitVec.ofNat 64 (s.dev.readReg .exec r))))) ∧
     Gives (.ctlCsrw f) s ((s.dev.withThread t.passed).registerWrite ⟨.exec, .full, t.word f.rd⟩ (8 * f.imm.toNat))) ∧
  ((∀ (s : State) (f : RFmt) (t : Thread), s.dev.clocked →
     (t.word f.ra).toNat < s.dev.stageCount t → (t.word f.rb).toNat < 64 →
     s.dev.executes f.core t (.krd f.rd f.ra f.rb) →
     Gives (.ctlKrd f) s (s.dev.withThread (t.wrote f.rd
       ((((s.dev.instOf t).bind fun i => i.stages[(t.word f.ra).toNat]?).elim 0 fun st =>
         st.k.getD (t.word f.rb).toNat 0))))) ∧
   (∀ (s : State) (f : RFmt) (t : Thread) (i : Inst), s.dev.clocked →
     t.stage < (t.word f.ra).toNat → (t.word f.ra).toNat < s.dev.stageCount t → (t.word f.rb).toNat < 64 →
     s.dev.executes f.core t (.kwr f.rd f.ra f.rb) → s.dev.instOf t = some i →
     Gives (.ctlKwr f) s ((s.dev.setInst { i with
       stages := i.stages.modify (t.word f.ra).toNat fun st =>
         { st with kPend := st.kPend ++ [((t.word f.rb).toNat, t.word f.rd)] } }).withThread t.passed)) ∧
   (∀ (s : State) (core : Fin 8) (t : Thread) (i : Inst), s.dev.clocked →
     s.dev.executes core t .resume → s.dev.instOf t = some i →
     Gives (.ctlResume core) s ((s.dev.setInst { i with
       stages := i.stages.modify t.stage fun st => { st with heldBlk := false } }).withThread t.passed))) ∧
  (∀ (s : State) (f : RFmt) (t : Thread), s.dev.clocked →
     (s.dev.executes f.core t (.krd f.rd f.ra f.rb) →
       (s.dev.stageCount t ≤ (t.word f.ra).toNat ∨ 64 ≤ (t.word f.rb).toNat) →
       Gives (.ctlKrd f) s (s.dev.threadFault t ⟨0x43, 0⟩)) ∧
     (s.dev.executes f.core t (.kwr f.rd f.ra f.rb) →
       ((t.word f.ra).toNat ≤ t.stage ∨ s.dev.stageCount t ≤ (t.word f.ra).toNat ∨ 64 ≤ (t.word f.rb).toNat) →
       Gives (.ctlKwr f) s (s.dev.threadFault t ⟨0x43, 0⟩)) ∧
     (s.dev.executes f.core t (.sleep f.ra) → f.rd = 0 → f.rb = 0 → 2 ^ 31 ≤ (t.word f.ra).toNat →
       Gives (.ctlSleep f) s (s.dev.threadFault t ⟨0x43, 0⟩)) ∧
     (f.rb = 0 → (if t.priv then 256 else 16) ≤ (t.word f.ra).toNat →
       (s.dev.executes f.core t (.lockOp 0 f.rd f.ra) → Gives (.ctlLock f) s (s.dev.threadFault t ⟨0x43, 0⟩)) ∧
       (s.dev.executes f.core t (.lockOp 1 f.rd f.ra) → Gives (.ctlTrylock f) s (s.dev.threadFault t ⟨0x43, 0⟩)) ∧
       (s.dev.executes f.core t (.lockOp 2 f.rd f.ra) → Gives (.ctlUnlock f) s (s.dev.threadFault t ⟨0x43, 0⟩)) ∧
       (s.dev.executes f.core t (.lockOp 3 f.rd f.ra) → Gives (.ctlClrpoison f) s (s.dev.threadFault t ⟨0x43, 0⟩))))

/-! ### The scheduler and hardware locks -/

/-- EXIT of a thread that holds no lock, YIELDCPU, SLEEP and WAIT. POST to no live thread, to one that does not wait
for the event and to one that does; SPAWN with a free slot and without; SETPRI (of an executive thread: the low
five bits, log entry 31), SELF and NOW. -/
def Obligations.SchedulerOperations : Prop :=
  ((∀ (s : State) (core : Fin 8) (t : Thread), s.dev.clocked → s.dev.executes core t .exit →
     (∀ l ∈ s.dev.locks, ¬(l.held = true ∧ l.owner = t.slot)) → (∀ u ∈ s.dev.threads, u.st ≠ .stalled) →
     Gives (.ctlExit core) s ({ s.dev with
       threads := s.dev.threads.filter fun u => u.slot ≠ t.slot,
       ready := s.dev.ready.filter fun x => x ≠ t.slot,
       cores := s.dev.cores.map fun c =>
         { c with cur := if c.cur = some t.slot then none else c.cur,
                  next := if c.next = some t.slot then none else c.next },
       locks := s.dev.locks.map fun l => { l with waiters := l.waiters.filter fun x => x ≠ t.slot } } : Dev).schedule) ∧
   (∀ (s : State) (core : Fin 8) (t : Thread), s.dev.clocked → s.dev.executes core t .yieldcpu →
     Gives (.ctlYieldcpu core) s (s.dev.requeues t.passed)) ∧
   (∀ (s : State) (f : RFmt) (t : Thread), s.dev.clocked → f.rd = 0 → f.rb = 0 → s.dev.executes f.core t (.sleep f.ra) →
     (t.word f.ra = 0 → Gives (.ctlSleep f) s (s.dev.requeues t.passed)) ∧
     (0 < (t.word f.ra).toNat → (t.word f.ra).toNat < 2 ^ 31 →
       Gives (.ctlSleep f) s (s.dev.parks { t.passed with
         st := .delayed, expiry := (s.dev.get F.CTL_SCHED_STATUS_TICKS + (t.word f.ra).toNat) % 2 ^ 32 }))) ∧
   (∀ (s : State) (f : RFmt) (t : Thread), s.dev.clocked → f.rb = 0 → s.dev.executes f.core t (.wait f.rd f.ra) →
     (t.event &&& t.word f.ra ≠ 0 →
       Gives (.ctlWait f) s (s.dev.withThread { t.wrote f.rd (t.event &&& t.word f.ra) with
         event := t.event &&& ~~~t.word f.ra, mask := 0, dest := 0 })) ∧
     (t.event &&& t.word f.ra = 0 →
       Gives (.ctlWait f) s (s.dev.parks { t.passed with st := .waiting, dest := f.rd.toNat, mask := t.word f.ra })))) ∧
  ((∀ (s : State) (f : RFmt) (t : Thread), s.dev.clocked → s.dev.executes f.core t (.post f.rd f.ra f.rb) →
     s.dev.numbered t (t.word f.ra) = none → Gives (.ctlPost f) s (s.dev.withThread (t.wrote f.rd 1))) ∧
   (∀ (s : State) (f : RFmt) (t u : Thread), s.dev.clocked → s.dev.executes f.core t (.post f.rd f.ra f.rb) →
     s.dev.numbered t (t.word f.ra) = some u → u.slot ≠ t.slot → s.dev.thread u.slot = some u →
     let event := u.event ||| t.word f.rb
     (¬(u.st = .waiting ∧ event &&& u.mask ≠ 0) →
       Gives (.ctlPost f) s (((s.dev.withThread (t.wrote f.rd 0)).withThread { u with event := event }).schedule)) ∧
     (u.st = .waiting → event &&& u.mask ≠ 0 →
       Gives (.ctlPost f) s ((((s.dev.withThread (t.wrote f.rd 0)).withThread
         { u.setReg u.dest (event &&& u.mask).toNat with
           event := event &&& ~~~u.mask, mask := 0, dest := 0 }).makeReady u.slot).schedule))) ∧
   (∀ (s : State) (f : RFmt) (t : Thread), s.dev.clocked → s.dev.executes f.core t (.spawn f.rd f.ra f.rb) →
     (∀ slot n : Nat, s.dev.freeThreadSlot t.pod t.priv = some slot →
       n < 1024 → (∀ u ∈ s.dev.threads, t.kin u = true → u.number ≠ n) →
       (∀ m < n, ∃ u ∈ s.dev.threads, t.kin u = true ∧ u.number = m) →
       Gives (.ctlSpawn f) s (({ s.dev with
         ready := (s.dev.ready.filter fun x => x ≠ slot) ++ [slot],
         threads := s.dev.threads ++ [{ t with
           slot := slot, number := n, st := .ready, pc := 4 * (t.word f.ra).toNat,
           g := (List.replicate 32 0).set 1 (t.word f.rb),
           event := 0, dest := 0, mask := 0, expiry := 0, lockwait := 0 }] }.withThread
             (t.wrote f.rd (BitVec.ofNat 64 n))).schedule)) ∧
     (s.dev.freeThreadSlot t.pod t.priv = none →
       Gives (.ctlSpawn f) s ((({ s.dev with cores := s.dev.coresWithout t.slot }.withThread
         { t.passed with st := .stalled, dest := f.rd.toNat, mask := t.word f.ra,
                         expiry := (t.word f.rb).toNat }).count .CTL_SCHED_STALL 1).schedule))) ∧
   (∀ (s : State) (f : RFmt) (t : Thread), s.dev.clocked → f.rb = 0 → s.dev.executes f.core t (.setpri f.rd f.ra) →
     Gives (.ctlSetpri f) s ((s.dev.withThread { t.wrote f.rd (BitVec.ofNat 64 t.prio) with
       prio := if t.priv then (t.word f.ra).toNat % 32 else max 8 (min 31 (t.word f.ra).toNat) }).schedule)) ∧
   (∀ (s : State) (f : RFmt) (t : Thread), s.dev.clocked → f.ra = 0 → f.rb = 0 →
     (s.dev.executes f.core t (.self f.rd) →
       Gives (.ctlSelf f) s (s.dev.withThread (t.wrote f.rd (BitVec.ofNat 64 t.number)))) ∧
     (s.dev.executes f.core t (.now f.rd) →
       Gives (.ctlNow f) s (s.dev.withThread (t.wrote f.rd (BitVec.ofNat 64 s.dev.now))))))

/-- LOCK and TRYLOCK of a free lock (0 OK, 1 POISONED), of a held one (LOCK waits, TRYLOCK gives 2) and of an empty
pool; UNLOCK and CLRPOISON by the owner (0) and by another (3). `l` is the hardware lock that the number names,
`d` the device once a pod's number is bound to it. -/
def Obligations.HardwareLockOperations : Prop :=
  (∀ (s : State) (f : RFmt) (t : Thread), s.dev.clocked → f.rb = 0 → t.lockOk (t.word f.ra).toNat = true →
    (∀ (l : HLock) (d : Dev), s.dev.lockFor t (t.word f.ra).toNat = some (l, d) →
      let granted := (d.setLock { l with held := true, owner := t.slot, waiters := l.waiters.filter fun x => x ≠ t.slot })
      (s.dev.executes f.core t (.lockOp 0 f.rd f.ra) →
        (l.held = false → Gives (.ctlLock f) s (granted.withThread (t.wrote f.rd (if l.poison then 1 else 0)))) ∧
        (l.held = true → Gives (.ctlLock f) s (({ d with cores := d.coresWithout t.slot }.setLock
          { l with waiters := l.waiters ++ [t.slot] }).withThread
            { t.passed with st := .blocked, lockwait := l.id, dest := f.rd.toNat }).schedule)) ∧
      (s.dev.executes f.core t (.lockOp 1 f.rd f.ra) →
        (l.held = false → Gives (.ctlTrylock f) s (granted.withThread (t.wrote f.rd (if l.poison then 1 else 0)))) ∧
        (l.held = true → Gives (.ctlTrylock f) s (d.withThread (t.wrote f.rd 2))))) ∧
    (s.dev.lockFor t (t.word f.ra).toNat = none →
      (s.dev.executes f.core t (.lockOp 0 f.rd f.ra) → Gives (.ctlLock f) s ({ s.dev with
        cores := s.dev.coresWithout t.slot,
        threads := (s.dev.threads.filter fun u => u.slot ≠ t.slot) ++
          [{ t.passed with st := .blocked, lockwait := 256, dest := f.rd.toNat, mask := t.word f.ra }] } : Dev).schedule) ∧
      (s.dev.executes f.core t (.lockOp 1 f.rd f.ra) → Gives (.ctlTrylock f) s (s.dev.withThread (t.wrote f.rd 2)))) ∧
    (∀ l : HLock, s.dev.lockNow t (t.word f.ra).toNat = some l → l.held = true → l.owner = t.slot →
      (s.dev.executes f.core t (.lockOp 2 f.rd f.ra) → s.dev.lock l.id = some l → l.waiters = [] → l.poison = true →
        Gives (.ctlUnlock f) s (((s.dev.withThread (t.wrote f.rd 0)).setLock { l with held := false, owner := 0 }).schedule)) ∧
      (s.dev.executes f.core t (.lockOp 2 f.rd f.ra) → s.dev.lock l.id = some l → l.waiters = [] → l.poison = false →
        (∀ u ∈ s.dev.threads, ¬(u.st = .blocked ∧ u.lockwait = 256)) →
        Gives (.ctlUnlock f) s (({ s.dev with locks := s.dev.locks.filter fun x => x.id ≠ l.id }.withThread
          (t.wrote f.rd 0)).schedule)) ∧
      (s.dev.executes f.core t (.lockOp 3 f.rd f.ra) →
        Gives (.ctlClrpoison f) s ((s.dev.setLock { l with poison := false }).withThread (t.wrote f.rd 0)))) ∧
    ((∀ l, s.dev.lockNow t (t.word f.ra).toNat = some l → ¬(l.held = true ∧ l.owner = t.slot)) →
      (s.dev.executes f.core t (.lockOp 2 f.rd f.ra) → Gives (.ctlUnlock f) s (s.dev.withThread (t.wrote f.rd 3))) ∧
      (s.dev.executes f.core t (.lockOp 3 f.rd f.ra) → Gives (.ctlClrpoison f) s (s.dev.withThread (t.wrote f.rd 3)))))

/-- TICK: the counter advances modulo 2^32 and every thread whose delay expires goes to the tail of its ready list, in
slot order. TIME_SLICE: a thread goes to the tail of its list when a ready one has its priority. -/
def Obligations.SchedulerTime : Prop :=
  (∀ s : State, s.dev.clocked →
    let n := (s.dev.get F.CTL_SCHED_STATUS_TICKS + 1) % 2 ^ 32
    Gives .tick s ((((List.range 1024).filter fun x => s.dev.expires n x).foldl Dev.makeReady
      (s.dev.put F.CTL_SCHED_STATUS_TICKS n)).schedule)) ∧
  (∀ (s : State) (core : Fin 8) (t : Thread), s.dev.clocked → s.dev.running core.val = some t →
    s.dev.get F.CTL_SCHED_CFG_SLICE_US ≠ 0 →
    ((s.dev.readyThreads.any fun u => u.prio == t.prio) = true → Gives (.timeSlice core) s (s.dev.requeues t)) ∧
    ((s.dev.readyThreads.any fun u => u.prio == t.prio) = false → Gives (.timeSlice core) s s.dev))

/-! ### Clocks, power states and resets -/

/-- CCLK follows its target, the least of the clamped request and the two limits: lowered, the clock moves at once and
the voltage follows; raised, the voltage is written first and the clock waits for it. -/
def Obligations.CclkFollowsItsTarget : Prop :=
  ∀ d : Dev,
    let mhz := d.get F.CLK_CCLK_STATUS_MHZ
    let t := min (d.get F.CLK_CCLK_STATUS_CLAMPED_MHZ) (min d.pw.powerMhz d.pw.thermalMhz)
    (t < mhz → d.retune.get F.CLK_CCLK_STATUS_MHZ = t ∧ d.retune.pw.avsWait = true ∧ d.retune.pw.pendingMhz = none) ∧
    (mhz < t → d.pw.pendingMhz ≠ some t →
      d.retune.get F.CLK_CCLK_STATUS_MHZ = mhz ∧ d.retune.pw.avsWait = true ∧ d.retune.pw.pendingMhz = some t) ∧
    (mhz = t → d.pw.pendingMhz = none → d.retune.get F.CLK_CCLK_STATUS_MHZ = mhz ∧ d.retune.out = d.out)

/-- CCLK_REQUEST clamps the request to 800 MHz and the grade's maximum in steps of 50 MHz; the regulator's completion
raises the clock, its timeout abandons the raise and is reported; the power and thermal limits move by 50 MHz; a
droop stretches its cluster's clock and is counted. -/
def Obligations.ClockCommandsTakeEffect : Prop :=
  (∀ (s : State) (v : Word), s.dev.clocked →
    let r : RegRef := ⟨.CLK_CCLK_REQ, 0, 0⟩
    let d := (s.dev.unstage r.addr).wr r (regAfter r.kind.fields (s.dev.rd r) v.toNat false false)
    Gives (.cclkRequest ⟨.bar0, .full, v⟩) s ((d.put F.CLK_CCLK_STATUS_CLAMPED_MHZ
      (max 800 (min (d.get F.CLK_CCLK_REQ_MHZ) (if d.hull.otp.gradeB then 1600 else 1900)) / 50 * 50)).retune)) ∧
  (∀ s : State, s.dev.clocked → s.dev.pw.avsWait = true →
    (∀ m, s.dev.pw.pendingMhz = some m → Gives .avsCompletion s ({ s.dev with
      pw := { s.dev.pw with avsWait := false, pendingMhz := none } }.put F.CLK_CCLK_STATUS_MHZ m)) ∧
    (s.dev.pw.pendingMhz = none → Gives .avsCompletion s { s.dev with pw := { s.dev.pw with avsWait := false } }) ∧
    Gives .avsTimeout s (({ s.dev with pw := { s.dev.pw with avsWait := false, pendingMhz := none } }.put
      F.PWR_STATUS_AVS_FAULT 1).report { cls := 0x1A, srcKind := 11 })) ∧
  (∀ (s : State) (w : BitVec 16), s.dev.clocked →
    (s.dev.get F.PWR_LIMIT_TDP_W < w.toNat → Gives (.powerLimitTick w) s ({ s.dev with pw := { s.dev.pw with
      powerMhz := max 800 (min s.dev.pw.powerMhz (s.dev.get F.CLK_CCLK_STATUS_MHZ) - 50) } } : Dev).retune) ∧
    (100 * w.toNat < 98 * s.dev.get F.PWR_LIMIT_TDP_W → Gives (.powerLimitTick w) s ({ s.dev with pw := { s.dev.pw with
      powerMhz := min s.dev.maxMhz (s.dev.pw.powerMhz + 50) } } : Dev).retune)) ∧
  (∀ (s : State) (tj : BitVec 8), s.dev.clocked →
    let d := s.dev.put F.PWR_THERMAL_TJ_MAX tj.toNat
    (97 ≤ tj.toNat → tj.toNat < 100 → Gives (.thermalTick tj) s d) ∧
    (100 ≤ tj.toNat → d.get F.PWR_THERMAL_THROTTLE = 1 → Gives (.thermalTick tj) s ({ d with pw := { d.pw with
      thermalMhz := max 800 (min d.pw.thermalMhz (d.get F.CLK_CCLK_STATUS_MHZ) - 50) } } : Dev).retune)) ∧
  (∀ (s : State) (c : Fin 8), s.dev.clocked →
    (s.dev.pw.stretched.contains c.val = false → Gives (.droopDetect c) s ({ s.dev with
      pw := { s.dev.pw with stretched := s.dev.pw.stretched ++ [c.val] } }.count .PWR_DROOP_EVT 1)) ∧
    Gives (.droopRecover c) s { s.dev with pw := { s.dev.pw with
      stretched := s.dev.pw.stretched.filter fun x => x ≠ c.val } })

/-- P1 is entered from P0 when nothing runs, and left; S1 and S2 are asked for only when every ring and channel is
quiet, and refused with REJECT and reason 1 otherwise; the entry completes once no tile is under test and no port
waits; the exit goes through its steps: after S2 a rail out of its range keeps the device in S2 with a log entry
that names it, and after S1 every memory channel leaves self-refresh with the calibration and training that are
due. -/
def Obligations.PowerStateCommands : Prop :=
  (∀ s : State, s.dev.clocked →
    (s.dev.get F.PWR_STATE_STATE = 0 → s.dev.runs = [] → s.dev.insts = [] →
      (∀ t ∈ s.dev.errs.tests, t.testing = false) → Gives .p1Entry s (s.dev.enterPower 1)) ∧
    (s.dev.get F.PWR_STATE_STATE = 1 → Gives .p1Exit s (s.dev.put F.PWR_STATE_STATE 0)) ∧
    (s.dev.get F.PWR_STATE_STATE ≤ 1 → s.dev.quiet = true →
      Gives .requestS1 s (s.dev.beginEntry 2) ∧ Gives .requestS2 s (s.dev.beginEntry 3)) ∧
    (s.dev.get F.PWR_STATE_STATE ≤ 1 → s.dev.quiet = false →
      let d := (s.dev.put F.PWR_STATE_REJECT 1).put F.PWR_STATE_REASON 1
      Gives .requestS1 s d ∧ Gives .requestS2 s d) ∧
    (s.dev.get F.PWR_STATE_STATE = 1 → Gives .requestP0 s (s.dev.enterPower 0)) ∧
    (s.dev.get F.PWR_STATE_STATE = 2 → Gives .requestP0 s (s.dev.wakeUp 0x20)) ∧
    (s.dev.get F.PWR_STATE_STATE = 4 → (∀ t ∈ s.dev.errs.tests, t.testing = false) →
      (∀ p ∈ s.dev.ports, p.lpWait = false) →
      (s.dev.pw.target = 2 → Gives .powerEntryComplete s ((s.dev.gateTiles.enterPower 2).replayWakes)) ∧
      (s.dev.pw.target ≠ 2 → Gives .powerEntryComplete s ((s.dev.deepLoss.emit .pmbusOff).replayWakes)))) ∧
  (∀ (s : State) (tj : BitVec 8), s.dev.get F.PWR_STATE_STATE = 5 → s.dev.pw.off = false →
    (s.dev.get F.PWR_STATE_STEP = 1 → s.dev.pw.fromState ≠ 3 →
      Gives (.exitStepReady tj) s ((s.dev.setVddc (s.dev.get F.CLK_CCLK_STATUS_MHZ)).onPw fun p =>
        { p with avsWait := false }).nextStep) ∧
    (s.dev.get F.PWR_STATE_STEP = 2 → ¬(s.dev.pw.tripPending = true ∧ 90 ≤ tj.toNat) →
      Gives (.exitStepReady tj) s (s.dev.put F.PWR_STATE_STEP 3)) ∧
    (s.dev.get F.PWR_STATE_STEP = 1 → s.dev.pw.fromState = 3 →
      (s.dev.badRail = none → Gives (.exitStepReady tj) s
        ((((s.dev.emit (.avs true 800)).setVddc (s.dev.get F.CLK_CCLK_STATUS_MHZ)).onPw fun p =>
          { p with avsWait := false }).nextStep)) ∧
      (∀ r code, s.dev.badRail = some (r, code) → Gives (.exitStepReady tj) s
        (((((s.dev.logEvent 2 1 code (sensorData r.sensor.toNat r.value.toNat) []).put F.PWR_STATE_STEP 0).enterPower 3).onShell
          fun x => { x with running := false })))) ∧
    (s.dev.get F.PWR_STATE_STEP = 3 →
      (s.dev.pw.fromState ≠ 2 → Gives (.exitStepReady tj) s (s.dev.put F.PWR_STATE_STEP 4)) ∧
      (s.dev.pw.fromState = 2 → Gives (.exitStepReady tj) s s.dev.leaveSelfRefresh.nextStep)) ∧
    (s.dev.get F.PWR_STATE_STEP = 4 → s.dev.pw.tripPending = false → s.dev.pw.fromState ≠ 3 → s.dev.pw.heldReq = none →
      Gives (.exitStepReady tj) s (((s.dev.put F.PWR_STATE_STEP 0).enterPower 0).onPw fun p =>
        { p with clocksStopped := false, heldReq := none })))

/-- The resets and what brings the device down record their cause and lose what they lose: a power-on is cause 1, a
brown-out in S2 cause 2, a cold reset 3 or 4, a warm one 6, 7 or 8, a thermal trip stops the clocks, a loss of a
PLL's lock is a cold reset, and VAUX takes all but the records. -/
def Obligations.ResetCommands : Prop :=
  (∀ s : State,
    (let e := ((s.dev.coldLoss.setCause 1).onShell fun x => { x with powerCycle := x.powerCycle + 1 }).acorn
     (e.pstate = 3 → Gives .powerOnReset s e) ∧
     (e.pstate ≠ 3 → Gives .powerOnReset s { e with out := .avs true 800 :: e.out, pw := { e.pw with avsWait := true } })) ∧
    (let warm := fun (c : Nat) =>
       let d := s.dev.fenceSelf.warmLoss.setCause c
       if d.hull.otp.lifecycle = 4 then d else (d.put F.MEM_TRAIN_STATE 1).put F.MEM_TRAIN_STEP 1
     s.dev.mayReset = true →
      Gives (.coldReset false) s ((s.dev.fenceSelf.coldLoss.setCause 3).acorn) ∧
      Gives (.coldReset true) s ((s.dev.fenceSelf.coldLoss.setCause 4).acorn) ∧
      Gives (.warmReset false) s (warm 6) ∧
      Gives (.warmReset true) s (warm 7) ∧
      (s.dev.shell.running = true → Gives .shellWatchdog s (warm 8))) ∧
    (s.dev.pw.off = false → s.dev.get F.PWR_STATE_STATE = 3 →
      Gives .brownout s ((s.dev.coldLoss.setCause 2).deepLoss.onPw fun p => { p with
        latched := 0, thermtripN := s.dev.pw.thermtripN, tripPending := s.dev.pw.tripPending,
        pwrokLost := s.dev.pw.pwrokLost })) ∧
    (s.dev.pw.off = false → Gives .vauxRemoved s ((s.dev.coldLoss.onPw fun p =>
      { p with off := true, clocksStopped := true }).onShell fun x => { x with running := false })) ∧
    (s.dev.pw.off = false → s.dev.get F.PWR_STATE_STATE ≤ 2 →
      Gives .pwrokLoss s (((s.dev.logEvent 2 3 0x12 [] []).onPw fun p => { p with pwrokLost := true }).deepLoss)) ∧
    (s.dev.pw.pwrokLost = true → Gives .sysPwrokRise s ((s.dev.onPw fun p => { p with pwrokLost := false }).beginExit))) ∧
  (∀ (s : State) (pll : Fin 8), s.dev.clocked → s.dev.get F.PWR_STATE_STATE ≤ 2 →
    Gives (.pllLockLoss pll) s ((s.dev.logEvent 2 3 0x20 [] []).fenceSelf.coldLoss.setCause 4).acorn) ∧
  (∀ (s : State) (n : Fin 40) (v : BitVec 8), s.dev.clocked → 115 ≤ v.toNat →
    Gives (.thermalTrip n v) s ((((s.dev.report
      { cls := 0x1C, srcKind := 11, source := n.val + 1, fence := true, fatal := true }).logEvent 2 3 (Config.eventCode 4)
        (leBytes 2 (n.val + 1) ++ leBytes 4 v.toNat) []).onPw fun p =>
          { p with thermtripN := true, tripPending := true }).deepLoss))

/-- A warm reset leaves no run, instance, slot, thread, lock, join entry, range region, registered program, cached
line, directory entry or byte of device memory; every pod is FREE, and its cause is recorded. -/
def Obligations.WarmResetLeaves : Prop :=
  ∀ s : State, s.dev.mayReset = true → ∃ d, Gives (.warmReset true) s d ∧
    d.runs = [] ∧ d.insts = [] ∧ d.slots = [] ∧ d.threads = [] ∧ d.locks = [] ∧ d.jents = [] ∧ d.rrgns = [] ∧
    d.progs = [] ∧ d.mem = [] ∧ d.lines = [] ∧ d.dir = [] ∧
    d.get F.PWR_RESET_CAUSE_CAUSE = 7 ∧ ∀ p : Fin 64, d.get F.POD_STATUS_STATE p.val = 0

/-! ### The Hull -/

/-- END_BOOT ends BOOT for the Shell and the executive and is ignored from the host; EXECUTIVE_START leaves BOOT with
the digest of the accepted image, and only logs an event when neither slot is accepted. -/
def Obligations.BootEnds : Prop :=
  (∀ s : State, s.dev.clocked → s.dev.hull.mode = 0 →
    Gives (.endBoot .shell) s { s.dev with hull := { s.dev.hull with mode := 1 } } ∧
    Gives (.endBoot .exec) s { s.dev with hull := { s.dev.hull with mode := 1 } } ∧
    Gives (.endBoot .bar0) s s.dev) ∧
  (∀ (s : State) (a : Bool), s.dev.clocked → s.dev.get F.MEM_TRAIN_STATE = 3 → s.dev.hull.mode = 0 →
    (∀ im n, s.dev.acceptedIn 2 2 (!a) = some im → s.dev.freeThreadSlot 0 true = some n →
      ∃ d, Gives (.executiveStart a) s d ∧ d.threads.length = s.dev.threads.length + 1 ∧
        d.hull = { s.dev.hull with measure3 := sha3_512 (imageSigned im), mode := 1 }) ∧
    (s.dev.acceptedIn 2 2 a = none → s.dev.acceptedIn 2 2 (!a) = none →
      Gives (.executiveStart a) s (s.dev.logEvent 5 2 (Config.eventCode 2) [] [])))

/-- The digest engine: an OPEN that is refused records its reason for its requester; the owner's words enter the
message up to LEN, a word that comes while a block is absorbed waits in the latch, a second one is lost, one
beyond LEN is truncated; CLOSE by the owner frees the engine; the end of a permutation takes the latched word or
delivers the result; the watchdog frees an engine that is held and marks its owner EXPIRED; a read of the status
clears EXPIRED and REFUSED for the reader. The result of a message that was lost is INVALID (3); otherwise it is
compared with EXPECT where DEST is 255, and written to Pit slot DEST otherwise. -/
def Obligations.DigestEngineCommandsAndDelivery : Prop :=
  (∀ (s : State) (who : HullUser) (w : Word), s.dev.clocked → s.dev.hull.digest.expired.contains who = false →
     let g := s.dev.hull.digest
     let withDigest := fun (g : Digest) => ({ s.dev with hull := { s.dev.hull with digest := g } } : Dev)
     (s.dev.openReason who w.toNat ≠ 0 → Gives (.digestOpen who w) s (withDigest { g with
       refused := upsert (fun x => x.1 == who) (who, s.dev.openReason who w.toNat + 4) g.refused })) ∧
     (s.dev.openReason who w.toNat = 0 → Gives (.digestOpen who w) s (s.dev.digestLatch who w.toNat)) ∧
     (g.owner = some who →
       Gives (.digestClose who) s (withDigest { Digest.reset with refused := g.refused, expired := g.expired }) ∧
       (g.message.length = g.len → Gives (.digestData who w) s (withDigest { g with trunc := true })) ∧
       (g.message.length ≠ g.len → g.absorbing = true →
         (g.latch = none → Gives (.digestData who w) s (withDigest { g with latch := some w })) ∧
         (g.latch.isSome = true → Gives (.digestData who w) s (withDigest { g with lost := true }))) ∧
       (g.message.length < g.len → g.absorbing = false → Gives (.digestData who w) s (withDigest (
         let m := g.message ++ (leBytes 8 w.toNat).take (g.len - g.message.length)
         { g with message := m, latch := none, absorbing := m.length % g.rate == 0 || m.length == g.len }))) ∧
       Gives .digestWatchdog s (withDigest { Digest.reset with refused := g.refused, expired := who :: g.expired })) ∧
     (g.absorbing = true → g.message.length ≠ g.len → g.latch = none →
       Gives .absorbDone s (withDigest { g with absorbing := false })) ∧
     (g.absorbing = true → g.message.length = g.len → Gives .absorbDone s { s.dev with hull := s.dev.hull.deliver }) ∧
     Gives (.digestStatusRead who) s ((withDigest { g with
       expired := g.expired.filter fun x => x ≠ who
       refused := g.refused.map fun x => if x.1 = who then (x.1, x.2 % 4) else x }).emit (.regRead (g.status who)))) ∧
  (∀ h : Hull,
     (h.digest.lost = true → h.deliver.digest.result = 3 ∧ h.deliver.digest.done = true ∧ h.deliver.pit = h.pit) ∧
     (h.digest.lost = false → h.digest.dest = 255 →
       h.deliver.digest.result = (if h.digest.hash = h.expected h.digest.outBytes then 1 else 2) ∧ h.deliver.pit = h.pit) ∧
     (h.digest.lost = false → h.digest.dest ≠ 255 →
       h.deliver.digest.result = 1 ∧ h.deliver.pit = (h.writePit h.digest.dest h.digest.hash).pit))

/-- Random numbers, the Pit, Sesame and the debug multiplexer. The random words are free values (log entry 2). -/
def Obligations.HullCommands : Prop :=
  (∀ (s : State) (who : HullUser), s.dev.clocked →
    (s.dev.hull.drbgReady = true →
      Gives (.rngRead who) s (({ s.dev with fresh := s.dev.fresh + 1
                                            hull := { s.dev.hull with drbgCount := s.dev.hull.drbgCount + 1 } } : Dev).emit
        (.regRead (Config.drbg s.dev.fresh).toNat)) ∧
      Gives .drbgReseed s { s.dev with hull := { s.dev.hull with drbgCount := 0 } }) ∧
    (s.dev.hull.drbgReady = false → Gives (.rngRead who) s (s.dev.emit (.regRead 0))) ∧
    (s.dev.hull.healthFail = false → Gives .entropyHealthFail s (({ s.dev with hull := { s.dev.hull with
      healthFail := true, drbgReady := false } } : Dev).report { cls := 0x1B, srcKind := 10 })) ∧
    (s.dev.pitNow = .readable → ∀ p, s.dev.hull.pitSlot (s.dev.get F.SEC_PIT_SEL_SLOT) = some p →
      Gives (.pitRead who) s (s.dev.emit (.regRead (fieldAt p.bytes (8 * s.dev.get F.SEC_PIT_SEL_WORD) 8)))) ∧
    (s.dev.pitNow ≠ .readable → Gives (.pitRead who) s ((s.dev.report
      { cls := 0x18, srcKind := 10, addr := (⟨.SEC_PIT_DATA, 0, 0⟩ : RegRef).addr }).emit (.regRead 0)))) ∧
  (∀ (s : State) (level : BitVec 2) (w : Word), s.dev.clocked →
    (s.dev.hull.locked = true ∨ s.dev.hull.healthFail = true →
      Gives (.sesameRequest level) s (s.dev.put F.DBG_SESAME_CTRL_LEVEL_REQ level.toNat)) ∧
    (s.dev.hull.locked = false → s.dev.hull.healthFail = false → ∃ d, Gives (.sesameRequest level) s d ∧
      d.hull.nonce = some ((List.range 4).map fun i => Config.drbg (s.dev.fresh + i)) ∧ d.hull.level = level.toNat ∧
      d.hull.token = [] ∧ d.hull.tokenOver = false ∧ d.fresh = s.dev.fresh + 4) ∧
    (s.dev.hull.token.length < 3732 → Gives (.sesameResponseWord w) s
      { s.dev with hull := { s.dev.hull with token := s.dev.hull.token ++ [w] } }) ∧
    (3732 ≤ s.dev.hull.token.length → Gives (.sesameResponseWord w) s
      { s.dev with hull := { s.dev.hull with tokenOver := true } }) ∧
    (s.dev.hull.verifying = false → s.dev.hull.nonce = none → Gives .sesameSubmit s
      { s.dev with hull := { s.dev.hull with verifying := true, submitted := [] } }) ∧
    (s.dev.hull.verifying = false → ∀ n, s.dev.hull.nonce = some n → s.dev.hull.tokenOver = false →
      s.dev.hull.token.length = 3732 → (s.dev.hull.token.flatMap fun x => leBytes 8 x.toNat).take 64 = s.dev.challenge n →
      Gives .sesameSubmit s { s.dev with hull := { s.dev.hull with
        nonce := none, verifying := true, submitted := s.dev.hull.token.flatMap fun x => leBytes 8 x.toNat } }) ∧
    Gives .sesameDrop s { s.dev with hull := { s.dev.hull with
      debug := if s.dev.hull.otp.lifecycle = 0 then 2 else 0 } }) ∧
  (∀ s : State, s.dev.clocked → s.dev.hull.verifying = true → s.dev.hull.tokenGood = false →
    let d := ({ s.dev with hull := { s.dev.hull with
      fails := s.dev.hull.fails + 1, sesameResult := 2, locked := decide (16 ≤ s.dev.hull.fails + 1)
      verifying := false, submitted := [] } } : Dev)
    Gives .sesameVerifyDone s (d.logEvent 3 0 (Config.eventCode 3) d.securityData [])) ∧
  (∀ (s : State) (group : BitVec 8) (en : Bool), s.dev.clocked →
    let d := (s.dev.put F.DBG_MUX_GROUP group.toNat).put F.DBG_MUX_EN en.toNat
    Gives (.debugMuxSelect group en) s d ∧
    bitsOf (d.readShown .bar0 ⟨.DBG_MUX, 0, 0⟩) 1 1 =
      (en && decide (muxLimit s.dev.hull.otp.lifecycle s.dev.hull.debug ≤ group.toNat)).toNat)

/-! ### The Shell -/

/-- A firmware update: the commands that move it from state to state and their answers. Command codes, completion
codes and layouts are those of DSP0267 (PRESUMED, log entry 6). -/
def Obligations.FirmwareUpdateCommands : Prop :=
  ∀ (s : State) (b : Binding), s.dev.serves b .update = true →
    let ans := fun (d : Dev) (k : Nat) (body : List Nat) => d.emit (.mctp b (0x500 + k) body)
    let upd := fun (u : Option Update) => ({ s.dev with shell := { s.dev.shell with update := u } } : Dev)
    Gives (.queryDeviceIdentifiers b) s (ans s.dev 1 (0 :: (Config.mgmtBytes 1 []).map BitVec.toNat)) ∧
    Gives (.getFirmwareParameters b) s (ans s.dev 2 (0 :: (Config.mgmtBytes 2
      [(s.dev.shell.active 1).toNat, (s.dev.shell.active 2).toNat]).map BitVec.toNat)) ∧
    (s.dev.shell.update = none →
      Gives (.requestUpdate b) s (ans (upd (some ⟨b, 1, 0, 0, []⟩)) 0x10 [0, 0, 0]) ∧
      Gives (.getStatus b) s (ans s.dev 0x1B [0, 0]) ∧
      Gives (.cancelUpdate b) s (ans s.dev 0x1D [0x80])) ∧
    (∀ u, s.dev.shell.update = some u → u.binding = b →
      Gives (.requestUpdate b) s (ans s.dev 0x10 [0x81]) ∧
      Gives (.getStatus b) s (ans s.dev 0x1B [0, u.state]) ∧
      (∀ c : BitVec 16, u.state = 1 ∨ u.state = 2 →
        Gives (.passComponentTable b c) s (ans (upd (some { u with state := 2 })) 0x13
          [0, if s.dev.componentOk c.toNat then 0 else 1])) ∧
      (∀ (c : BitVec 16) (n : BitVec 32), u.state = 2 → s.dev.componentOk c.toNat = true → n.toNat ≤ slotSize c.toNat →
        Gives (.updateComponent b c n) s (ans ((upd (some { u with
          state := 3, component := c.toNat, size := n.toNat, received := [] })).onShell fun x =>
            x.setImage c.toNat (x.target c.toNat) []) 0x14 [0, 0])) ∧
      (∀ bs : List Byte, u.state = 3 →
        let got := (u.received ++ bs.take 1024).take u.size
        Gives (.requestFirmwareData b bs) s (((ans s.dev 0x15 [u.received.length, 1024]).onShell fun x =>
          { x with update := some { u with received := got } }).onShell fun x =>
            x.setImage u.component (x.target u.component) got)) ∧
      (u.state = 3 → u.received.length = u.size →
        Gives (.transferComplete b) s (ans (upd (some { u with state := 4 })) 0x16 [0])) ∧
      (u.state = 3 → u.received.length ≠ u.size → Gives (.transferComplete b) s (ans s.dev 0x16 [2])) ∧
      (u.state = 4 → s.dev.updateGood u = true →
        Gives (.verifyComplete b) s (ans (upd (some { u with state := 5 })) 0x17 [0])) ∧
      (u.state = 4 → s.dev.updateGood u = false → Gives (.verifyComplete b) s (ans s.dev 0x17 [1])) ∧
      (u.state = 5 → s.dev.hull.mode ≠ 3 → ∃ d, Gives (.applyComplete b) s d ∧
        d.shell.update = some { u with state := 2, received := [] } ∧
        (u.component = 3 → d.shell.policy = some u.received) ∧
        (u.component ≠ 3 → d.shell.active u.component = s.dev.shell.target u.component)) ∧
      (u.state = 2 →
        Gives (.activateFirmware b true) s (ans s.dev 0x1A [0x8C]) ∧
        Gives (.activateFirmware b false) s (ans (upd none) 0x1A [0, 1])) ∧
      (u.state = 3 ∨ u.state = 4 ∨ u.state = 5 → Gives (.cancelUpdateComponent b) s
        (ans (upd (some { u with state := 2, received := [] })) 0x1C [0])) ∧
      (1 ≤ u.state → u.state ≤ 5 → Gives (.cancelUpdate b) s (ans (upd none) 0x1D [0])))

/-- The sensors, MCTP control and the event log of the Shell: what each answers. Codes and layouts are those of
DSP0248 and DSP0236 (PRESUMED, log entry 6). SENSOR_SAMPLE keeps each reading under its sensor's number. -/
def Obligations.SensorAndControlAnswers : Prop :=
  ((∀ (s : State) (b : Binding) (h : BitVec 32) (n : BitVec 16), s.dev.serves b .sensors = true →
     let ans := fun (k : Nat) (body : List Nat) => s.dev.emit (.mctp b (0x200 + k) body)
     Gives (.getPdrRepositoryInfo b) s (ans 0x50 (0 :: (Config.mgmtBytes 3 []).map BitVec.toNat)) ∧
     Gives (.getPdr b h) s (ans 0x51 (0 :: (Config.pdrRecord h.toNat).map BitVec.toNat)) ∧
     (1 ≤ n.toNat → n.toNat ≤ 71 →
       (∀ v, s.dev.shell.reading n.toNat = some v → Gives (.getSensorReading b n) s (ans 0x11 [0, 0, v])) ∧
       (s.dev.shell.reading n.toNat = none → Gives (.getSensorReading b n) s (ans 0x11 [0, 2]))) ∧
     (n.toNat = 0 ∨ 71 < n.toNat → Gives (.getSensorReading b n) s (ans 0x11 [0x80])) ∧
     Gives (.getStateSensorReadings b 100) s (ans 0x21 [0, s.dev.get F.PWR_STATE_STATE]) ∧
     Gives (.getStateSensorReadings b 101) s (ans 0x21 [0, s.dev.hull.otp.lifecycle]) ∧
     (n.toNat ≠ 100 → n.toNat ≠ 101 → Gives (.getStateSensorReadings b n) s (ans 0x21 [0x80]))) ∧
   (∀ (s : State) (b : Binding) (eid : BitVec 8), s.dev.serves b .control = true →
     let ans := fun (d : Dev) (k : Nat) (body : List Nat) => d.emit (.mctp b (0x100 + k) body)
     (1 ≤ eid.toNat → eid.toNat ≤ 254 → Gives (.mctpControl b 1 eid) s (ans { s.dev with shell := { s.dev.shell with
       eids := upsert (fun x => x.1 == b) (b, eid.toNat) s.dev.shell.eids } } 1 [0, 0, eid.toNat])) ∧
     Gives (.mctpControl b 2 eid) s (ans s.dev 2 [0, s.dev.shell.eid b]) ∧
     Gives (.mctpControl b 5 eid) s (ans s.dev 5 [0, 4, 0x00, 0x01, 0x05, 0x7E])) ∧
   (∀ (s : State) (b : Binding) (n : BitVec 15), s.dev.serves b .vendor = true →
     Gives (.eventLogReadMessage b n) s (s.dev.emit (.mctp b 0x7E00 ((s.dev.shell.logSlot n.toNat).map BitVec.toNat))))) ∧
  (∀ (s : State) (r : SensorReading), s.dev.shellRuns = true → s.dev.get F.PWR_STATE_STATE ≠ 3 →
     r.sensor.toNat < 41 →
     Gives (.sensorSample [r]) s { s.dev with shell := { s.dev.shell with
       readings := upsert (fun x => x.sensor == r.sensor) r s.dev.shell.readings } })

/-- Attestation: the unsigned answers, the errors of a part without an identity, and the end of a signing. -/
def Obligations.AttestationAnswers : Prop :=
  (∀ (s : State) (b : Binding), s.dev.serves b .version = true →
    Gives (.getVersion b) s (({ s.dev with shell := { s.dev.shell with transcript := [0x84, 0x04, 1, 0x12] } } : Dev).emit
      (.mctp b 0x1004 [1, 0x12]))) ∧
  (∀ (s : State) (b : Binding) (off len : BitVec 16) (nonce : Bytes32), s.dev.serves b .spdm = true →
    let err := fun (data : Nat) => s.dev.emit (.mctp b 0x107F [7, data])
    (s.dev.hull.identity = false →
      Gives (.getCapabilities b) s (s.dev.spdmAnswer b 0xE1 0x61 [8]) ∧ Gives (.getDigests b) s (err 0x81) ∧
      Gives (.getCertificate b 0 off len) s (err 0x82) ∧ Gives (.challenge b 0 nonce) s (err 0x83)) ∧
    (s.dev.hull.identity = true →
      Gives (.getCapabilities b) s (s.dev.spdmAnswer b 0xE1 0x61 [22]) ∧
      Gives (.getDigests b) s (s.dev.spdmAnswer b 0x81 0x01
        (1 :: (sha3_512 Config.certificateChain).map BitVec.toNat)) ∧
      Gives (.getCertificate b 0 off len) s (
        let part := (Config.certificateChain.drop off.toNat).take len.toNat
        s.dev.spdmAnswer b 0x82 0x02 ([part.length, Config.certificateChain.length - off.toNat - part.length] ++
          part.map BitVec.toNat)) ∧
      (s.dev.shell.signing = none → s.dev.hull.healthFail = false → ∃ d, Gives (.challenge b 0 nonce) s d ∧
        d.shell.transcript = [] ∧ d.fresh = s.dev.fresh + 4 ∧ ∃ r, d.shell.signing = some (b, r) ∧ r.head? = some 3)) ∧
    Gives (.negotiateAlgorithms b) s (s.dev.spdmAnswer b 0xE3 0x63
      ([0x40, 0, 0x20, 1] ++ (Config.mgmtBytes 5 []).map BitVec.toNat))) ∧
  (∀ (s : State) (b : Binding) (i : BitVec 8) (nonce : Bytes32), s.dev.serves b (.measure false) = true →
    ∀ body, s.dev.measured i.toNat = some body →
    Gives (.getMeasurements b i false nonce) s (s.dev.spdmAnswer b 0xE0 0x60 body)) ∧
  (∀ (s : State) (b : Binding) (r : List Byte), s.dev.shell.signing = some (b, r) → s.dev.shellRuns = true →
    Gives .spdmSignDone s (({ s.dev with shell := { s.dev.shell with signing := none } } : Dev).emit
      (.mctp b (0x1000 + fieldAt r 0 1) ((r.drop 1).map BitVec.toNat))))

/-- The test access port: reset selects IDCODE and gives the pins back, EXTEST takes them, BYPASS is one bit that
reads 0, IDCODE shifts version 1, part 0x8816, the manufacturer code and the marker bit; the pads' sample is a
free value (log entry 6). -/
def Obligations.TestAccessPort : Prop :=
  ∀ s : State, s.dev.pw.off = false → s.dev.get F.PWR_STATE_STATE ≠ 3 →
    let ir := fun (n : Nat) => ({ s.dev with shell := { s.dev.shell with tapIr := n } } : Dev)
    Gives .tapReset s { s.dev with shell := { s.dev.shell with tapIr := 0, extest := false } } ∧
    Gives .bypass s ((ir 1).emit (.jtag 0 1)) ∧
    Gives .samplePreload s (({ ir 2 with fresh := s.dev.fresh + 1 }).emit (.jtag (Config.padSample s.dev.fresh) 0)) ∧
    Gives .extest s { s.dev with shell := { s.dev.shell with tapIr := 3, extest := true } } ∧
    Gives .idcode s ((ir 0).emit (.jtag
      (0x18816001 + Config.manufacturerCode % 2 ^ 11 * 2) 32))

/-! ### Registration and the mailbox -/

/-- Each mailbox command writes its words and GO, which takes the device out of P1; while a command is in progress it
sets REJ and nothing else. MAILBOX_COMPLETE writes the response, clears BUSY and sets DONE; without a free
executive slot the command stays BUSY and a stall is counted. DEREGISTER_TAKES_EFFECT frees the handle and the
cache entries once no run uses the program. -/
def Obligations.MailboxCommandsAndCompletion : Prop :=
  (∀ (s : State) (p : Fin 64) (irq : Bool) (x y : Word), s.dev.clocked →
     let issue := fun (ws : List Nat) => ((List.range 8).foldl (fun (d : Dev) j => d.put F.CTL_MBX_CMD_CMD (ws.getD j 0) p.val j) s.dev)
     let go := fun (d : Dev) => d.leaveP1.put F.CTL_MBX_CTRL_BUSY 1 p.val
     let rejected := fun (d : Dev) => d.leaveP1.put F.CTL_MBX_CTRL_REJ 1 p.val
     let cmd := fun (op : Nat) => op + (if irq then 256 else 0)
     (s.dev.get F.CTL_MBX_CTRL_BUSY p.val = 1 →
       Gives (.register p irq x y) s (rejected (issue [cmd 1, x.toNat, y.toNat])) ∧
       Gives (.deregister p irq x) s (rejected (issue [cmd 2, x.toNat])) ∧
       Gives (.query p irq x) s (rejected (issue [cmd 3, x.toNat])) ∧
       Gives (.info p irq) s (rejected (issue [cmd 4]))) ∧
     (s.dev.get F.CTL_MBX_CTRL_BUSY p.val = 0 → s.dev.podState p.val = 2 ∨ s.dev.podState p.val = 4 →
       (let d := go (issue [cmd 1, x.toNat, y.toNat])
        (1024 ≤ s.dev.progCount p.val → Gives (.register p irq x y) s { d with mbxs := d.mbxs ++ [⟨p.val, [2], irq⟩] }) ∧
        (s.dev.progCount p.val < 1024 →
          let h := s.dev.handleFrom p.val 1026 (s.dev.handleNext p.val)
          Gives (.register p irq x y) s { d with
            progs := d.progs ++ [⟨p.val, h, x.toNat, y.toNat, false⟩]
            handles := upsert (fun z => z.1 == p.val) (p.val, (h + 1) % 2 ^ 32) d.handles
            mbxs := d.mbxs ++ [⟨p.val, [0, BitVec.ofNat 64 h], irq⟩] })) ∧
       (let d := go (issue [cmd 2, x.toNat])
        (s.dev.progOf p.val x.toNat = none →
          Gives (.deregister p irq x) s { d with mbxs := d.mbxs ++ [⟨p.val, [3], irq⟩] }) ∧
        (∀ g, s.dev.progOf p.val x.toNat = some g →
          Gives (.deregister p irq x) s { d with
            progs := d.progs.map fun g => if g.pod = p.val ∧ g.handle = x.toNat then { g with dereg := true } else g
            mbxs := d.mbxs ++ [⟨p.val, [0], irq⟩] })) ∧
       (let d := go (issue [cmd 3, x.toNat])
        (s.dev.progOf p.val x.toNat = none → Gives (.query p irq x) s { d with mbxs := d.mbxs ++ [⟨p.val, [3], irq⟩] }) ∧
        (∀ g, s.dev.progOf p.val x.toNat = some g →
          Gives (.query p irq x) s { d with mbxs := d.mbxs ++ [⟨p.val,
            [0, BitVec.ofNat 64 g.addr, BitVec.ofNat 64 g.len,
             BitVec.ofNat 64 (s.dev.residentMask p.val x.toNat + 256 * g.dereg.toNat)], irq⟩] })) ∧
       (let d := go (issue [cmd 4])
        Gives (.info p irq) s { d with mbxs := d.mbxs ++ [⟨p.val,
          [0, Config.executiveVersion, BitVec.ofNat 64 (s.dev.progCount p.val)], irq⟩] }) ∧
       (∀ w : Word, 512 ≤ w.toNat ∨ (w.toNat % 256 = 0 ∨ 4 < w.toNat % 256) →
         let d := go (issue [w.toNat])
         Gives (.badCommand p [w]) s { d with mbxs := d.mbxs ++ [⟨p.val, [1], w.toNat.testBit 8⟩] }))) ∧
  ((∀ (s : State) (p : Fin 64) (m : Mbx), s.dev.clocked → (s.dev.mbxs.find? fun x => x.pod == p.val) = some m →
     s.dev.coreLeft = true →
     (s.dev.freeThreadSlot 0 true = none → Gives (.mailboxComplete p) s (s.dev.count .CTL_SCHED_STALL 1)) ∧
     ((s.dev.freeThreadSlot 0 true).isSome = true → m.irq = false →
       Gives (.mailboxComplete p) s ((((List.range 8).foldl (fun (d : Dev) j =>
         d.put F.CTL_MBX_RSP_RSP (m.rsp.getD j 0).toNat p.val j)
           { s.dev with mbxs := s.dev.mbxs.filter fun x => x.pod ≠ p.val }).put F.CTL_MBX_CTRL_BUSY 0 p.val).put
             F.CTL_MBX_CTRL_DONE 1 p.val))) ∧
   (∀ (s : State) (p : Fin 64) (h : BitVec 32) (g : ProgReg), s.dev.clocked → s.dev.progOf p.val h.toNat = some g →
     g.dereg = true → (∀ r ∈ s.dev.runs, r.pod ≠ p.val ∨ r.handle ≠ h.toNat) →
     Gives (.deregisterTakesEffect p h) s { s.dev with
       progs := s.dev.progs.filter fun g => ¬(g.pod = p.val ∧ g.handle = h.toNat)
       pgc := s.dev.pgc.filter fun e => ¬(e.pod = p.val ∧ e.handle = h.toNat) }))

/-! ### Pods -/

/-- A pod command that its state does not accept changes REASON to WRONG_STATE and nothing else. The pod commands that
are accepted: CREATE, whose failed check leaves the pod FREE with its reason, DESTROY now or after the step under
way, RESET, QUIESCE, RESUME, SAVE and RESTORE. An accepted command clears REASON and SAVE_DONE. -/
def Obligations.PodCommands : Prop :=
  (∀ (s : State) (p : Fin 64), s.dev.clocked →
     let st := s.dev.get F.POD_STATUS_STATE p.val
     let refused := s.dev.put F.POD_STATUS_REASON 1 p.val
     (st ≠ 0 → Gives (.podCreate p) s refused) ∧
     (st = 0 ∨ st = 8 → Gives (.podDestroy p) s refused) ∧
     (st < 2 ∨ 6 < st → Gives (.podReset p) s refused) ∧
     (st ≠ 2 → Gives (.podQuiesce p) s refused) ∧
     (st ≠ 4 → Gives (.podResume p) s refused ∧ Gives (.podSave p) s refused ∧ Gives (.podRestore p) s refused)) ∧
  (∀ (s : State) (p : Fin 64), s.dev.clocked →
     let st := s.dev.get F.POD_STATUS_STATE p.val
     let ok := (s.dev.put F.POD_STATUS_REASON 0 p.val).put F.POD_STATUS_SAVE_DONE 0 p.val
     let enter := fun (d : Dev) (n : Nat) => d.put F.POD_STATUS_STATE n p.val
     (st = 0 → s.dev.createReason p.val ≠ 0 →
       Gives (.podCreate p) s (s.dev.put F.POD_STATUS_REASON (s.dev.createReason p.val) p.val)) ∧
     (st = 0 → s.dev.createReason p.val = 0 → ∃ d, Gives (.podCreate p) s d ∧
       d.get F.POD_STATUS_STATE p.val = 1 ∧ d.get F.POD_STATUS_REASON p.val = 0 ∧
       (∀ e ∈ d.jents, e.pod ≠ p.val) ∧ (∀ r ∈ d.rrgns, r.pod ≠ p.val)) ∧
     (st = 1 ∨ st = 7 → Gives (.podDestroy p) s (ok.podLater p.val 2)) ∧
     (2 ≤ st → st ≤ 6 → Gives (.podDestroy p) s (
         let d := enter (ok.resetPod p.val) 8
         let d := ((d.namespaces.filter fun n => d.get F.ING_NS_POD (n - 1) == p.val).foldl Dev.dropNs d).settleNvme
         let d := (d.podRanges p.val).foldl (fun d r => d.ioZero (r.1 * 2 ^ 30) (r.2 * 2 ^ 30)) d
         d.zeroTiles (d.podTiles p.val)) ∧
       Gives (.podReset p) s ((enter (ok.resetPod p.val) 7).zeroTiles ((enter (ok.resetPod p.val) 7).podTiles p.val))) ∧
     (st = 2 → Gives (.podQuiesce p) s (((enter ok 3).haltPodThreads p.val).abandonClaims p.val)) ∧
     (st = 4 → Gives (.podResume p) s (
         let d := enter (ok.put F.POD_STATUS_SAVE_NEED_MIB 0 p.val) 2
         let d := (d.insts.filter fun i => i.pod == p.val && i.life == .quiesced).foldl (fun d i => d.setLife i .running) d
         let d := (d.podTiles p.val).foldl (fun d t =>
           if d.tileFenced t || d.get F.ERR_ST_CTRL_EN == 0 then d else d.wantTest t) d
         ((d.podRings p.val).foldl Dev.settleRing d).schedule)) ∧
     (st = 4 → s.dev.get F.POD_STATUS_SAVE_NEED_MIB p.val ≤ s.dev.get F.POD_SAVE_LEN_LEN_MIB p.val →
       (∀ r ∈ s.dev.runs, r.pod ≠ p.val) →
       s.dev.imageAddrOk p.val (s.dev.get F.POD_STATUS_SAVE_NEED_MIB p.val * 2 ^ 20) = true →
       Gives (.podSave p) s ((enter ok 5).imageStore p.val 0 (List.replicate 4 0))) ∧
     (st = 4 → s.dev.get F.POD_SAVE_LEN_LEN_MIB p.val < s.dev.get F.POD_STATUS_SAVE_NEED_MIB p.val →
       Gives (.podSave p) s (s.dev.put F.POD_STATUS_REASON 0x0C p.val)) ∧
     (st = 4 → s.dev.imageReach p.val 0 64 = .ok → s.dev.restoreReason p.val = 0 →
       Gives (.podRestore p) s (enter ok 6)) ∧
     (st = 4 → s.dev.imageReach p.val 0 64 = .ok → s.dev.restoreReason p.val ≠ 0 →
       Gives (.podRestore p) s (s.dev.put F.POD_STATUS_REASON (s.dev.restoreReason p.val) p.val)))

/-- The ends of a pod's steps: creation and reset lead to ACTIVE once the zeroing is over and no mailbox command is in
progress, with the regions they cleared EMPTY, destruction to FREE, quiescing to QUIESCED with SAVE_NEED_MIB,
saving and restoring to QUIESCED. -/
def Obligations.PodStepsEnd : Prop :=
  (∀ (s : State) (p : Fin 64), s.dev.clocked →
    let st := s.dev.get F.POD_STATUS_STATE p.val
    let enter := fun (d : Dev) (n : Nat) => d.put F.POD_STATUS_STATE n p.val
    (s.dev.podBusy p.val = false → s.dev.podPend = [] →
      (st = 1 → Gives (.podCreateDone p) s (enter (s.dev.clearsDone p.val) 2)) ∧
      (st = 7 → Gives (.podResetDone p) s (enter (s.dev.clearsDone p.val) 2))) ∧
    (s.dev.podBusy p.val = false → (p.val, 2) ∈ s.dev.podPend →
      let d := { s.dev.clearsDone p.val with podPend := s.dev.podPend.filter fun x => x.1 ≠ p.val }
      (st = 1 → Gives (.podCreateDone p) s (d.podDestroy p.val)) ∧
      (st = 7 → Gives (.podResetDone p) s (d.podDestroy p.val))) ∧
    (s.dev.podBusy p.val = false → st = 8 → ∃ d, Gives (.podDestroyDone p) s d ∧
      d.get F.POD_STATUS_STATE p.val = 0 ∧ (∀ g ∈ d.progs, g.pod ≠ p.val) ∧ (∀ e ∈ d.pgc, e.pod ≠ p.val)) ∧
    (st = 3 → s.dev.podAtRest p.val = true → Gives (.podQuiesced p) s
      (enter ((s.dev.cleanHostLines p.val).put F.POD_STATUS_SAVE_NEED_MIB (s.dev.saveNeed p.val) p.val) 4)) ∧
    (st = 5 → s.dev.saveHost p.val = false → Gives (.podSaveDone p) s
      (enter ((s.dev.writeImage p.val).put F.POD_STATUS_SAVE_DONE 1 p.val) 4)) ∧
    (st = 6 → s.dev.imageReach p.val 0 (fieldAt (s.dev.imageLoad p.val 0 64) 0x30 8) = .ok →
      ∀ m, s.dev.images.find? (fun m => m.header == s.dev.imageLoad p.val 0 64) = some m →
      Gives (.podRestoreDone p) s (enter ((s.dev.loadImage p.val m).cacheRestored p.val) 4)) ∧
    (s.dev.get F.POD_LOG_CFG_SWAP_PEND p.val = 0 → Gives (.logSwap p) s
      ((s.dev.put F.POD_LOG_CFG_SEL (1 - s.dev.get F.POD_LOG_CFG_SEL p.val) p.val).put F.POD_LOG_CFG_SWAP_PEND 1 p.val)) ∧
    (s.dev.get F.POD_LOG_CFG_SWAP_PEND p.val = 1 → Gives (.logSwap p) s s.dev) ∧
    Gives (.logSwapDone p) s (s.dev.put F.POD_LOG_CFG_SWAP_PEND 0 p.val)) ∧
  (∀ s : State, s.dev.clocked → (∀ p : Fin 64, s.dev.get F.POD_STATUS_STATE p.val = 0) →
    Gives .pf0Flr s (s.dev.maskAll false))

/-- SAVE_NEED_MIB covers a header, the tiles' stores, the join buckets and the range positions, in whole MiB. The
dirty-page log: a write through a pod's PASID sets the bit of each page of the window in the buffer that SEL
names, and OUTSIDE for a page beyond it; with EN clear nothing is logged. -/
def Obligations.SaveNeedAndDirtyPages : Prop :=
  (∀ (d : Dev) (p : Nat),
     let bytes := 65536 + 4225 * 1024 * (d.podTiles p).length + 2048 * d.get F.POD_SHARES_JDR_B p +
       40 * d.get F.POD_SHARES_RDR_Q p
     bytes ≤ d.saveNeed p * 2 ^ 20 ∧ d.saveNeed p * 2 ^ 20 < bytes + 2 ^ 20) ∧
  (∀ (d : Dev) (p page : Nat),
     (d.get F.POD_LOG_CFG_EN p = 0 → d.logPage p page = d) ∧
     (d.get F.POD_LOG_CFG_EN p = 1 →
       let base := d.get F.POD_LOG_BASE_ADDR p
       let span := 2 ^ (d.get F.POD_LOG_CFG_SPAN_LOG2 p - 12)
       let a := d.get F.POD_LOG_BUF_ADDR p (d.get F.POD_LOG_CFG_SEL p) * 4096 + (page - base) / 8
       (base ≤ page → page < base + span → ∀ x,
         cellGet (d.logPage p page).mem x = if x = a then cellGet d.mem a ||| BitVec.ofNat 8 (2 ^ ((page - base) % 8))
           else cellGet d.mem x) ∧
       (page < base ∨ base + span ≤ page → d.logPage p page = d.put F.POD_LOG_CFG_OUTSIDE 1 p)))

/-! ### The host link -/

/-- HOST_LINK_UP and DOWN, CXL's enabling, the loss of the host by a snoop timeout, and configuration requests: the
link keeps its speed and width, 64 GT/s runs in flit mode, and a request before memory sizing is retried. -/
def Obligations.HostLinkCommands : Prop :=
  (∀ (s : State) (speed : Fin 6) (width : Fin 5) (flit : Bool), s.dev.clocked → 4 ≤ speed.val →
    Gives (.hostLinkUp speed width flit) s { s.dev with host := { s.dev.host with
      up := true, speed := speed.val, width := width.val, flit := flit || decide (speed.val = 5) } }) ∧
  (∀ (s : State) (speed : Fin 6) (width : Fin 5) (flit : Bool), s.dev.clocked → speed.val < 4 → s.dev.live 16 = false →
    Gives (.hostLinkUp speed width flit) s { s.dev with host := { s.dev.host with
      up := true, speed := speed.val, width := width.val, flit := flit } }) ∧
  (∀ s : State, s.dev.clocked →
    (s.dev.live 16 = false → Gives .hostLinkDown s { s.dev with host := { s.dev.host with
      up := false, cxl := false, pageReqs := [] } } ∧ Gives .hostSnoopTimeout s s.dev) ∧
    (s.dev.live 16 = true →
      let e := (s.dev.killAgent 16).put F.ERR_FENCE_OTHER_HOST 1
      let lost := ({ e with host := { e.host with cxl := false } } : Dev).report { cls := 0x15, srcKind := 9, fence := true }
      Gives .hostSnoopTimeout s lost ∧
      Gives .hostLinkDown s { lost with host := { lost.host with up := false, cxl := false, pageReqs := [] } }) ∧
    (s.dev.host.up = true → 4 ≤ s.dev.host.speed → s.dev.scrubs.contains 16 = false →
      let e := (s.dev.reviveAgent 16).put F.ERR_FENCE_OTHER_HOST 0
      Gives .hostCxlEnable s { e with host := { e.host with cxl := true } })) ∧
  (∀ (s : State) (pf1 : Bool) (reg : BitVec 12), s.dev.clocked →
    (s.dev.get F.MEM_CFG_CAP_GIB = 0 → s.dev.get F.MEM_TRAIN_STATE ≠ 4 →
      Gives (.configRequest pf1 reg) s (s.dev.emit .retryStatus)) ∧
    (s.dev.get F.MEM_CFG_CAP_GIB ≠ 0 →
      Gives (.configRequest pf1 0) s (s.dev.emit (.config (setBits (Config.configSpace pf1 0).toNat 16 16
        (if pf1 then 0x8817 else 0x8816)))) ∧
      Gives (.configRequest pf1 8) s (s.dev.emit (.config (setBits (Config.configSpace pf1 8).toNat 8 24
        (if pf1 then 0x010802 else 0x120000))))))

/-- ATS invalidations and page requests: an invalidation drops the cached translations of its pages and withdraws
them; a good response supplies the page, and a failed one or a timeout makes its next use fault once. -/
def Obligations.TranslationCommands : Prop :=
  (∀ (s : State) (pasid : BitVec 20) (page : BitVec 52) (n : BitVec 32), s.dev.clocked → n ≠ 0 →
    Gives (.atsInvalidate pasid page n) s { s.dev with host := { s.dev.host with
      ats := s.dev.host.ats.filter fun x => ¬(x.1 = pasid.toNat ∧ page.toNat ≤ x.2 ∧ x.2 < page.toNat + n.toNat)
      unmapped := s.dev.host.unmapped ++ [(pasid.toNat, page.toNat, n.toNat)] } }) ∧
  (∀ (s : State) (pasid : BitVec 20) (page : BitVec 52), s.dev.clocked →
    (s.dev.host.pageReqs.any fun q => q.pasid == pasid.toNat && q.page == page.toNat) = true →
    let h := { s.dev.host with pageReqs :=
      s.dev.host.pageReqs.filter fun q => ¬(q.pasid = pasid.toNat ∧ q.page = page.toNat) }
    let failed := { s.dev with host := { h with
      failed := (pasid.toNat, page.toNat) :: h.failed.filter fun x => x ≠ (pasid.toNat, page.toNat) } }
    Gives (.pageRequestGroupResponse pasid page false) s failed ∧
    Gives (.pageRequestTimeout pasid page) s failed ∧
    Gives (.pageRequestGroupResponse pasid page true) s { s.dev with host := { h with
      unmapped := h.unmapped.flatMap fun u => if u.1 = pasid.toNat then cutPage page.toNat u else [u] } }) ∧
  (∀ (d : Dev) (pasid a n : Nat), d.host.up = false → d.xlate pasid a n = .fault)

/-- BAR4 and CXL accesses of the host while memory is ready: they read and write device memory, a BAR4 write stashes
the lines its steering tag hints, a CXL access is a request of agent 16 at its home, and a snoop of the host
answers for a line homed there. A BAR4 or CXL access takes the device out of P1. -/
def Obligations.HostMemoryCommands : Prop :=
  (∀ (s : State) (off : BitVec 48) (len : Fin 4097), s.dev.clocked → let d := s.dev.leaveP1
    d.host.up = true → d.memReady = true → off.toNat + len.val ≤ d.get F.MEM_CFG_CAP_GIB * 2 ^ 30 →
    let seen := d.ioRead off.toNat len.val
    Gives (.bar4Read off len) s (seen.emit
      (.data (memRead seen.mem off.toNat len.val) (seen.poisonIn off.toNat len.val != .clean)))) ∧
  (∀ (s : State) (off : BitVec 48) (bs : List Byte) (tag : Option (BitVec 8)), s.dev.clocked → let d := s.dev.leaveP1
    1 ≤ bs.length → bs.length ≤ 4096 →
    d.host.up = true → d.memReady = true → off.toNat + bs.length ≤ d.get F.MEM_CFG_CAP_GIB * 2 ^ 30 →
    Gives (.bar4Write off bs tag) s ((linesOf off.toNat bs.length).foldl (fun d l =>
      d.sendStash (match tag with | some t => t.toNat % 16 | none => 0) l) (d.ioStore off.toNat bs))) ∧
  (∀ (s : State) (a : BitVec 52) (data : Bytes64) (poison : Poison), s.dev.clocked → let d := s.dev.leaveP1
    d.inHdm a.toNat = true → d.memReady = true →
    let q : HomeReq := { agent := 16, addr := a, group := 0, holds := false }
    Gives (.hostMemrd a .a) s (d.homeRequest q .rdUnique) ∧ Gives (.hostMemrd a .s) s (d.homeRequest q .rdShared) ∧
    Gives (.hostMemrd a .i) s (d.homeRequest q .rdOnce) ∧
    (d.hostOwns a.toNat = true → Gives (.hostMemwr a data poison) s (d.writeBackMsg 16 a.toNat data.toList poison)) ∧
    (d.hostOwns a.toNat = false → Gives (.hostMemwr a data poison) s (d.homeRequest q (.wrFull data.toList poison)))) ∧
  (∀ (s : State) (a : BitVec 52), s.dev.clocked → s.dev.live 16 = true →
    (s.dev.homeAgent a.toNat = some 16 →
      Gives (.hostSnpdata a) s (s.dev.snooped 16 a.toNat false) ∧ Gives (.hostSnpinv a) s (s.dev.snooped 16 a.toNat true)) ∧
    (s.dev.homeAgent (lineOf a.toNat) = some 16 → Gives (.hostSnpcur a) s (s.dev.emit
      (.data (s.dev.anyRead (lineOf a.toNat) 64) (s.dev.poisonAt (lineOf a.toNat) != .clean)))))

/-- Before memory is READY, a read of BAR4 completes with Completer Abort, a CXL.mem read returns poisoned data, a
write is dropped, and each access records a register-access error. -/
def Obligations.AccessesBeforeMemoryIsReady : Prop :=
  ∀ (s : State), s.dev.clocked → let d := s.dev.leaveP1
    d.memReady = false →
    (∀ (off : BitVec 48) (len : Fin 4097), d.host.up = true →
      off.toNat + len.val ≤ d.get F.MEM_CFG_CAP_GIB * 2 ^ 30 →
      Gives (.bar4Read off len) s ((d.regError off.toNat).emit .completerAbort)) ∧
    (∀ (off : BitVec 48) (bs : List Byte) (tag : Option (BitVec 8)), 1 ≤ bs.length → bs.length ≤ 4096 →
      d.host.up = true → off.toNat + bs.length ≤ d.get F.MEM_CFG_CAP_GIB * 2 ^ 30 →
      Gives (.bar4Write off bs tag) s (d.regError off.toNat)) ∧
    (∀ a : BitVec 52, d.inHdm a.toNat = true →
      (∀ mv, Gives (.hostMemrd a mv) s ((d.regError a.toNat).emit (.data (List.replicate 64 0) true))) ∧
      (∀ (data : Bytes64) (poison : Poison), Gives (.hostMemwr a data poison) s (d.regError a.toNat)))

/-- Clearing a vector's mask bit sends the message that was pending; PTM records the measured offset, saturated to 32
bits, and corrects it: fast, slow, at half rate or by a step forward. -/
def Obligations.InterruptAndTimeCommands : Prop :=
  (∀ (s : State) (v : Fin 2048), s.dev.clocked → s.dev.host.unmasked.contains (false, v.val) = false →
    let d := { s.dev with host := { s.dev.host with
      unmasked := (false, v.val) :: s.dev.host.unmasked
      pending := s.dev.host.pending.filter fun x => x ≠ (false, v.val) } }
    (s.dev.host.pending.contains (false, v.val) = true → Gives (.vectorUnmask false v) s (d.emit (.irq false v.val))) ∧
    (s.dev.host.pending.contains (false, v.val) = false → Gives (.vectorUnmask false v) s d)) ∧
  (∀ (s : State) (off : Int), s.dev.clocked → s.dev.get F.CLK_PTM_CTRL_EN = 1 → s.dev.host.up = true →
    let d := fun (v : Int) => (s.dev.put F.CLK_PTM_STATUS_OFFSET_NS (BitVec.ofInt 32 v).toNat).put F.CLK_PTM_STATUS_VALID 1
    let mode := fun (d : Dev) (m : Nat) => { d with host := { d.host with ptmMode := m, ptmLeft := off.natAbs } }
    (off = 0 → Gives (.ptmDialogue off) s (mode (d 0) 0)) ∧
    (-1000000 ≤ off → off < 0 → Gives (.ptmDialogue off) s (mode (d off) 1)) ∧
    (0 < off → off ≤ 1000000 → Gives (.ptmDialogue off) s (mode (d off) 2)) ∧
    (1000000 < off → Gives (.ptmDialogue off) s (mode (d (min off (2 ^ 31 - 1))) 3)) ∧
    (off < -1000000 →
      let e := d (max (-(2 ^ 31 - 1)) off)
      Gives (.ptmDialogue off) s ((({ e with host := { e.host with ptmMode := 0, ptmLeft := 0 } } : Dev).put
        F.CLK_TIMESTAMP_NS (e.now + off.natAbs)).put F.CLK_PTM_STATUS_STEPPED 1)))

/-! ### NVMe -/

/-- The controller is enabled with its admin queues and becomes ready when memory is; reset and PF1's FLR drop every
queue and waiting command; a doorbell moves a tail or frees completions. The controller takes the entry at a
queue's head when it is ready and the queue is not empty, and the completion of a command is posted in its
completion queue when that has room. -/
def Obligations.NvmeControllerAndQueues : Prop :=
  ((∀ s : State, s.dev.clocked →
     (s.dev.nvme.enabled = false → Gives .controllerEnable s { s.dev with nvme := { s.dev.nvme with
       enabled := true, rdy := s.dev.memReady, cfs := s.dev.get F.MEM_TRAIN_STATE == 4
       sqs := [{ id := 0, size := 4096, head := 0, tail := 0, cq := 0, base := 0 }]
       cqs := [{ id := 0, size := 4096, head := 0, tail := 0, vec := 0, ien := true, base := 0, posted := [],
                 unannounced := 0 }] } }) ∧
     (let stopped := { s.dev with nvme := { s.dev.nvme with
        enabled := false, rdy := false, sqs := [], cqs := [], waits := [], writeWaits := [], features := []
        creating := s.dev.nvme.creating.map fun c => { c with cid := none } } }
      (s.dev.nvme.enabled = true → Gives .controllerReset s stopped) ∧ Gives .pf1Flr s (stopped.maskAll true)) ∧
     (∀ (q : Fin 65) (v : BitVec 16), s.dev.nvme.rdy = true →
       Gives (.nvmeSqDoorbell q v) s { s.dev with nvme := { s.dev.nvme with sqs := s.dev.nvme.sqs.map fun x =>
         if x.id = q.val ∧ v.toNat < x.size then { x with tail := v.toNat } else x } } ∧
       Gives (.nvmeCqDoorbell q v) s ({ s.dev with nvme := { s.dev.nvme with cqs := s.dev.nvme.cqs.map fun c =>
         let n := (v.toNat + c.size - c.head) % c.size
         if c.id = q.val ∧ v.toNat < c.size ∧ n ≤ c.posted.length then { c with head := v.toNat, posted := c.posted.drop n }
         else c } } : Dev).settleNvme) ∧
     Gives .interruptCoalescingExpiry s ((s.dev.nvme.cqs.filter fun c => c.unannounced ≠ 0).foldl
       (fun (d : Dev) c => d.sendVec true c.vec) { s.dev with nvme := { s.dev.nvme with
         cqs := s.dev.nvme.cqs.map fun c => { c with unannounced := 0 } } }))) ∧
  ((∀ (d : Dev) (q : Nat) (x : NvmeSq), d.nvme.sq? q = some x → d.nvme.rdy = true → d.host.up = true →
     (x.head ≠ x.tail → d.takeCmd q = some { d with nvme := { d.nvme with sqs := d.nvme.sqs.map fun y =>
       if y.id = q then { y with head := (y.head + 1) % y.size } else y } }) ∧
     (x.head = x.tail → d.takeCmd q = none)) ∧
   (∀ (d : Dev) (sq : Nat) (cid : BitVec 16) (st dw0 : Nat) (q : NvmeSq) (c : NvmeCq), d.nvme.sq? sq = some q →
     d.nvme.cq? q.cq = some c → d.nvme.waits = [] → c.posted.length + 1 < c.size →
     ((d.cmdDone sq cid st dw0).nvme.cq? q.cq).map (fun c => c.posted) = some (c.posted ++ [⟨sq, cid.toNat, st, dw0⟩])))

/-- Admin commands, on an entry the controller takes: creation and deletion of queues, Abort, features, Identify, log
pages and opcodes that are not offered. Status codes are those of NVMe Base 2.0 (log entry 6). The admin commands
that return data: Identify and Get Log Page store it through the PRPs and complete, and an unknown CNS or log ends
with its status. -/
def Obligations.NvmeAdminCommandsAndData : Prop :=
  (∀ (s : State) (d : Dev) (cid q n k : BitVec 16) (b : Word) (ien : Bool), s.dev.clocked → s.dev.takeCmd 0 = some d →
     (d.nvme.cqStatus q.toNat n.toNat k.toNat true b.toNat = 0 →
       Gives (.createIoCq cid q n k ien true b) s (({ d with nvme := { d.nvme with cqs := d.nvme.cqs ++
         [⟨q.toNat, n.toNat + 1, 0, 0, k.toNat, ien, b.toNat, [], 0⟩] } } : Dev).cmdDone 0 cid 0)) ∧
     (d.nvme.cqStatus q.toNat n.toNat k.toNat true b.toNat ≠ 0 → Gives (.createIoCq cid q n k ien true b) s
       (d.cmdDone 0 cid (d.nvme.cqStatus q.toNat n.toNat k.toNat true b.toNat))) ∧
     (d.nvme.sqStatus q.toNat n.toNat k.toNat true b.toNat = 0 →
       Gives (.createIoSq cid q n k true b) s (({ d with nvme := { d.nvme with sqs := d.nvme.sqs ++
         [⟨q.toNat, n.toNat + 1, 0, 0, k.toNat, b.toNat⟩] } } : Dev).cmdDone 0 cid 0)) ∧
     (d.nvme.sqStatus q.toNat n.toNat k.toNat true b.toNat ≠ 0 → Gives (.createIoSq cid q n k true b) s
       (d.cmdDone 0 cid (d.nvme.sqStatus q.toNat n.toNat k.toNat true b.toNat))) ∧
     (q ≠ 0 → (d.nvme.sq? q.toNat).isSome = true → d.nvme.idleCmds q.toNat = [] → Gives (.deleteIoSq cid q) s
       (({ d with nvme := { d.nvme with sqs := d.nvme.sqs.filter fun x => x.id ≠ q.toNat } } : Dev).endCmd 0 cid.toNat 0 0
         (.delete q.toNat) [])) ∧
     (q ≠ 0 → (d.nvme.cq? q.toNat).isSome = true →
       ((d.nvme.sqs.any fun x => x.cq == q.toNat) = true → Gives (.deleteIoCq cid q) s (d.cmdDone 0 cid 0x10C)) ∧
       ((d.nvme.sqs.any fun x => x.cq == q.toNat) = false → Gives (.deleteIoCq cid q) s
         (({ d with nvme := { d.nvme with cqs := d.nvme.cqs.filter fun x => x.id ≠ q.toNat } } : Dev).cmdDone 0 cid 0))) ∧
     (q = 0 → Gives (.deleteIoSq cid q) s (d.cmdDone 0 cid 0x101) ∧ Gives (.deleteIoCq cid q) s (d.cmdDone 0 cid 0x101)) ∧
     (4 ≤ d.nvme.aborts → Gives (.abort cid q k) s (d.cmdDone 0 cid 0x103)) ∧
     (d.nvme.aborts < 4 → (d.nvme.idleCmds q.toNat).contains k.toNat = false →
       Gives (.abort cid q k) s (d.cmdDone 0 cid 0 1)) ∧
     (d.nvme.aborts < 4 → (d.nvme.idleCmds q.toNat).contains k.toNat = true →
       Gives (.abort cid q k) s ((d.killCmd q.toNat k.toNat 0x07).endCmd 0 cid.toNat 0 0 (.abort q.toNat k.toNat) [])) ∧
     Gives (.nvmeInvalidOpcode 0 cid) s (d.cmdDone 0 cid 0x01) ∧
     (∀ (fid : BitVec 8) (x : BitVec 32),
       (d.nvme.setStatus fid.toNat false x.toNat ≠ 0 → Gives (.setFeatures cid fid false x) s
         (d.cmdDone 0 cid (d.nvme.setStatus fid.toNat false x.toNat))) ∧
       (d.nvme.setStatus fid.toNat false x.toNat = 0 → fid ≠ 7 →
         let key := fid.toNat + 256 * featureSel fid.toNat x.toNat
         let fs := upsert (fun y => y.1 == key) (key, featureValue fid.toNat x.toNat) d.nvme.features
         Gives (.setFeatures cid fid false x) s (({ d with nvme := { d.nvme with features := fs } } : Dev).cmdDone 0 cid 0)) ∧
       (featureOk fid.toNat = true → Gives (.getFeatures cid fid) s (d.cmdDone 0 cid 0 (d.nvme.feature fid.toNat 0))) ∧
       (featureOk fid.toNat = false → Gives (.getFeatures cid fid) s (d.cmdDone 0 cid 0x02)))) ∧
  (∀ (s : State) (d : Dev) (cid : BitVec 16) (nsid : BitVec 32) (prps : List Word), s.dev.clocked →
     s.dev.takeCmd 0 = some d →
     (∀ (cns : BitVec 8) (bs : List Byte), s.dev.identify cns.toNat nsid.toNat = .ok bs → prpsOk prps bs.length = true →
       s.dev.runsReach (prpRuns prps bs.length) = .ok →
       Gives (.identify cid cns nsid prps) s ((d.storeRuns bs (prpRuns prps bs.length)).cmdDone 0 cid 0)) ∧
     (∀ cns : BitVec 8, 0x13 < cns.toNat → Gives (.identify cid cns nsid prps) s (d.cmdDone 0 cid 0x02)) ∧
     (∀ n : BitVec 16, let runs := prpRuns prps n.toNat
       prpsOk prps n.toNat = true → s.dev.runsReach runs = .ok →
       Gives (.getLogPage cid 1 n prps) s ((d.storeRuns (slice s.dev.errorLog 0 n.toNat) runs).cmdDone 0 cid 0) ∧
       Gives (.getLogPage cid 2 n prps) s ((d.storeRuns (slice s.dev.smartLog 0 n.toNat) runs).cmdDone 0 cid 0)) ∧
     (∀ (lid : BitVec 8) (n : BitVec 16), lid ≠ 1 → lid ≠ 2 → Gives (.getLogPage cid lid n prps) s (d.cmdDone 0 cid 0x109)))

/-- Namespaces: creation takes the lowest free NSID and the lowest run of free granules, zeroes it and completes when
the zeroing is done; deletion, attachment, and the pool registers. -/
def Obligations.NvmeNamespaceCommands : Prop :=
  (∀ (s : State) (d : Dev) (cid : BitVec 16), s.dev.clocked → s.dev.takeCmd 0 = some d →
    (∀ (g n b : Nat), 1 ≤ g → g < 2 ^ 46 → d.freeNsid = some n → d.freeRun g = some b →
      let size := BitVec.ofNat 64 (g * 262144)
      let e := ((((d.put F.ING_NS_VALID 1 (n - 1)).put F.ING_NS_POD ((d.podHolding b g).getD 0) (n - 1)).put
        F.ING_NS_SIZE_GIB g (n - 1)).put F.ING_NS_BASE_GIB b (n - 1)).ioZero (b * 2 ^ 30) (g * 2 ^ 30)
      Gives (.namespaceCreate cid size size 0 0 0) s { e with nvme := { e.nvme with
        creating := e.nvme.creating ++ [⟨n, some cid.toNat⟩] } }) ∧
    (∀ (x y : Word), x ≠ y → Gives (.namespaceCreate cid x y 0 0 0) s (d.cmdDone 0 cid 0x02)) ∧
    (∀ n : BitVec 32, n ≠ 0xFFFFFFFF → d.nsExists n.toNat = true → d.nvme.zeroing n.toNat = false →
      (d.nsBusy n.toNat = true → Gives (.namespaceDelete cid n) s (d.cmdDone 0 cid 0x0C)) ∧
      (d.nsBusy n.toNat = false → Gives (.namespaceDelete cid n) s ((d.dropNs n.toNat).settleNvme.cmdDone 0 cid 0)) ∧
      (d.nvme.attached.contains n.toNat = false → Gives (.namespaceAttachment cid n true 1) s
        (({ d with nvme := { d.nvme with attached := d.nvme.attached ++ [n.toNat] } } : Dev).cmdDone 0 cid 0)) ∧
      (d.nvme.attached.contains n.toNat = true →
        Gives (.namespaceAttachment cid n true 1) s (d.cmdDone 0 cid 0x118) ∧
        Gives (.namespaceAttachment cid n false 1) s
          (({ d with nvme := { d.nvme with attached := d.nvme.attached.filter fun x => x ≠ n.toNat } } : Dev).cmdDone 0 cid 0))) ∧
    (∀ n : BitVec 32, n ≠ 0xFFFFFFFF → d.nsExists n.toNat = false →
      Gives (.namespaceDelete cid n) s (d.cmdDone 0 cid 0x0B))) ∧
  (∀ (s : State) (n : BitVec 32) (c : NsCreate), s.dev.clocked →
    (s.dev.nvme.creating.find? fun c => c.nsid == n.toNat) = some c →
    let d := { s.dev with nvme := { s.dev.nvme with creating := s.dev.nvme.creating.erase c } }
    (∀ cid, c.cid = some cid → Gives (.namespaceZeroingDone n) s (d.endCmd 0 cid 0 c.nsid .other [])) ∧
    (c.cid = none → Gives (.namespaceZeroingDone n) s d)) ∧
  (∀ (s : State) (m : Fin 16) (v : Word), s.dev.clocked →
    let r : RegRef := ⟨.ING_POOL, m.val, 0⟩
    let d := s.dev.unstage r.addr
    let new := regAfter r.kind.fields (d.rd r) v.toNat false false
    (bitsOf new 63 1 = 1 → d.podHolding (bitsOf new 0 16) (bitsOf new 32 16) = none →
      Gives (.ingPoolWrite m ⟨.bar0, .full, v⟩) s (d.put F.ING_STATUS_REJECT 1)) ∧
    ((d.podHolding (bitsOf new 0 16) (bitsOf new 32 16)).isSome = true → d.poolLoses m.val (d.rd r) new = false →
      Gives (.ingPoolWrite m ⟨.bar0, .full, v⟩) s (d.wr r new)))

/-- I/O: a Write fills the buffer or waits for room, a Read transfers up to the first poisoned LBA, a Flush waits for
what is buffered, Write Zeroes writes through, and the buffer drains a line at a time; a command that fails its
checks ends with its status. -/
def Obligations.NvmeIoCommands : Prop :=
  (∀ (s : State) (d : Dev) (io : NvmeIo), s.dev.clocked → io.sq ≠ 0 → s.dev.takeCmd io.sq.val = some d →
    (s.dev.ioStatus io true ≠ 0 →
      Gives (.write io) s (d.cmdDone io.sq.val io.cid (s.dev.ioStatus io true)) ∧
      Gives (.read io) s (d.cmdDone io.sq.val io.cid (s.dev.ioStatus io true))) ∧
    (s.dev.ioStatus io true = 0 → s.dev.nvme.writeWaits = [] → s.dev.nvme.roomFor io = true →
      d.runsReach (prpRuns io.prps (ioBytes io)) = .ok → io.hostFail = false →
      Gives (.write io) s (((prpRuns io.prps (ioBytes io)).foldl (fun (d : Dev) r => d.cacheXlate 0 r.1 r.2) d).placeWrite io
        (d.loadRuns (prpRuns io.prps (ioBytes io))))) ∧
    (s.dev.ioStatus io true = 0 → s.dev.nvme.writeWaits = [] → s.dev.nvme.roomFor io = true →
      d.runsReach (prpRuns io.prps (ioBytes io)) = .ok → io.hostFail = true →
      Gives (.write io) s ((d.forgetRuns 0 (prpRuns io.prps (ioBytes io))).cmdDone io.sq.val io.cid 0x04)) ∧
    (s.dev.ioStatus io true = 0 → s.dev.nvme.roomFor io = false →
      Gives (.write io) s { d with nvme := { d.nvme with writeWaits := d.nvme.writeWaits ++ [io] } }) ∧
    (s.dev.ioStatus io true = 0 → s.dev.runsReach (prpRuns io.prps (ioBytes io)) = .ok → io.hostFail = false →
      Gives (.read io) s (d.runRead io)) ∧
    (s.dev.ioStatus io true = 0 → s.dev.runsReach (prpRuns io.prps (ioBytes io)) = .ok → io.hostFail = true →
      Gives (.read io) s ((d.forgetRuns 0 (prpRuns io.prps (ioBytes io))).cmdDone io.sq.val io.cid 0x04)) ∧
    (s.dev.ioStatus io true = 0 → s.dev.runsReach (prpRuns io.prps (ioBytes io)) = .fault →
      Gives (.read io) s ((d.forgetRuns 0 (prpRuns io.prps (ioBytes io))).cmdDone io.sq.val io.cid 0x04)) ∧
    (d.ioStatus io false = 0 → d.nvme.writeWaits = [] →
      let lo := io.slba.toNat
      let n := io.nlb.toNat + 1
      let e := d.ioZero (d.nsBase io.nsid.toNat + 4096 * lo) (4096 * n)
      Gives (.writeZeroes io) s ((({ e with nvme := { e.nvme with buf := e.nvme.buf.filter fun b =>
        ¬(b.nsid = io.nsid.toNat ∧ lo ≤ b.lba ∧ b.lba < lo + n) } } : Dev).cmdDone io.sq.val io.cid 0).settleNvme)) ∧
    (d.ioStatus io false ≠ 0 → Gives (.writeZeroes io) s (d.cmdDone io.sq.val io.cid (d.ioStatus io false))) ∧
    (d.nsActive io.nsid.toNat = true → Gives (.flush io.sq io.cid io.nsid) s (d.endCmd io.sq.val io.cid.toNat 0 0 .flush
      ((d.nvme.buf.filter fun b => io.nsid.toNat == 0xFFFFFFFF || b.nsid == io.nsid.toNat).map fun b => (b.nsid, b.lba))))) ∧
  (∀ (s : State) (b : BufLba) (rest : List BufLba), s.dev.clocked → s.dev.nvme.buf = b :: rest →
    let d := s.dev.ioStore (s.dev.nsBase b.nsid + 4096 * b.lba + 64 * b.drained) (slice b.bytes (64 * b.drained) 64)
    (b.drained + 1 < 64 → Gives .writeBufferDrain s { d with nvme := { d.nvme with
      buf := { b with drained := b.drained + 1 } :: rest } }) ∧
    (64 ≤ b.drained + 1 → s.dev.nvme.waits = [] → s.dev.nvme.writeWaits = [] →
      Gives .writeBufferDrain s { d with nvme := { d.nvme with buf := rest } }))

/-! ### Column caches, the directory and the memory channels -/

/-- Fills, completions and write-backs of a column cache, its tile store's scrub and zeroing, a stash that finds
nothing to install, and DZ4400 mode: a fill frees its miss register and installs the line in a free way, S for
DATAS and E for DATAE; a control core's line is installed as it comes; an acknowledged write-back frees the buffer
and sends the hint that waits for it. Maintenance of a column cache, by address and whole, and its enabling,
disabling and mode requests. A second operation, or a global one that is not CLEAN_LINE or FLUSH_LINE, is refused
with MAINT_REJ. -/
def Obligations.CacheCommands : Prop :=
  ((∀ (s : State) (c : Fin 8) (a : BitVec 52) (m : MissReg) (w : Nat), s.dev.clocked →
     let line := lineOf (s.dev.localForm a.toNat)
     let lines := s.dev.setLines c.val line
     s.dev.findLine c.val line = none → s.dev.findMiss c.val line = some m → m.fill = 0 → m.maint = 0 →
     m.store = false → s.dev.missWait = [] → s.dev.get F.CCH_CTRL_EN c.val = 1 → s.dev.homeAgent line ≠ some 16 →
     ((s.dev.wayCandidates c.val m.pod line).find? fun w => !(lines.any fun l => l.way == w)) = some w →
     (∃ d, Gives (.datas (c.castLE (by decide)) a .clean) s d ∧ d.findMiss c.val line = none ∧
       d.findLine c.val line = some ⟨c.val, line, w, .s, m.prefetch, .clean, none⟩) ∧
     (∃ d, Gives (.datae (c.castLE (by decide)) a .clean) s d ∧ d.findMiss c.val line = none ∧
       d.findLine c.val line = some ⟨c.val, line, w, .e, m.prefetch, .clean, none⟩)) ∧
   (∀ (s : State) (x : Fin 16) (a : BitVec 52), s.dev.clocked → 8 ≤ x.val →
     let line := lineOf (s.dev.localForm a.toNat)
     Gives (.datas x a .clean) s (s.dev.setLine ⟨x.val, line, 0, .s, false, .clean, none⟩) ∧
     Gives (.datae x a .clean) s (s.dev.setLine ⟨x.val, line, 0, .e, false, .clean, none⟩) ∧
     (∀ l, s.dev.findLine x.val line = some l → l.st ≠ .m → Gives (.cmp x a) s (s.dev.setLine { l with st := .e })) ∧
     (∀ l, s.dev.findLine x.val line = some l → l.st = .m → Gives (.cmp x a) s (s.dev.setLine l))) ∧
   (∀ (s : State) (x : Fin 16) (a : BitVec 52) (l : CLine) (m : MissReg), s.dev.clocked → x.val < 8 →
     s.dev.findLine x.val (lineOf (s.dev.localForm a.toNat)) = some l →
     s.dev.findMiss x.val (lineOf (s.dev.localForm a.toNat)) = some m →
     Gives (.cmp x a) s (s.dev.install m 2 l.poison l.way)) ∧
   (∀ (s : State) (c : Fin 8) (a : BitVec 52), s.dev.clocked →
     let line := lineOf (s.dev.localForm a.toNat)
     (s.dev.wbb = [(c.val, line)] → (s.dev.misses.any fun m => m.cluster == c.val && m.fill != 0) = false →
       s.dev.get F.CCH_CTRL_EN c.val ≠ 2 → s.dev.maint = [] →
       let mine := fun (h : Nat × Nat × Nat) => h.1 == c.val && h.2.1 == line
       (s.dev.hints.find? mine = none → Gives (.wback c a) s { s.dev with wbb := [] }) ∧
       (∀ h, s.dev.hints.find? mine = some h → Gives (.wback c a) s
         (({ s.dev with wbb := [], hints := s.dev.hints.filter fun h => !mine h } : Dev).sendStash h.2.2 line))) ∧
     (s.dev.target line = .nowhere ∨ s.dev.get F.CCH_CTRL_EN c.val ≠ 1 → Gives (.snpstash c a) s s.dev) ∧
     (∀ p, s.dev.get F.CCH_CTRL_EN c.val = 1 → s.dev.target line ≠ .nowhere → s.dev.homeAgent line = none →
       s.dev.findLine c.val line = none → s.dev.sectorBusy (sectorOf line) = false → s.dev.podOfAddr line = some p →
       Gives (.snpstash c a) s (s.dev.stashFor c.val p line)) ∧
     (s.dev.missCount c.val = 0 → Gives (.dz4400ModeSwitch c) s
       ((s.dev.put F.CCH_CTRL_MODE (s.dev.get F.CCH_CTRL_MODE_REQ c.val) c.val).serveWaiting c.val)) ∧
     (s.dev.missCount c.val ≠ 0 → Gives (.dz4400ModeSwitch c) s s.dev)) ∧
   (∀ (s : State) (t : Fin 64) (off : BitVec 22), s.dev.clocked →
     let word := off.toNat / 8 * 8
     (s.dev.get F.TIL_TS_SCRUB_EN t.val = 1 → s.dev.errs.planted = [] →
       Gives (.tsPatrolScrub t off .good) s s.dev ∧
       (s.dev.tsPoison.contains (t.val, word) = false →
         Gives (.tsPatrolScrub t off .corrected) s ((s.dev.bump16 F.TIL_TS_ECC_CE_COUNT t.val).report
           { cls := 0x01, pod := s.dev.podOfTile t.val, source := t.val, addr := word }) ∧
         Gives (.tsPatrolScrub t off .uncorrectable) s (s.dev.tsUe t.val word false))) ∧
     (s.dev.get F.TIL_TS_SCRUB_ZEROING t.val = 1 → ∃ d, Gives (.tileZeroingDone t) s d ∧
       d.get F.TIL_TS_SCRUB_ZEROING t.val = 0 ∧ (∀ x ∈ d.tsPoison, x.1 ≠ t.val) ∧
       (d.lastPod.find? fun x => x.1 == t.val) = (s.dev.podOfTile t.val).map fun p => (t.val, p)))) ∧
  ((∀ (s : State) (c : Fin 8) (a : BitVec 52), s.dev.clocked →
     let line := s.dev.localForm (a.toNat / 64 * 64)
     let named := fun (g : Nat) => (s.dev.put F.CCH_MAINT_ADDR_ADDR (a.toNat / 64) c.val).put F.CCH_MAINT_GLOBAL g c.val
     let began := fun (op : Nat) => { named 0 with maint := s.dev.maint ++ [(c.val, op, line, false)] }
     let refused := (s.dev.put F.CCH_MAINT_ADDR_ADDR (a.toNat / 64) c.val).put F.CCH_STATUS_MAINT_REJ 1 c.val
     ((s.dev.maint.any fun m => m.1 == c.val) = true → ∀ g, Gives (.cleanLine c g a) s refused ∧
       Gives (.flushLine c g a) s refused ∧ Gives (.discardLine c g a) s refused ∧
       Gives (.cleanAll c g) s (s.dev.put F.CCH_STATUS_MAINT_REJ 1 c.val) ∧
       Gives (.flushAll c g) s (s.dev.put F.CCH_STATUS_MAINT_REJ 1 c.val)) ∧
     ((s.dev.maint.any fun m => m.1 == c.val) = false → s.dev.findMiss c.val line = none →
       (s.dev.findLine c.val line = none → Gives (.cleanLine c false a) s (began 1) ∧
         Gives (.flushLine c false a) s (began 2) ∧ Gives (.discardLine c false a) s (began 3)) ∧
       (∀ l, s.dev.findLine c.val line = some l →
         Gives (.discardLine c false a) s ((began 3).discardLine l) ∧
         (l.st ≠ .m → Gives (.cleanLine c false a) s (began 1) ∧
           Gives (.flushLine c false a) s ((began 2).dropLine c.val line)) ∧
         (l.st = .m → s.dev.wbbBusy c.val = false → Gives (.cleanLine c false a) s ((began 1).toBuffer l true) ∧
           Gives (.flushLine c false a) s ((began 2).toBuffer l false)))) ∧
     ((s.dev.maint.any fun m => m.1 == c.val) = false →
       Gives (.discardLine c true a) s refused ∧
       (let began := fun (op : Nat) => { s.dev.put F.CCH_MAINT_GLOBAL 0 c.val with maint :=
          s.dev.maint ++ [(c.val, op, s.dev.localForm (s.dev.get F.CCH_MAINT_ADDR_ADDR c.val * 64), false)] }
        Gives (.cleanAll c true) s (s.dev.put F.CCH_STATUS_MAINT_REJ 1 c.val) ∧
        Gives (.flushAll c true) s (s.dev.put F.CCH_STATUS_MAINT_REJ 1 c.val) ∧
        Gives (.cleanAll c false) s ((began 4).pump c.val) ∧
        Gives (.flushAll c false) s (({ began 5 with lines := s.dev.lines.filter fun l =>
          !(l.agent == c.val && l.st != .m) } : Dev).pump c.val)))) ∧
   (∀ (s : State) (c : Fin 8) (op a : Nat) (g : Bool) (v : Word), s.dev.clocked →
     ((s.dev.maint.find? fun m => m.1 == c.val) = some (c.val, op, a, g) → s.dev.maintDone c.val op a g = true →
       Gives (.maintComplete c) s { s.dev with maint := s.dev.maint.filter fun m => m.1 != c.val }) ∧
     (let r : RegRef := ⟨.CCH_CTRL, c.val, 0⟩
      let d := s.dev.unstage r.addr
      let plain := fun (en : Nat) => d.wr r (regAfter r.kind.fields (d.rd r) (setBits v.toNat 0 2 en) false false)
      (d.get F.CCH_CTRL_EN c.val = 1 → bitsOf v.toNat 0 2 = 1 → Gives (.dz4400ModeRequest c ⟨.bar0, .full, v⟩) s (plain 1)) ∧
      (d.get F.CCH_CTRL_EN c.val = 1 → bitsOf v.toNat 0 2 = 0 → Gives (.cacheDisable c ⟨.bar0, .full, v⟩) s
        (let e := (plain 1).put F.CCH_CTRL_EN 2 c.val
         ({ e with lines := e.lines.filter fun l => !(l.agent == c.val && l.st != .m) } : Dev).pump c.val)) ∧
      (d.get F.CCH_CTRL_EN c.val = 0 → bitsOf v.toNat 0 2 = 1 → Gives (.cacheEnable c ⟨.bar0, .full, v⟩) s
        (({ plain 0 with lines := s.dev.lines.filter fun l => l.agent != c.val } : Dev).put F.CCH_CTRL_EN 1 c.val))) ∧
     (s.dev.get F.CCH_CTRL_EN c.val = 2 → s.dev.wbbBusy c.val = false → s.dev.maintNext c.val = none →
       Gives (.cacheDisableComplete c) s
         ((({ s.dev with lines := s.dev.lines.filter fun l => l.agent != c.val } : Dev).put F.CCH_CTRL_EN 0 c.val).serveWaiting
           c.val))))

/-- A request at its home: an agent that is not live asks for nothing, and an address that names nothing is answered
with an address error; a sector that is free is served at once; with no entry a read that shares or owns makes
one, and the rest is granted at once; with the answers in, the request is granted. The scrub of a dead agent ends. -/
def Obligations.CoherenceCommands : Prop :=
  (∀ (s : State) (q : HomeReq), s.dev.clocked →
    let x := q.agent.val
    let a := s.dev.localForm q.addr.toNat
    let asks := fun (k : ReqKind) => s.dev.txnOf x a q.holds k
    let all := fun (f : ReqKind → Dev) => Gives (.rdshared q) s (f .rdShared) ∧ Gives (.rdunique q) s (f .rdUnique) ∧
      Gives (.upgrade q) s (f .upgrade) ∧ Gives (.rdonce q) s (f .rdOnce) ∧
      (∀ data be, Gives (.wrfull q data) s (f (.wrFull data.toList .clean)) ∧
        Gives (.wrpart q data be) s (f (.wrPart data.toList be.toNat))) ∧
      (∀ op y z cached, Gives (.atomic q op y z cached) s (f (.atomic op y z cached)))
    (s.dev.live x = false → all fun _ => s.dev) ∧
    (s.dev.live x = true → x < 17 →
      (s.dev.target a = .nowhere → all fun _ => s.dev.emit (.coh x 12 a)) ∧
      (s.dev.target a ≠ .nowhere → s.dev.homeAgent a ≠ some 16 → s.dev.sectorBusy (sectorOf a) = false →
        s.dev.queuedTxns (s.dev.sliceOf (sectorOf a)) = [] → s.dev.errs.planted = [] →
        (s.dev.findDir (sectorOf a) = none →
          (∀ d, s.dev.newDir (sectorOf a) x false = some d →
            Gives (.rdshared q) s (d.grantMsgs (asks .rdShared) none)) ∧
          (∀ d, s.dev.newDir (sectorOf a) x true = some d →
            Gives (.rdunique q) s (d.grantMsgs (asks .rdUnique) none) ∧
            Gives (.upgrade q) s (d.grantMsgs (asks .upgrade) none) ∧
            (∀ op y z, Gives (.atomic q op y z true) s (d.grantMsgs (asks (.atomic op y z true)) none))) ∧
          (s.dev.newDir (sectorOf a) x false = none → Gives (.rdshared q) s (s.dev.retryTxn (asks .rdShared))) ∧
          Gives (.rdonce q) s (s.dev.grantMsgs (asks .rdOnce) none) ∧
          (∀ (data : Bytes64) (be : BitVec 64),
            let full := ReqKind.wrFull data.toList .clean
            let part := ReqKind.wrPart data.toList be.toNat
            Gives (.wrfull q data) s ((s.dev.homeWrite full a).grantMsgs (asks full) none) ∧
            Gives (.wrpart q data be) s ((s.dev.homeWrite part a).grantMsgs (asks part) none)) ∧
          (∀ op y z,
            let k := ReqKind.atomic op y z false
            Gives (.atomic q op y z false) s ((s.dev.homeWrite k a).grantMsgs (asks k) none))) ∧
        (∀ e, s.dev.findDir (sectorOf a) = some e → e.excl = false → e.bcast = false →
          (Gives (.rdshared q) s ((s.dev.setDir (e.join x)).grantMsgs (asks .rdShared) (some e))) ∧
          ((s.dev.holders e x) ≠ [] → Gives (.rdunique q) s
            (let d := s.dev.snoop (s.dev.sliceOf (sectorOf a)) (sectorOf a) true false (s.dev.holders e x)
             { d with txns := d.txns ++ [{ asks .rdUnique with opened := true, waits := s.dev.holders e x }] })))))) ∧
  (∀ (s : State) (x : Fin 24) (a : BitVec 52) (t : HomeTxn) (ls : Vector (Option Bytes64) 4), s.dev.clocked →
    let sector := sectorOf (s.dev.localForm a.toNat)
    (s.dev.txns.find? fun t => t.opened && t.sector == sector && t.waits.contains x.val) = some t →
    Gives (.rspclean x a) s (s.dev.answerTxn t x.val false true) ∧
    Gives (.rspmiss x a) s (s.dev.answerTxn t x.val false false) ∧
    (let got := sectorLines ls
     Gives (.rspdata x a ls) s
       ((s.dev.answerData sector t.kind.isSnoop got).answerTxn t x.val true false got.length))) ∧
  (∀ (s : State) (x : Fin 24) (a : BitVec 52), s.dev.clocked → x.val < 16 →
    let sector := sectorOf (s.dev.localForm a.toNat)
    let code := if s.dev.dirtyIn x.val sector then 8 else if s.dev.holdsIn x.val sector then 9 else 10
    let dirty := s.dev.dirtyCount x.val sector
    let poison := if s.dev.dirtyIn x.val sector then s.dev.poisonIn sector 256 else Poison.clean
    let answer := Out.coh (32 + s.dev.sliceOf sector) code sector 0 poison dirty
    let mine := fun (l : CLine) => l.agent == x.val && sectorOf l.addr == sector
    Gives (.snpinv x a) s (({ s.dev with lines := s.dev.lines.filter fun l => !mine l } : Dev).emit answer) ∧
    (let kept := mapIf mine (fun l => { l with st := .s, stale := none }) s.dev.lines
     Gives (.snpshared x a) s (({ s.dev with lines := kept } : Dev).emit answer))) ∧
  (∀ (s : State) (q : HomeReq) (data : Bytes64) (p : Poison), s.dev.clocked → s.dev.errs.planted = [] →
    let x := q.agent.val
    let a := lineOf (s.dev.localForm q.addr.toNat)
    s.dev.live x = true → s.dev.target a ≠ .nowhere →
    (s.dev.txns.any fun t => t.opened && t.sector == sectorOf a && t.waits.contains x) = false →
    (s.dev.findDir (sectorOf a) = none → Gives (.wrback q data p) s ((s.dev.writeBack x a data.toList p).emit (.coh x 7 a))) ∧
    (∀ e, s.dev.findDir (sectorOf a) = some e → e.excl = true → e.ptrs.contains x = false →
      Gives (.wrback q data p) s (s.dev.emit (.coh x 7 a)))) ∧
  (∀ (s : State) (n : Fin 16) (t : HomeTxn) (x : Nat), s.dev.clocked →
    ((s.dev.txns.find? fun t => t.slice == n.val && !t.opened && t.retries != 0) = some t →
      Gives (.dirRetry n) s (({ s.dev with txns := s.dev.txns.erase t } : Dev).admitTxn { t with retries := 0 })) ∧
    (s.dev.scrubs = [x] → x < 17 → Gives .scrubComplete s
      ((({ s.dev with scrubs := [] } : Dev).bump16 F.DIR_SCRUB_COUNT).put F.DIR_SCRUB_ACTIVE 0)))

/-- The memory channels: training, refresh, the DIMM poll, calibration, retraining, grants and scrub reads, reads with
their replies, writes and their drains, which hold reads back, rows, the slot table, which is checked again when
its commit is applied, and the watermarks. -/
def Obligations.MemoryChannelCommands : Prop :=
  (∀ (s : State) (x : Dimms) (v : Bool), s.dev.clocked → s.dev.get F.MEM_TRAIN_STATE < 3 →
    (dimmsGood x (s.dev.get F.MEM_CFG_SPEED_MAX) = true → ∃ d, Gives (.trainingComplete x v) s d ∧
      d.get F.MEM_TRAIN_STATE = 3 ∧ d.mem = [] ∧ d.dimms = some x ∧ d.nvme.rdy = s.dev.nvme.enabled ∧
      d.get F.MEM_CFG_CAP_GIB = 16 * x.perChannel.val * x.capacity.toNat) ∧
    (dimmsGood x (s.dev.get F.MEM_CFG_SPEED_MAX) = false → Gives (.trainingComplete x v) s (s.dev.trainFailed 0 1 x)) ∧
    (∀ (ch : Fin 16) (step : Fin 10), step.val ≠ 0 → ∃ d, Gives (.trainingFail ch step x) s d ∧
      d.get F.MEM_TRAIN_STATE = 4 ∧ d.get F.MEM_TRAIN_FAIL_CH = ch.val ∧ d.get F.MEM_TRAIN_FAIL_STEP = step.val ∧
      d.nvme.cfs = true)) ∧
  (∀ (s : State) (n : Fin 16), s.dev.clocked → s.dev.get F.MEM_TRAIN_STATE = 3 →
    (∀ (sub : Fin 2) (trfc : BitVec 16), Gives (.refresh n sub trfc) s ((s.dev.onCh n.val fun (c : MemCh) =>
      { c with openRows := c.openRows.filter fun x => x.1 != sub.val,
               refresh := upsert (fun x => x.1 == sub.val) (sub.val, s.dev.now + trfc.toNat) c.refresh }).count
        .MEM_CH_STALL (trfc.toNat * s.dev.mclk / 1000) n.val)) ∧
    (∀ t : BitVec 8, 85 < t.toNat → t.toNat ≤ 92 →
      let bits := setBits (s.dev.get F.PWR_THERMAL_DIMM_THROTTLE) n.val 1 0
      Gives (.dimmThermalPoll n [t]) s
        (((s.dev.put F.MEM_CH_STATUS_HOT 1 n.val).put F.PWR_THERMAL_DIMM_THROTTLE bits).noteTemp n.val t.toNat)) ∧
    (∀ t : BitVec 8, 95 < t.toNat →
      let d := s.dev.put F.MEM_CH_STATUS_HOT 1 n.val
      Gives (.dimmThermalPoll n [t]) s ((d.put F.PWR_THERMAL_DIMM_THROTTLE
        (setBits (d.get F.PWR_THERMAL_DIMM_THROTTLE) n.val 1 1)).noteTemp n.val t.toNat)) ∧
    ((s.dev.memCh n.val).quiet = false →
      Gives (.zqCalibration n) s (s.dev.onCh n.val fun c => { c with zqDue := true }) ∧
      Gives (.retrainPass n) s (s.dev.onCh n.val fun c => { c with retrainDue := true })) ∧
    ((s.dev.memCh n.val).due = true → Gives (.grantOpportunity n) s (s.dev.opportunity n.val)) ∧
    ((s.dev.memCh n.val).ports.any (s.dev.memCh n.val).eligible = true →
      Gives (.grantOpportunity n) s (s.dev.opportunity n.val)) ∧
    ((s.dev.memCh n.val).due = false → (s.dev.memCh n.val).ports = [] → (s.dev.memCh n.val).rq = [] →
      (s.dev.memCh n.val).wq = [] → s.dev.scrubDue n.val = true → Gives (.grantOpportunity n) s (s.dev.scrubRead n.val))) ∧
  (∀ (s : State) (n : Fin 16), s.dev.clocked →
    let c := s.dev.memCh n.val
    (∀ q, s.dev.nextRead n.val = some q → s.dev.errs.planted = [] → Gives (.readIssue n .good) s
      ((((s.dev.onCh n.val fun c => { c with rq := c.rq.erase q }).rowAccess n.val q).sendReply q).maintIfQuiet n.val)) ∧
    (∀ e, s.dev.draining n.val = true → Gives (.readIssue n e) s s.dev) ∧
    (∀ e rest, c.rq = e :: rest → e.aged = false → Gives (.readAging n) s
      (s.dev.onCh n.val fun c => { c with rq := { e with aged := true } :: rest })) ∧
    (s.dev.get F.MEM_CH_WM_HIGH n.val ≤ c.wq.length → Gives (.writeDrain n) s
      (s.dev.drain n.val fun x => decide (x.2 < c.wq.length - s.dev.get F.MEM_CH_WM_LOW n.val))) ∧
    (c.rq = [] → Gives (.readIdleDrain n) s (s.dev.drain n.val fun _ => true)) ∧
    (c.rq ≠ [] → Gives (.readIdleDrain n) s s.dev) ∧
    (∀ sub bank, Gives (.rowIdleClose n sub bank) s (s.dev.onCh n.val fun c =>
      { c with openRows := c.openRows.filter fun x => !(x.1 == sub.val && x.2.1 == bank.val) })) ∧
    (∀ v : Word, let r : RegRef := ⟨.MEM_CH_SLOT_COMMIT, n.val, 0⟩
      let d := s.dev.unstage r.addr
      let legal := (d.shadow n.val).all slotLegal && (d.shadow n.val).any fun e => e.toNat % 16 == 14
      (v.toNat % 2 = 1 → legal = true → Gives (.slotCommit n ⟨.bar0, .full, v⟩) s (d.put F.MEM_CH_STATUS_COMMIT_PEND 1 n.val)) ∧
      (v.toNat % 2 = 1 → legal = false → Gives (.slotCommit n ⟨.bar0, .full, v⟩) s (d.put F.MEM_CH_STATUS_CFG_REJ 1 n.val))) ∧
    (s.dev.get F.MEM_CH_STATUS_COMMIT_PEND n.val = 1 → c.ptr = 0 →
      let d := s.dev.put F.MEM_CH_STATUS_COMMIT_PEND 0 n.val
      (tableOk (s.dev.shadow n.val) = true → Gives (.slotCommitApply n) s
        (d.onCh n.val fun c => { c with table := s.dev.shadow n.val })) ∧
      (tableOk (s.dev.shadow n.val) = false → Gives (.slotCommitApply n) s (d.put F.MEM_CH_STATUS_CFG_REJ 1 n.val))) ∧
    (∀ v : Word, let r : RegRef := ⟨.MEM_CH_WM, n.val, 0⟩
      let d := s.dev.unstage r.addr
      let new := d.wr r (regAfter r.kind.fields (d.rd r) v.toNat false false)
      let ok := decide (new.get F.MEM_CH_WM_LOW n.val < new.get F.MEM_CH_WM_HIGH n.val ∧ new.get F.MEM_CH_WM_HIGH n.val ≤ 64)
      Gives (.watermarkWrite n ⟨.bar0, .full, v⟩) s (if ok then new else d.put F.MEM_CH_STATUS_CFG_REJ 1 n.val)))

/-! ### The DMA engine and the compression engines -/

/-- The registers of a DMA channel assigned to a pod: enabling makes it IDLE at HEAD 0, unless its ring does not lie
in the pod; disabling ends it, a copy or fill under way or a descriptor not yet taken with ABORTED, while a job
ends by itself; TAIL and RESTART set it going. A channel that may take its descriptor and reads it: an ill-formed
one, or one with an OP above 3, ends with DESC_INVALID, one that leaves the pod with ADDR, a NOP at once; a COPY
without a length word and a FILL begin to move, and a CJOB joins the job queue. A beat moves the chosen channel's
data, or stops it at a fault; after its read-back a descriptor is completed. -/
def Obligations.DmaCommands : Prop :=
  (∀ (s : State) (n : Fin 32) (v : Word), s.dev.clocked → s.dev.get F.DMA_CH_OWNER_ASSIGNED n.val = 1 →
     let r : RegRef := ⟨.DMA_CH_CFG, n.val, 0⟩
     let d := s.dev.unstage r.addr
     let cfg := d.wr r (regAfter r.kind.fields (d.rd r) (setBits v.toNat 0 1 0) false false)
     (d.dmaState n.val = 0 → v.toNat % 2 = 1 →
       (cfg.get F.DMA_CH_CFG_RING_HOST n.val = 1 ∨ cfg.dmaRingOk n.val = true → ∃ e,
         Gives (.dmaEnable n ⟨.bar0, .full, v⟩) s e ∧ e.get F.DMA_CH_CFG_EN n.val = 1 ∧ e.dmaState n.val = 1 ∧
         e.dmaHead n.val = 0 ∧ e.dmaTail n.val = 0 ∧ e.get F.DMA_CH_HEAD_PHASE n.val = 1 ∧
         e.mem = s.dev.mem ∧ e.dmas = s.dev.dmas) ∧
       (cfg.get F.DMA_CH_CFG_RING_HOST n.val = 0 → cfg.dmaRingOk n.val = false →
         Gives (.dmaEnable n ⟨.bar0, .full, v⟩) s (cfg.violation (cfg.dmaPod n.val) 0))) ∧
     (d.dmaState n.val ≠ 0 → v.toNat % 2 = 0 →
       let off := d.put F.DMA_CH_CFG_EN 0 n.val
       (d.dmaState n.val = 1 ∨ d.dmaState n.val = 3 →
         Gives (.dmaDisable n ⟨.bar0, .full, v⟩) s (off.setDmaState n.val 0)) ∧
       (d.dmaState n.val = 2 → d.dmaCur n.val = none →
         let c := DmaCur.fresh n.val (off.ringLoad (off.dmaHost n.val) (off.dmaPasid n.val) (off.dmaAddr n.val) 64)
         Gives (.dmaDisable n ⟨.bar0, .full, v⟩) s ((off.setCur { c with status := 6, st := .readback }).setDmaState n.val 4)) ∧
       (∀ c, d.dmaState n.val = 2 → d.dmaCur n.val = some c →
         (c.op = 3 → Gives (.dmaDisable n ⟨.bar0, .full, v⟩) s (off.setDmaState n.val 4)) ∧
         (c.op ≠ 3 → c.st = .moving →
           Gives (.dmaDisable n ⟨.bar0, .full, v⟩) s ((off.readBack { c with status := 6 }).setDmaState n.val 4)))) ∧
     (let r : RegRef := ⟨.DMA_CH_TAIL, n.val, 0⟩
      let d := (s.dev.unstage r.addr).leaveP1
      Gives (.dmaTail n ⟨.bar0, .full, v⟩) s
        ((d.wr r (regAfter r.kind.fields (d.rd r) (v.toNat % d.dmaSize n.val) false false)).settleDma n.val)) ∧
     (let d := s.dev.unstage (RegRef.addr ⟨.DMA_CH_CTRL, n.val, 0⟩)
      (s.dev.dmaState n.val = 3 → fieldIn F.DMA_CH_CTRL_RESTART v.toNat = 1 →
        Gives (.dmaRestart n ⟨.bar0, .full, v⟩) s ((d.setDmaState n.val 1).settleDma n.val)) ∧
      (s.dev.dmaState n.val ≠ 3 → Gives (.dmaRestart n ⟨.bar0, .full, v⟩) s d))) ∧
  ((∀ (s : State) (n : Fin 32) (e : Dev) (desc : List Byte), s.dev.clocked → s.dev.dmaMayTake n.val = true →
     s.dev.dmaRead n.val = .ok e desc →
     let c := DmaCur.fresh n.val desc
     (3 < c.op → Gives (.dmaNop n) s (e.dmaFinish c 4)) ∧
     (e.dmaValid c = false →
       (c.op = 0 → Gives (.dmaNop n) s (e.dmaFinish c 4)) ∧ (c.op = 1 → Gives (.dmaCopy n) s (e.dmaFinish c 4)) ∧
       (c.op = 2 → Gives (.dmaFill n) s (e.dmaFinish c 4)) ∧ (c.op = 3 → Gives (.dmaCjob n) s (e.dmaFinish c 4))) ∧
     (e.dmaValid c = true → e.dmaInPod c = false →
       (c.op = 1 → Gives (.dmaCopy n) s (e.dmaFinish c 2)) ∧ (c.op = 2 → Gives (.dmaFill n) s (e.dmaFinish c 2)) ∧
       (c.op = 3 → Gives (.dmaCjob n) s (e.dmaFinish c 2))) ∧
     (e.dmaValid c = true → e.dmaInPod c = true →
       (c.op = 0 → Gives (.dmaNop n) s (e.dmaFinish c 0)) ∧
       (c.op = 1 → c.flag 2 = false → Gives (.dmaCopy n) s (e.setCur c)) ∧
       (c.op = 2 → Gives (.dmaFill n) s (e.setCur c)) ∧
       (c.op = 3 →
         let d := e.setCur { c with st := .job }
         Gives (.dmaCjob n) s { d with dmaJobs := e.dmaJobs ++
           [⟨false, 0, 0, 0, 0, n.val, e.dmaLevel n.val, e.dmaPod n.val, c.src, 0, 0, [], 0⟩] }))) ∧
   (∀ (s : State) (l : Nat) (c : DmaCur), s.dev.clocked → s.dev.dmaAsk.dmaPick = some (l, c) →
     let d := { s.dev.dmaAsk with dmaRr := s.dev.dmaAsk.dmaRr.set l ((c.chan + 1) % 32) }
     let runs := c.hostRuns c.beat
     Gives (.dmaBeat true) s (d.dmaFault c) ∧
     (d.xlateRuns (d.dmaPasid c.chan) runs = .ok → Gives (.dmaBeat false) s (d.dmaMove c)) ∧
     (d.xlateRuns (d.dmaPasid c.chan) runs = .fault →
       Gives (.dmaBeat false) s ((d.forgetRuns (d.dmaPasid c.chan) runs).dmaCut c 2))) ∧
   (∀ (s : State) (n : Fin 32), s.dev.clocked → s.dev.dmaCur n.val = none → Gives (.dmaReadbackDone n) s s.dev) ∧
   (∀ (s : State) (n : Fin 32) (c : DmaCur), s.dev.clocked → s.dev.dmaCur n.val = some c → c.st = .readback →
     Gives (.dmaReadbackDone n) s (s.dev.dmaComplete c)) ∧
   (∀ (d : Dev) (c : DmaCur) (k : Nat), d.poison = [] → c.op = 2 → c.flag 1 = false → 1 ≤ k → fieldAt c.desc 2 1 = 0 →
     c.dstAt c.done % 64 + k ≤ 64 →
     (d.beatWrite c k).mem = memWrite d.mem (d.localForm (c.dstAt c.done))
       ((List.range k).map fun j => BitVec.ofNat 8 (c.src >>> (8 * ((c.done + j) % 8))))))

/-- Byte i of a transfer at an address with WRAP w lies in the circular buffer of 2^w bytes that starts at the address
rounded down, at that start plus (start + i) mod 2^w; different bytes of a buffer's length lie at different
addresses. -/
def Obligations.CircularTransferAddresses : Prop :=
  ∀ (start : Word) (w : Nat), 1 ≤ w → w ≤ 63 →
    let base := (start &&& ~~~(BitVec.ofNat 64 (2 ^ w - 1))).toNat
    base % 2 ^ w = 0 ∧ base ≤ start.toNat ∧ start.toNat < base + 2 ^ w ∧
    (∀ i, wrapAddr start.toNat w i = base + (start.toNat + i) % 2 ^ w ∧ wrapAddr start.toNat w i < base + 2 ^ w) ∧
    (∀ i j, i < 2 ^ w → j < 2 ^ w → wrapAddr start.toNat w i = wrapAddr start.toNat w j → i = j) ∧
    (∀ (c : DmaCur) (i : Nat), c.src = start.toNat → c.srcWrap = w → c.srcAt i = base + (start.toNat + i) % 2 ^ w) ∧
    (∀ (c : DmaCur) (i : Nat), c.dst = start.toNat → c.dstWrap = w → c.dstAt i = base + (start.toNat + i) % 2 ^ w)

/-- An idle engine takes a stage's job before a DMA job, whose number is limited; it works the job of its operation,
stopping with 0x0B and fenced at an internal fault, with 9 at a descriptor that is not legal, with 8 at addresses
outside the pod and with 0x0A at a context that fails its checks; a finished job leaves the engine, which counts
it. -/
def Obligations.CompressionCommands : Prop :=
  (∀ (s : State) (e : Fin 8) (j : Job), s.dev.clocked → s.dev.engJob e.val = none → s.dev.engineOn e.val = true →
    (s.dev.stageJobs.find? s.dev.jobRuns = some j → Gives (.engineTakeJob e) s
      (({ s.dev with stageJobs := s.dev.stageJobs.erase j } : Dev).startJob e.val j)) ∧
    (s.dev.stageJobs.find? s.dev.jobRuns = none → s.dev.dmaEngines < s.dev.get F.CMP_CTRL_DMA_MAX →
      s.dev.nextDmaJob = some j → Gives (.engineTakeJob e) s
        (({ s.dev with dmaJobs := s.dev.dmaJobs.erase j } : Dev).startJob e.val j)) ∧
    (s.dev.stageJobs.find? s.dev.jobRuns = none → s.dev.get F.CMP_CTRL_DMA_MAX ≤ s.dev.dmaEngines →
      Gives (.engineTakeJob e) s s.dev)) ∧
  (∀ (s : State) (e : Fin 8) (x : EngJob), s.dev.clocked → s.dev.engJob e.val = some x → x.finished = false →
    s.dev.armed 9 e.val = false →
    let a := s.dev.localForm x.job.addr
    (s.dev.engOp x = 0 → Gives (.decompress e true) s (s.dev.engineFault x false)) ∧
    (s.dev.engOp x = 1 → Gives (.compress e true) s (s.dev.engineFault x false)) ∧
    (s.dev.engOp x = 0 → x.job.stageJob = true →
      let u := unpack x.job.fmt x.job.src false
      (u.out.length ≤ x.job.limit → x.job.op = 0 → Gives (.decompress e false) s (s.dev.setEng { x with
        finished := true, status := u.status, consumed := u.consumed, output := u.out })) ∧
      (x.job.limit < u.out.length → x.job.op = 0 → Gives (.decompress e false) s (s.dev.setEng { x with
        finished := true, status := 4, consumed := u.consumed, output := u.out.take x.job.limit }))) ∧
    (s.dev.engOp x = 1 → x.job.stageJob = true → Gives (.compress e false) s (s.dev.jobWorked x
      (compressed x.job.fmt x.job.level false false .first x.job.src x.job.src.length x.job.limit))) ∧
    (x.job.stageJob = false →
      let seen := s.dev.ioRead a 64
      let b := seen.ld a 64
      let both := fun (d : Dev) =>
        (s.dev.engOp x = 0 → Gives (.decompress e false) s d) ∧ (s.dev.engOp x = 1 → Gives (.compress e false) s d)
      (seen.jobValid b = false → both (seen.jobWorked x (nothing 9))) ∧
      (seen.jobValid b = true → seen.jobCtxInPod x.job.pod b = false → both (seen.jobWorked x (nothing 8))) ∧
      (seen.jobValid b = true → seen.jobCtxInPod x.job.pod b = true → seen.partOf x.job.pod b = none →
        both (seen.jobWorked x (nothing 0x0A))) ∧
      (∀ t, seen.jobValid b = true → seen.jobCtxInPod x.job.pod b = true → seen.partOf x.job.pod b = some t →
        (seen.jobInPod x.job.pod b = false → both (seen.jobWorked x (nothing 8))) ∧
        (seen.jobInPod x.job.pod b = true → jobFlag b 3 = false → both (seen.runJob x b t (jobSrcLen b)))))) ∧
  (∀ (s : State) (e : Fin 8) (x : EngJob), s.dev.clocked → s.dev.engJob e.val = some x →
    (x.finished = false → Gives (.jobStop e) s s.dev) ∧
    (x.finished = true → x.job.stageJob = false → Gives (.jobStop e) s ((s.dev.freeEngine x).stopDmaJob x)) ∧
    (x.finished = true → x.job.stageJob = true → x.job.tile < 64 → Gives (.jobStop e) s
      (let d := s.dev.freeEngine x
       { d with jobResults := s.dev.jobResults ++
         [⟨x.job.tile, x.job.slot, x.job.stage, x.job.col, x.job.addr, x.status, x.output⟩] })))

/-! ### Work rings, placement and the governor -/

/-- Work rings: enabling an assigned ring makes it IDLE and empty; a doorbell moves TAIL, and is ignored by a stopped
ring; a push that finds the ring full stops it with cause 5; a poisoned fetch stops it with cause 2. -/
def Obligations.RingCommands : Prop :=
  (∀ (s : State) (n : Fin 1024) (v : Word), s.dev.clocked →
    (let r : RegRef := ⟨.RNG_CFG, n.val, 0⟩
     let d := s.dev.unstage r.addr
     let cfg := d.wr r (regAfter r.kind.fields (d.rd r) (setBits v.toNat 0 1 0) false false)
     (d.ringState n.val ≠ 0 → Gives (.ringEnable n ⟨.bar0, .full, v⟩) s d) ∧
     (d.ringState n.val = 0 → fieldIn F.RNG_CFG_EN v.toNat = 1 → cfg.get F.RNG_OWNER_ASSIGNED n.val = 1 →
       (cfg.ringHost n.val = true ∨ cfg.ringInPod n.val = true → ∃ e, Gives (.ringEnable n ⟨.bar0, .full, v⟩) s e ∧
         e.get F.RNG_CFG_EN n.val = 1 ∧ e.ringState n.val = 1 ∧ e.ringTail n.val = 0 ∧ e.ringFetch n.val = 0 ∧
         e.ringDone n.val = 0 ∧ e.get F.RNG_STATUS_CAUSE n.val = 0 ∧ e.mem = s.dev.mem ∧ e.runs = s.dev.runs) ∧
       (cfg.ringHost n.val = false → cfg.ringInPod n.val = false →
         Gives (.ringEnable n ⟨.bar0, .full, v⟩) s (cfg.violation (cfg.ringPod n.val) 0)))) ∧
    (let d := (s.dev.unstage (RegRef.addr ⟨.RNG_DB, n.val, 0⟩)).leaveP1
     let t := fieldIn F.RNG_DB_TAIL v.toNat % d.ringSize n.val
     (d.ringState n.val = 0 → Gives (.ringDoorbell n ⟨.bar0, .full, v⟩) s (d.put F.RNG_DB_TAIL t n.val)) ∧
     (d.ringState n.val = 1 ∨ d.ringState n.val = 2 → Gives (.ringDoorbell n ⟨.bar0, .full, v⟩) s (d.moveTail n.val t)) ∧
     (3 ≤ d.ringState n.val → Gives (.ringDoorbell n ⟨.bar0, .full, v⟩) s d))) ∧
  (∀ (s : State) (n : Fin 1024) (e : List Byte), s.dev.clocked → e.length = 64 →
    let d := s.dev.leaveP1
    let size := d.ringSize n.val
    let t := d.ringTail n.val
    (d.ringState n.val = 1 ∨ d.ringState n.val = 2 →
      ((t + size - d.ringDone n.val) % size + 1 = size →
        Gives (.ringPush n .bar0 e) s ((d.recordStop n.val t).stopRing n.val 5 t)) ∧
      ((t + size - d.ringDone n.val) % size + 1 ≠ size →
        let held := d.pushed.filter fun x => !(x.1 == n.val && x.2.1 == t)
        Gives (.ringPush n .bar0 e) s
          (({ d with pushed := held ++ [(n.val, t, e)] } : Dev).moveTail n.val ((t + 1) % size)))) ∧
    (3 ≤ d.ringState n.val → Gives (.ringPush n .bar0 e) s d)) ∧
  (∀ (s : State) (n : Fin 1024), s.dev.clocked → s.dev.mayFetch n.val = true →
    let pushed := s.dev.pushed.find? fun x => x.1 == n.val && x.2.1 == s.dev.ringFetch n.val
    (∀ x b, pushed = some x → Gives (.entryFetch n b) s (s.dev.takeEntry n.val x.2.2)) ∧
    (pushed = none → s.dev.ringHost n.val = false →
      let a := s.dev.localForm (s.dev.ringAddr n.val (s.dev.ringFetch n.val))
      let seen := s.dev.ioRead a 64
      let stopped := (seen.recordStop n.val (seen.ringFetch n.val)).stopRing n.val 2 (seen.ringFetch n.val)
      Gives (.entryFetch n true) s stopped ∧
      (seen.poisonAt (seen.localForm (s.dev.ringAddr n.val (s.dev.ringFetch n.val))) ≠ .clean →
        Gives (.entryFetch n false) s stopped) ∧
      (seen.poisonAt (seen.localForm (s.dev.ringAddr n.val (s.dev.ringFetch n.val))) = .clean →
        seen.ringHost n.val = false → Gives (.entryFetch n false) s (seen.takeEntry n.val
          (seen.ld (seen.localForm (s.dev.ringAddr n.val (s.dev.ringFetch n.val))) 64))))) ∧
  (∀ (s : State) (n : Fin 1024) (h : Nat × Bool × Nat), s.dev.clocked →
    (s.dev.host.holdoff.find? fun h => h.1 == n.val) = some h →
    let d := { s.dev with host := { s.dev.host with holdoff := s.dev.host.holdoff.filter fun x => x.1 != n.val } }
    (h.2.1 = false → Gives (.holdoffExpiry n) s d) ∧
    (h.2.1 = true → Gives (.holdoffExpiry n) s (d.ringVec n.val
      (s.dev.get F.POD_SHARES_VEC_BASE (s.dev.ringPod n.val) + s.dev.get F.RNG_CFG_VEC n.val)
      (s.dev.get F.RNG_CFG_HOLDOFF_US n.val))))

/-- Entries in a ring: a NOP ends once every earlier entry has, a RUN and a CONVERT are taken up in order while their
pod is ACTIVE, a RUN of a pod with a tile fenced or of an unknown program ends with its status, a time limit fails
its run, and an ended entry's completion is written in index order. -/
def Obligations.EntryCommands : Prop :=
  ∀ (s : State) (q : RunRef) (r : Run), s.dev.clocked → s.dev.findRun q.ring.val q.index.toNat = some r →
    (r.st = .fetched → r.kind = 0 → r.index = s.dev.ringDone r.ring →
      Gives (.nop q) s (s.dev.onRun r.ring r.index fun r => { r with st := .ended })) ∧
    (r.st = .fetched → r.kind = 0 → r.index ≠ s.dev.ringDone r.ring → Gives (.nop q) s s.dev) ∧
    (r.st = .fetched → r.kind = 1 → s.dev.nextToStart r = true → s.dev.podState r.pod = 2 →
      (s.dev.podFenced r.pod = true →
        Gives (.run q) s (s.dev.takeFree.2.failEntry r ⟨0xF2, s.dev.takeFree.1.toNat % 256⟩)) ∧
      (s.dev.podFenced r.pod = false →
        (∀ m, s.dev.program r.pod r.handle = .ok m → Gives (.run q) s (s.dev.submit r m (s.dev.resident r.pod r.handle).isSome)) ∧
        (∀ f, s.dev.program r.pod r.handle = .error f → f.status = 0x10 → Gives (.run q) s (s.dev.failEntry r f)) ∧
        (∀ f, s.dev.program r.pod r.handle = .error f → f.status ≠ 0x10 →
          Gives (.run q) s ((s.dev.countInvalid r.pod).failEntry r f)))) ∧
    (r.st = .fetched → r.kind = 2 → s.dev.nextToStart r = true → s.dev.podState r.pod = 2 →
      s.dev.engineHalted r.pod = false → r.flag 2 = false →
      (s.dev.inPod r.pod r.paramAddr 64 = false → Gives (.convert q) s (s.dev.failEntry r addrFault)) ∧
      (s.dev.inPod r.pod r.paramAddr 64 = true →
        let a := s.dev.localForm r.paramAddr
        let one := s.dev.ioRead a 64
        (one.poisonIn a 64 ≠ .clean → one.localForm r.paramAddr = a →
          Gives (.convert q) s (one.failEntry r (poisonFail (one.poisonIn a 64)))) ∧
        (∀ two h fs len e b, s.dev.convertRead r 64 = .ok one h →
          one.convertRead r (roundUp (32 + 32 * min (fieldAt h 4 2) 8) 64) = .ok two b →
          (batchHeader b = none → Gives (.convert q) s (two.failEntry r ⟨0x81, 0xFF⟩)) ∧
          (∀ bs, batchHeader b = some (fs, len) → two.convertRead r len = .ok e bs →
            Gives (.convert q) s (e.convertBatch r fs bs))))) ∧
    (fieldAt r.entry 0x1C 4 ≠ 0 → r.failure = none → r.st ≠ .ended → s.dev.podState r.pod = 2 →
      (r.placed = false → Gives (.runTimeout q) s (s.dev.failEntry r ⟨0x03, 0⟩)) ∧
      (r.placed = true → s.dev.runSettled r.ring r.index = false →
        Gives (.runTimeout q) s (s.dev.failRun r.ring r.index ⟨0x03, 0⟩ {}))) ∧
    (fieldAt r.entry 0x1C 4 = 0 → Gives (.runTimeout q) s s.dev) ∧
    (r.index = s.dev.ringDone r.ring → s.dev.runEnded r = true → r.unwritten = false →
      r.kind ≠ 1 → s.dev.ringHost r.ring = false → Gives (.completionWrite q) s
        ((s.dev.ioStore (s.dev.localForm (s.dev.ringAddr r.ring r.index)) (s.dev.completionBytes r)).completed r)) ∧
    (r.index ≠ s.dev.ringDone r.ring → Gives (.completionWrite q) s s.dev)

/-- Waiting runs are tried in arrival order, and a pipeline starts once placed, allowed and free of what it depends
on. The governor's advance ends, LSTEP_N is deasserted after the last release, and a tick admits the starts, adds
SLEW to the account and releases the heads it covers. -/
def Obligations.PlacementAndGovernor : Prop :=
  (∀ s : State, s.dev.clocked →
    ((∀ r ∈ s.dev.runs, r.st ≠ .waiting) → Gives .placementRetry s s.dev) ∧
    (∀ r, (s.dev.runs.filter fun r => r.st == .waiting) = [r] → s.dev.findRun r.ring r.index = some r →
      Gives .placementRetry s (s.dev.tryPlace r)) ∧
    (s.dev.pw.advancing = true → Gives .lstepAdvanceEnd s { s.dev with pw := { s.dev.pw with
      advancing := false, announced := true, acct := 0 } }) ∧
    (s.dev.pw.advancing = false → Gives .lstepAdvanceEnd s s.dev) ∧
    (s.dev.pw.queue = [] ∨ s.dev.pw.announced = false → s.dev.pw.advancing = false →
      Gives .lstepDeassert s { s.dev with pw := { s.dev.pw with lstep := false } }) ∧
    ((s.dev.pw.queue ≠ [] ∧ s.dev.pw.announced = true) ∨ s.dev.pw.advancing = true → Gives .lstepDeassert s s.dev) ∧
    (s.dev.admitStarts.pw.queue = [] ∨ s.dev.admitStarts.pw.advancing = true → Gives .governorTick s s.dev.admitStarts) ∧
    (∀ q rest, s.dev.admitStarts.pw.queue = q :: rest → s.dev.admitStarts.pw.advancing = false →
      let d := s.dev.admitStarts
      let acct := d.pw.acct + 32 * d.get F.PWR_GOV_CFG_SLEW
      (acct < q.x → Gives .governorTick s { d with pw := { d.pw with acct := acct } }) ∧
      (q.x ≤ acct → Gives .governorTick s (({ d with pw := { d.pw with acct := acct } } : Dev).releaseHeads
        (rest.length + 2))))) ∧
  (∀ (s : State) (q : RunRef) (n : Fin 8) (r : Run) (m : Image) (p : Pipe) (i : Inst) (rest : List Inst), s.dev.clocked →
    s.dev.findRun q.ring.val q.index.toNat = some r → r.image = some m → m.pipes[n.val]? = some p →
    s.dev.pipeInsts r.ring r.index n.val = i :: rest →
    (s.dev.mayStart r = true → i.life = .placed → s.dev.dependsDone r p = true → s.dev.regionsLocked r m = false →
      Gives (.pipelineStart q n) s (((i :: rest).foldl (fun (d : Dev) i => d.startInst r p i)
        ((s.dev.lockRanges r m).beginBuilds r p i)).admitStarts)) ∧
    (i.life ≠ .placed → Gives (.pipelineStart q n) s s.dev))

/-! ### Pipelines: stages, lifecycle, directories, exchanges -/

/-- The stage commands: each works one turn of its stage. -/
def Obligations.StageCommands : Prop :=
  let any := fun (_ : Nat) => true
  StageTurns .scan 0x01 any scanTurn ∧
  StageTurns .skip 0x02 any (fun a => a.streamTurn true skipBody endStage) ∧
  StageTurns .decode 0x03 any (fun a => a.streamTurn true decodeBody endStage) ∧
  StageTurns .filter 0x04 any (fun a => a.streamTurn false filterBody endStage) ∧
  StageTurns .compute 0x05 any (fun a => a.streamTurn true computeBody endStage) ∧
  StageTurns .compact 0x06 any (fun a => a.streamTurn true compactBody endStage) ∧
  StageTurns .hash 0x08 any (fun a => a.streamTurn true hashBody endStage) ∧
  StageTurns .build 0x09 any (fun a => a.streamTurn false (annotated buildBody) endStage) ∧
  StageTurns .probe 0x0A any (fun a =>
    if a.st.liveDone then ([], a.replayTurn) else a.streamTurn true (annotated probeBody) probeFinal) ∧
  StageTurns .agg 0x0B any (fun a => a.streamTurn false (if swMode a.w 0 then annotated aggBody else aggBody) endStage) ∧
  StageTurns .part 0x0C any (fun a => a.streamTurn false (annotated partBody) partFinal) ∧
  StageTurns .spill 0x0D any (fun a => a.streamTurn false spillBody spillFinal) ∧
  StageTurns .sortrun 0x10 any (fun a => a.streamTurn false sortrunBody sortrunFinal) ∧
  StageTurns .mergeRuns 0x11 (fun w => mergeSource w == 0) (fun a => ([], a.rowSource Act.runRows)) ∧
  StageTurns .mergeRegions 0x11 (fun w => mergeSource w == 1) (fun a => ([], a.rowSource Act.regionRows)) ∧
  StageTurns .topk 0x12 any (fun a => a.streamTurn false topkBody topkFinal) ∧
  StageTurns .lookup 0x14 any (fun a => ([], lookupTurn a)) ∧
  StageTurns .emit 0x18 any (fun a => a.streamTurn false emitBody emitFinal) ∧
  StageTurns .limit 0x19 any limitTurn ∧
  StageTurns .yieldStage 0x1A any (fun a => a.streamTurn true yieldBody endStage) ∧
  StageTurns .exchange 0x20 any (fun a => a.streamTurn false exchangeBody exchangeFinal) ∧
  StageTurns .rangeFloor 0x21 (fun w => rangeOp w == 0) (fun a => a.streamTurn true (searchBody 0) endStage) ∧
  StageTurns .rangeExact 0x21 (fun w => rangeOp w == 1) (fun a => a.streamTurn true (searchBody 1) endStage) ∧
  StageTurns .rangeCover 0x21 (fun w => rangeOp w == 2) (fun a => a.streamTurn true (searchBody 2) endStage) ∧
  StageTurns .rangeInsert 0x21 (fun w => rangeOp w == 3) (fun a => a.streamTurn false insertBody endStage) ∧
  StageTurns .rangeDelete 0x21 (fun w => rangeOp w == 4) (fun a => a.streamTurn false deleteBody endStage) ∧
  StageTurns .bloomset 0x22 any (fun a => a.streamTurn false (annotated bloomsetBody) endStage) ∧
  StageTurns .bloomtest 0x23 any (fun a => a.streamTurn false (annotated bloomtestBody) endStage)

/-- A turn of a stage that reads streams: it fails when its inputs disagree in sequence number or row count or when
some have ended and some not, it waits while a block is missing, stalls while an output has no buffer, and
otherwise works the blocks; at the end of every input it ends. At the end of the inputs of a stage with nothing
more to write, its outputs end and the stage ends with them. -/
def Obligations.StreamTurns : Prop :=
  (∀ (a : Act) (whole : Bool) (body : Act → List (Nat × Block) → Turn) (final : Act → Turn) (bs : List (Nat × Block)),
     let turn := a.streamTurn whole body final
     ((a.ins.map fun v => (a.inBlock v).map fun b => (v, b)) = bs.map some →
       (a.accept bs = none → turn = (bs, .fail a ⟨0x25, 0⟩ ((bs.head?.map fun x => x.2.seq).getD 0) 0)) ∧
       (∀ b, a.accept bs = some b →
         (aligned bs = false → turn = (bs, .fail b ⟨0x23, 0⟩ ((bs.head?.map fun x => x.2.seq).getD 0) 0)) ∧
         (aligned bs = true → a.writersDone = false → turn = (bs, .hold)) ∧
         (aligned bs = true → a.writersDone = true → whole = true → a.outRoom = false → turn = (bs, .stall)) ∧
         (aligned bs = true → a.writersDone = true → (whole = true → a.outRoom = true) → turn = (bs, body (b.lookDicts bs) bs)))) ∧
     ((∃ v ∈ a.ins, a.inBlock v = none) → (∀ v ∈ a.ins, a.inEnded v = true) → turn = ([], final a)) ∧
     ((∃ v ∈ a.ins, a.inBlock v = none ∧ a.inEnded v = true) → (∃ v ∈ a.ins, a.inEnded v = false) →
       (∃ v ∈ a.ins, (a.inBlock v).isSome = true) → turn = ([], .fail a ⟨0x23, 0⟩ 0 0)) ∧
     ((∃ v ∈ a.ins, a.inBlock v = none) → (∀ v ∈ a.ins, a.inEnded v = false) → turn = ([], .hold))) ∧
  (∀ (s : State) (w : StageRef) (a : Act), s.dev.clocked →
     let ends := fun (opc : Nat) (c : StageRef → Instr) => s.dev.endAt w opc = some a → Gives (c w) s a.finish.commit
     ends 0x02 .skip ∧ ends 0x03 .decode ∧ ends 0x04 .filter ∧ ends 0x05 .compute ∧ ends 0x06 .compact ∧ ends 0x08 .hash ∧
     ends 0x09 .build ∧ ends 0x0B .agg ∧ ends 0x1A .yieldStage ∧ ends 0x22 .bloomset ∧ ends 0x23 .bloomtest ∧
     (limitCount a.w ≠ 0 → ends 0x19 .limit) ∧
     (rangeOp a.w = 0 → ends 0x21 .rangeFloor) ∧ (rangeOp a.w = 1 → ends 0x21 .rangeExact) ∧
     (rangeOp a.w = 2 → ends 0x21 .rangeCover) ∧ (rangeOp a.w = 3 → ends 0x21 .rangeInsert) ∧
     (rangeOp a.w = 4 → ends 0x21 .rangeDelete) ∧
     (a.st.liveDone = false → a.jst ≠ 5 → a.jst ≠ 6 → ends 0x0A .probe) ∧
     (a.st.liveDone = false → (a.jst = 5 ∨ a.jst = 6) → s.dev.endAt w 0x0A = some a →
       Gives (.probe w) s (a.onSt fun st => { st with liveDone := true }).commit))

/-- SCAN, LOOKUP and MERGE complete. A SCAN puts the blocks of its next group on its outputs, or zero-row blocks where
its zone test excludes the group, and ends after its last group. A LOOKUP puts one block of found values and keys,
and ends. A MERGE forms its rows once and puts them block by block, and ends when none is left. The stages that
work rows complete. SKIP passes its blocks, or zero-row blocks where its test excludes them; DECODE writes the
decoded block; FILTER the selection of the rows whose M0 is true; COMPUTE V8 and V9; COMPACT the selected rows;
HASH the hashes, on OUT0 or as the annotation of IN0; LIMIT the rows that its count leaves, and then ends; YIELD
its blocks, and posts an event every EVERY blocks. -/
def Obligations.SourceAndRowStagesComplete : Prop :=
  ((∀ (s : State) (w : StageRef) (a : Act), s.dev.clocked → s.dev.sourceAt w 0x01 = some a →
     let b := a.lookSource
     (b.st.opened = true → b.st.groups = [] → Gives (.scan w) s b.finish.commit) ∧
     (∀ set g gs, b.scanOpen = .ok set → (b.st.opened = false ∨ b.st.groups ≠ []) → (b.claim set).st.groups = g :: gs →
       let c := b.claim set
       (swField c.w 72 = 0xFF → ∀ e blocks, c.fetchCols set g c.outs 0 = (e, .ok blocks) →
         Gives (.scan w) s ((e.putGroup g c.outs blocks).nextGroup.worked w)) ∧
       (swField c.w 72 ≠ 0xFF → let z := c.look (c.setAddr set g (swField c.w 72)) 64
         z.scanSkips set g = .ok true →
         Gives (.scan w) s ((z.outs.foldl (fun x v => x.putEmpty v g) z).nextGroup.worked w)))) ∧
   (∀ (s : State) (w : StageRef) (a : Act), s.dev.clocked → s.dev.sourceAt w 0x14 = some a →
     let ends := fun (b : Act) (found : Col) (keys : List Val) =>
       ((b.outs.zipIdx).foldl (fun e x => e.put x.1 0 ([found, keys.map some].getD x.2 [])) b).finish.worked w
     (swMode a.w 0 = false → let t := (a.d.region a.i.pod a.rrgn).keyType
       ∀ b c, a.joinLookups t (a.lookupKeys t) = .ok (b, c) → Gives (.lookup w) s (ends b c (a.lookupKeys t))) ∧
     (swMode a.w 0 = true → let t := a.d.get F.RDR_POD_RGN_STATE_KEYTYPE a.i.pod a.rrgn
       ∀ d, a.d.rcheck (a.i.tile / 8) a.i.pod a.rrgn = .ok d →
         let x := (d.useRegion a.i.pod a.rrgn t).rsearches (a.i.tile / 8) a.i.pod a.rrgn 1
           ((a.lookupKeys t).map fun v => some (orderedBytes t false v))
         Gives (.lookup w) s (ends { a with d := x.1 } (x.2.map fun n => n.map fun m => Val.int (m : Nat))
           (a.lookupKeys t)))) ∧
   (∀ (s : State) (w : StageRef) (a b : Act) (rows : List Row), s.dev.clocked → s.dev.sourceAt w 0x11 = some a →
     let gives := fun (c : StageRef → Instr) =>
       (rows = [] → Gives (c w) s b.finish.commit) ∧
       (rows ≠ [] →
         let e := (b.outs.zipIdx).foldl (fun (e : Act) x => e.put x.1 b.st.seqOut (colOfRows (rows.take b.maxRows) x.2)) b
         Gives (c w) s ((e.onSt fun st => { st with
           seqOut := st.seqOut + 1, finished := st.finished + 1, outRows := some (rows.drop b.maxRows) }).worked w))
     (mergeSource a.w = 0 → ((a.st.outRows = some rows ∧ b = a) ∨ (a.st.outRows = none ∧ a.runRows = .ok (b, rows))) →
       gives .mergeRuns) ∧
     (mergeSource a.w = 1 → ((a.st.outRows = some rows ∧ b = a) ∨ (a.st.outRows = none ∧ a.regionRows = .ok (b, rows))) →
       gives .mergeRegions))) ∧
  ((∀ (s : State) (w : StageRef) (a : Act) (v : Nat) (b : Block) (rest : List (Nat × Block)), s.dev.clocked →
     let bs := (v, b) :: rest
     (s.dev.offerAt w 0x02 = some (a, bs) →
       let holds := fun (h : List Byte) =>
         a.mayHold (a.p.typeOf (streamNo v)) (swField a.w 48) (swField a.w 56) (Husk.ofBytes h)
       (∀ h raw, b.body = .encoded h raw → holds h = false → Gives (.skip w) s ((a.skipPut false a.outs bs).finished w bs)) ∧
       (∀ h raw, b.body = .encoded h raw → holds h = true → a.skipChecks bs = none →
         Gives (.skip w) s ((a.skipPut true a.outs bs).finished w bs)) ∧
       (∀ rows, b.body = .decoded rows → a.skipChecks bs = none →
         Gives (.skip w) s ((a.skipPut true a.outs bs).finished w bs))) ∧
     (s.dev.offerAt w 0x03 = some (a, bs) → ∀ h raw e c, b.body = .encoded h raw →
       let out := a.outs.headD 0
       (Husk.ofBytes h).typ = a.p.typeOf (streamNo out) →
       a.decodeBlock (zoneType (a.p.typeOf (streamNo v))) h raw a.dictK = .ok (e, c) →
       decodedSize (a.p.typeOf (streamNo out)) c ≤ blockLimit →
       Gives (.decode w) s ((e.putBody out b.seq (.decoded c) none).finished w bs)) ∧
     (s.dev.offerAt w 0x08 = some (a, bs) → ∀ e cols, a.readAll bs = .ok (e, cols) →
       let hs := e.hashes b.body.rowCount (bs.map fun x => x.1) cols
       (∀ o os, e.outs = o :: os →
         Gives (.hash w) s ((e.put o b.seq (hs.map fun h => some (.int (h : Nat)))).finished w bs)) ∧
       (e.outs = [] → Gives (.hash w) s ((e.annotate v b (hs.map (BitVec.ofNat 64))).finished w bs)))) ∧
   (∀ (s : State) (w : StageRef) (a e : Act) (bs : List (Nat × Block)) (rows : List URow), s.dev.clocked →
     let seq := setSeq bs
     (s.dev.offerAt w 0x04 = some (a, bs) → let g := a.p.groupOfStage a.n
       a.selRoom g seq = true → a.runCode 0 bs (List.replicate (setRows bs) true) = .ok (e, rows) → firstFault rows 0 = none →
       Gives (.filter w) s ((e.writeSel g seq (rows.map fun r => r.m.getD 0 none == some true)).finished w bs)) ∧
     (s.dev.offerAt w 0x05 = some (a, bs) →
       a.runCode (bitsOf a.w 40 2) bs (a.selected seq (setRows bs)) = .ok (e, rows) → firstFault (e.chargeOuts rows) 0 = none →
       Gives (.compute w) s (((e.outs.zipIdx).foldl (fun f x => f.putCol x.1 seq (oneDict (e.dictsOf bs))
         ((e.chargeOuts rows).map fun r => if r.live then r.v.getD (8 + x.2) none else none)) e).finished w bs))) ∧
   (∀ (s : State) (w : StageRef) (a e : Act) (bs : List (Nat × Block)) (cols : List Col), s.dev.clocked →
     (s.dev.offerAt w 0x06 = some (a, bs) → a.readAll bs = .ok (e, cols) → Gives (.compact w) s
       ((e.putKept (e.selected (setSeq bs) (setRows bs)) e.outs bs cols).finished w bs)) ∧
     (s.dev.offerAt w 0x19 = some (a, bs) → limitCount a.w ≠ 0 → a.readAll bs = .ok (e, cols) →
       let x := limitRows e.limitOffset (limitCount e.w) (e.selected (setSeq bs) (setRows bs)) e.st.skipped e.st.passed
       let f := (e.putKept x.1 e.outs bs cols).onSt fun st => { st with skipped := x.2.1, passed := x.2.2 }
       (f.st.passed ≠ limitCount f.w → Gives (.limit w) s (f.finished w bs)) ∧
       (f.st.passed = limitCount f.w → Gives (.limit w) s ((f.takeBlocks bs).limitEnd.worked w))) ∧
     (s.dev.turnAt w 0x19 = some a → limitCount a.w = 0 → Gives (.limit w) s a.limitEnd.commit) ∧
     (s.dev.offerAt w 0x1A = some (a, bs) → a.st.heldBlk = false →
       let passes := fun (b : Act) (n : Nat) =>
         ((b.passAll b.outs bs).onSt fun st => { st with count := n, posted := false, heldUs := 0 }).finished w bs
       (a.st.posted = true → Gives (.yieldStage w) s (passes a 0)) ∧
       (a.st.posted = false → a.st.count + 1 < bitsOf a.w 48 16 → Gives (.yieldStage w) s (passes a (a.st.count + 1))) ∧
       (a.st.posted = false → bitsOf a.w 48 16 ≤ a.st.count + 1 →
         ∀ t d, a.d.spawn (a.eventThread (setSeq bs)) = some (t, d) →
           (swMode a.w 0 = false → Gives (.yieldStage w) s (passes { a with d := d.schedule } 0)) ∧
           (swMode a.w 0 = true → Gives (.yieldStage w) s ((({ a with d := d.schedule } : Act).onSt fun st =>
             { st with heldBlk := true, posted := true, heldUs := 0 }).commit))))))

/-- The stages of the directories complete. BUILD inserts the rows of its block, PROBE annotates its block and writes
its selection, or puts the joined rows, AGG folds its rows, BLOOMSET sets and BLOOMTEST tests the bits of its
keys, a RANGE search annotates its keys or puts what it found, and INSERT and DELETE update the region. The stages
that write areas, sort and send complete: PART, SPILL, SORTRUN, TOPK and EMIT take their blocks, EXCHANGE sends
their rows, and at the end of the inputs PART, SPILL, SORTRUN and EMIT write their heads and TOPK puts its rows. -/
def Obligations.DirectoryAndWritingStagesComplete : Prop :=
  ((∀ (s : State) (w : StageRef) (a e f : Act) (bs : List (Nat × Block)) (cols : List Col), s.dev.clocked →
     (s.dev.offerAt w 0x09 = some (a, bs) → let x := a.fillAnn bs
       ∀ v b rest, x.2 = (v, b) :: rest → x.1.readAll x.2 = .ok (e, cols) →
         e.buildRows (swField e.w 56) (e.buildRecs v b cols) = (f, none) → Gives (.build w) s (f.finished w bs)) ∧
     (s.dev.offerAt w 0x0B = some (a, bs) → let x := if swMode a.w 0 then a.fillAnn bs else (a, bs)
       ∀ v b rest, x.2 = (v, b) :: rest → x.1.readAll x.2 = .ok (e, cols) →
         let second := if swField e.w 16 = 0xFF then 0 else 1
         let rows := (keepRows (e.selected b.seq b.body.rowCount) (List.range b.body.rowCount)).map fun r =>
           (r, if swMode e.w 0 then b.annAt r else 0, [(cols.getD 0 []).getD r none, (cols.getD second []).getD r none])
         e.foldRows (e.p.accArray e.w e.st.k e.i.number e.count) b.seq rows = .done f true →
         Gives (.agg w) s (f.finished w bs)) ∧
     (s.dev.offerAt w 0x21 = some (a, bs) → rangeOp a.w = 3 → ∀ v b rest, bs = (v, b) :: rest →
       a.readAll bs = .ok (e, cols) →
       let t := e.p.typeOf (streamNo v)
       let rows := ((orderedKeys t (cols.getD 0 [])).zipIdx).filterMap fun x => x.1.map fun k =>
         (k, (((cols.getD 1 []).getD x.2 none).map fun y => y.toInt.toNat))
       ∀ d, (e.d.useRegion e.i.pod e.rrgn t).rinsertRows e.i.pod e.rrgn (swField e.w 56) rows = (d, none) →
         Gives (.rangeInsert w) s (({ e with d := d } : Act).finished w bs))) ∧
   (∀ (s : State) (w : StageRef) (a e f : Act) (v : Nat) (b : Block) (rest : List (Nat × Block)) (c : Col), s.dev.clocked →
     let bs := (v, b) :: rest
     let ann := (a.fillAnn bs).1
     (∀ (k : Block), (a.fillAnn bs).2 = (v, k) :: rest → ann.readBlock v k = .ok (e, c) →
       (s.dev.offerAt w 0x22 = some (a, bs) →
         let hs := (keepRows (e.selected k.seq c.length) (keyHashes k c)).filterMap id
         (e.lookBits hs).bloomSetRows hs = .ok f → Gives (.bloomset w) s (f.finished w bs)) ∧
       (s.dev.offerAt w 0x23 = some (a, bs) → let g := ann.p.groupOfStage ann.n
         ann.selRoom g k.seq = true → ∀ bits, (e.lookBits ((keyHashes k c).filterMap id)).bloomTestRows (keyHashes k c) = .ok (f, bits) →
         Gives (.bloomtest w) s ((f.writeSel g k.seq bits).finished w bs)) ∧
       (∀ x, s.dev.turnAt w 0x0A = some x → x.st.liveDone = false → x.offer = some (a, bs) → ann.st.outRows = none →
         ann.jst ≠ 5 → ann.jst ≠ 6 → (swMode ann.w 3 = true ∨ ann.selRoom (ann.p.groupOfStage ann.n) k.seq = true) →
         let cf := e.d.get F.JDR_POD_RGN_STATE_CASEFOLD e.i.pod e.rgn == 1
         let keys := c.map fun y => y.map (normKey (e.p.typeOf (streamNo v)) cf)
         let n := k.body.rowCount
         ∀ ps, e.liveRows false k keys [] ((List.range n).zip (e.selected k.seq n)) = .ok (f, ps) →
           let g := f.onSt fun st => { st with seqOut := max st.seqOut (k.seq + 1) }
           let bits := ps.map fun (y : Probed) => y.bit
           (swMode g.w 3 = false → rest = [] → Gives (.probe w) s ((g.writeSel (g.p.groupOfStage g.n) k.seq bits).finished w bs)) ∧
           (∀ v1 b1 more, swMode g.w 3 = false → rest = (v1, b1) :: more → Gives (.probe w) s
             (((g.annotate v1 b1 (ps.map fun (y : Probed) => BitVec.ofNat 64 y.ann)).writeSel (g.p.groupOfStage g.n) k.seq
               bits).finished w bs)) ∧
           (swMode g.w 3 = true → let out := expandOut ((List.range ps.length).map (rowNumber k.seq)) ps
             out.length ≤ g.maxRows → Gives (.probe w) s (((g.putExpand k.seq (out.take g.maxRows)).onSt fun st =>
               { st with outRows := none }).finished w bs)))) ∧
     (s.dev.offerAt w 0x21 = some (a, bs) → a.readBlock v b = .ok (e, c) →
       let t := e.p.typeOf (streamNo v)
       (rangeOp a.w = 4 → Gives (.rangeDelete w) s (({ e with d := ((orderedKeys t c).filterMap id).foldl (fun d k =>
         if 32 < k.length then d else d.rdelete e.i.pod e.rrgn k) (e.d.useRegion e.i.pod e.rrgn t) } : Act).finished w bs)) ∧
       (∀ d, e.d.rcheck (e.i.tile / 8) e.i.pod e.rrgn = .ok d →
         let found := fun (op : Nat) =>
           let x := (d.useRegion e.i.pod e.rrgn t).rsearches (e.i.tile / 8) e.i.pod e.rrgn op (orderedKeys t c)
           let g : Act := { e with d := x.1 }
           match g.outs with
           | o :: _ => (g.put o b.seq (x.2.map fun n => n.map fun m => Val.int (m : Nat))).finished w bs
           | [] => (g.annotate v b (x.2.map fun n => BitVec.ofNat 64 (n.getD 0xFFFFFFFFFFFFFFFF))).finished w bs
         (rangeOp a.w = 0 → Gives (.rangeFloor w) s (found 0)) ∧ (rangeOp a.w = 1 → Gives (.rangeExact w) s (found 1)) ∧
         (rangeOp a.w = 2 → Gives (.rangeCover w) s (found 2)))))) ∧
  ((∀ (s : State) (w : StageRef) (a b c e : Act) (bs : List (Nat × Block)) (cols : List Col), s.dev.clocked →
     (s.dev.offerAt w 0x0C = some (a, bs) → let x := a.fillAnn bs
       x.1.openArea (swField x.1.w 104) x.1.partHead = .ok b → b.readAll x.2 = .ok (c, cols) →
       ∀ v k rest, x.2 = (v, k) :: rest → let n := k.body.rowCount
         c.partRows c.destArea (keepRows (c.selected k.seq n) (((List.range n).map k.annAt).zip (rowsOfCols n cols))) = .ok e →
         Gives (.part w) s (e.finished w bs)) ∧
     (s.dev.offerAt w 0x0D = some (a, bs) → a.openArea (swField a.w 104) 64 = .ok b → bs ≠ [] →
       ((b.w.testBit 46 = true ∧ b.readAll bs = .ok (c, cols)) ∨ (b.w.testBit 46 = false ∧ c = b ∧ cols = bs.map fun _ => [])) →
       let sel := c.selected (setSeq bs) (setRows bs)
       let rows := (sel.filter id).length
       (swMode c.w 0 = false → c.putSetGroup c.destArea 0 (c.spillBlocks sel bs cols) rows = .ok e →
         Gives (.spill w) s (e.finished w bs)) ∧
       (swMode c.w 0 = true → let addr := c.destArea.base + c.st.cursor
         ∀ f blocks, c.packBlocks addr (c.spillBlocks sel bs cols) 0 = .ok f blocks →
           (f.dropResults addr).putSetGroup (f.dropResults addr).destArea 0 blocks rows = .ok e →
           Gives (.spill w) s (e.finished w bs))) ∧
     (s.dev.offerAt w 0x10 = some (a, bs) → a.openArea (swField a.w 104) 0x4040 = .ok b → ∀ x, b.storeCheck b.heldBytes = .ok x →
       x.readAll bs = .ok (c, cols) → c.holdRows (c.presentRows (setSeq bs) (setRows bs) cols) = .ok e →
       Gives (.sortrun w) s (e.finished w bs)) ∧
     (s.dev.offerAt w 0x12 = some (a, bs) → a.storeCheck (a.st.held.length * a.topSize) = .ok b → b.readAll bs = .ok (c, cols) →
       Gives (.topk w) s (((c.presentRows (setSeq bs) (setRows bs) cols).foldl Act.topRow (c.topDicts bs)).finished w bs)) ∧
     (s.dev.offerAt w 0x18 = some (a, bs) → ∀ typed, a.emitCols bs = .ok (b, typed) →
       let sel := b.selected (setSeq bs) (setRows bs)
       ((sel.filter id).length = 0 → Gives (.emit w) s (b.finished w bs)) ∧
       ((sel.filter id).length ≠ 0 → b.st.source = none →
         b.writeBatch (setSeq bs) (typed.map fun x => (x.1, keepRows sel x.2)) (sel.filter id).length = .done e true →
         Gives (.emit w) s (e.finished w bs)) ∧
       (∀ x k ks gathered, (sel.filter id).length ≠ 0 → b.st.source = some x → typed = k :: ks →
         (b.lookGather x.1 (keepRows sel k.2)).gatherField (typed.map fun y => (y.1, keepRows sel y.2)) = .ok (c, gathered) →
         c.writeBatch (setSeq bs) gathered (sel.filter id).length = .done e true → Gives (.emit w) s (e.finished w bs))) ∧
     (s.dev.offerAt w 0x20 = some (a, bs) → let dests := a.d.spanInsts a.r a.i.pipe
       let sends := fun (x : Act) =>
         (x.sendAll dests (setSeq bs) = .done e true → Gives (.exchange w) s (e.finished w bs)) ∧
         (x.sendAll dests (setSeq bs) = .quiet e → Gives (.exchange w) s e.commit)
       (a.st.heldBlk = true → sends a) ∧
       (a.st.heldBlk = false → a.readAll bs = .ok (b, cols) → let x := b.fillAnn bs
         let anns := (List.range (setRows bs)).map fun r => (x.2.head?.map fun y => y.2.annAt r).getD 0
         let rows := keepRows (x.1.selected (setSeq bs) (setRows bs)) ((List.range (setRows bs)).zip
           (anns.zip (rowsOfCols (setRows bs) cols)))
         x.1.routeRows dests.length bs rows = some c → sends (c.onSt fun st => { st with heldBlk := true })))) ∧
   (∀ (s : State) (w : StageRef) (a b c e : Act), s.dev.clocked →
     (s.dev.endAt w 0x0C = some a → a.openArea (swField a.w 104) a.partHead = .ok b →
       let n := 2 ^ bitsOf a.w 64 8
       b.flushParts a.destArea (List.range n) = .ok c →
       let sets := c.st.sets ++ List.replicate (n - c.st.sets.length) { groups := [], rows := 0 }
       ∀ addrs, c.writeSets a.destArea c.ins.length sets = .ok (e, addrs) → Gives (.part w) s
         ((((e.store 0 (a.destArea.base + 64) (addrs.flatMap (leBytes 8))).closeArea a.destArea (a.destArea.base + 64)
           (totalRows sets)).finish).commit)) ∧
     (s.dev.endAt w 0x0D = some a → a.openArea (swField a.w 104) 64 = .ok b →
       let set := b.st.sets.headD { groups := [], rows := 0 }
       ∀ addr, b.writeSet a.destArea set b.ins.length = .ok (e, addr) →
         Gives (.spill w) s ((e.closeArea a.destArea addr set.rows).finish.commit)) ∧
     (s.dev.endAt w 0x10 = some a → a.openArea (swField a.w 104) 0x4040 = .ok b →
       (b.drainRuns (b.st.held.length + 1)).bind Act.flushRun = .ok c →
       ∀ addrs, c.writeSets a.destArea c.ins.length c.st.sets = .ok (e, addrs) →
         Gives (.sortrun w) s ((e.writeHeader a.destArea addrs).finish.commit)) ∧
     (s.dev.endAt w 0x12 = some a → a.outRoom = true → a.st.held.length ≤ a.maxRows → a.st.bases = [] →
       Gives (.topk w) s (((a.outs.zipIdx).foldl (fun f x => f.put x.1 a.st.seqOut
         (colOfRows ((a.st.held.take a.maxRows).map fun y => y.row) x.2)) a).finish.commit)) ∧
     (s.dev.endAt w 0x18 = some a → a.emitK ≠ 0xFF → a.lastEmit = true → 64 ≤ a.emitDest.len →
       a.emitPut a.emitDest 0 (resultHeader a.ins.length a.emitCount.2.1 a.emitCount.2.2 a.emitCount.1) = .ok e →
       Gives (.emit w) s e.finish.commit) ∧
     (s.dev.endAt w 0x20 = some a → let dests := a.d.spanInsts a.r a.i.pipe
       a.lostPeer dests (List.range dests.length) = none → Gives (.exchange w) s
         ({ a with d := dests.foldl (fun (d : Dev) x => d.emit (.xfer x.1 5 (a.xHead x.2))) a.d,
                   st := { a.st with ended := true } } : Act).commit)))

/-- The CRC of a block is the CRC-32C of its 64 husk bytes, with the CRC field taken as zero, and its payload: the
reflected division by 0x1EDC6F41 from all ones, inverted; "123456789" gives 0xE3069283; a husk holds it
little-endian. -/
def Obligations.BlockChecksum : Prop :=
  (∀ bs : List Byte, crc32c bs = (castagnoliCrc bs).toNat) ∧
  castagnoliCrc [0x31, 0x32, 0x33, 0x34, 0x35, 0x36, 0x37, 0x38, 0x39] = 0xE3069283 ∧
  (∀ husk payload : List Byte, husk.length = 64 →
    blockCrc husk payload = (castagnoliCrc (husk.take 28 ++ [0, 0, 0, 0] ++ husk.drop 32 ++ payload)).toNat) ∧
  (∀ (h : Husk) (payload : List Byte), (h.seal payload).bytes.length = 64 ∧
    ((h.seal payload).bytes.drop 28).take 4 = leBytes 4 (blockCrc h.bytes payload))

/-- The hash of a key's bytes is KH64 under 64-bit arithmetic modulo 2^64. -/
def Obligations.KeyHashIsKh64 : Prop :=
  ∀ (seed : Word) (k : List Byte), kh64 seed.toNat k = (keyHash seed k).toNat

/-- Instances: one whose run failed stops at its block boundary, a held YIELD times out, a leaving slot is freed when
drained, a quiescing pod's instance is QUIESCED, a parked one starts again when its tile has returned, one that
may not leave stays, and one whose tile is not claimed is not parked. -/
def Obligations.InstanceCommands : Prop :=
  (∀ (s : State) (t : Fin 64) (slot : Fin 4) (i : Inst), s.dev.clocked → s.dev.findInst t.val slot.val = some i →
    (i.stop = true → i.life ≠ .done → i.life ≠ .failed → Gives (.stopAtBlockBoundary t slot) s (s.dev.instFailed i)) ∧
    (i.stop = false → Gives (.stopAtBlockBoundary t slot) s s.dev)) ∧
  (∀ (s : State) (w : StageRef) (a : Act), s.dev.clocked → s.dev.actOf w = some a → swOp a.w = 0x1A →
    a.st.heldBlk = true → a.i.life = .running → s.dev.podState a.i.pod ≠ 3 →
    Gives (.yieldTimeout w) s (s.dev.failInst a.i a.n ⟨0x70, 0⟩
      (((a.ins.head?.bind fun v => a.inBlock v).map fun b => b.seq).getD 0) 0)) ∧
  (∀ (s : State) (t : Fin 64) (slot : Fin 4) (x : SlotSt), s.dev.clocked → s.dev.findSlot t.val slot.val = some x →
    x.life = .migrating → s.dev.findInst t.val slot.val = none →
    (x.drain = 0 ∨ s.dev.undrained t.val slot.val = 0 → Gives (.migrationComplete t slot) s
      { s.dev with slots := s.dev.slots.filter fun x => !(x.tile == t.val && x.slot == slot.val) }) ∧
    (x.drain ≠ 0 → s.dev.undrained t.val slot.val ≠ 0 → Gives (.migrationComplete t slot) s s.dev)) ∧
  (∀ (s : State) (t : Fin 64) (slot : Fin 4) (i : Inst) (r : Run) (p : Pipe) (m : Image) (area : BitVec 52), s.dev.clocked →
    s.dev.instAt t.val slot.val = some (i, r, p, m) →
    (i.life = .running → i.stop = false → s.dev.podState i.pod = 3 →
      Gives (.instanceQuiesce t slot) s ((s.dev.startBallast p i).setLife i .quiesced)) ∧
    (s.dev.podState i.pod ≠ 3 → Gives (.instanceQuiesce t slot) s s.dev) ∧
    (i.life = .migrating → i.stop = false → Gives (.migrateInstance t slot) s (s.dev.finishMove i r p)) ∧
    (s.dev.mayLeave i r = true → s.dev.podState r.pod = 2 → ∀ k, s.dev.moveTarget i r m = some k →
      s.dev.zeroing k = false → s.dev.foreignTile r.pod k = false → Gives (.migrateInstance t slot) s
        (((s.dev.reserve i r p k).setLife { i with leaving := true } .migrating).finishMove
          { i with life := .migrating, leaving := true } r p)) ∧
    (s.dev.mayLeave i r = true → s.dev.podState r.pod = 2 → s.dev.moveTarget i r m = none →
      Gives (.migrateInstance t slot) s s.dev) ∧
    (s.dev.tileClaimed t.val = true → s.dev.moveTarget i r m = none → s.dev.reserved i = none → i.stop = false →
      s.dev.inPod r.pod area.toNat (savedBytes p) = true → s.dev.mayLeave i r = true → s.dev.podState r.pod = 2 →
      Gives (.parkInstance t slot area) s (s.dev.park i r p area.toNat)) ∧
    (s.dev.tileClaimed t.val = false → Gives (.parkInstance t slot area) s s.dev) ∧
    (i.life = .parked → i.stop = false → s.dev.podState r.pod = 2 → s.dev.tileReturned i = true →
      Gives (.restoreParked t slot) s (((s.dev.setInst { i with life := .starting, leaving := true, parkArea := 0 }).onSlot
        i.tile i.slot fun x => { x with life := .starting, pairs := p.streams.length, stalls := [] }).admitStarts)) ∧
    (i.life ≠ .parked → Gives (.restoreParked t slot) s s.dev))

/-- Join and range regions: a region's clear begins unless it is locked, and its sweep's end leaves no entry and goes
to EMPTY, to BUILDING, or to INVALID where its builder failed meanwhile; an unload that stands releases its
builders, and one that meets an uncorrectable entry fails them; replay begins on a SPILLED region whose probes
have ended, and the next wave follows the last; a range region's clear, its configuration and its marking. -/
def Obligations.RegionCommands : Prop :=
  (∀ (s : State) (p : Fin 64) (g : Fin 16), s.dev.clocked →
    let r := s.dev.region p.val g.val
    (s.dev.jstate p.val g.val = 1 → r.forBuild = false → Gives (.clearSweepDone p g) s
      (({ s.dev with jents := s.dev.jents.filter fun e => !(e.pod == p.val && e.rgn == g.val) } : Dev).setJstate p.val g.val 0)) ∧
    (s.dev.jstate p.val g.val = 1 → r.forBuild = true → ∃ d, Gives (.clearSweepDone p g) s d ∧
      d.jstate p.val g.val = (if s.dev.builderLives r then 2 else 7) ∧ ∀ e ∈ d.jents, ¬(e.pod = p.val ∧ e.rgn = g.val)) ∧
    (s.dev.jstate p.val g.val ≠ 1 → Gives (.clearSweepDone p g) s s.dev) ∧
    (s.dev.jstate p.val g.val = 4 → r.unloaded = false → (∃ e ∈ s.dev.jents, e.pod = p.val ∧ e.rgn = g.val ∧ e.ue = true) →
      Gives (.spillUnloadComplete p g) s ((s.dev.builders r).foldl (fun (d : Dev) x =>
        if x.1.life = .running then d.failInst x.1 (x.2.buildStage g.val) dirFail 0 0 else d) s.dev)) ∧
    (s.dev.jstate p.val g.val = 4 → r.unloaded = false →
      (∀ e ∈ s.dev.jents, e.pod = p.val → e.rgn = g.val → e.ue = false) → ∀ d,
      (s.dev.freeEntries p.val g.val).unloadRecs r []
        ((s.dev.jents.filter fun e => e.pod == p.val && e.rgn == g.val).flatMap fun e =>
          s.dev.unloadEntry r (s.dev.regionPay p.val g.val) e) = some d →
      Gives (.spillUnloadComplete p g) s ((d.setRegion { r with unloaded := true }).releaseBuilders r)) ∧
    (s.dev.jstate p.val g.val ≠ 4 → Gives (.spillUnloadComplete p g) s s.dev) ∧
    (∀ x, s.dev.jstate p.val g.val = 5 → s.dev.replayReady p.val g.val = some x →
      let q := { r with replay := some x }
      Gives (.replayStart p g) s (Dev.startWave x (((s.dev.setRegion q).setJstate p.val g.val 6).waveFrom q 0))) ∧
    (s.dev.replayReady p.val g.val = none → Gives (.replayStart p g) s s.dev) ∧
    (∀ x, r.replay = some x → s.dev.jstate p.val g.val = 6 →
      ((s.dev.replayInsts x).all fun i => i.stAt x.2.2.2 fun st => st.waveDone) = true →
      Gives (.replayWaveDone p g) s ((s.dev.put F.JDR_POD_RGN_STATE_WAVES
        (s.dev.get F.JDR_POD_RGN_STATE_WAVES p.val g.val + 1) p.val g.val).nextWave r x)) ∧
    (r.replay = none → Gives (.replayWaveDone p g) s s.dev) ∧
    Gives (.genMarkingDone p g) s (s.dev.put F.RDR_POD_RGN_STATE_MARKING 0 p.val g.val) ∧
    (s.dev.rstate p.val g.val = 1 → Gives (.rdrClearDone p g) s
      ((((s.dev.setRRegion { s.dev.rregion p.val g.val with pos := [] }).put F.RDR_POD_RGN_STATE_REBAL 0 p.val g.val).put
        F.RDR_POD_RGN_STATE_KEYTYPE 0 p.val g.val).put F.RDR_POD_RGN_STATE_STATE 0 p.val g.val)) ∧
    (s.dev.rstate p.val g.val ≠ 1 → Gives (.rdrClearDone p g) s s.dev)) ∧
  (∀ (s : State) (p : Fin 64) (g : Fin 16) (v : Word), s.dev.clocked →
    let d := s.dev.unstage (RegRef.addr ⟨.JDR_POD_CLEAR, p.val, 0⟩)
    let e := s.dev.unstage (RegRef.addr ⟨.RDR_POD_CLEAR, p.val, 0⟩)
    let f := s.dev.unstage (RegRef.addr ⟨.RDR_POD_RGN_CFG, p.val, g.val⟩)
    (v.toNat = 2 ^ g.val →
      Gives (.jdrRegionClear p ⟨.bar0, .full, v⟩) s (if (d.region p.val g.val).owner.isSome then d else
        (d.regionFresh p.val g.val 1).setRegion (JRegion.blank p.val g.val)) ∧
      Gives (.rdrRegionClear p ⟨.bar0, .full, v⟩) s (if (e.rregion p.val g.val).owner.isSome then e else
        e.put F.RDR_POD_RGN_STATE_STATE 1 p.val g.val)) ∧
    (let hole := fieldIn F.RDR_POD_RGN_CFG_HOLE v.toNat
     let base := fieldIn F.RDR_POD_RGN_CFG_BASE v.toNat
     let size := fieldIn F.RDR_POD_RGN_CFG_SIZE v.toNat
     (f.rcfgOk p.val g.val hole base size = true → Gives (.rdrRegionCfg p g ⟨.bar0, .full, v⟩) s
       (((f.put F.RDR_POD_RGN_CFG_HOLE hole p.val g.val).put F.RDR_POD_RGN_CFG_BASE base p.val g.val).put
         F.RDR_POD_RGN_CFG_SIZE size p.val g.val)) ∧
     (f.rcfgOk p.val g.val hole base size = false → Gives (.rdrRegionCfg p g ⟨.bar0, .full, v⟩) s
       (f.put F.RDR_POD_RGN_STATE_REJECT 1 p.val g.val))))

/-- Exchanges between members: a producer's credit is granted, held or missed; a consumer grants with room and holds
without, takes a granted packet's rows, and ends its streams after the last END. -/
def Obligations.ExchangeCommands : Prop :=
  (∀ (s : State) (x : XRef) (i : Inst) (r : Run) (g : Nat) (st : StageSt), s.dev.clocked →
    s.dev.findInst x.tile.val x.slot.val = some i → s.dev.findRun i.ring i.index = some r →
    globalOf (s.dev.spanInsts r i.pipe) x.member.val x.inst.toNat = some g → i.stages[x.stage.val]? = some st →
    let with_ := fun (c : Credit) => s.dev.setInst { i with stages := i.stages.set x.stage.val (st.setCredit c) }
    ((st.credit g).asked = true →
      Gives (.creditGrant x) s (with_ { st.credit g with held := min 2 ((st.credit g).held + 1), asked := false, waitUs := 0 }) ∧
      Gives (.creditHold x) s (with_ { st.credit g with waitUs := 0 }) ∧
      (i.life = .running → st.ended = false →
        Gives (.creditTimeout x) s (s.dev.failInst i x.stage.val ⟨0x61, x.member.val⟩ 0 0))) ∧
    ((st.credit g).asked = false → Gives (.creditGrant x) s s.dev ∧ Gives (.creditHold x) s s.dev ∧
      Gives (.creditTimeout x) s s.dev)) ∧
  (∀ (s : State) (q : XRef) (c : XAt) (rows : List XRow), s.dev.clocked → s.dev.xAt q = some c →
    let who := (q.member.val, q.inst.toNat)
    let held := if c.x.holds.contains who then c.x.holds else c.x.holds ++ [who]
    (c.room = true → (c.x.holds.filter fun h => h != who) = [] →
      Gives (.creditRequest q) s (s.dev.grant c q.member.val q.inst.toNat)) ∧
    (c.room = false → Gives (.creditRequest q) s
      ((s.dev.setXrecv { c.x with holds := held }).answer c 3 q.member.val q.inst.toNat)) ∧
    (c.x.holds.contains who = false → Gives (.holdRepeat q) s s.dev) ∧
    (c.x.holds.contains who = true → c.room = false → Gives (.holdRepeat q) s (s.dev.answer c 3 q.member.val q.inst.toNat)) ∧
    (∀ h rest, c.x.holds = h :: rest → c.x.holds.contains who = true → c.room = true →
      Gives (.holdRepeat q) s (s.dev.grant c h.1 h.2)) ∧
    (c.x.granted.contains who = true → 1 ≤ rows.length → rows.length ≤ 256 →
      (∀ r ∈ rows, r.cols.length = c.streams.length) →
      let x := { c.x with rows := c.x.rows ++ rows, granted := c.x.granted.erase who }
      Gives (.exchangePacket q rows) s (s.dev.putX (({ c with x := x }).close (c.x.rows.length + rows.length + 1)))) ∧
    (c.x.granted.contains who = false → Gives (.exchangePacket q rows) s s.dev) ∧
    ((s.dev.spanInsts c.r c.i.pipe).contains who = false → Gives (.endMarker q) s s.dev) ∧
    ((s.dev.spanInsts c.r c.i.pipe).contains who = true → c.x.ends.contains who = false →
      let x := { c.x with ends := c.x.ends ++ [who], granted := c.x.granted.filter fun h => h != who,
                          holds := c.x.holds.filter fun h => h != who }
      let e : XAt := { c with x := x }
      (((s.dev.spanInsts c.r c.i.pipe).all fun w => x.ends.contains w) = false →
        Gives (.endMarker q) s (s.dev.putX (e.close 1))) ∧
      (((s.dev.spanInsts c.r c.i.pipe).all fun w => x.ends.contains w) = true → c.x.rows = [] →
        Gives (.endMarker q) s (s.dev.putX { e with i := e.streams.foldl (fun (i : Inst) s =>
          i.onChan s fun ch => { ch with ended := true }) e.i }))))

/-! ### DzLink and the span -/

/-- The ports of DzLink: identity locked once, enabling, disabling, retraining, signal detection, training, the
partner's parameters, low power and waking. Codewords and flits. A good codeword keeps the lock of a port that
holds it; one with more than 15 symbol errors on an ACTIVE port is counted and answered with NAK, and so is one of
another TYPE. A flit in order is accepted, acknowledges what it names and returns its credits; one out of order,
or whose CRC fails, is answered with NAK. The header slot of a message on DzLink holds each field of R370 in its
bits, and a message to a peer takes one flit of a port that leads to it, with its header put out, or waits there
while its class has no credits for it or 256 flits are unacknowledged (log entries 50 and 86). -/
def Obligations.PortAndLinkCommands : Prop :=
  ((∀ (s : State) (k : Fin 4), s.dev.clocked →
     let st := s.dev.portState k.val
     (∀ v : Word, s.dev.get F.LNK_SPAN_CFG_LOCK = 0 → let r : RegRef := ⟨.LNK_SPAN_CFG, 0, 0⟩
       let d := s.dev.unstage r.addr
       Gives (.spanCfgLock ⟨.bar0, .full, v⟩) s (d.wr r (regAfter r.kind.fields (d.rd r) v.toNat false false))) ∧
     (∀ v : Word, s.dev.get F.LNK_SPAN_CFG_LOCK = 1 → ∃ d, Gives (.spanCfgLock ⟨.bar0, .full, v⟩) s d ∧
       d.get F.LNK_SPAN_CFG_LOCK = 1 ∧ d.get F.LNK_SPAN_CFG_SPAN_ID = s.dev.get F.LNK_SPAN_CFG_SPAN_ID ∧
       d.get F.LNK_SPAN_CFG_SPAN_NO = s.dev.get F.LNK_SPAN_CFG_SPAN_NO) ∧
     (st = 0 → Gives (.portEnable k) s ((s.dev.put F.LNK_PORT_CTRL_EN 1 k.val).enterPort k.val 1)) ∧
     (st ≠ 0 → Gives (.portEnable k) s (s.dev.put F.LNK_PORT_CTRL_EN 1 k.val)) ∧
     ((s.dev.port k.val).kept = false → Gives (.portDisable k) s
       ((((s.dev.put F.LNK_PORT_CTRL_EN 0 k.val).enterPort k.val 0).clearReg .LNK_PORT_STATUS k.val).onPort k.val fun _ => Port.reset)) ∧
     (st = 5 ∨ st = 7 → Gives (.portRetrain k) s (s.dev.enterPort k.val 1)) ∧
     (st = 1 ∨ st = 3 ∨ st = 4 ∨ st = 6 → Gives (.portRetrain k) s s.dev) ∧
     (st = 1 → Gives (.portSignalDetect k) s (s.dev.enterPort k.val 2)) ∧
     (st ≠ 1 → Gives (.portSignalDetect k) s s.dev) ∧
     (st = 2 →
       (∀ w : Fin 4, w.val ≠ 0 → w.val = 3 ∨ s.dev.get F.LNK_PORT_CTRL_NARROW_OK k.val = 1 →
         Gives (.portTrainComplete k w) s ((s.dev.put F.LNK_PORT_STATUS_WIDTH w.val k.val).enterPort k.val 3)) ∧
       (∀ w : Fin 4, w.val = 1 ∨ w.val = 2 → s.dev.get F.LNK_PORT_CTRL_NARROW_OK k.val ≠ 1 →
         Gives (.portTrainComplete k w) s (s.dev.portDown k.val)) ∧
       Gives (.portTrainFail k none) s (s.dev.portDown k.val) ∧
       (∀ h : Fin 2, s.dev.get F.LNK_PORT_CTRL_NARROW_OK k.val = 1 → s.dev.get F.LNK_PORT_STATUS_WIDTH k.val = 3 →
         Gives (.portTrainFail k (some h)) s ((s.dev.put F.LNK_PORT_STATUS_WIDTH (h.val + 1) k.val).enterPort k.val 3))) ∧
     (∀ n : NbrParams, st = 3 → s.dev.accepts k.val n = false → (s.dev.port k.val).kept = false →
       Gives (.portParameters k n) s ((((s.dev.put F.LNK_PORT_STATUS_NBR_ID n.spanId.toNat k.val).put
         F.LNK_PORT_STATUS_NBR_NO n.spanNo.toNat k.val).put F.LNK_PORT_STATUS_NBR_PORT n.port.toNat k.val).enterPort k.val 5)) ∧
     (∀ n : NbrParams, st = 3 → s.dev.accepts k.val n = true → (s.dev.port k.val).kept = false →
       Gives (.portParameters k n) s ((((s.dev.put F.LNK_PORT_STATUS_NBR_ID n.spanId.toNat k.val).put
         F.LNK_PORT_STATUS_NBR_NO n.spanNo.toNat k.val).put F.LNK_PORT_STATUS_NBR_PORT n.port.toNat k.val).portActive k.val)) ∧
     (st = 4 → Gives (.lpreq k) s ((s.dev.emit (.link k.val 2 0)).portLow k.val)) ∧
     ((s.dev.port k.val).lpWait = true → Gives (.lpack k) s (s.dev.portLow k.val) ∧
       Gives (.lpackTimeout k) s (s.dev.portLow k.val)) ∧
     ((s.dev.port k.val).lpWait = false → Gives (.lpack k) s s.dev ∧ Gives (.lpackTimeout k) s s.dev)) ∧
   (∀ (s : State) (k : Fin 4), s.dev.portState k.val = 6 →
     (s.dev.get F.PWR_STATE_STATE ≤ 1 → s.dev.pw.off = false → s.dev.hull.otp.lifecycle ≠ 4 →
       Gives (.wakePattern k) s (s.dev.enterPort k.val 2)))) ∧
  ((∀ (s : State) (k : Fin 4) (h : BitVec 20) (e : BitVec 8), s.dev.clocked → s.dev.portState k.val = 4 →
     let p := s.dev.port k.val
     p.cwLock = true →
     (e.toNat ≤ 15 → bitsOf h.toNat 12 8 = 0xA5 → bitsOf h.toNat 4 8 = (p.cwSeq + 1) % 256 →
       let d := if e.toNat = 0 then s.dev else s.dev.count .LNK_PORT_FEC_CORR e.toNat k.val
       let d := d.onPort k.val fun _ => { p with
         cwGood := min (p.cwGood + 1) 8, cwBad := 0, cwSeq := (p.cwSeq + 1) % 256 }
       (bitsOf h.toNat 0 4 ≤ 2 → Gives (.codeword k h e) s d) ∧
       (3 ≤ bitsOf h.toNat 0 4 → Gives (.codeword k h e) s (d.sendNak k.val))) ∧
     (15 < e.toNat → p.cwBad < 3 → Gives (.codeword k h e) s
       (((s.dev.count .LNK_PORT_FEC_UNCORR 1 k.val).onPort k.val fun _ => { p with
         cwGood := 0, cwBad := p.cwBad + 1, cwSeq := (p.cwSeq + 1) % 256 }).sendNak k.val)) ∧
     (15 < e.toNat → 3 ≤ p.cwBad → Gives (.codeword k h e) s
       (((s.dev.count .LNK_PORT_FEC_UNCORR 1 k.val).onPort k.val fun _ => { p with
         cwGood := 0, cwBad := 0, cwSeq := (p.cwSeq + 1) % 256, cwLock := false }).retrainPort k.val))) ∧
   (∀ (s : State) (k : Fin 4) (f : FlitHeader), s.dev.clocked → s.dev.portState k.val = 4 →
     let p := s.dev.port k.val
     (f.crcOk = false ∨ f.seq.toNat ≠ p.rxSeq → Gives (.flit k f) s (s.dev.emit (.link k.val 3 ((p.rxSeq + 4095) % 4096)))) ∧
     let d := s.dev.onPort k.val fun p => { p with rxSeq := (p.rxSeq + 1) % 4096, credits := p.returned f.credits }
     (f.crcOk = true → f.seq.toNat = p.rxSeq →
       Gives (.flit k f) s ((d.takeAck k.val f.ack.toNat f.nak).sendWaiting k.val)) ∧
     (f.crcOk = true → f.seq.toNat = p.rxSeq → f.nak = false → p.replay.contains f.ack.toNat = false → p.waiting = [] →
       Gives (.flit k f) s d)) ∧
   (∀ (p : Port) (cr : List (BitVec 8)) (i : Nat), i < p.credits.length →
     (p.returned cr).getD i 0 = p.credits.getD i 0 + (cr.getD i 0).toNat) ∧
   (∀ (s : State) (k : Fin 4) (f : FlitHeader) (h : BitVec 20) (e : BitVec 8), s.dev.clocked → s.dev.portState k.val < 2 →
     Gives (.flit k f) s s.dev ∧ Gives (.codeword k h e) s s.dev)) ∧
  ((∀ h : DzHeader, h.group < 2 ^ 16 → h.addr < 2 ^ 46 → h.txn < 2 ^ 16 → h.poison < 4 → h.len < 256 → h.opc < 256 →
     h.src < 16 → h.dst < 16 → h.hop < 4 → h.body < 2 ^ 110 → DzHeader.ofSlot h.slot = h ∧ h.slot < 2 ^ 216) ∧
   (∀ (d : Dev) (o : Out) (k : Nat) (i : Option Nat), o.peer d.self = some (k, i) →
     let ports := d.portsTo k
     (ports = [] → d.emit o = { d with out := o :: d.out }) ∧
     (∀ p, ports[(i.getD 0) % ports.length]? = some p →
       let q := d.ports.getD p Port.reset
       let h := o.head d.self k (Config.messageTag d.msgTag)
       let n := slotLen h.slot
       (n ≤ q.credits.getD o.creditAt 0 → q.replay.length < 256 → q.waiting = [] →
         d.emit o = Dev.sendFlit { d with
           msgTag := d.msgTag + 1
           out := .header p h.slot :: o :: d.out
           ports := d.ports.modify p fun x => { x with credits := x.credits.modify o.creditAt (· - n) } } p) ∧
       (q.credits.getD o.creditAt 0 < n ∨ 256 ≤ q.replay.length ∨
           (q.waiting.any fun w => w.1.linkClass == o.linkClass) = true →
         d.emit o = { d with
           msgTag := d.msgTag + 1
           ports := d.ports.modify p fun x => { x with waiting := x.waiting ++ [(o, h.slot)] } }))))

/-- The members of a span: HELLO and LINKSTATE keep a peer known and routes follow them, a peer that is lost is fenced
here and its runs end with PATH_LOST or RESOURCE_FENCED, and READY from both readmits it. Messages about a run
reach it by group and TAG. -/
def Obligations.SpanCommands : Prop :=
  (∀ s : State, s.dev.clocked →
    Gives .helloSend s ((s.dev.reachable.foldl (fun (d : Dev) k => d.emit (.span k 0x40 [])) s.dev).tryAll) ∧
    (∀ v : Word, let d := s.dev.unstage (RegRef.addr ⟨.LNK_SPAN_CTRL, 0, 0⟩)
      Gives (.readmitPermit ⟨.bar0, .full, v⟩) s ((spanNos.foldl (fun (d : Dev) k =>
        if v.toNat.testBit k then d.onPeer k fun p => { p with permit := true } else d) d).tryAll))) ∧
  (∀ (s : State) (k : Fin 8), s.dev.clocked →
    let d := s.dev.hear k.val
    (k.val = s.dev.self → Gives (.hello k) s s.dev ∧ ∀ nbrs, Gives (.linkstate k nbrs) s s.dev) ∧
    (k.val ≠ s.dev.self → Gives (.hello k) s (d.tryReady k.val) ∧
      ∀ nbrs, Gives (.linkstate k nbrs) s (((d.onPeer k.val fun p => { p with
        links := nbrs.map fun x => (x.1.val, x.2.val) }).setReach).tryAll)) ∧
    (s.dev.isLive k.val = false →
      Gives (.pathLost k) s s.dev ∧ Gives (.peerTimeout k) s s.dev ∧
      (∀ j self clean, Gives (.fenceMessage k j self clean) s s.dev) ∧
      Gives (.ready k) s ((d.onPeer k.val fun p => { p with readyGot := true }).tryReady k.val)) ∧
    (s.dev.isLive k.val = true →
      Gives (.pathLost k) s (s.dev.fencePeer k.val false true) ∧ Gives (.peerTimeout k) s (s.dev.fencePeer k.val false true) ∧
      (∀ j clean, Gives (.fenceMessage k j true clean) s (s.dev.fencePeer k.val clean true)) ∧
      (∀ (j : Fin 8) clean, j.val ≠ s.dev.self → Gives (.fenceMessage k j false clean) s (s.dev.fencePeer j.val false true)) ∧
      Gives (.ready k) s (((d.emit (.span k.val 0x43 [k.val, 0])).fencePeer k.val false true).onPeer k.val fun p =>
        { p with readyGot := false }))) ∧
  (∀ (s : State) (k pipe : Fin 8) (group : BitVec 16) (tag : BitVec 64) (crc detail : BitVec 32) (status : BitVec 16)
      (counts : List (BitVec 8)), s.dev.clocked →
    let d := s.dev.hear k.val
    let j : JoinMsg := ⟨k.val, group.toNat, tag, crc.toNat, counts.map BitVec.toNat⟩
    let others := s.dev.joins.filter fun x => !(x.member == k.val && x.group == group.toNat && x.tag == tag)
    (s.dev.isLive k.val = false → Gives (.join k group tag crc counts) s s.dev ∧
      Gives (.pipeDone k group tag pipe) s s.dev ∧ Gives (.abortMessage k group tag status detail) s s.dev) ∧
    (s.dev.spanRun group tag = none → Gives (.joinHoldExpiry k group tag) s { s.dev with joins := others }) ∧
    ((s.dev.spanRun group tag).isSome = true → Gives (.joinHoldExpiry k group tag) s s.dev) ∧
    (s.dev.isLive k.val = true → s.dev.spanRun group tag = none →
      Gives (.join k group tag crc counts) s { d with joins := others ++ [j] } ∧
      Gives (.pipeDone k group tag pipe) s d ∧ Gives (.abortMessage k group tag status detail) s d) ∧
    (∀ r, s.dev.isLive k.val = true → s.dev.spanRun group tag = some r →
      (r.placed = true → (s.dev.runPeers r).contains k.val = true → r.image.map (fun m => m.crc) = some crc.toNat →
        Gives (.join k group tag crc counts) s ((d.onRun r.ring r.index fun r =>
          { r with joins := upsert (fun x => x.member == k.val) j r.joins }).admitStarts)) ∧
      Gives (.pipeDone k group tag pipe) s (d.onRun r.ring r.index fun r =>
        if r.peerDone.contains (k.val, pipe.val) then r else { r with peerDone := r.peerDone ++ [(k.val, pipe.val)] }) ∧
      (r.failure = none → r.placed = true → Gives (.abortMessage k group tag status detail) s
        (d.failRun r.ring r.index ⟨status.toNat, detail.toNat⟩ { received := true })))) ∧
  (∀ (s : State) (q : RunRef) (r : Run), s.dev.clocked → s.dev.findRun q.ring.val q.index.toNat = some r →
    r.placed = true → r.failure = none →
    (∀ k, ((s.dev.runPeers r).find? fun k => !(r.joins.any fun j => j.member == k)) = some k →
      Gives (.joinTimeout q) s (s.dev.failRun r.ring r.index ⟨0x60, k⟩ {})) ∧
    ((∀ k ∈ s.dev.runPeers r, (r.joins.any fun j => j.member == k) = true) → Gives (.joinTimeout q) s s.dev))

/-! ### Errors, self-test and injection -/

/-- Faults of tiles, clusters, the mesh and the control cores: a residue or watchdog fault stops the tile's instances,
a cluster fault fences the cluster and loses its regions, a parity failure is replayed until the third fences the
segment, and a miscompare fences its core. -/
def Obligations.FaultCommands : Prop :=
  (∀ (s : State) (t : Fin 64) (unit : Fin 8) (slot : Fin 4) (stage : Fin 32) (seq : BitVec 32), s.dev.clocked →
    s.dev.get F.ERR_INJ_ARMED = 0 →
    (s.dev.tileFenced t.val = true → Gives (.residueMismatch t unit slot stage seq) s s.dev ∧
      Gives (.tileWatchdog t) s s.dev) ∧
    (s.dev.tileFenced t.val = false → Gives (.tileWatchdog t) s (s.dev.tileFault t.val 4 0 false none)) ∧
    (∀ i, s.dev.tileFenced t.val = false → s.dev.findInst t.val slot.val = some i → i.life = .running →
      Gives (.residueMismatch t unit slot stage seq) s (s.dev.tileFault t.val 3 (unit.val * 2 ^ 56 + seq.toNat) false
        (some (slot.val, stage.val, seq.toNat))))) ∧
  (∀ (s : State) (c : Fin 8), s.dev.clocked →
    ((s.dev.get F.ERR_FENCE_OTHER_CLUSTER).testBit c.val = true → Gives (.clusterFault c) s s.dev) ∧
    ((s.dev.get F.ERR_FENCE_OTHER_CLUSTER).testBit c.val = false →
      let d := s.dev.put F.ERR_FENCE_OTHER_CLUSTER (setBits (s.dev.get F.ERR_FENCE_OTHER_CLUSTER) c.val 1 1)
      Gives (.clusterFault c) s ((((clusterTiles c.val).foldl (fun (d : Dev) t =>
        (d.stopTile t ⟨0xF2, 9⟩ { fence := true } none).fenceTile t)
          (d.report { cls := 9, srcKind := 1, source := c.val, fence := true })).killAgent c.val).loseRegions c.val))) ∧
  (∀ (s : State) (seg : BitVec 16) (run : Option RunRef), s.dev.clocked → s.dev.get F.ERR_INJ_ARMED = 0 →
    (s.dev.errs.segFenced.contains seg.toNat = true → Gives (.fabricParity seg run) s s.dev) ∧
    (s.dev.errs.segFenced.contains seg.toNat = false → s.dev.parityCount seg.toNat < 2 →
      let counted := upsert (fun x => x.1 == seg.toNat) (seg.toNat, s.dev.parityCount seg.toNat + 1) s.dev.errs.parity
      Gives (.fabricParity seg run) s (({ s.dev with errs := { s.dev.errs with parity := counted } } : Dev).report
        { cls := 0x0A, srcKind := 12, source := seg.toNat })) ∧
    (s.dev.errs.segFenced.contains seg.toNat = false → 2 ≤ s.dev.parityCount seg.toNat →
      let others := s.dev.errs.parity.filter fun x => x.1 != seg.toNat
      let segs := seg.toNat :: s.dev.errs.segFenced
      let fenced := { s.dev with errs := { s.dev.errs with segFenced := segs, parity := others } }
      Gives (.fabricParity seg none) s (fenced.report { cls := 0x0B, srcKind := 12, source := seg.toNat, fence := true }))) ∧
  (∀ (s : State) (c : Fin 8), s.dev.clocked →
    ((s.dev.core c.val).fenced = true → Gives (.lockstepMiscompare c) s s.dev) ∧
    ((s.dev.core c.val).fenced = false → (s.dev.core c.val).cur = none → (s.dev.core c.val).next = none →
      s.dev.get F.ERR_INJ_ARMED = 0 →
      let d := (s.dev.onCore c.val fun _ => { fenced := true, cur := none, next := none }).killAgent (8 + c.val)
      let said := d.report { cls := 0x11, srcKind := 3, source := c.val, fence := true, fatal := !d.coreLeft }
      Gives (.lockstepMiscompare c) s (if d.coreLeft then said.schedule else said.noCores)))

/-- The rotating self-test, retests, error rings and injections: a claim goes to the least recently passed tile of a
cluster with none waiting, a test starts on an emptied tile and passes or fences it, a late one is recorded once,
a retest of a fenced tile is queued, a ring is enabled empty, and an injection is armed or fires at once. -/
def Obligations.SelfTestAndInjection : Prop :=
  (∀ (s : State) (t : Fin 64) (c : Fin 8), s.dev.clocked →
    let x := s.dev.tileTest t.val
    let ts := clusterTiles c.val
    (s.dev.get F.ERR_ST_CTRL_EN = 0 → Gives (.selftestClaim c) s s.dev ∧ Gives (.selftestLate t) s s.dev) ∧
    (∀ u, s.dev.get F.ERR_ST_CTRL_EN = 1 →
      (∀ v ∈ ts, (s.dev.tileTest v).claimed = false ∧ (s.dev.tileTest v).testing = false) → s.dev.nextTest c.val = none →
      s.dev.oldestTested (ts.filter s.dev.claimable) = some u →
      Gives (.selftestClaim c) s (s.dev.setTest { s.dev.tileTest u with claimed := true })) ∧
    (s.dev.get F.ERR_ST_CTRL_EN = 1 → s.dev.testDue t.val = true → s.dev.tileEmptied t.val = true → s.dev.asleep = false →
      let d := s.dev.setTest { x with testing := true }
      let rest := d.errs.waitTests.filter fun y => y != t.val
      Gives (.selftestStart t) s { d with errs := { d.errs with waitTests := rest } }) ∧
    (s.dev.tileEmptied t.val = false → Gives (.selftestStart t) s s.dev) ∧
    (x.testing = false → ∀ pass, Gives (.selftestDone t pass) s s.dev) ∧
    (x.testing = true → s.dev.get F.ERR_INJ_ARMED = 0 → Gives (.selftestDone t true) s (s.dev.testPassed t.val) ∧
      Gives (.selftestDone t false) s (s.dev.testFailed t.val false)) ∧
    (s.dev.get F.ERR_ST_CTRL_EN = 1 → x.late = false → s.dev.tileFenced t.val = false → Gives (.selftestLate t) s
      ((s.dev.setTest { x with late := true }).report
        { cls := 6, srcKind := 0, source := t.val, pod := s.dev.podOfTile t.val })) ∧
    (let d := s.dev.unstage (RegRef.addr ⟨.ERR_RETEST, 0, 0⟩)
     let ask : RegAccess := ⟨.bar0, .full, BitVec.ofNat 64 (2 ^ t.val)⟩
     (d.tileFenced t.val = true → (d.get F.ERR_FENCE_OTHER_CLUSTER).testBit (t.val / 8) = false →
       Gives (.retest ask) s (d.queueTest { d.tileTest t.val with retest := true })) ∧
     (d.tileFenced t.val = false → Gives (.retest ask) s d))) ∧
  (∀ (s : State) (v : Word) (p : Fin 64), s.dev.clocked →
    (let r : RegRef := ⟨.ERR_RING_CFG, 0, 0⟩
     let d := s.dev.unstage r.addr
     let new := d.wr r (regAfter r.kind.fields (d.rd r) v.toNat false false)
     (d.get F.ERR_RING_CFG_EN = 0 → new.get F.ERR_RING_CFG_EN = 1 → Gives (.errorRingEnable none ⟨.bar0, .full, v⟩) s
       ((new.put F.ERR_RING_PTR_HEAD 0).put F.ERR_RING_PTR_TAIL 0)) ∧
     (d.get F.ERR_RING_CFG_EN = 1 → Gives (.errorRingEnable none ⟨.bar0, .full, v⟩) s new)) ∧
    (let r : RegRef := ⟨.ERR_POD_RING_CFG, p.val, 0⟩
     let d := s.dev.unstage r.addr
     let new := d.wr r (regAfter r.kind.fields (d.rd r) v.toNat false false)
     (d.get F.ERR_POD_RING_CFG_EN p.val = 0 → new.get F.ERR_POD_RING_CFG_EN p.val = 1 →
       (new.errRingBad p.val = false → Gives (.errorRingEnable (some p) ⟨.bar0, .full, v⟩) s
         ((new.put F.ERR_POD_RING_PTR_HEAD 0 p.val).put F.ERR_POD_RING_PTR_TAIL 0 p.val)) ∧
       (new.errRingBad p.val = true → Gives (.errorRingEnable (some p) ⟨.bar0, .full, v⟩) s
         ((new.put F.ERR_POD_RING_CFG_EN 0 p.val).reportManager { cls := 0x18, pod := some p.val, addr := r.addr })))) ∧
    (let r : RegRef := ⟨.ERR_INJ, 0, 0⟩
     let d := s.dev.unstage r.addr
     let new := d.wr r (regAfter r.kind.fields (d.rd r) v.toNat false false)
     let t := new.get F.ERR_INJ_TARGET
     let n := new.get F.ERR_INJ_INDEX
     let mode := new.get F.ERR_INJ_MODE
     (v.toNat.testBit 61 = false → Gives (.injectionArm ⟨.bar0, .full, v⟩) s new) ∧
     (v.toNat.testBit 61 = true → new.get F.ERR_INJ_ARMED = 1 ∨ injCount t ≤ n ∨ injMode t mode = false →
       Gives (.injectionArm ⟨.bar0, .full, v⟩) s new) ∧
     (v.toNat.testBit 61 = true → new.get F.ERR_INJ_ARMED = 0 → n < injCount t → injMode t mode = true →
       (t ≠ 3 → Gives (.injectionArm ⟨.bar0, .full, v⟩) s
         { new.put F.ERR_INJ_ARMED 1 with errs := { s.dev.errs with inj := ⟨t, n, mode, new.get F.ERR_INJ_ADDR_ADDR⟩ } }) ∧
       (t = 3 → new.tileFenced n = true → Gives (.injectionArm ⟨.bar0, .full, v⟩) s (new.put F.ERR_INJ_FIRED 1)))))

/-! ### Register writes, reads and wakes -/

/-- REGISTER_WRITE: a whole write of a register, a lower half staged and joined by the upper one, an upper half alone,
and a register that only its access codes shape; a write of part of the bytes, of an address with no register, and
of a pod's window to what is not its own. Reads of registers: a read of 8 bytes, of an aligned half or of the
enabled bytes is one sample of the register; an address with nothing defined reads zero; what a pod's window does
not show reads zero and is recorded against the pod. A read changes nothing else but where R443, R445 or R459 say
so. WAKE: in S1 and S2 it begins the exit, and during an entry it is latched. -/
def Obligations.RegisterWritesAndWakes : Prop :=
  ((∀ (s : State) (v : Word) (off : BitVec 27) (r : RegRef), s.dev.clocked → off.toNat < 0x4000000 →
     (off.toNat % 8 = 0 → barReg off.toNat = some r → r.kind ≠ .RNG_PUSH →
       Gives (.registerWrite ⟨.bar0, .full, v⟩ off) s ((s.dev.unstage r.addr).writeReg .bar0 r v.toNat false) ∧
       Gives (.registerWrite ⟨.shell, .full, v⟩ off) s ((s.dev.unstage r.addr).writeReg .shell r v.toNat false) ∧
       Gives (.registerWrite ⟨.exec, .full, v⟩ off) s ((s.dev.unstage r.addr).writeReg .exec r v.toNat false) ∧
       Gives (.registerWrite ⟨.bar0, .lower, v⟩ off) s
         { s.dev with staging := (r.addr, BitVec.ofNat 32 v.toNat) :: (s.dev.unstage r.addr).staging } ∧
       (∀ lo, s.dev.staged r.addr = some lo → Gives (.registerWrite ⟨.bar0, .upper, v⟩ off) s
         ((s.dev.unstage r.addr).writeReg .bar0 r (v.toNat % 2 ^ 32 * 2 ^ 32 + lo) false)) ∧
       (s.dev.staged r.addr = none → Gives (.registerWrite ⟨.bar0, .upper, v⟩ off) s
         (s.dev.writeReg .bar0 r (v.toNat % 2 ^ 32 * 2 ^ 32) true)) ∧
       Gives (.registerWrite ⟨.bar0, .partialBytes, v⟩ off) s (s.dev.regError r.addr none)) ∧
     (off.toNat % 8 ≠ 0 ∨ barReg off.toNat = none →
       ∀ lanes, Gives (.registerWrite ⟨.bar0, lanes, v⟩ off) s (s.dev.regError off.toNat none))) ∧
   (∀ (s : State) (v : Word) (p : Fin 64), s.dev.clocked →
     let r : RegRef := ⟨.RNG_BASE, 5, 0⟩
     let off := BitVec.ofNat 27 r.addr
     let d := s.dev.unstage r.addr
     (s.dev.get F.RNG_STATUS_STATE 5 = 0 → Gives (.registerWrite ⟨.bar0, .full, v⟩ off) s
       (d.wr r (regAfter r.kind.fields (d.rd r) v.toNat false false))) ∧
     (s.dev.get F.RNG_STATUS_STATE 5 ≠ 0 → Gives (.registerWrite ⟨.bar0, .full, v⟩ off) s d) ∧
     Gives (.registerWrite ⟨.bar0, .lower, v⟩ off) s
       { s.dev with staging := (r.addr, BitVec.ofNat 32 v.toNat) :: d.staging } ∧
     (∀ lo, s.dev.staged r.addr = some lo → s.dev.get F.RNG_STATUS_STATE 5 = 0 →
       Gives (.registerWrite ⟨.bar0, .upper, v⟩ off) s
         (d.wr r (regAfter r.kind.fields (d.rd r) (v.toNat % 2 ^ 32 * 2 ^ 32 + lo) false false))) ∧
     Gives (.registerWrite ⟨.bar0, .partialBytes, v⟩ off) s (s.dev.regError r.addr none) ∧
     Gives (.registerWrite ⟨.bar0, .full, v⟩ (off + 1)) s (s.dev.regError (r.addr + 1) none) ∧
     Gives (.registerWrite ⟨.window p, .full, v⟩ 0x38) s (s.dev.regError 0x38 (some p.val)) ∧
     (∀ n : Fin 1024, s.dev.ringOf p.val n.val = false → Gives (.ringDoorbell n ⟨.window p, .full, v⟩) s
       (s.dev.violation p.val (RegRef.addr ⟨.RNG_DB, n.val, 0⟩))))) ∧
  ((∀ (be : BitVec 8) (v k : Nat), k < 8 →
     bitsOf (enabledBytes be v) (8 * k) 8 = if be.getLsbD k then bitsOf v (8 * k) 8 else 0) ∧
   (∀ v : Nat, enabledBytes ReadUnit.full.enables v = v % 2 ^ 64 ∧ enabledBytes ReadUnit.lower.enables v = v % 2 ^ 32 ∧
     enabledBytes ReadUnit.upper.enables v = v / 2 ^ 32 % 2 ^ 32 * 2 ^ 32) ∧
   (∀ (d : Dev) (src : RegFrom) (u : ReadUnit) (r : RegRef),
     (d.reaches src r = true → (d.sampleReg src u r).1 = enabledBytes u.enables (d.readShown src r)) ∧
     (d.reaches src r = true → r.kind ≠ .SEC_DG_STATUS → r.kind ≠ .SEC_RNG → r.kind ≠ .SEC_PIT_DATA →
       (d.sampleReg src u r).2 = d) ∧
     (∀ p, src = .window p → d.inWindow p.val r = false → d.sampleReg src u r = (0, d.violation p.val r.addr))) ∧
   (∀ (d : Dev) (u : ReadUnit) (off : Nat) (r : RegRef),
     (barReg (off / 8 * 8) = some r → d.readAt .bar0 u off = d.sampleReg .bar0 u r) ∧
     (off < 0x4000000 → barReg (off / 8 * 8) = none → d.readAt .bar0 u off = (0, d)) ∧
     (pf1Defined off = false → d.readAt .pf1 u off = (0, d)) ∧
     (∀ p : Fin 64, d.windowReg p.val (off / 8 * 8) = none → d.readAt (.window p) u off = (0, d)))) ∧
  ((∀ (s : State) (w : BitVec 8), s.dev.pw.off = false → s.dev.hull.otp.lifecycle ≠ 4 →
     let ws := s.dev.wakers w.toNat
     let seen := s.dev.put F.PWR_WAKE_PENDING (s.dev.get F.PWR_WAKE_PENDING ||| ws)
     (ws = 0 ∨ s.dev.get F.PWR_STATE_STATE ≤ 1 → Gives (.wake w) s s.dev) ∧
     (ws ≠ 0 → s.dev.get F.PWR_STATE_STATE = 2 → Gives (.wake w) s (seen.wakeExit (lowestBit ws))) ∧
     (ws ≠ 0 → s.dev.get F.PWR_STATE_STATE = 3 → s.dev.pw.pwrokLost = true → Gives (.wake w) s seen) ∧
     (ws ≠ 0 → s.dev.get F.PWR_STATE_STATE = 4 → Gives (.wake w) s { seen with pw := { seen.pw with
       latched := seen.pw.latched ||| ws } })))
end

