-- ==== Sys2Proof/Laws/Exec.lean ====
section
/-! SUPPORT. The meaning that each command of the table runs, one lemma for each constructor. -/

namespace Sys2Proof.Machine

@[simp] theorem exec_registerWrite (a : RegAccess) (off : BitVec 27) (s : State) : exec (.registerWrite a off) s = execRegisterWrite a off s := rfl
@[simp] theorem exec_cclkRequest (a : RegAccess) (s : State) : exec (.cclkRequest a) s = execCclkRequest a s := rfl
@[simp] theorem exec_avsCompletion (s : State) : exec (.avsCompletion) s = execAvsCompletion s := rfl
@[simp] theorem exec_avsTimeout (s : State) : exec (.avsTimeout) s = execAvsTimeout s := rfl
@[simp] theorem exec_register (p : Fin 64) (irq : Bool) (addr len : BitVec 64) (s : State) : exec (.register p irq addr len) s = execRegister p irq addr len s := rfl
@[simp] theorem exec_deregister (p : Fin 64) (irq : Bool) (handle : BitVec 64) (s : State) : exec (.deregister p irq handle) s = execDeregister p irq handle s := rfl
@[simp] theorem exec_deregisterTakesEffect (p : Fin 64) (handle : BitVec 32) (s : State) : exec (.deregisterTakesEffect p handle) s = execDeregisterTakesEffect p handle s := rfl
@[simp] theorem exec_query (p : Fin 64) (irq : Bool) (handle : BitVec 64) (s : State) : exec (.query p irq handle) s = execQuery p irq handle s := rfl
@[simp] theorem exec_info (p : Fin 64) (irq : Bool) (s : State) : exec (.info p irq) s = execInfo p irq s := rfl
@[simp] theorem exec_mailboxComplete (p : Fin 64) (s : State) : exec (.mailboxComplete p) s = execMailboxComplete p s := rfl
@[simp] theorem exec_ringEnable (n : Fin 1024) (a : RegAccess) (s : State) : exec (.ringEnable n a) s = execRingEnable n a s := rfl
@[simp] theorem exec_ringDoorbell (n : Fin 1024) (a : RegAccess) (s : State) : exec (.ringDoorbell n a) s = execRingDoorbell n a s := rfl
@[simp] theorem exec_ringPush (n : Fin 1024) (src : RegFrom) (entry : List Byte) (s : State) : exec (.ringPush n src entry) s = execRingPush n src entry s := rfl
@[simp] theorem exec_entryFetch (n : Fin 1024) (poisoned : Bool) (s : State) : exec (.entryFetch n poisoned) s = execEntryFetch n poisoned s := rfl
@[simp] theorem exec_nop (r : RunRef) (s : State) : exec (.nop r) s = execNop r s := rfl
@[simp] theorem exec_run (r : RunRef) (s : State) : exec (.run r) s = execRun r s := rfl
@[simp] theorem exec_convert (r : RunRef) (s : State) : exec (.convert r) s = execConvert r s := rfl
@[simp] theorem exec_placementRetry (s : State) : exec (.placementRetry) s = execPlacementRetry s := rfl
@[simp] theorem exec_pipelineStart (r : RunRef) (pipe : Fin 8) (s : State) : exec (.pipelineStart r pipe) s = execPipelineStart r pipe s := rfl
@[simp] theorem exec_lstepAdvanceEnd (s : State) : exec (.lstepAdvanceEnd) s = execLstepAdvanceEnd s := rfl
@[simp] theorem exec_governorTick (s : State) : exec (.governorTick) s = execGovernorTick s := rfl
@[simp] theorem exec_lstepDeassert (s : State) : exec (.lstepDeassert) s = execLstepDeassert s := rfl
@[simp] theorem exec_scan (w : StageRef) (s : State) : exec (.scan w) s = execScan w s := rfl
@[simp] theorem exec_skip (w : StageRef) (s : State) : exec (.skip w) s = execSkip w s := rfl
@[simp] theorem exec_decode (w : StageRef) (s : State) : exec (.decode w) s = execDecode w s := rfl
@[simp] theorem exec_filter (w : StageRef) (s : State) : exec (.filter w) s = execFilter w s := rfl
@[simp] theorem exec_compute (w : StageRef) (s : State) : exec (.compute w) s = execCompute w s := rfl
@[simp] theorem exec_compact (w : StageRef) (s : State) : exec (.compact w) s = execCompact w s := rfl
@[simp] theorem exec_hash (w : StageRef) (s : State) : exec (.hash w) s = execHash w s := rfl
@[simp] theorem exec_build (w : StageRef) (s : State) : exec (.build w) s = execBuild w s := rfl
@[simp] theorem exec_spillUnloadComplete (p : Fin 64) (rgn : Fin 16) (s : State) : exec (.spillUnloadComplete p rgn) s = execSpillUnloadComplete p rgn s := rfl
@[simp] theorem exec_clearSweepDone (p : Fin 64) (rgn : Fin 16) (s : State) : exec (.clearSweepDone p rgn) s = execClearSweepDone p rgn s := rfl
@[simp] theorem exec_probe (w : StageRef) (s : State) : exec (.probe w) s = execProbe w s := rfl
@[simp] theorem exec_replayStart (p : Fin 64) (rgn : Fin 16) (s : State) : exec (.replayStart p rgn) s = execReplayStart p rgn s := rfl
@[simp] theorem exec_replayWaveDone (p : Fin 64) (rgn : Fin 16) (s : State) : exec (.replayWaveDone p rgn) s = execReplayWaveDone p rgn s := rfl
@[simp] theorem exec_agg (w : StageRef) (s : State) : exec (.agg w) s = execAgg w s := rfl
@[simp] theorem exec_part (w : StageRef) (s : State) : exec (.part w) s = execPart w s := rfl
@[simp] theorem exec_spill (w : StageRef) (s : State) : exec (.spill w) s = execSpill w s := rfl
@[simp] theorem exec_sortrun (w : StageRef) (s : State) : exec (.sortrun w) s = execSortrun w s := rfl
@[simp] theorem exec_mergeRuns (w : StageRef) (s : State) : exec (.mergeRuns w) s = execMergeRuns w s := rfl
@[simp] theorem exec_mergeRegions (w : StageRef) (s : State) : exec (.mergeRegions w) s = execMergeRegions w s := rfl
@[simp] theorem exec_topk (w : StageRef) (s : State) : exec (.topk w) s = execTopk w s := rfl
@[simp] theorem exec_rangeFloor (w : StageRef) (s : State) : exec (.rangeFloor w) s = execRangeFloor w s := rfl
@[simp] theorem exec_rangeExact (w : StageRef) (s : State) : exec (.rangeExact w) s = execRangeExact w s := rfl
@[simp] theorem exec_rangeCover (w : StageRef) (s : State) : exec (.rangeCover w) s = execRangeCover w s := rfl
@[simp] theorem exec_rangeInsert (w : StageRef) (s : State) : exec (.rangeInsert w) s = execRangeInsert w s := rfl
@[simp] theorem exec_rangeDelete (w : StageRef) (s : State) : exec (.rangeDelete w) s = execRangeDelete w s := rfl
@[simp] theorem exec_genMarkingDone (p : Fin 64) (rgn : Fin 16) (s : State) : exec (.genMarkingDone p rgn) s = execGenMarkingDone p rgn s := rfl
@[simp] theorem exec_lookup (w : StageRef) (s : State) : exec (.lookup w) s = execLookup w s := rfl
@[simp] theorem exec_bloomset (w : StageRef) (s : State) : exec (.bloomset w) s = execBloomset w s := rfl
@[simp] theorem exec_bloomtest (w : StageRef) (s : State) : exec (.bloomtest w) s = execBloomtest w s := rfl
@[simp] theorem exec_exchange (w : StageRef) (s : State) : exec (.exchange w) s = execExchange w s := rfl
@[simp] theorem exec_emit (w : StageRef) (s : State) : exec (.emit w) s = execEmit w s := rfl
@[simp] theorem exec_limit (w : StageRef) (s : State) : exec (.limit w) s = execLimit w s := rfl
@[simp] theorem exec_yieldStage (w : StageRef) (s : State) : exec (.yieldStage w) s = execYieldStage w s := rfl
@[simp] theorem exec_yieldTimeout (w : StageRef) (s : State) : exec (.yieldTimeout w) s = execYieldTimeout w s := rfl
@[simp] theorem exec_stopAtBlockBoundary (t : Fin 64) (slot : Fin 4) (s : State) : exec (.stopAtBlockBoundary t slot) s = execStopAtBlockBoundary t slot s := rfl
@[simp] theorem exec_runTimeout (r : RunRef) (s : State) : exec (.runTimeout r) s = execRunTimeout r s := rfl
@[simp] theorem exec_completionWrite (r : RunRef) (s : State) : exec (.completionWrite r) s = execCompletionWrite r s := rfl
@[simp] theorem exec_holdoffExpiry (n : Fin 1024) (s : State) : exec (.holdoffExpiry n) s = execHoldoffExpiry n s := rfl
@[simp] theorem exec_migrateInstance (t : Fin 64) (slot : Fin 4) (s : State) : exec (.migrateInstance t slot) s = execMigrateInstance t slot s := rfl
@[simp] theorem exec_migrationComplete (t : Fin 64) (slot : Fin 4) (s : State) : exec (.migrationComplete t slot) s = execMigrationComplete t slot s := rfl
@[simp] theorem exec_parkInstance (t : Fin 64) (slot : Fin 4) (area : BitVec 52) (s : State) : exec (.parkInstance t slot area) s = execParkInstance t slot area s := rfl
@[simp] theorem exec_restoreParked (t : Fin 64) (slot : Fin 4) (s : State) : exec (.restoreParked t slot) s = execRestoreParked t slot s := rfl
@[simp] theorem exec_instanceQuiesce (t : Fin 64) (slot : Fin 4) (s : State) : exec (.instanceQuiesce t slot) s = execInstanceQuiesce t slot s := rfl
@[simp] theorem exec_dz4400ModeRequest (c : Fin 8) (a : RegAccess) (s : State) : exec (.dz4400ModeRequest c a) s = execDz4400ModeRequest c a s := rfl
@[simp] theorem exec_dz4400ModeSwitch (c : Fin 8) (s : State) : exec (.dz4400ModeSwitch c) s = execDz4400ModeSwitch c s := rfl
@[simp] theorem exec_cleanLine (c : Fin 8) (global : Bool) (addr : BitVec 52) (s : State) : exec (.cleanLine c global addr) s = execCleanLine c global addr s := rfl
@[simp] theorem exec_flushLine (c : Fin 8) (global : Bool) (addr : BitVec 52) (s : State) : exec (.flushLine c global addr) s = execFlushLine c global addr s := rfl
@[simp] theorem exec_discardLine (c : Fin 8) (global : Bool) (addr : BitVec 52) (s : State) : exec (.discardLine c global addr) s = execDiscardLine c global addr s := rfl
@[simp] theorem exec_cleanAll (c : Fin 8) (global : Bool) (s : State) : exec (.cleanAll c global) s = execCleanAll c global s := rfl
@[simp] theorem exec_flushAll (c : Fin 8) (global : Bool) (s : State) : exec (.flushAll c global) s = execFlushAll c global s := rfl
@[simp] theorem exec_maintComplete (c : Fin 8) (s : State) : exec (.maintComplete c) s = execMaintComplete c s := rfl
@[simp] theorem exec_cacheDisable (c : Fin 8) (a : RegAccess) (s : State) : exec (.cacheDisable c a) s = execCacheDisable c a s := rfl
@[simp] theorem exec_cacheEnable (c : Fin 8) (a : RegAccess) (s : State) : exec (.cacheEnable c a) s = execCacheEnable c a s := rfl
@[simp] theorem exec_cacheDisableComplete (c : Fin 8) (s : State) : exec (.cacheDisableComplete c) s = execCacheDisableComplete c s := rfl
@[simp] theorem exec_tsPatrolScrub (t : Fin 64) (off : BitVec 22) (e : Ecc) (s : State) : exec (.tsPatrolScrub t off e) s = execTsPatrolScrub t off e s := rfl
@[simp] theorem exec_tileZeroingDone (t : Fin 64) (s : State) : exec (.tileZeroingDone t) s = execTileZeroingDone t s := rfl
@[simp] theorem exec_rdshared (q : HomeReq) (s : State) : exec (.rdshared q) s = execRdshared q s := rfl
@[simp] theorem exec_rdunique (q : HomeReq) (s : State) : exec (.rdunique q) s = execRdunique q s := rfl
@[simp] theorem exec_upgrade (q : HomeReq) (s : State) : exec (.upgrade q) s = execUpgrade q s := rfl
@[simp] theorem exec_rdonce (q : HomeReq) (s : State) : exec (.rdonce q) s = execRdonce q s := rfl
@[simp] theorem exec_wrfull (q : HomeReq) (data : Bytes64) (s : State) : exec (.wrfull q data) s = execWrfull q data s := rfl
@[simp] theorem exec_wrpart (q : HomeReq) (data : Bytes64) (be : BitVec 64) (s : State) : exec (.wrpart q data be) s = execWrpart q data be s := rfl
@[simp] theorem exec_atomic (q : HomeReq) (op : AtomicOp) (operand compare : BitVec 64) (cached : Bool) (s : State) : exec (.atomic q op operand compare cached) s = execAtomic q op operand compare cached s := rfl
@[simp] theorem exec_wrback (q : HomeReq) (data : Bytes64) (poison : Poison) (s : State) : exec (.wrback q data poison) s = execWrback q data poison s := rfl
@[simp] theorem exec_snpshared (agent : Fin 24) (sector : BitVec 52) (s : State) : exec (.snpshared agent sector) s = execSnpshared agent sector s := rfl
@[simp] theorem exec_snpinv (agent : Fin 24) (sector : BitVec 52) (s : State) : exec (.snpinv agent sector) s = execSnpinv agent sector s := rfl
@[simp] theorem exec_snpstash (c : Fin 8) (addr : BitVec 52) (s : State) : exec (.snpstash c addr) s = execSnpstash c addr s := rfl
@[simp] theorem exec_datas (agent : Fin 16) (addr : BitVec 52) (poison : Poison) (s : State) : exec (.datas agent addr poison) s = execDatas agent addr poison s := rfl
@[simp] theorem exec_datae (agent : Fin 16) (addr : BitVec 52) (poison : Poison) (s : State) : exec (.datae agent addr poison) s = execDatae agent addr poison s := rfl
@[simp] theorem exec_cmp (agent : Fin 16) (addr : BitVec 52) (s : State) : exec (.cmp agent addr) s = execCmp agent addr s := rfl
@[simp] theorem exec_wback (c : Fin 8) (addr : BitVec 52) (s : State) : exec (.wback c addr) s = execWback c addr s := rfl
@[simp] theorem exec_rspdata (agent : Fin 24) (sector : BitVec 52) (lines : Vector (Option Bytes64) 4) (s : State) : exec (.rspdata agent sector lines) s = execRspdata agent sector lines s := rfl
@[simp] theorem exec_rspclean (agent : Fin 24) (sector : BitVec 52) (s : State) : exec (.rspclean agent sector) s = execRspclean agent sector s := rfl
@[simp] theorem exec_rspmiss (agent : Fin 24) (sector : BitVec 52) (s : State) : exec (.rspmiss agent sector) s = execRspmiss agent sector s := rfl
@[simp] theorem exec_dirRetry (slice : Fin 16) (s : State) : exec (.dirRetry slice) s = execDirRetry slice s := rfl
@[simp] theorem exec_scrubComplete (s : State) : exec (.scrubComplete) s = execScrubComplete s := rfl
@[simp] theorem exec_trainingComplete (dimms : Dimms) (verified : Bool) (s : State) : exec (.trainingComplete dimms verified) s = execTrainingComplete dimms verified s := rfl
@[simp] theorem exec_trainingFail (ch : Fin 16) (step : Fin 10) (dimms : Dimms) (s : State) : exec (.trainingFail ch step dimms) s = execTrainingFail ch step dimms s := rfl
@[simp] theorem exec_refresh (ch : Fin 16) (sub : Fin 2) (trfc : BitVec 16) (s : State) : exec (.refresh ch sub trfc) s = execRefresh ch sub trfc s := rfl
@[simp] theorem exec_dimmThermalPoll (ch : Fin 16) (temps : List (BitVec 8)) (s : State) : exec (.dimmThermalPoll ch temps) s = execDimmThermalPoll ch temps s := rfl
@[simp] theorem exec_zqCalibration (ch : Fin 16) (s : State) : exec (.zqCalibration ch) s = execZqCalibration ch s := rfl
@[simp] theorem exec_retrainPass (ch : Fin 16) (s : State) : exec (.retrainPass ch) s = execRetrainPass ch s := rfl
@[simp] theorem exec_grantOpportunity (ch : Fin 16) (s : State) : exec (.grantOpportunity ch) s = execGrantOpportunity ch s := rfl
@[simp] theorem exec_readIssue (ch : Fin 16) (e : Ecc) (s : State) : exec (.readIssue ch e) s = execReadIssue ch e s := rfl
@[simp] theorem exec_readAging (ch : Fin 16) (s : State) : exec (.readAging ch) s = execReadAging ch s := rfl
@[simp] theorem exec_writeDrain (ch : Fin 16) (s : State) : exec (.writeDrain ch) s = execWriteDrain ch s := rfl
@[simp] theorem exec_readIdleDrain (ch : Fin 16) (s : State) : exec (.readIdleDrain ch) s = execReadIdleDrain ch s := rfl
@[simp] theorem exec_rowIdleClose (ch : Fin 16) (sub : Fin 2) (bank : Fin 128) (s : State) : exec (.rowIdleClose ch sub bank) s = execRowIdleClose ch sub bank s := rfl
@[simp] theorem exec_slotCommit (ch : Fin 16) (a : RegAccess) (s : State) : exec (.slotCommit ch a) s = execSlotCommit ch a s := rfl
@[simp] theorem exec_slotCommitApply (ch : Fin 16) (s : State) : exec (.slotCommitApply ch) s = execSlotCommitApply ch s := rfl
@[simp] theorem exec_watermarkWrite (ch : Fin 16) (a : RegAccess) (s : State) : exec (.watermarkWrite ch a) s = execWatermarkWrite ch a s := rfl
@[simp] theorem exec_dmaEnable (n : Fin 32) (a : RegAccess) (s : State) : exec (.dmaEnable n a) s = execDmaEnable n a s := rfl
@[simp] theorem exec_dmaDisable (n : Fin 32) (a : RegAccess) (s : State) : exec (.dmaDisable n a) s = execDmaDisable n a s := rfl
@[simp] theorem exec_dmaTail (n : Fin 32) (a : RegAccess) (s : State) : exec (.dmaTail n a) s = execDmaTail n a s := rfl
@[simp] theorem exec_dmaRestart (n : Fin 32) (a : RegAccess) (s : State) : exec (.dmaRestart n a) s = execDmaRestart n a s := rfl
@[simp] theorem exec_dmaNop (n : Fin 32) (s : State) : exec (.dmaNop n) s = execDmaNop n s := rfl
@[simp] theorem exec_dmaCopy (n : Fin 32) (s : State) : exec (.dmaCopy n) s = execDmaCopy n s := rfl
@[simp] theorem exec_dmaFill (n : Fin 32) (s : State) : exec (.dmaFill n) s = execDmaFill n s := rfl
@[simp] theorem exec_dmaCjob (n : Fin 32) (s : State) : exec (.dmaCjob n) s = execDmaCjob n s := rfl
@[simp] theorem exec_dmaBeat (fault : Bool) (s : State) : exec (.dmaBeat fault) s = execDmaBeat fault s := rfl
@[simp] theorem exec_dmaReadbackDone (n : Fin 32) (s : State) : exec (.dmaReadbackDone n) s = execDmaReadbackDone n s := rfl
@[simp] theorem exec_engineTakeJob (e : Fin 8) (s : State) : exec (.engineTakeJob e) s = execEngineTakeJob e s := rfl
@[simp] theorem exec_decompress (e : Fin 8) (fault : Bool) (s : State) : exec (.decompress e fault) s = execDecompress e fault s := rfl
@[simp] theorem exec_compress (e : Fin 8) (fault : Bool) (s : State) : exec (.compress e fault) s = execCompress e fault s := rfl
@[simp] theorem exec_jobStop (e : Fin 8) (s : State) : exec (.jobStop e) s = execJobStop e s := rfl
@[simp] theorem exec_jdrRegionClear (p : Fin 64) (a : RegAccess) (s : State) : exec (.jdrRegionClear p a) s = execJdrRegionClear p a s := rfl
@[simp] theorem exec_rdrRegionClear (p : Fin 64) (a : RegAccess) (s : State) : exec (.rdrRegionClear p a) s = execRdrRegionClear p a s := rfl
@[simp] theorem exec_rdrClearDone (p : Fin 64) (rgn : Fin 16) (s : State) : exec (.rdrClearDone p rgn) s = execRdrClearDone p rgn s := rfl
@[simp] theorem exec_rdrRegionCfg (p : Fin 64) (rgn : Fin 16) (a : RegAccess) (s : State) : exec (.rdrRegionCfg p rgn a) s = execRdrRegionCfg p rgn a s := rfl
@[simp] theorem exec_creditRequest (x : XRef) (s : State) : exec (.creditRequest x) s = execCreditRequest x s := rfl
@[simp] theorem exec_creditGrant (x : XRef) (s : State) : exec (.creditGrant x) s = execCreditGrant x s := rfl
@[simp] theorem exec_creditHold (x : XRef) (s : State) : exec (.creditHold x) s = execCreditHold x s := rfl
@[simp] theorem exec_holdRepeat (x : XRef) (s : State) : exec (.holdRepeat x) s = execHoldRepeat x s := rfl
@[simp] theorem exec_creditTimeout (x : XRef) (s : State) : exec (.creditTimeout x) s = execCreditTimeout x s := rfl
@[simp] theorem exec_exchangePacket (x : XRef) (rows : List XRow) (s : State) : exec (.exchangePacket x rows) s = execExchangePacket x rows s := rfl
@[simp] theorem exec_endMarker (x : XRef) (s : State) : exec (.endMarker x) s = execEndMarker x s := rfl
@[simp] theorem exec_pf0Flr (s : State) : exec (.pf0Flr) s = execPf0Flr s := rfl
@[simp] theorem exec_pf1Flr (s : State) : exec (.pf1Flr) s = execPf1Flr s := rfl
@[simp] theorem exec_configRequest (pf1 : Bool) (reg : BitVec 12) (s : State) : exec (.configRequest pf1 reg) s = execConfigRequest pf1 reg s := rfl
@[simp] theorem exec_hostLinkUp (speed : Fin 6) (width : Fin 5) (flit : Bool) (s : State) : exec (.hostLinkUp speed width flit) s = execHostLinkUp speed width flit s := rfl
@[simp] theorem exec_atsInvalidate (pasid : BitVec 20) (page : BitVec 52) (pages : BitVec 32) (s : State) : exec (.atsInvalidate pasid page pages) s = execAtsInvalidate pasid page pages s := rfl
@[simp] theorem exec_pageRequestTimeout (pasid : BitVec 20) (page : BitVec 52) (s : State) : exec (.pageRequestTimeout pasid page) s = execPageRequestTimeout pasid page s := rfl
@[simp] theorem exec_bar4Read (off : BitVec 48) (len : Fin 4097) (s : State) : exec (.bar4Read off len) s = execBar4Read off len s := rfl
@[simp] theorem exec_bar4Write (off : BitVec 48) (data : List Byte) (tag : Option (BitVec 8)) (s : State) : exec (.bar4Write off data tag) s = execBar4Write off data tag s := rfl
@[simp] theorem exec_hostMemrd (addr : BitVec 52) (mv : MetaValue) (s : State) : exec (.hostMemrd addr mv) s = execHostMemrd addr mv s := rfl
@[simp] theorem exec_hostMemwr (addr : BitVec 52) (data : Bytes64) (poison : Poison) (s : State) : exec (.hostMemwr addr data poison) s = execHostMemwr addr data poison s := rfl
@[simp] theorem exec_hostSnpdata (addr : BitVec 52) (s : State) : exec (.hostSnpdata addr) s = execHostSnpdata addr s := rfl
@[simp] theorem exec_hostSnpinv (addr : BitVec 52) (s : State) : exec (.hostSnpinv addr) s = execHostSnpinv addr s := rfl
@[simp] theorem exec_hostSnpcur (addr : BitVec 52) (s : State) : exec (.hostSnpcur addr) s = execHostSnpcur addr s := rfl
@[simp] theorem exec_hostSnoopTimeout (s : State) : exec (.hostSnoopTimeout) s = execHostSnoopTimeout s := rfl
@[simp] theorem exec_hostLinkDown (s : State) : exec (.hostLinkDown) s = execHostLinkDown s := rfl
@[simp] theorem exec_hostCxlEnable (s : State) : exec (.hostCxlEnable) s = execHostCxlEnable s := rfl
@[simp] theorem exec_vectorUnmask (pf1 : Bool) (vec : Fin 2048) (s : State) : exec (.vectorUnmask pf1 vec) s = execVectorUnmask pf1 vec s := rfl
@[simp] theorem exec_ptmDialogue (offset : Int) (s : State) : exec (.ptmDialogue offset) s = execPtmDialogue offset s := rfl
@[simp] theorem exec_controllerEnable (s : State) : exec (.controllerEnable) s = execControllerEnable s := rfl
@[simp] theorem exec_controllerReset (s : State) : exec (.controllerReset) s = execControllerReset s := rfl
@[simp] theorem exec_nvmeSqDoorbell (q : Fin 65) (tail : BitVec 16) (s : State) : exec (.nvmeSqDoorbell q tail) s = execNvmeSqDoorbell q tail s := rfl
@[simp] theorem exec_nvmeCqDoorbell (q : Fin 65) (head : BitVec 16) (s : State) : exec (.nvmeCqDoorbell q head) s = execNvmeCqDoorbell q head s := rfl
@[simp] theorem exec_createIoSq (cid : BitVec 16) (q : BitVec 16) (size : BitVec 16) (cq : BitVec 16) (pc : Bool) (base : BitVec 64) (s : State) : exec (.createIoSq cid q size cq pc base) s = execCreateIoSq cid q size cq pc base s := rfl
@[simp] theorem exec_createIoCq (cid : BitVec 16) (q : BitVec 16) (size : BitVec 16) (vec : BitVec 16) (ien pc : Bool) (base : BitVec 64) (s : State) : exec (.createIoCq cid q size vec ien pc base) s = execCreateIoCq cid q size vec ien pc base s := rfl
@[simp] theorem exec_deleteIoSq (cid : BitVec 16) (q : BitVec 16) (s : State) : exec (.deleteIoSq cid q) s = execDeleteIoSq cid q s := rfl
@[simp] theorem exec_deleteIoCq (cid : BitVec 16) (q : BitVec 16) (s : State) : exec (.deleteIoCq cid q) s = execDeleteIoCq cid q s := rfl
@[simp] theorem exec_getLogPage (cid : BitVec 16) (lid : BitVec 8) (bytes : BitVec 16) (prps : List (BitVec 64)) (s : State) : exec (.getLogPage cid lid bytes prps) s = execGetLogPage cid lid bytes prps s := rfl
@[simp] theorem exec_identify (cid : BitVec 16) (cns : BitVec 8) (nsid : BitVec 32) (prps : List (BitVec 64)) (s : State) : exec (.identify cid cns nsid prps) s = execIdentify cid cns nsid prps s := rfl
@[simp] theorem exec_abort (cid : BitVec 16) (sqid : BitVec 16) (target : BitVec 16) (s : State) : exec (.abort cid sqid target) s = execAbort cid sqid target s := rfl
@[simp] theorem exec_setFeatures (cid : BitVec 16) (fid : BitVec 8) (save : Bool) (dw11 : BitVec 32) (s : State) : exec (.setFeatures cid fid save dw11) s = execSetFeatures cid fid save dw11 s := rfl
@[simp] theorem exec_getFeatures (cid : BitVec 16) (fid : BitVec 8) (s : State) : exec (.getFeatures cid fid) s = execGetFeatures cid fid s := rfl
@[simp] theorem exec_namespaceCreate (cid : BitVec 16) (nsze ncap : BitVec 64) (flbas dps nmic : BitVec 8) (s : State) : exec (.namespaceCreate cid nsze ncap flbas dps nmic) s = execNamespaceCreate cid nsze ncap flbas dps nmic s := rfl
@[simp] theorem exec_namespaceZeroingDone (nsid : BitVec 32) (s : State) : exec (.namespaceZeroingDone nsid) s = execNamespaceZeroingDone nsid s := rfl
@[simp] theorem exec_namespaceDelete (cid : BitVec 16) (nsid : BitVec 32) (s : State) : exec (.namespaceDelete cid nsid) s = execNamespaceDelete cid nsid s := rfl
@[simp] theorem exec_namespaceAttachment (cid : BitVec 16) (nsid : BitVec 32) (attach : Bool) (ctrl : BitVec 16) (s : State) : exec (.namespaceAttachment cid nsid attach ctrl) s = execNamespaceAttachment cid nsid attach ctrl s := rfl
@[simp] theorem exec_nvmeInvalidOpcode (sq : Fin 65) (cid : BitVec 16) (s : State) : exec (.nvmeInvalidOpcode sq cid) s = execNvmeInvalidOpcode sq cid s := rfl
@[simp] theorem exec_write (io : NvmeIo) (s : State) : exec (.write io) s = execWrite io s := rfl
@[simp] theorem exec_read (io : NvmeIo) (s : State) : exec (.read io) s = execRead io s := rfl
@[simp] theorem exec_flush (sq : Fin 65) (cid : BitVec 16) (nsid : BitVec 32) (s : State) : exec (.flush sq cid nsid) s = execFlush sq cid nsid s := rfl
@[simp] theorem exec_writeZeroes (io : NvmeIo) (s : State) : exec (.writeZeroes io) s = execWriteZeroes io s := rfl
@[simp] theorem exec_writeBufferDrain (s : State) : exec (.writeBufferDrain) s = execWriteBufferDrain s := rfl
@[simp] theorem exec_ingPoolWrite (m : Fin 16) (a : RegAccess) (s : State) : exec (.ingPoolWrite m a) s = execIngPoolWrite m a s := rfl
@[simp] theorem exec_podCreate (p : Fin 64) (s : State) : exec (.podCreate p) s = execPodCreate p s := rfl
@[simp] theorem exec_podCreateDone (p : Fin 64) (s : State) : exec (.podCreateDone p) s = execPodCreateDone p s := rfl
@[simp] theorem exec_podDestroy (p : Fin 64) (s : State) : exec (.podDestroy p) s = execPodDestroy p s := rfl
@[simp] theorem exec_podDestroyDone (p : Fin 64) (s : State) : exec (.podDestroyDone p) s = execPodDestroyDone p s := rfl
@[simp] theorem exec_podReset (p : Fin 64) (s : State) : exec (.podReset p) s = execPodReset p s := rfl
@[simp] theorem exec_podResetDone (p : Fin 64) (s : State) : exec (.podResetDone p) s = execPodResetDone p s := rfl
@[simp] theorem exec_podQuiesce (p : Fin 64) (s : State) : exec (.podQuiesce p) s = execPodQuiesce p s := rfl
@[simp] theorem exec_podQuiesced (p : Fin 64) (s : State) : exec (.podQuiesced p) s = execPodQuiesced p s := rfl
@[simp] theorem exec_podResume (p : Fin 64) (s : State) : exec (.podResume p) s = execPodResume p s := rfl
@[simp] theorem exec_podSave (p : Fin 64) (s : State) : exec (.podSave p) s = execPodSave p s := rfl
@[simp] theorem exec_podSaveDone (p : Fin 64) (s : State) : exec (.podSaveDone p) s = execPodSaveDone p s := rfl
@[simp] theorem exec_podRestore (p : Fin 64) (s : State) : exec (.podRestore p) s = execPodRestore p s := rfl
@[simp] theorem exec_podRestoreDone (p : Fin 64) (s : State) : exec (.podRestoreDone p) s = execPodRestoreDone p s := rfl
@[simp] theorem exec_logSwap (p : Fin 64) (s : State) : exec (.logSwap p) s = execLogSwap p s := rfl
@[simp] theorem exec_logSwapDone (p : Fin 64) (s : State) : exec (.logSwapDone p) s = execLogSwapDone p s := rfl
@[simp] theorem exec_spanCfgLock (a : RegAccess) (s : State) : exec (.spanCfgLock a) s = execSpanCfgLock a s := rfl
@[simp] theorem exec_portEnable (k : Fin 4) (s : State) : exec (.portEnable k) s = execPortEnable k s := rfl
@[simp] theorem exec_portDisable (k : Fin 4) (s : State) : exec (.portDisable k) s = execPortDisable k s := rfl
@[simp] theorem exec_portRetrain (k : Fin 4) (s : State) : exec (.portRetrain k) s = execPortRetrain k s := rfl
@[simp] theorem exec_portSignalDetect (k : Fin 4) (s : State) : exec (.portSignalDetect k) s = execPortSignalDetect k s := rfl
@[simp] theorem exec_portTrainComplete (k : Fin 4) (width : Fin 4) (s : State) : exec (.portTrainComplete k width) s = execPortTrainComplete k width s := rfl
@[simp] theorem exec_portTrainFail (k : Fin 4) (half : Option (Fin 2)) (s : State) : exec (.portTrainFail k half) s = execPortTrainFail k half s := rfl
@[simp] theorem exec_portParameters (k : Fin 4) (nbr : NbrParams) (s : State) : exec (.portParameters k nbr) s = execPortParameters k nbr s := rfl
@[simp] theorem exec_codeword (k : Fin 4) (header : BitVec 20) (errors : BitVec 8) (s : State) : exec (.codeword k header errors) s = execCodeword k header errors s := rfl
@[simp] theorem exec_flit (k : Fin 4) (f : FlitHeader) (s : State) : exec (.flit k f) s = execFlit k f s := rfl
@[simp] theorem exec_lpreq (k : Fin 4) (s : State) : exec (.lpreq k) s = execLpreq k s := rfl
@[simp] theorem exec_lpack (k : Fin 4) (s : State) : exec (.lpack k) s = execLpack k s := rfl
@[simp] theorem exec_lpackTimeout (k : Fin 4) (s : State) : exec (.lpackTimeout k) s = execLpackTimeout k s := rfl
@[simp] theorem exec_wakePattern (k : Fin 4) (s : State) : exec (.wakePattern k) s = execWakePattern k s := rfl
@[simp] theorem exec_helloSend (s : State) : exec (.helloSend) s = execHelloSend s := rfl
@[simp] theorem exec_hello (d : Fin 8) (s : State) : exec (.hello d) s = execHello d s := rfl
@[simp] theorem exec_linkstate (d : Fin 8) (nbrs : List (Fin 4 × Fin 8)) (s : State) : exec (.linkstate d nbrs) s = execLinkstate d nbrs s := rfl
@[simp] theorem exec_pathLost (d : Fin 8) (s : State) : exec (.pathLost d) s = execPathLost d s := rfl
@[simp] theorem exec_fenceMessage (d : Fin 8) (named : Fin 8) (selfFence clean : Bool) (s : State) : exec (.fenceMessage d named selfFence clean) s = execFenceMessage d named selfFence clean s := rfl
@[simp] theorem exec_peerTimeout (d : Fin 8) (s : State) : exec (.peerTimeout d) s = execPeerTimeout d s := rfl
@[simp] theorem exec_readmitPermit (a : RegAccess) (s : State) : exec (.readmitPermit a) s = execReadmitPermit a s := rfl
@[simp] theorem exec_ready (d : Fin 8) (s : State) : exec (.ready d) s = execReady d s := rfl
@[simp] theorem exec_join (d : Fin 8) (group : BitVec 16) (tag : BitVec 64) (crc : BitVec 32) (counts : List (BitVec 8)) (s : State) : exec (.join d group tag crc counts) s = execJoin d group tag crc counts s := rfl
@[simp] theorem exec_joinTimeout (r : RunRef) (s : State) : exec (.joinTimeout r) s = execJoinTimeout r s := rfl
@[simp] theorem exec_joinHoldExpiry (d : Fin 8) (group : BitVec 16) (tag : BitVec 64) (s : State) : exec (.joinHoldExpiry d group tag) s = execJoinHoldExpiry d group tag s := rfl
@[simp] theorem exec_pipeDone (d : Fin 8) (group : BitVec 16) (tag : BitVec 64) (pipe : Fin 8) (s : State) : exec (.pipeDone d group tag pipe) s = execPipeDone d group tag pipe s := rfl
@[simp] theorem exec_abortMessage (d : Fin 8) (group : BitVec 16) (tag : BitVec 64) (status : BitVec 16) (detail : BitVec 32) (s : State) : exec (.abortMessage d group tag status detail) s = execAbortMessage d group tag status detail s := rfl
@[simp] theorem exec_lockstepMiscompare (core : Fin 8) (s : State) : exec (.lockstepMiscompare core) s = execLockstepMiscompare core s := rfl
@[simp] theorem exec_ctlAdd (f : RFmt) (s : State) : exec (.ctlAdd f) s = execCtlAdd f s := rfl
@[simp] theorem exec_ctlSub (f : RFmt) (s : State) : exec (.ctlSub f) s = execCtlSub f s := rfl
@[simp] theorem exec_ctlAnd (f : RFmt) (s : State) : exec (.ctlAnd f) s = execCtlAnd f s := rfl
@[simp] theorem exec_ctlOr (f : RFmt) (s : State) : exec (.ctlOr f) s = execCtlOr f s := rfl
@[simp] theorem exec_ctlXor (f : RFmt) (s : State) : exec (.ctlXor f) s = execCtlXor f s := rfl
@[simp] theorem exec_ctlSll (f : RFmt) (s : State) : exec (.ctlSll f) s = execCtlSll f s := rfl
@[simp] theorem exec_ctlSrl (f : RFmt) (s : State) : exec (.ctlSrl f) s = execCtlSrl f s := rfl
@[simp] theorem exec_ctlSra (f : RFmt) (s : State) : exec (.ctlSra f) s = execCtlSra f s := rfl
@[simp] theorem exec_ctlSlt (f : RFmt) (s : State) : exec (.ctlSlt f) s = execCtlSlt f s := rfl
@[simp] theorem exec_ctlSltu (f : RFmt) (s : State) : exec (.ctlSltu f) s = execCtlSltu f s := rfl
@[simp] theorem exec_ctlMul (f : RFmt) (s : State) : exec (.ctlMul f) s = execCtlMul f s := rfl
@[simp] theorem exec_ctlMulhu (f : RFmt) (s : State) : exec (.ctlMulhu f) s = execCtlMulhu f s := rfl
@[simp] theorem exec_ctlDivu (f : RFmt) (s : State) : exec (.ctlDivu f) s = execCtlDivu f s := rfl
@[simp] theorem exec_ctlRemu (f : RFmt) (s : State) : exec (.ctlRemu f) s = execCtlRemu f s := rfl
@[simp] theorem exec_ctlDivs (f : RFmt) (s : State) : exec (.ctlDivs f) s = execCtlDivs f s := rfl
@[simp] theorem exec_ctlRems (f : RFmt) (s : State) : exec (.ctlRems f) s = execCtlRems f s := rfl
@[simp] theorem exec_ctlAddi (f : IFmt) (s : State) : exec (.ctlAddi f) s = execCtlAddi f s := rfl
@[simp] theorem exec_ctlAndi (f : IFmt) (s : State) : exec (.ctlAndi f) s = execCtlAndi f s := rfl
@[simp] theorem exec_ctlOri (f : IFmt) (s : State) : exec (.ctlOri f) s = execCtlOri f s := rfl
@[simp] theorem exec_ctlXori (f : IFmt) (s : State) : exec (.ctlXori f) s = execCtlXori f s := rfl
@[simp] theorem exec_ctlShiSll (f : ShiFmt) (s : State) : exec (.ctlShiSll f) s = execCtlShiSll f s := rfl
@[simp] theorem exec_ctlShiSrl (f : ShiFmt) (s : State) : exec (.ctlShiSrl f) s = execCtlShiSrl f s := rfl
@[simp] theorem exec_ctlShiSra (f : ShiFmt) (s : State) : exec (.ctlShiSra f) s = execCtlShiSra f s := rfl
@[simp] theorem exec_ctlMovz (f : MovFmt) (s : State) : exec (.ctlMovz f) s = execCtlMovz f s := rfl
@[simp] theorem exec_ctlMovk (f : MovFmt) (s : State) : exec (.ctlMovk f) s = execCtlMovk f s := rfl
@[simp] theorem exec_ctlLdu8 (f : IFmt) (s : State) : exec (.ctlLdu8 f) s = execCtlLdu8 f s := rfl
@[simp] theorem exec_ctlLdu16 (f : IFmt) (s : State) : exec (.ctlLdu16 f) s = execCtlLdu16 f s := rfl
@[simp] theorem exec_ctlLdu32 (f : IFmt) (s : State) : exec (.ctlLdu32 f) s = execCtlLdu32 f s := rfl
@[simp] theorem exec_ctlLd64 (f : IFmt) (s : State) : exec (.ctlLd64 f) s = execCtlLd64 f s := rfl
@[simp] theorem exec_ctlLds8 (f : IFmt) (s : State) : exec (.ctlLds8 f) s = execCtlLds8 f s := rfl
@[simp] theorem exec_ctlLds16 (f : IFmt) (s : State) : exec (.ctlLds16 f) s = execCtlLds16 f s := rfl
@[simp] theorem exec_ctlLds32 (f : IFmt) (s : State) : exec (.ctlLds32 f) s = execCtlLds32 f s := rfl
@[simp] theorem exec_ctlSt8 (f : IFmt) (s : State) : exec (.ctlSt8 f) s = execCtlSt8 f s := rfl
@[simp] theorem exec_ctlSt16 (f : IFmt) (s : State) : exec (.ctlSt16 f) s = execCtlSt16 f s := rfl
@[simp] theorem exec_ctlSt32 (f : IFmt) (s : State) : exec (.ctlSt32 f) s = execCtlSt32 f s := rfl
@[simp] theorem exec_ctlSt64 (f : IFmt) (s : State) : exec (.ctlSt64 f) s = execCtlSt64 f s := rfl
@[simp] theorem exec_ctlSwap (f : RFmt) (s : State) : exec (.ctlSwap f) s = execCtlSwap f s := rfl
@[simp] theorem exec_ctlAadd (f : RFmt) (s : State) : exec (.ctlAadd f) s = execCtlAadd f s := rfl
@[simp] theorem exec_ctlAand (f : RFmt) (s : State) : exec (.ctlAand f) s = execCtlAand f s := rfl
@[simp] theorem exec_ctlAor (f : RFmt) (s : State) : exec (.ctlAor f) s = execCtlAor f s := rfl
@[simp] theorem exec_ctlCas (f : RFmt) (s : State) : exec (.ctlCas f) s = execCtlCas f s := rfl
@[simp] theorem exec_ctlFence (core : Fin 8) (s : State) : exec (.ctlFence core) s = execCtlFence core s := rfl
@[simp] theorem exec_ctlBeq (f : BFmt) (s : State) : exec (.ctlBeq f) s = execCtlBeq f s := rfl
@[simp] theorem exec_ctlBne (f : BFmt) (s : State) : exec (.ctlBne f) s = execCtlBne f s := rfl
@[simp] theorem exec_ctlBlt (f : BFmt) (s : State) : exec (.ctlBlt f) s = execCtlBlt f s := rfl
@[simp] theorem exec_ctlBge (f : BFmt) (s : State) : exec (.ctlBge f) s = execCtlBge f s := rfl
@[simp] theorem exec_ctlBltu (f : BFmt) (s : State) : exec (.ctlBltu f) s = execCtlBltu f s := rfl
@[simp] theorem exec_ctlBgeu (f : BFmt) (s : State) : exec (.ctlBgeu f) s = execCtlBgeu f s := rfl
@[simp] theorem exec_ctlJal (core : Fin 8) (off : BitVec 26) (s : State) : exec (.ctlJal core off) s = execCtlJal core off s := rfl
@[simp] theorem exec_ctlJalr (f : IFmt) (s : State) : exec (.ctlJalr f) s = execCtlJalr f s := rfl
@[simp] theorem exec_ctlCsrr (f : IFmt) (s : State) : exec (.ctlCsrr f) s = execCtlCsrr f s := rfl
@[simp] theorem exec_ctlCsrw (f : IFmt) (s : State) : exec (.ctlCsrw f) s = execCtlCsrw f s := rfl
@[simp] theorem exec_ctlKrd (f : RFmt) (s : State) : exec (.ctlKrd f) s = execCtlKrd f s := rfl
@[simp] theorem exec_ctlKwr (f : RFmt) (s : State) : exec (.ctlKwr f) s = execCtlKwr f s := rfl
@[simp] theorem exec_ctlResume (core : Fin 8) (s : State) : exec (.ctlResume core) s = execCtlResume core s := rfl
@[simp] theorem exec_ctlExit (core : Fin 8) (s : State) : exec (.ctlExit core) s = execCtlExit core s := rfl
@[simp] theorem exec_ctlYieldcpu (core : Fin 8) (s : State) : exec (.ctlYieldcpu core) s = execCtlYieldcpu core s := rfl
@[simp] theorem exec_ctlSleep (f : RFmt) (s : State) : exec (.ctlSleep f) s = execCtlSleep f s := rfl
@[simp] theorem exec_ctlWait (f : RFmt) (s : State) : exec (.ctlWait f) s = execCtlWait f s := rfl
@[simp] theorem exec_ctlPost (f : RFmt) (s : State) : exec (.ctlPost f) s = execCtlPost f s := rfl
@[simp] theorem exec_ctlSpawn (f : RFmt) (s : State) : exec (.ctlSpawn f) s = execCtlSpawn f s := rfl
@[simp] theorem exec_ctlSetpri (f : RFmt) (s : State) : exec (.ctlSetpri f) s = execCtlSetpri f s := rfl
@[simp] theorem exec_ctlSelf (f : RFmt) (s : State) : exec (.ctlSelf f) s = execCtlSelf f s := rfl
@[simp] theorem exec_ctlNow (f : RFmt) (s : State) : exec (.ctlNow f) s = execCtlNow f s := rfl
@[simp] theorem exec_ctlLock (f : RFmt) (s : State) : exec (.ctlLock f) s = execCtlLock f s := rfl
@[simp] theorem exec_ctlTrylock (f : RFmt) (s : State) : exec (.ctlTrylock f) s = execCtlTrylock f s := rfl
@[simp] theorem exec_ctlUnlock (f : RFmt) (s : State) : exec (.ctlUnlock f) s = execCtlUnlock f s := rfl
@[simp] theorem exec_ctlClrpoison (f : RFmt) (s : State) : exec (.ctlClrpoison f) s = execCtlClrpoison f s := rfl
@[simp] theorem exec_tick (s : State) : exec (.tick) s = execTick s := rfl
@[simp] theorem exec_timeSlice (core : Fin 8) (s : State) : exec (.timeSlice core) s = execTimeSlice core s := rfl
@[simp] theorem exec_powerLimitTick (watts : BitVec 16) (s : State) : exec (.powerLimitTick watts) s = execPowerLimitTick watts s := rfl
@[simp] theorem exec_thermalTick (tj : BitVec 8) (s : State) : exec (.thermalTick tj) s = execThermalTick tj s := rfl
@[simp] theorem exec_thermalTrip (sensor : Fin 40) (reading : BitVec 8) (s : State) : exec (.thermalTrip sensor reading) s = execThermalTrip sensor reading s := rfl
@[simp] theorem exec_droopDetect (c : Fin 8) (s : State) : exec (.droopDetect c) s = execDroopDetect c s := rfl
@[simp] theorem exec_droopRecover (c : Fin 8) (s : State) : exec (.droopRecover c) s = execDroopRecover c s := rfl
@[simp] theorem exec_p1Entry (s : State) : exec (.p1Entry) s = execP1Entry s := rfl
@[simp] theorem exec_p1Exit (s : State) : exec (.p1Exit) s = execP1Exit s := rfl
@[simp] theorem exec_requestS1 (s : State) : exec (.requestS1) s = execRequestS1 s := rfl
@[simp] theorem exec_requestS2 (s : State) : exec (.requestS2) s = execRequestS2 s := rfl
@[simp] theorem exec_requestP0 (s : State) : exec (.requestP0) s = execRequestP0 s := rfl
@[simp] theorem exec_powerEntryComplete (s : State) : exec (.powerEntryComplete) s = execPowerEntryComplete s := rfl
@[simp] theorem exec_wake (sources : BitVec 8) (s : State) : exec (.wake sources) s = execWake sources s := rfl
@[simp] theorem exec_exitStepReady (tj : BitVec 8) (s : State) : exec (.exitStepReady tj) s = execExitStepReady tj s := rfl
@[simp] theorem exec_brownout (s : State) : exec (.brownout) s = execBrownout s := rfl
@[simp] theorem exec_powerOnReset (s : State) : exec (.powerOnReset) s = execPowerOnReset s := rfl
@[simp] theorem exec_coldReset (cmd : Bool) (s : State) : exec (.coldReset cmd) s = execColdReset cmd s := rfl
@[simp] theorem exec_warmReset (cmd : Bool) (s : State) : exec (.warmReset cmd) s = execWarmReset cmd s := rfl
@[simp] theorem exec_pwrokLoss (s : State) : exec (.pwrokLoss) s = execPwrokLoss s := rfl
@[simp] theorem exec_pllLockLoss (pll : Fin 8) (s : State) : exec (.pllLockLoss pll) s = execPllLockLoss pll s := rfl
@[simp] theorem exec_sensorSample (readings : List SensorReading) (s : State) : exec (.sensorSample readings) s = execSensorSample readings s := rfl
@[simp] theorem exec_shellWatchdog (s : State) : exec (.shellWatchdog) s = execShellWatchdog s := rfl
@[simp] theorem exec_executiveStart (slotA : Bool) (s : State) : exec (.executiveStart slotA) s = execExecutiveStart slotA s := rfl
@[simp] theorem exec_endBoot (src : RegFrom) (s : State) : exec (.endBoot src) s = execEndBoot src s := rfl
@[simp] theorem exec_digestOpen (who : HullUser) (value : BitVec 64) (s : State) : exec (.digestOpen who value) s = execDigestOpen who value s := rfl
@[simp] theorem exec_digestClose (who : HullUser) (s : State) : exec (.digestClose who) s = execDigestClose who s := rfl
@[simp] theorem exec_digestData (who : HullUser) (word : BitVec 64) (s : State) : exec (.digestData who word) s = execDigestData who word s := rfl
@[simp] theorem exec_absorbDone (s : State) : exec (.absorbDone) s = execAbsorbDone s := rfl
@[simp] theorem exec_digestWatchdog (s : State) : exec (.digestWatchdog) s = execDigestWatchdog s := rfl
@[simp] theorem exec_digestStatusRead (who : HullUser) (s : State) : exec (.digestStatusRead who) s = execDigestStatusRead who s := rfl
@[simp] theorem exec_rngRead (who : HullUser) (s : State) : exec (.rngRead who) s = execRngRead who s := rfl
@[simp] theorem exec_drbgReseed (s : State) : exec (.drbgReseed) s = execDrbgReseed s := rfl
@[simp] theorem exec_entropyHealthFail (s : State) : exec (.entropyHealthFail) s = execEntropyHealthFail s := rfl
@[simp] theorem exec_pitRead (who : HullUser) (s : State) : exec (.pitRead who) s = execPitRead who s := rfl
@[simp] theorem exec_sesameRequest (level : BitVec 2) (s : State) : exec (.sesameRequest level) s = execSesameRequest level s := rfl
@[simp] theorem exec_sesameResponseWord (word : BitVec 64) (s : State) : exec (.sesameResponseWord word) s = execSesameResponseWord word s := rfl
@[simp] theorem exec_sesameSubmit (s : State) : exec (.sesameSubmit) s = execSesameSubmit s := rfl
@[simp] theorem exec_sesameVerifyDone (s : State) : exec (.sesameVerifyDone) s = execSesameVerifyDone s := rfl
@[simp] theorem exec_sesameDrop (s : State) : exec (.sesameDrop) s = execSesameDrop s := rfl
@[simp] theorem exec_debugMuxSelect (group : BitVec 8) (en : Bool) (s : State) : exec (.debugMuxSelect group en) s = execDebugMuxSelect group en s := rfl
@[simp] theorem exec_queryDeviceIdentifiers (b : Binding) (s : State) : exec (.queryDeviceIdentifiers b) s = execQueryDeviceIdentifiers b s := rfl
@[simp] theorem exec_getFirmwareParameters (b : Binding) (s : State) : exec (.getFirmwareParameters b) s = execGetFirmwareParameters b s := rfl
@[simp] theorem exec_requestUpdate (b : Binding) (s : State) : exec (.requestUpdate b) s = execRequestUpdate b s := rfl
@[simp] theorem exec_passComponentTable (b : Binding) (comp : BitVec 16) (s : State) : exec (.passComponentTable b comp) s = execPassComponentTable b comp s := rfl
@[simp] theorem exec_updateComponent (b : Binding) (comp : BitVec 16) (size : BitVec 32) (s : State) : exec (.updateComponent b comp size) s = execUpdateComponent b comp size s := rfl
@[simp] theorem exec_requestFirmwareData (b : Binding) (chunk : List Byte) (s : State) : exec (.requestFirmwareData b chunk) s = execRequestFirmwareData b chunk s := rfl
@[simp] theorem exec_transferComplete (b : Binding) (s : State) : exec (.transferComplete b) s = execTransferComplete b s := rfl
@[simp] theorem exec_verifyComplete (b : Binding) (s : State) : exec (.verifyComplete b) s = execVerifyComplete b s := rfl
@[simp] theorem exec_applyComplete (b : Binding) (s : State) : exec (.applyComplete b) s = execApplyComplete b s := rfl
@[simp] theorem exec_activateFirmware (b : Binding) (selfContained : Bool) (s : State) : exec (.activateFirmware b selfContained) s = execActivateFirmware b selfContained s := rfl
@[simp] theorem exec_getStatus (b : Binding) (s : State) : exec (.getStatus b) s = execGetStatus b s := rfl
@[simp] theorem exec_cancelUpdateComponent (b : Binding) (s : State) : exec (.cancelUpdateComponent b) s = execCancelUpdateComponent b s := rfl
@[simp] theorem exec_cancelUpdate (b : Binding) (s : State) : exec (.cancelUpdate b) s = execCancelUpdate b s := rfl
@[simp] theorem exec_getPdrRepositoryInfo (b : Binding) (s : State) : exec (.getPdrRepositoryInfo b) s = execGetPdrRepositoryInfo b s := rfl
@[simp] theorem exec_getPdr (b : Binding) (handle : BitVec 32) (s : State) : exec (.getPdr b handle) s = execGetPdr b handle s := rfl
@[simp] theorem exec_getSensorReading (b : Binding) (sensor : BitVec 16) (s : State) : exec (.getSensorReading b sensor) s = execGetSensorReading b sensor s := rfl
@[simp] theorem exec_getStateSensorReadings (b : Binding) (sensor : BitVec 16) (s : State) : exec (.getStateSensorReadings b sensor) s = execGetStateSensorReadings b sensor s := rfl
@[simp] theorem exec_getVersion (b : Binding) (s : State) : exec (.getVersion b) s = execGetVersion b s := rfl
@[simp] theorem exec_getCapabilities (b : Binding) (s : State) : exec (.getCapabilities b) s = execGetCapabilities b s := rfl
@[simp] theorem exec_negotiateAlgorithms (b : Binding) (s : State) : exec (.negotiateAlgorithms b) s = execNegotiateAlgorithms b s := rfl
@[simp] theorem exec_getDigests (b : Binding) (s : State) : exec (.getDigests b) s = execGetDigests b s := rfl
@[simp] theorem exec_getCertificate (b : Binding) (slot : BitVec 8) (off len : BitVec 16) (s : State) : exec (.getCertificate b slot off len) s = execGetCertificate b slot off len s := rfl
@[simp] theorem exec_challenge (b : Binding) (slot : BitVec 8) (nonce : Bytes32) (s : State) : exec (.challenge b slot nonce) s = execChallenge b slot nonce s := rfl
@[simp] theorem exec_getMeasurements (b : Binding) (index : BitVec 8) (signed : Bool) (nonce : Bytes32) (s : State) : exec (.getMeasurements b index signed nonce) s = execGetMeasurements b index signed nonce s := rfl
@[simp] theorem exec_spdmSignDone (s : State) : exec (.spdmSignDone) s = execSpdmSignDone s := rfl
@[simp] theorem exec_mctpControl (b : Binding) (command : BitVec 8) (eid : BitVec 8) (s : State) : exec (.mctpControl b command eid) s = execMctpControl b command eid s := rfl
@[simp] theorem exec_eventLogReadMessage (b : Binding) (entry : BitVec 15) (s : State) : exec (.eventLogReadMessage b entry) s = execEventLogReadMessage b entry s := rfl
@[simp] theorem exec_tapReset (s : State) : exec (.tapReset) s = execTapReset s := rfl
@[simp] theorem exec_bypass (s : State) : exec (.bypass) s = execBypass s := rfl
@[simp] theorem exec_samplePreload (s : State) : exec (.samplePreload) s = execSamplePreload s := rfl
@[simp] theorem exec_extest (s : State) : exec (.extest) s = execExtest s := rfl
@[simp] theorem exec_idcode (s : State) : exec (.idcode) s = execIdcode s := rfl
@[simp] theorem exec_residueMismatch (t : Fin 64) (unit : Fin 8) (slot : Fin 4) (stage : Fin 32) (seq : BitVec 32) (s : State) : exec (.residueMismatch t unit slot stage seq) s = execResidueMismatch t unit slot stage seq s := rfl
@[simp] theorem exec_tileWatchdog (t : Fin 64) (s : State) : exec (.tileWatchdog t) s = execTileWatchdog t s := rfl
@[simp] theorem exec_selftestClaim (c : Fin 8) (s : State) : exec (.selftestClaim c) s = execSelftestClaim c s := rfl
@[simp] theorem exec_selftestStart (t : Fin 64) (s : State) : exec (.selftestStart t) s = execSelftestStart t s := rfl
@[simp] theorem exec_selftestDone (t : Fin 64) (pass : Bool) (s : State) : exec (.selftestDone t pass) s = execSelftestDone t pass s := rfl
@[simp] theorem exec_selftestLate (t : Fin 64) (s : State) : exec (.selftestLate t) s = execSelftestLate t s := rfl
@[simp] theorem exec_clusterFault (c : Fin 8) (s : State) : exec (.clusterFault c) s = execClusterFault c s := rfl
@[simp] theorem exec_fabricParity (segment : BitVec 16) (run : Option RunRef) (s : State) : exec (.fabricParity segment run) s = execFabricParity segment run s := rfl
@[simp] theorem exec_errorRingEnable (pod : Option (Fin 64)) (a : RegAccess) (s : State) : exec (.errorRingEnable pod a) s = execErrorRingEnable pod a s := rfl
@[simp] theorem exec_injectionArm (a : RegAccess) (s : State) : exec (.injectionArm a) s = execInjectionArm a s := rfl
@[simp] theorem exec_retest (a : RegAccess) (s : State) : exec (.retest a) s = execRetest a s := rfl
@[simp] theorem exec_sysPwrokRise (s : State) : exec (.sysPwrokRise) s = execSysPwrokRise s := rfl
@[simp] theorem exec_vauxRemoved (s : State) : exec (.vauxRemoved) s = execVauxRemoved s := rfl
@[simp] theorem exec_badCommand (p : Fin 64) (words : List (BitVec 64)) (s : State) : exec (.badCommand p words) s = execBadCommand p words s := rfl
@[simp] theorem exec_pageRequestGroupResponse (pasid : BitVec 20) (page : BitVec 52) (success : Bool) (s : State) : exec (.pageRequestGroupResponse pasid page success) s = execPageRequestGroupResponse pasid page success s := rfl
@[simp] theorem exec_interruptCoalescingExpiry (s : State) : exec (.interruptCoalescingExpiry) s = execInterruptCoalescingExpiry s := rfl

end Sys2Proof.Machine
end

