-- ==== Sys2Proof/Laws/Act.lean ====
section
/-! SUPPORT. What the answer wrappers of the meanings give, and the instruction on a control core. -/

namespace Sys2Proof.Machine

/-- A command that takes effect whatever the clocks do. -/
theorem State.always_next (s : State) (f : Dev → Dev) : s.always f = .next { s with dev := f s.dev } := rfl

/-- A command while the clocks run. -/
theorem State.act_clocked (s : State) (f : Dev → Dev) (h : s.dev.clocked) :
    s.act f = .next { s with dev := f s.dev } := by
  simp [State.act, State.always, h]

/-- A command while the clocks stand still. -/
theorem State.act_halted (s : State) (f : Dev → Dev) (h : s.dev.halted = true) : s.act f = .next s := by
  simp [State.act, State.always, h]

/-- An instruction whose word is legal. -/
theorem State.legal_ok (s : State) (f : Dev → Dev) (ok : Bool) (h : ok = true) : s.legal ok f = s.act f := by
  simp [State.legal, h]

/-- An instruction whose word is not legal is at no PC. -/
theorem State.legal_bad (s : State) (f : Dev → Dev) (ok : Bool) (h : ok = false) : s.legal ok f = .next s := by
  simp [State.legal, State.act, State.always, h]

/-- The instruction that a core executes next takes its effect. -/
theorem Dev.ctl_executes {d : Dev} {n : Fin 8} {t : Thread} {c : CIns} (h : d.executes n t c) :
    d.ctl n c = d.runIns t c := by
  obtain ⟨h1, h2⟩ := h
  unfold Dev.ctl
  rw [h1]
  simp only
  split
  · rfl
  · rename_i hp
    have h3 := h2 (by simpa using hp)
    match hq : (d.codeOf t)[t.pc / 4]? with
    | none => simp [hq] at h3
    | some w => simp only [hq, Option.bind_some] at h3; simp [h3]

/-- Putting a thread back replaces the thread of its slot. -/
theorem Dev.setThread_eq (d : Dev) (t : Thread) : d.setThread t = d.withThread t := by
  simp [Dev.setThread, Dev.onThread, Dev.withThread, mapIf]

/-- A general register read as a number is the word's. -/
theorem Thread.reg_toNat (t : Thread) (r : BitVec 5) : t.reg r.toNat = (t.word r).toNat := by
  unfold Thread.reg Thread.word
  by_cases h : r = 0
  · simp [h]
  · have h1 : r.toNat ≠ 0 := fun e => h (BitVec.eq_of_toNat_eq (by simpa using e))
    have h2 : ¬r = 0#5 := h
    simp [h1, h2]

/-- A write to RD that goes on. -/
theorem Thread.put_eq (t : Thread) (r : BitVec 5) (v : Nat) : t.put r v = t.wrote r (BitVec.ofNat 64 v) := by
  unfold Thread.put Thread.setReg Thread.step Thread.goTo Thread.wrote Thread.withReg Thread.pcWord
  by_cases h : r = 0
  · subst h; simp [BitVec.toNat_add]
  · have h1 : r.toNat ≠ 0 := fun e => h (BitVec.eq_of_toNat_eq (by simpa using e))
    have h2 : ¬r = 0#5 := h
    simp [h1, h2, BitVec.toNat_add]

/-- Going on to the next instruction. -/
theorem Thread.step_eq (t : Thread) : t.step = t.passed := by
  simp [Thread.step, Thread.goTo, Thread.passed, Thread.pcWord, BitVec.toNat_add]

/-- The signed value of a word. -/
theorem s64_toNat (a : Word) : s64 a.toNat = a.toInt := by
  have h := a.isLt
  simp only [s64, toSigned, Nat.mod_eq_of_lt h, BitVec.toInt]
  split <;> split <;> simp_all <;> omega

/-- The low 64 bits of an integer. -/
theorem ofSigned_toNat (v : Int) : ofSigned 64 v = (BitVec.ofInt 64 v).toNat := by
  simp [ofSigned, BitVec.toNat_ofInt]

/-- The address of RA and IMM. -/
theorem Thread.addr_eq (t : Thread) (ra : BitVec 5) (imm : BitVec 16) : t.addr ra imm = t.target ra imm := by
  unfold Thread.addr Thread.target
  rw [Thread.reg_toNat, ofSigned_toNat]
  congr 1
  rw [BitVec.ofInt_add]
  congr 1
  simp

end Sys2Proof.Machine
end

