-- ==== Sys2Proof/Laws/Memory.lean ====
section
/-! SUPPORT. Memory: the canonical form is what every operation keeps, and a read after a write. -/

namespace Sys2Proof.Machine

/-- The canonical form: addresses rise and no listed byte is zero. -/
theorem Mem.wf_iff (m : List Host.Cell) :
    Mem.wf m = true ↔ m.Pairwise (fun x y => x.1 < y.1) ∧ ∀ x ∈ m, x.2 ≠ 0 := by
  induction m with
  | nil => simp [Mem.wf]
  | cons x l ih =>
    match l with
    | [] => simp [Mem.wf]
    | y :: r =>
      simp only [Mem.wf, Bool.and_eq_true, decide_eq_true_eq, bne_iff_ne, ne_eq, ih]
      constructor
      · rintro ⟨⟨h1, h2⟩, hp, hz⟩
        refine ⟨List.pairwise_cons.2 ⟨fun z hz' => ?_, hp⟩, ?_⟩
        · rcases List.mem_cons.1 hz' with rfl | hz'
          · exact h1
          · exact Nat.lt_trans h1 ((List.pairwise_cons.1 hp).1 z hz')
        · intro z hz'
          rcases List.mem_cons.1 hz' with rfl | hz'
          · exact h2
          · exact hz z hz'
      · rintro ⟨hp, hz⟩
        exact ⟨⟨(List.pairwise_cons.1 hp).1 y (by simp), hz x (by simp)⟩, (List.pairwise_cons.1 hp).2,
          fun z hz' => hz z (List.mem_cons_of_mem _ hz')⟩

/-- The cells of a run lie in it, rise, and list no zero byte. -/
theorem cellsOf_spec (a : Nat) (bs : List Byte) :
    (cellsOf a bs).Pairwise (fun x y => x.1 < y.1) ∧
      ∀ x ∈ cellsOf a bs, a ≤ x.1 ∧ x.1 < a + bs.length ∧ x.2 ≠ 0 := by
  induction bs generalizing a with
  | nil => simp [cellsOf]
  | cons b l ih =>
    obtain ⟨hp, hm⟩ := ih (a + 1)
    unfold cellsOf
    split
    · refine ⟨hp, fun x hx => ?_⟩
      have := hm x hx
      simp only [List.length_cons]
      exact ⟨by omega, by omega, this.2.2⟩
    · refine ⟨List.pairwise_cons.2 ⟨fun x hx => by have := hm x hx; simp only; omega, hp⟩, fun x hx => ?_⟩
      rcases List.mem_cons.1 hx with rfl | hx
      · simp_all
      · have := hm x hx
        simp only [List.length_cons]
        exact ⟨by omega, by omega, this.2.2⟩

/-- A write keeps the canonical form. -/
theorem Mem.wf_memWrite (m : List Host.Cell) (a : Nat) (bs : List Byte) (h : Mem.wf m = true) :
    Mem.wf (memWrite m a bs) = true := by
  rw [Mem.wf_iff] at h ⊢
  obtain ⟨hp, hz⟩ := h
  obtain ⟨cp, cm⟩ := cellsOf_spec a bs
  unfold memWrite
  constructor
  · rw [List.pairwise_append, List.pairwise_append]
    refine ⟨⟨hp.filter _, cp, fun x hx y hy => ?_⟩, hp.filter _, fun x hx y hy => ?_⟩
    · have h1 := (List.mem_filter.1 hx).2
      have h2 := cm y hy
      simp only [decide_eq_true_eq] at h1
      omega
    · have h1 := (List.mem_filter.1 hy).2
      simp only [decide_eq_true_eq] at h1
      rcases List.mem_append.1 hx with hx | hx
      · have h2 := (List.mem_filter.1 hx).2
        simp only [decide_eq_true_eq] at h2
        omega
      · have := cm x hx
        omega
  · intro x hx
    rcases List.mem_append.1 hx with hx | hx
    · rcases List.mem_append.1 hx with hx | hx
      · exact hz x (List.mem_filter.1 hx).1
      · exact (cm x hx).2.2
    · exact hz x (List.mem_filter.1 hx).1

/-- Zeroing keeps the canonical form. -/
theorem Mem.wf_memZero (m : List Host.Cell) (a n : Nat) (h : Mem.wf m = true) : Mem.wf (memZero m a n) = true := by
  rw [Mem.wf_iff] at h ⊢
  exact ⟨h.1.filter _, fun x hx => h.2 x (List.mem_filter.1 hx).1⟩

/-- The memories of the reset state have the form. -/
theorem Mem.wf_reset : Mem.wf State.reset.dev.mem = true ∧ Mem.wf State.reset.dev.hmem = true ∧
    Mem.wf State.reset.dev.peerMem = true := ⟨rfl, rfl, rfl⟩

/-- Reading past a list that does not name the address. -/
theorem cellGet_append (l m : List Host.Cell) (x : Nat) :
    cellGet (l ++ m) x = if l.any (fun c => c.1 == x) then cellGet l x else cellGet m x := by
  induction l with
  | nil => simp
  | cons c l ih =>
    obtain ⟨b, v⟩ := c
    by_cases h : b = x
    · simp [cellGet, h]
    · simp [cellGet, h, ih]

/-- Reading an address that a filter keeps, or drops. -/
theorem cellGet_filter (m : List Host.Cell) (p : Nat → Bool) (x : Nat) :
    cellGet (m.filter fun c => p c.1) x = if p x then cellGet m x else 0 := by
  induction m with
  | nil => simp [cellGet]
  | cons c l ih =>
    obtain ⟨b, v⟩ := c
    by_cases hb : b = x
    · subst hb
      by_cases hp : p b
      · simp [hp, cellGet]
      · simp only [List.filter_cons, hp, Bool.false_eq_true, if_false, ih]
    · by_cases hp : p b
      · simp [hp, cellGet, hb, ih]
      · simp [hp, cellGet, hb, ih]

/-- The bytes of a run of cells. -/
theorem cellGet_cellsOf (a : Nat) (bs : List Byte) (x : Nat) :
    cellGet (cellsOf a bs) x = if a ≤ x then bs.getD (x - a) 0 else 0 := by
  induction bs generalizing a with
  | nil => simp [cellsOf, cellGet]
  | cons b l ih =>
    have step : ∀ y, (if a + 1 ≤ y then l.getD (y - (a + 1)) 0 else 0) =
        if a ≤ y ∧ y ≠ a then (b :: l).getD (y - a) 0 else 0 := by
      intro y
      by_cases h : a + 1 ≤ y
      · have : y - a = (y - (a + 1)) + 1 := by omega
        simp [h, show a ≤ y ∧ y ≠ a by omega, this]
      · simp [h, show ¬(a ≤ y ∧ y ≠ a) by omega]
    unfold cellsOf
    by_cases hx : x = a
    · subst hx
      split
      · rename_i hb
        rw [ih, step]
        simp [hb]
      · simp [cellGet]
    · have e : (if a ≤ x then (b :: l).getD (x - a) 0 else 0) =
          if a ≤ x ∧ x ≠ a then (b :: l).getD (x - a) 0 else 0 := by simp [hx]
      rw [e, ← step]
      split
      · rw [ih]
      · simp only [cellGet, show ¬a = x from fun h => hx h.symm, if_false, ih]

/-- A read after a write: the bytes written where they lie, and everything else as before. -/
theorem cellGet_memWrite (m : List Host.Cell) (a : Nat) (bs : List Byte) (x : Nat) :
    cellGet (memWrite m a bs) x =
      if a ≤ x ∧ x < a + bs.length then bs.getD (x - a) 0 else cellGet m x := by
  have any_filter : ∀ p : Nat → Bool, (m.filter fun c => p c.1).any (fun c => c.1 == x) =
      (p x && m.any fun c => c.1 == x) := by
    intro p
    induction m with
    | nil => simp
    | cons c l ih =>
      by_cases hx : c.1 = x
      · by_cases hp : p x = true
        · simp [hx, hp]
        · have hp : p x = false := by simpa using hp
          simp only [hp, Bool.false_and] at ih ⊢
          simp [hx, hp, ih]
      · have hx : (c.1 == x) = false := by simpa using hx
        by_cases hp : p c.1 = true
        · simp [hp, hx, ih]
        · simp [hp, hx, ih]
  have absent : ∀ l : List Host.Cell, (l.any fun c => c.1 == x) = false → cellGet l x = 0 := by
    intro l h
    induction l with
    | nil => rfl
    | cons c l ih =>
      obtain ⟨b, v⟩ := c
      simp only [List.any_cons, Bool.or_eq_false_iff, beq_eq_false_iff_ne, ne_eq] at h
      simp [cellGet, h.1, ih h.2]
  have f1 := cellGet_filter m (fun b => decide (b < a)) x
  have f2 := cellGet_filter m (fun b => decide (a + bs.length ≤ b)) x
  have a1 := any_filter (fun b => decide (b < a))
  unfold memWrite
  rw [cellGet_append, cellGet_append, f1, f2, cellGet_cellsOf, List.any_append, a1]
  by_cases h1 : x < a
  · by_cases h3 : (m.any fun c => c.1 == x) = true
    · simp [h1, show ¬a ≤ x by omega, h3]
    · have h3 : (m.any fun c => c.1 == x) = false := Bool.eq_false_iff.2 h3
      simp [h1, show ¬a ≤ x by omega, show ¬(a + bs.length ≤ x) by omega, absent m h3, h3]
  · have h2 : a ≤ x := by omega
    simp only [h1, decide_false, Bool.false_and, Bool.false_or, if_false, h2, if_true, true_and, Bool.false_eq_true]
    by_cases h4 : x < a + bs.length
    · simp only [h4, if_true, show ¬a + bs.length ≤ x by omega, decide_false, Bool.false_eq_true, if_false]
      split
      · rfl
      · rename_i hn
        have := absent (cellsOf a bs) (Bool.eq_false_iff.2 hn)
        rw [cellGet_cellsOf] at this
        simp only [h2, if_true] at this
        exact this.symm
    · have hn : ((cellsOf a bs).any fun c => c.1 == x) = false := by
        simp only [List.any_eq_false, beq_iff_eq]
        intro c hc he
        have := (cellsOf_spec a bs).2 c hc
        omega
      simp [h4, hn, show a + bs.length ≤ x by omega]

/-- A read after zeroing. -/
theorem cellGet_memZero (m : List Host.Cell) (a n x : Nat) :
    cellGet (memZero m a n) x = if a ≤ x ∧ x < a + n then 0 else cellGet m x := by
  have h := cellGet_filter m (fun b => decide (b < a) || decide (a + n ≤ b)) x
  unfold memZero
  rw [show (m.filter fun x => decide (x.1 < a) || decide (a + n ≤ x.1)) =
    m.filter (fun c => (fun b => decide (b < a) || decide (a + n ≤ b)) c.1) from rfl, h]
  by_cases h1 : a ≤ x ∧ x < a + n
  · simp [h1, show ¬x < a by omega, show ¬a + n ≤ x by omega]
  · simp [h1, show x < a ∨ a + n ≤ x by omega]

/-- A read of what was written. -/
theorem memRead_memWrite (m : List Host.Cell) (a : Nat) (bs : List Byte) :
    memRead (memWrite m a bs) a bs.length = bs := by
  apply List.ext_getElem
  · simp [memRead]
  · intro i h1 h2
    simp [memRead, cellGet_memWrite, h2]

end Sys2Proof.Machine
end

