-- ==== Sys2Proof/Laws/State.lean ====
section
/-! SUPPORT. What each update of the device leaves alone, one lemma for each field: a register write touches
nothing but the register file, and a change of the queue nothing of the device. -/

namespace Sys2Proof.Machine

@[simp] theorem Dev.wr_staging (d : Dev) (r : RegRef) (v : Nat) : (d.wr r v).staging = d.staging := rfl
@[simp] theorem Dev.wr_mem (d : Dev) (r : RegRef) (v : Nat) : (d.wr r v).mem = d.mem := rfl
@[simp] theorem Dev.wr_hmem (d : Dev) (r : RegRef) (v : Nat) : (d.wr r v).hmem = d.hmem := rfl
@[simp] theorem Dev.wr_peerMem (d : Dev) (r : RegRef) (v : Nat) : (d.wr r v).peerMem = d.peerMem := rfl
@[simp] theorem Dev.wr_poison (d : Dev) (r : RegRef) (v : Nat) : (d.wr r v).poison = d.poison := rfl
@[simp] theorem Dev.wr_progs (d : Dev) (r : RegRef) (v : Nat) : (d.wr r v).progs = d.progs := rfl
@[simp] theorem Dev.wr_handles (d : Dev) (r : RegRef) (v : Nat) : (d.wr r v).handles = d.handles := rfl
@[simp] theorem Dev.wr_pgc (d : Dev) (r : RegRef) (v : Nat) : (d.wr r v).pgc = d.pgc := rfl
@[simp] theorem Dev.wr_submits (d : Dev) (r : RegRef) (v : Nat) : (d.wr r v).submits = d.submits := rfl
@[simp] theorem Dev.wr_runs (d : Dev) (r : RegRef) (v : Nat) : (d.wr r v).runs = d.runs := rfl
@[simp] theorem Dev.wr_pushed (d : Dev) (r : RegRef) (v : Nat) : (d.wr r v).pushed = d.pushed := rfl
@[simp] theorem Dev.wr_insts (d : Dev) (r : RegRef) (v : Nat) : (d.wr r v).insts = d.insts := rfl
@[simp] theorem Dev.wr_slots (d : Dev) (r : RegRef) (v : Nat) : (d.wr r v).slots = d.slots := rfl
@[simp] theorem Dev.wr_sels (d : Dev) (r : RegRef) (v : Nat) : (d.wr r v).sels = d.sels := rfl
@[simp] theorem Dev.wr_lastPod (d : Dev) (r : RegRef) (v : Nat) : (d.wr r v).lastPod = d.lastPod := rfl
@[simp] theorem Dev.wr_tsPoison (d : Dev) (r : RegRef) (v : Nat) : (d.wr r v).tsPoison = d.tsPoison := rfl
@[simp] theorem Dev.wr_jents (d : Dev) (r : RegRef) (v : Nat) : (d.wr r v).jents = d.jents := rfl
@[simp] theorem Dev.wr_jrgns (d : Dev) (r : RegRef) (v : Nat) : (d.wr r v).jrgns = d.jrgns := rfl
@[simp] theorem Dev.wr_rrgns (d : Dev) (r : RegRef) (v : Nat) : (d.wr r v).rrgns = d.rrgns := rfl
@[simp] theorem Dev.wr_lines (d : Dev) (r : RegRef) (v : Nat) : (d.wr r v).lines = d.lines := rfl
@[simp] theorem Dev.wr_misses (d : Dev) (r : RegRef) (v : Nat) : (d.wr r v).misses = d.misses := rfl
@[simp] theorem Dev.wr_wbb (d : Dev) (r : RegRef) (v : Nat) : (d.wr r v).wbb = d.wbb := rfl
@[simp] theorem Dev.wr_maint (d : Dev) (r : RegRef) (v : Nat) : (d.wr r v).maint = d.maint := rfl
@[simp] theorem Dev.wr_pfs (d : Dev) (r : RegRef) (v : Nat) : (d.wr r v).pfs = d.pfs := rfl
@[simp] theorem Dev.wr_dir (d : Dev) (r : RegRef) (v : Nat) : (d.wr r v).dir = d.dir := rfl
@[simp] theorem Dev.wr_txns (d : Dev) (r : RegRef) (v : Nat) : (d.wr r v).txns = d.txns := rfl
@[simp] theorem Dev.wr_victims (d : Dev) (r : RegRef) (v : Nat) : (d.wr r v).victims = d.victims := rfl
@[simp] theorem Dev.wr_rot (d : Dev) (r : RegRef) (v : Nat) : (d.wr r v).rot = d.rot := rfl
@[simp] theorem Dev.wr_scrubs (d : Dev) (r : RegRef) (v : Nat) : (d.wr r v).scrubs = d.scrubs := rfl
@[simp] theorem Dev.wr_chans (d : Dev) (r : RegRef) (v : Nat) : (d.wr r v).chans = d.chans := rfl
@[simp] theorem Dev.wr_dimms (d : Dev) (r : RegRef) (v : Nat) : (d.wr r v).dimms = d.dimms := rfl
@[simp] theorem Dev.wr_dmas (d : Dev) (r : RegRef) (v : Nat) : (d.wr r v).dmas = d.dmas := rfl
@[simp] theorem Dev.wr_dmaRr (d : Dev) (r : RegRef) (v : Nat) : (d.wr r v).dmaRr = d.dmaRr := rfl
@[simp] theorem Dev.wr_stageJobs (d : Dev) (r : RegRef) (v : Nat) : (d.wr r v).stageJobs = d.stageJobs := rfl
@[simp] theorem Dev.wr_dmaJobs (d : Dev) (r : RegRef) (v : Nat) : (d.wr r v).dmaJobs = d.dmaJobs := rfl
@[simp] theorem Dev.wr_engJobs (d : Dev) (r : RegRef) (v : Nat) : (d.wr r v).engJobs = d.engJobs := rfl
@[simp] theorem Dev.wr_jobResults (d : Dev) (r : RegRef) (v : Nat) : (d.wr r v).jobResults = d.jobResults := rfl
@[simp] theorem Dev.wr_host (d : Dev) (r : RegRef) (v : Nat) : (d.wr r v).host = d.host := rfl
@[simp] theorem Dev.wr_out (d : Dev) (r : RegRef) (v : Nat) : (d.wr r v).out = d.out := rfl
@[simp] theorem Dev.wr_nvme (d : Dev) (r : RegRef) (v : Nat) : (d.wr r v).nvme = d.nvme := rfl
@[simp] theorem Dev.wr_images (d : Dev) (r : RegRef) (v : Nat) : (d.wr r v).images = d.images := rfl
@[simp] theorem Dev.wr_podPend (d : Dev) (r : RegRef) (v : Nat) : (d.wr r v).podPend = d.podPend := rfl
@[simp] theorem Dev.wr_threads (d : Dev) (r : RegRef) (v : Nat) : (d.wr r v).threads = d.threads := rfl
@[simp] theorem Dev.wr_ready (d : Dev) (r : RegRef) (v : Nat) : (d.wr r v).ready = d.ready := rfl
@[simp] theorem Dev.wr_cores (d : Dev) (r : RegRef) (v : Nat) : (d.wr r v).cores = d.cores := rfl
@[simp] theorem Dev.wr_locks (d : Dev) (r : RegRef) (v : Nat) : (d.wr r v).locks = d.locks := rfl
@[simp] theorem Dev.wr_mbxs (d : Dev) (r : RegRef) (v : Nat) : (d.wr r v).mbxs = d.mbxs := rfl
@[simp] theorem Dev.wr_ports (d : Dev) (r : RegRef) (v : Nat) : (d.wr r v).ports = d.ports := rfl
@[simp] theorem Dev.wr_peers (d : Dev) (r : RegRef) (v : Nat) : (d.wr r v).peers = d.peers := rfl
@[simp] theorem Dev.wr_joins (d : Dev) (r : RegRef) (v : Nat) : (d.wr r v).joins = d.joins := rfl
@[simp] theorem Dev.wr_xrecvs (d : Dev) (r : RegRef) (v : Nat) : (d.wr r v).xrecvs = d.xrecvs := rfl
@[simp] theorem Dev.wr_pw (d : Dev) (r : RegRef) (v : Nat) : (d.wr r v).pw = d.pw := rfl
@[simp] theorem Dev.wr_hull (d : Dev) (r : RegRef) (v : Nat) : (d.wr r v).hull = d.hull := rfl
@[simp] theorem Dev.wr_shell (d : Dev) (r : RegRef) (v : Nat) : (d.wr r v).shell = d.shell := rfl
@[simp] theorem Dev.wr_errs (d : Dev) (r : RegRef) (v : Nat) : (d.wr r v).errs = d.errs := rfl
@[simp] theorem Dev.wr_slotMarks (d : Dev) (r : RegRef) (v : Nat) : (d.wr r v).slotMarks = d.slotMarks := rfl
@[simp] theorem Dev.wr_missWait (d : Dev) (r : RegRef) (v : Nat) : (d.wr r v).missWait = d.missWait := rfl
@[simp] theorem Dev.wr_hints (d : Dev) (r : RegRef) (v : Nat) : (d.wr r v).hints = d.hints := rfl
@[simp] theorem Dev.wr_memWait (d : Dev) (r : RegRef) (v : Nat) : (d.wr r v).memWait = d.memWait := rfl
@[simp] theorem Dev.wr_contexts (d : Dev) (r : RegRef) (v : Nat) : (d.wr r v).contexts = d.contexts := rfl
@[simp] theorem Dev.wr_msgTag (d : Dev) (r : RegRef) (v : Nat) : (d.wr r v).msgTag = d.msgTag := rfl
@[simp] theorem Dev.wr_fresh (d : Dev) (r : RegRef) (v : Nat) : (d.wr r v).fresh = d.fresh := rfl

@[simp] theorem Dev.put_staging (d : Dev) (f : Fld) (v i j : Nat) : (d.put f v i j).staging = d.staging := rfl
@[simp] theorem Dev.put_mem (d : Dev) (f : Fld) (v i j : Nat) : (d.put f v i j).mem = d.mem := rfl
@[simp] theorem Dev.put_hmem (d : Dev) (f : Fld) (v i j : Nat) : (d.put f v i j).hmem = d.hmem := rfl
@[simp] theorem Dev.put_peerMem (d : Dev) (f : Fld) (v i j : Nat) : (d.put f v i j).peerMem = d.peerMem := rfl
@[simp] theorem Dev.put_poison (d : Dev) (f : Fld) (v i j : Nat) : (d.put f v i j).poison = d.poison := rfl
@[simp] theorem Dev.put_progs (d : Dev) (f : Fld) (v i j : Nat) : (d.put f v i j).progs = d.progs := rfl
@[simp] theorem Dev.put_handles (d : Dev) (f : Fld) (v i j : Nat) : (d.put f v i j).handles = d.handles := rfl
@[simp] theorem Dev.put_pgc (d : Dev) (f : Fld) (v i j : Nat) : (d.put f v i j).pgc = d.pgc := rfl
@[simp] theorem Dev.put_submits (d : Dev) (f : Fld) (v i j : Nat) : (d.put f v i j).submits = d.submits := rfl
@[simp] theorem Dev.put_runs (d : Dev) (f : Fld) (v i j : Nat) : (d.put f v i j).runs = d.runs := rfl
@[simp] theorem Dev.put_pushed (d : Dev) (f : Fld) (v i j : Nat) : (d.put f v i j).pushed = d.pushed := rfl
@[simp] theorem Dev.put_insts (d : Dev) (f : Fld) (v i j : Nat) : (d.put f v i j).insts = d.insts := rfl
@[simp] theorem Dev.put_slots (d : Dev) (f : Fld) (v i j : Nat) : (d.put f v i j).slots = d.slots := rfl
@[simp] theorem Dev.put_sels (d : Dev) (f : Fld) (v i j : Nat) : (d.put f v i j).sels = d.sels := rfl
@[simp] theorem Dev.put_lastPod (d : Dev) (f : Fld) (v i j : Nat) : (d.put f v i j).lastPod = d.lastPod := rfl
@[simp] theorem Dev.put_tsPoison (d : Dev) (f : Fld) (v i j : Nat) : (d.put f v i j).tsPoison = d.tsPoison := rfl
@[simp] theorem Dev.put_jents (d : Dev) (f : Fld) (v i j : Nat) : (d.put f v i j).jents = d.jents := rfl
@[simp] theorem Dev.put_jrgns (d : Dev) (f : Fld) (v i j : Nat) : (d.put f v i j).jrgns = d.jrgns := rfl
@[simp] theorem Dev.put_rrgns (d : Dev) (f : Fld) (v i j : Nat) : (d.put f v i j).rrgns = d.rrgns := rfl
@[simp] theorem Dev.put_lines (d : Dev) (f : Fld) (v i j : Nat) : (d.put f v i j).lines = d.lines := rfl
@[simp] theorem Dev.put_misses (d : Dev) (f : Fld) (v i j : Nat) : (d.put f v i j).misses = d.misses := rfl
@[simp] theorem Dev.put_wbb (d : Dev) (f : Fld) (v i j : Nat) : (d.put f v i j).wbb = d.wbb := rfl
@[simp] theorem Dev.put_maint (d : Dev) (f : Fld) (v i j : Nat) : (d.put f v i j).maint = d.maint := rfl
@[simp] theorem Dev.put_pfs (d : Dev) (f : Fld) (v i j : Nat) : (d.put f v i j).pfs = d.pfs := rfl
@[simp] theorem Dev.put_dir (d : Dev) (f : Fld) (v i j : Nat) : (d.put f v i j).dir = d.dir := rfl
@[simp] theorem Dev.put_txns (d : Dev) (f : Fld) (v i j : Nat) : (d.put f v i j).txns = d.txns := rfl
@[simp] theorem Dev.put_victims (d : Dev) (f : Fld) (v i j : Nat) : (d.put f v i j).victims = d.victims := rfl
@[simp] theorem Dev.put_rot (d : Dev) (f : Fld) (v i j : Nat) : (d.put f v i j).rot = d.rot := rfl
@[simp] theorem Dev.put_scrubs (d : Dev) (f : Fld) (v i j : Nat) : (d.put f v i j).scrubs = d.scrubs := rfl
@[simp] theorem Dev.put_chans (d : Dev) (f : Fld) (v i j : Nat) : (d.put f v i j).chans = d.chans := rfl
@[simp] theorem Dev.put_dimms (d : Dev) (f : Fld) (v i j : Nat) : (d.put f v i j).dimms = d.dimms := rfl
@[simp] theorem Dev.put_dmas (d : Dev) (f : Fld) (v i j : Nat) : (d.put f v i j).dmas = d.dmas := rfl
@[simp] theorem Dev.put_dmaRr (d : Dev) (f : Fld) (v i j : Nat) : (d.put f v i j).dmaRr = d.dmaRr := rfl
@[simp] theorem Dev.put_stageJobs (d : Dev) (f : Fld) (v i j : Nat) : (d.put f v i j).stageJobs = d.stageJobs := rfl
@[simp] theorem Dev.put_dmaJobs (d : Dev) (f : Fld) (v i j : Nat) : (d.put f v i j).dmaJobs = d.dmaJobs := rfl
@[simp] theorem Dev.put_engJobs (d : Dev) (f : Fld) (v i j : Nat) : (d.put f v i j).engJobs = d.engJobs := rfl
@[simp] theorem Dev.put_jobResults (d : Dev) (f : Fld) (v i j : Nat) : (d.put f v i j).jobResults = d.jobResults := rfl
@[simp] theorem Dev.put_host (d : Dev) (f : Fld) (v i j : Nat) : (d.put f v i j).host = d.host := rfl
@[simp] theorem Dev.put_out (d : Dev) (f : Fld) (v i j : Nat) : (d.put f v i j).out = d.out := rfl
@[simp] theorem Dev.put_nvme (d : Dev) (f : Fld) (v i j : Nat) : (d.put f v i j).nvme = d.nvme := rfl
@[simp] theorem Dev.put_images (d : Dev) (f : Fld) (v i j : Nat) : (d.put f v i j).images = d.images := rfl
@[simp] theorem Dev.put_podPend (d : Dev) (f : Fld) (v i j : Nat) : (d.put f v i j).podPend = d.podPend := rfl
@[simp] theorem Dev.put_threads (d : Dev) (f : Fld) (v i j : Nat) : (d.put f v i j).threads = d.threads := rfl
@[simp] theorem Dev.put_ready (d : Dev) (f : Fld) (v i j : Nat) : (d.put f v i j).ready = d.ready := rfl
@[simp] theorem Dev.put_cores (d : Dev) (f : Fld) (v i j : Nat) : (d.put f v i j).cores = d.cores := rfl
@[simp] theorem Dev.put_locks (d : Dev) (f : Fld) (v i j : Nat) : (d.put f v i j).locks = d.locks := rfl
@[simp] theorem Dev.put_mbxs (d : Dev) (f : Fld) (v i j : Nat) : (d.put f v i j).mbxs = d.mbxs := rfl
@[simp] theorem Dev.put_ports (d : Dev) (f : Fld) (v i j : Nat) : (d.put f v i j).ports = d.ports := rfl
@[simp] theorem Dev.put_peers (d : Dev) (f : Fld) (v i j : Nat) : (d.put f v i j).peers = d.peers := rfl
@[simp] theorem Dev.put_joins (d : Dev) (f : Fld) (v i j : Nat) : (d.put f v i j).joins = d.joins := rfl
@[simp] theorem Dev.put_xrecvs (d : Dev) (f : Fld) (v i j : Nat) : (d.put f v i j).xrecvs = d.xrecvs := rfl
@[simp] theorem Dev.put_pw (d : Dev) (f : Fld) (v i j : Nat) : (d.put f v i j).pw = d.pw := rfl
@[simp] theorem Dev.put_hull (d : Dev) (f : Fld) (v i j : Nat) : (d.put f v i j).hull = d.hull := rfl
@[simp] theorem Dev.put_shell (d : Dev) (f : Fld) (v i j : Nat) : (d.put f v i j).shell = d.shell := rfl
@[simp] theorem Dev.put_errs (d : Dev) (f : Fld) (v i j : Nat) : (d.put f v i j).errs = d.errs := rfl
@[simp] theorem Dev.put_slotMarks (d : Dev) (f : Fld) (v i j : Nat) : (d.put f v i j).slotMarks = d.slotMarks := rfl
@[simp] theorem Dev.put_missWait (d : Dev) (f : Fld) (v i j : Nat) : (d.put f v i j).missWait = d.missWait := rfl
@[simp] theorem Dev.put_hints (d : Dev) (f : Fld) (v i j : Nat) : (d.put f v i j).hints = d.hints := rfl
@[simp] theorem Dev.put_memWait (d : Dev) (f : Fld) (v i j : Nat) : (d.put f v i j).memWait = d.memWait := rfl
@[simp] theorem Dev.put_contexts (d : Dev) (f : Fld) (v i j : Nat) : (d.put f v i j).contexts = d.contexts := rfl
@[simp] theorem Dev.put_msgTag (d : Dev) (f : Fld) (v i j : Nat) : (d.put f v i j).msgTag = d.msgTag := rfl
@[simp] theorem Dev.put_fresh (d : Dev) (f : Fld) (v i j : Nat) : (d.put f v i j).fresh = d.fresh := rfl

@[simp] theorem Dev.clearReg_staging (d : Dev) (k : RegKind) (i j : Nat) : (d.clearReg k i j).staging = d.staging := rfl
@[simp] theorem Dev.clearReg_mem (d : Dev) (k : RegKind) (i j : Nat) : (d.clearReg k i j).mem = d.mem := rfl
@[simp] theorem Dev.clearReg_hmem (d : Dev) (k : RegKind) (i j : Nat) : (d.clearReg k i j).hmem = d.hmem := rfl
@[simp] theorem Dev.clearReg_peerMem (d : Dev) (k : RegKind) (i j : Nat) : (d.clearReg k i j).peerMem = d.peerMem := rfl
@[simp] theorem Dev.clearReg_poison (d : Dev) (k : RegKind) (i j : Nat) : (d.clearReg k i j).poison = d.poison := rfl
@[simp] theorem Dev.clearReg_progs (d : Dev) (k : RegKind) (i j : Nat) : (d.clearReg k i j).progs = d.progs := rfl
@[simp] theorem Dev.clearReg_handles (d : Dev) (k : RegKind) (i j : Nat) : (d.clearReg k i j).handles = d.handles := rfl
@[simp] theorem Dev.clearReg_pgc (d : Dev) (k : RegKind) (i j : Nat) : (d.clearReg k i j).pgc = d.pgc := rfl
@[simp] theorem Dev.clearReg_submits (d : Dev) (k : RegKind) (i j : Nat) : (d.clearReg k i j).submits = d.submits := rfl
@[simp] theorem Dev.clearReg_runs (d : Dev) (k : RegKind) (i j : Nat) : (d.clearReg k i j).runs = d.runs := rfl
@[simp] theorem Dev.clearReg_pushed (d : Dev) (k : RegKind) (i j : Nat) : (d.clearReg k i j).pushed = d.pushed := rfl
@[simp] theorem Dev.clearReg_insts (d : Dev) (k : RegKind) (i j : Nat) : (d.clearReg k i j).insts = d.insts := rfl
@[simp] theorem Dev.clearReg_slots (d : Dev) (k : RegKind) (i j : Nat) : (d.clearReg k i j).slots = d.slots := rfl
@[simp] theorem Dev.clearReg_sels (d : Dev) (k : RegKind) (i j : Nat) : (d.clearReg k i j).sels = d.sels := rfl
@[simp] theorem Dev.clearReg_lastPod (d : Dev) (k : RegKind) (i j : Nat) : (d.clearReg k i j).lastPod = d.lastPod := rfl
@[simp] theorem Dev.clearReg_tsPoison (d : Dev) (k : RegKind) (i j : Nat) : (d.clearReg k i j).tsPoison = d.tsPoison := rfl
@[simp] theorem Dev.clearReg_jents (d : Dev) (k : RegKind) (i j : Nat) : (d.clearReg k i j).jents = d.jents := rfl
@[simp] theorem Dev.clearReg_jrgns (d : Dev) (k : RegKind) (i j : Nat) : (d.clearReg k i j).jrgns = d.jrgns := rfl
@[simp] theorem Dev.clearReg_rrgns (d : Dev) (k : RegKind) (i j : Nat) : (d.clearReg k i j).rrgns = d.rrgns := rfl
@[simp] theorem Dev.clearReg_lines (d : Dev) (k : RegKind) (i j : Nat) : (d.clearReg k i j).lines = d.lines := rfl
@[simp] theorem Dev.clearReg_misses (d : Dev) (k : RegKind) (i j : Nat) : (d.clearReg k i j).misses = d.misses := rfl
@[simp] theorem Dev.clearReg_wbb (d : Dev) (k : RegKind) (i j : Nat) : (d.clearReg k i j).wbb = d.wbb := rfl
@[simp] theorem Dev.clearReg_maint (d : Dev) (k : RegKind) (i j : Nat) : (d.clearReg k i j).maint = d.maint := rfl
@[simp] theorem Dev.clearReg_pfs (d : Dev) (k : RegKind) (i j : Nat) : (d.clearReg k i j).pfs = d.pfs := rfl
@[simp] theorem Dev.clearReg_dir (d : Dev) (k : RegKind) (i j : Nat) : (d.clearReg k i j).dir = d.dir := rfl
@[simp] theorem Dev.clearReg_txns (d : Dev) (k : RegKind) (i j : Nat) : (d.clearReg k i j).txns = d.txns := rfl
@[simp] theorem Dev.clearReg_victims (d : Dev) (k : RegKind) (i j : Nat) : (d.clearReg k i j).victims = d.victims := rfl
@[simp] theorem Dev.clearReg_rot (d : Dev) (k : RegKind) (i j : Nat) : (d.clearReg k i j).rot = d.rot := rfl
@[simp] theorem Dev.clearReg_scrubs (d : Dev) (k : RegKind) (i j : Nat) : (d.clearReg k i j).scrubs = d.scrubs := rfl
@[simp] theorem Dev.clearReg_chans (d : Dev) (k : RegKind) (i j : Nat) : (d.clearReg k i j).chans = d.chans := rfl
@[simp] theorem Dev.clearReg_dimms (d : Dev) (k : RegKind) (i j : Nat) : (d.clearReg k i j).dimms = d.dimms := rfl
@[simp] theorem Dev.clearReg_dmas (d : Dev) (k : RegKind) (i j : Nat) : (d.clearReg k i j).dmas = d.dmas := rfl
@[simp] theorem Dev.clearReg_dmaRr (d : Dev) (k : RegKind) (i j : Nat) : (d.clearReg k i j).dmaRr = d.dmaRr := rfl
@[simp] theorem Dev.clearReg_stageJobs (d : Dev) (k : RegKind) (i j : Nat) : (d.clearReg k i j).stageJobs = d.stageJobs := rfl
@[simp] theorem Dev.clearReg_dmaJobs (d : Dev) (k : RegKind) (i j : Nat) : (d.clearReg k i j).dmaJobs = d.dmaJobs := rfl
@[simp] theorem Dev.clearReg_engJobs (d : Dev) (k : RegKind) (i j : Nat) : (d.clearReg k i j).engJobs = d.engJobs := rfl
@[simp] theorem Dev.clearReg_jobResults (d : Dev) (k : RegKind) (i j : Nat) : (d.clearReg k i j).jobResults = d.jobResults := rfl
@[simp] theorem Dev.clearReg_host (d : Dev) (k : RegKind) (i j : Nat) : (d.clearReg k i j).host = d.host := rfl
@[simp] theorem Dev.clearReg_out (d : Dev) (k : RegKind) (i j : Nat) : (d.clearReg k i j).out = d.out := rfl
@[simp] theorem Dev.clearReg_nvme (d : Dev) (k : RegKind) (i j : Nat) : (d.clearReg k i j).nvme = d.nvme := rfl
@[simp] theorem Dev.clearReg_images (d : Dev) (k : RegKind) (i j : Nat) : (d.clearReg k i j).images = d.images := rfl
@[simp] theorem Dev.clearReg_podPend (d : Dev) (k : RegKind) (i j : Nat) : (d.clearReg k i j).podPend = d.podPend := rfl
@[simp] theorem Dev.clearReg_threads (d : Dev) (k : RegKind) (i j : Nat) : (d.clearReg k i j).threads = d.threads := rfl
@[simp] theorem Dev.clearReg_ready (d : Dev) (k : RegKind) (i j : Nat) : (d.clearReg k i j).ready = d.ready := rfl
@[simp] theorem Dev.clearReg_cores (d : Dev) (k : RegKind) (i j : Nat) : (d.clearReg k i j).cores = d.cores := rfl
@[simp] theorem Dev.clearReg_locks (d : Dev) (k : RegKind) (i j : Nat) : (d.clearReg k i j).locks = d.locks := rfl
@[simp] theorem Dev.clearReg_mbxs (d : Dev) (k : RegKind) (i j : Nat) : (d.clearReg k i j).mbxs = d.mbxs := rfl
@[simp] theorem Dev.clearReg_ports (d : Dev) (k : RegKind) (i j : Nat) : (d.clearReg k i j).ports = d.ports := rfl
@[simp] theorem Dev.clearReg_peers (d : Dev) (k : RegKind) (i j : Nat) : (d.clearReg k i j).peers = d.peers := rfl
@[simp] theorem Dev.clearReg_joins (d : Dev) (k : RegKind) (i j : Nat) : (d.clearReg k i j).joins = d.joins := rfl
@[simp] theorem Dev.clearReg_xrecvs (d : Dev) (k : RegKind) (i j : Nat) : (d.clearReg k i j).xrecvs = d.xrecvs := rfl
@[simp] theorem Dev.clearReg_pw (d : Dev) (k : RegKind) (i j : Nat) : (d.clearReg k i j).pw = d.pw := rfl
@[simp] theorem Dev.clearReg_hull (d : Dev) (k : RegKind) (i j : Nat) : (d.clearReg k i j).hull = d.hull := rfl
@[simp] theorem Dev.clearReg_shell (d : Dev) (k : RegKind) (i j : Nat) : (d.clearReg k i j).shell = d.shell := rfl
@[simp] theorem Dev.clearReg_errs (d : Dev) (k : RegKind) (i j : Nat) : (d.clearReg k i j).errs = d.errs := rfl
@[simp] theorem Dev.clearReg_slotMarks (d : Dev) (k : RegKind) (i j : Nat) : (d.clearReg k i j).slotMarks = d.slotMarks := rfl
@[simp] theorem Dev.clearReg_missWait (d : Dev) (k : RegKind) (i j : Nat) : (d.clearReg k i j).missWait = d.missWait := rfl
@[simp] theorem Dev.clearReg_hints (d : Dev) (k : RegKind) (i j : Nat) : (d.clearReg k i j).hints = d.hints := rfl
@[simp] theorem Dev.clearReg_memWait (d : Dev) (k : RegKind) (i j : Nat) : (d.clearReg k i j).memWait = d.memWait := rfl
@[simp] theorem Dev.clearReg_contexts (d : Dev) (k : RegKind) (i j : Nat) : (d.clearReg k i j).contexts = d.contexts := rfl
@[simp] theorem Dev.clearReg_msgTag (d : Dev) (k : RegKind) (i j : Nat) : (d.clearReg k i j).msgTag = d.msgTag := rfl
@[simp] theorem Dev.clearReg_fresh (d : Dev) (k : RegKind) (i j : Nat) : (d.clearReg k i j).fresh = d.fresh := rfl

@[simp] theorem State.withDev_dev (s : State) (d : Dev) : ({ s with dev := d } : State).dev = d := rfl
@[simp] theorem State.withDev_pending (s : State) (d : Dev) : ({ s with dev := d } : State).pending = s.pending := rfl
@[simp] theorem State.withPending_dev (s : State) (q : List Instr) : ({ s with pending := q } : State).dev = s.dev := rfl
@[simp] theorem State.withPending_pending (s : State) (q : List Instr) : ({ s with pending := q } : State).pending = q := rfl

end Sys2Proof.Machine
end

