-- ==== Sys2Proof/Laws/Regs.lean ====
section
/-! SUPPORT. The register file: a field reads what was last written to it, and a write of one register or field
leaves every other as it was. -/

namespace Sys2Proof.Machine

/-! ### Bits -/

/-- A field of a word after it was replaced. -/
theorem bitsOf_setBits (v lo w x : Nat) : bitsOf (setBits v lo w x) lo w = x % 2 ^ w := by
  unfold bitsOf setBits
  rw [Nat.shiftRight_eq_div_pow, Nat.shiftRight_eq_div_pow]
  have h1 : v % 2 ^ lo + x % 2 ^ w * 2 ^ lo + v / 2 ^ (lo + w) * 2 ^ (lo + w) =
      v % 2 ^ lo + 2 ^ lo * (x % 2 ^ w + 2 ^ w * (v / 2 ^ (lo + w))) := by
    rw [Nat.pow_add]; ring
  rw [h1, Nat.add_mul_div_left _ _ (Nat.two_pow_pos lo), Nat.div_eq_of_lt (Nat.mod_lt _ (Nat.two_pow_pos lo)),
    Nat.zero_add, Nat.add_mul_mod_self_left, Nat.mod_mod]

/-- Bit `i` of a field of a word. -/
theorem testBit_setBits (v lo w x i : Nat) :
    (setBits v lo w x).testBit i = if lo ≤ i ∧ i < lo + w then x.testBit (i - lo) else v.testBit i := by
  have h1 : setBits v lo w x = 2 ^ lo * (2 ^ w * (v >>> (lo + w)) + x % 2 ^ w) + v % 2 ^ lo := by
    unfold setBits
    rw [Nat.pow_add]; ring
  rw [h1, Nat.testBit_two_pow_mul_add _ (Nat.mod_lt _ (Nat.two_pow_pos lo))]
  by_cases h2 : i < lo
  · have h3 : ¬(lo ≤ i ∧ i < lo + w) := by omega
    simp [h2, h3, Nat.testBit_mod_two_pow]
  · rw [if_neg h2, Nat.testBit_two_pow_mul_add _ (Nat.mod_lt _ (Nat.two_pow_pos w))]
    by_cases h4 : i - lo < w
    · have h5 : lo ≤ i ∧ i < lo + w := by omega
      simp [h4, h5, Nat.testBit_mod_two_pow]
    · have h5 : ¬(lo ≤ i ∧ i < lo + w) := by omega
      rw [if_neg h4, if_neg h5, Nat.testBit_shiftRight]
      congr 1
      omega

/-- Bit `i` of the bits [lo, lo + w). -/
theorem testBit_bitsOf (v lo w i : Nat) : (bitsOf v lo w).testBit i = (decide (i < w) && v.testBit (lo + i)) := by
  simp [bitsOf, Nat.testBit_mod_two_pow, Nat.testBit_shiftRight]

/-- A field of a word after another one was replaced. -/
theorem bitsOf_setBits_ne (v lo w x lo' w' : Nat) (h : lo' + w' ≤ lo ∨ lo + w ≤ lo') :
    bitsOf (setBits v lo w x) lo' w' = bitsOf v lo' w' := by
  apply Nat.eq_of_testBit_eq
  intro i
  rw [testBit_bitsOf, testBit_bitsOf, testBit_setBits]
  by_cases h1 : i < w'
  · have h2 : ¬(lo ≤ lo' + i ∧ lo' + i < lo + w) := by omega
    rw [if_neg h2]
  · simp [h1]

/-- A replaced field leaves a word within 64 bits when it lies there. -/
theorem setBits_lt (v lo w x : Nat) (hv : v < 2 ^ 64) (h : lo + w ≤ 64) : setBits v lo w x < 2 ^ 64 := by
  apply Nat.lt_pow_two_of_testBit
  intro i hi
  rw [testBit_setBits]
  have h1 : ¬(lo ≤ i ∧ i < lo + w) := by omega
  rw [if_neg h1]
  exact Nat.testBit_lt_two_pow (Nat.lt_of_lt_of_le hv (Nat.pow_le_pow_right (by omega) hi))

/-- A field after a register is cut to its 64 bits. -/
theorem bitsOf_mod (v lo w : Nat) (h : lo + w ≤ 64) : bitsOf (v % 2 ^ 64) lo w = bitsOf v lo w := by
  apply Nat.eq_of_testBit_eq
  intro i
  rw [testBit_bitsOf, testBit_bitsOf, Nat.testBit_mod_two_pow]
  by_cases h1 : i < w
  · have h2 : lo + i < 64 := by omega
    simp [h2]
  · simp [h1]

/-! ### The register file -/

/-- Looking up in two lists joined. -/
theorem regFind_append (l m : List (Nat × Word)) (a : Nat) :
    regFind (l ++ m) a = (regFind l a).or (regFind m a) := by
  induction l with
  | nil => rfl
  | cons x xs ih =>
    obtain ⟨b, v⟩ := x
    simp only [List.cons_append, regFind]
    split
    · rfl
    · exact ih

/-- Looking up among the addresses that meet a test. -/
theorem regFind_filter (l : List (Nat × Word)) (p : Nat → Bool) (a : Nat) :
    regFind (l.filter fun x => p x.1) a = if p a then regFind l a else none := by
  induction l with
  | nil => simp [regFind]
  | cons x xs ih =>
    obtain ⟨b, v⟩ := x
    by_cases h1 : p b = true
    · simp only [List.filter_cons, h1, if_true, regFind, ih]
      by_cases h2 : b = a
      · subst h2; simp [h1]
      · simp [h2]
    · rw [List.filter_cons_of_neg (by simpa using h1), ih]
      by_cases h2 : b = a
      · subst h2; simp [h1]
      · simp [regFind, h2]

/-- The stored word, where it is not the reset value. -/
theorem regFind_regStore (l : List (Nat × Word)) (a v z : Nat) :
    regFind (regStore l a v z) a = if v % 2 ^ 64 = z then none else some (BitVec.ofNat 64 v) := by
  have h1 := regFind_filter l (fun b => decide (b < a)) a
  have h2 := regFind_filter l (fun b => decide (a < b)) a
  have h3 : (decide (a < a)) = false := by simp
  rw [h3] at h1 h2
  unfold regStore
  rw [regFind_append, regFind_append, h1, h2]
  by_cases h4 : v % 2 ^ 64 = z
  · rw [if_pos h4, if_pos h4]; rfl
  · rw [if_neg h4, if_neg h4]; simp [regFind]

/-- Another address keeps its word. -/
theorem regFind_regStore_ne (l : List (Nat × Word)) (a b v z : Nat) (h : b ≠ a) :
    regFind (regStore l a v z) b = regFind l b := by
  have h1 := regFind_filter l (fun x => decide (x < a)) b
  have h2 := regFind_filter l (fun x => decide (a < x)) b
  have h3 : regFind (if v % 2 ^ 64 = z then [] else [(a, BitVec.ofNat 64 v)]) b = none := by
    split <;> simp [regFind, Ne.symm h]
  unfold regStore
  rw [regFind_append, regFind_append, h1, h2, h3]
  by_cases h4 : b < a
  · have h5 : ¬a < b := by omega
    simp [h4, h5]
  · have h5 : a < b := by omega
    simp [h4, h5]

/-- A register reads what was written, within its 64 bits. -/
theorem Dev.rd_wr (d : Dev) (r : RegRef) (v : Nat) : (d.wr r v).rd r = v % 2 ^ 64 := by
  unfold Dev.rd Dev.wr
  simp only [regFind_regStore]
  split
  · rename_i h
    split at h
    · cases h
    · cases h; simp
  · rename_i h
    split at h
    · rename_i h2; rw [h2]
    · cases h

/-- After its reset a register holds its reset value, and no lower half is staged for it (R10, R16). -/
theorem Dev.resetReg_spec (d : Dev) (k : RegKind) (i j : Nat) :
    (d.resetReg k i j).rd ⟨k, i, j⟩ = RegRef.reset ⟨k, i, j⟩ % 2 ^ 64 ∧
      ∀ x ∈ (d.resetReg k i j).staging, x.1 ≠ RegRef.addr ⟨k, i, j⟩ := by
  refine ⟨Dev.rd_wr d _ _, ?_⟩
  simp [Dev.resetReg, Dev.unstage]

/-- Another register reads as before. -/
theorem Dev.rd_wr_ne (d : Dev) (r q : RegRef) (v : Nat) (h : q.addr ≠ r.addr) : (d.wr r v).rd q = d.rd q := by
  unfold Dev.rd Dev.wr
  simp only [regFind_regStore_ne _ _ _ _ _ h]

/-- A field reads what was put into it, within its width. -/
theorem Dev.get_put (d : Dev) (f : Fld) (v i j : Nat) (h : f.lo + f.width ≤ 64) :
    (d.put f v i j).get f i j = v % 2 ^ f.width := by
  unfold Dev.get Dev.put
  rw [Dev.rd_wr, bitsOf_mod _ _ _ h, bitsOf_setBits]

/-- Another field of the same register reads as before. -/
theorem Dev.get_put_field (d : Dev) (f g : Fld) (v i j : Nat) (hk : g.kind = f.kind) (h : g.lo + g.width ≤ 64)
    (hd : g.lo + g.width ≤ f.lo ∨ f.lo + f.width ≤ g.lo) : (d.put f v i j).get g i j = d.get g i j := by
  unfold Dev.get Dev.put
  rw [hk, Dev.rd_wr, bitsOf_mod _ _ _ h, bitsOf_setBits_ne _ _ _ _ _ _ hd]

/-- A field of another register reads as before. -/
theorem Dev.get_put_ne (d : Dev) (f g : Fld) (v i j k l : Nat)
    (h : RegRef.addr ⟨g.kind, k, l⟩ ≠ RegRef.addr ⟨f.kind, i, j⟩) : (d.put f v i j).get g k l = d.get g k l := by
  unfold Dev.get Dev.put
  rw [Dev.rd_wr_ne _ _ _ _ h]

end Sys2Proof.Machine
end

