-- ==== Sys2Proof/Laws/Stages.lean ====
section
/-! SUPPORT. What a stage command comes to, once for all of them: with blocks that its stage accepts its body's
result stands, and at the end of the inputs that of its last turn. -/

namespace Sys2Proof.Machine

/-- A command that completes while the clocks run. -/
theorem Gives.of_act {c : Instr} {s : State} {f : Dev → Dev} {d : Dev} (e : exec c s = s.act f) (hc : s.dev.clocked)
    (h : f s.dev = d) : Gives c s d := by
  unfold Gives; rw [e, State.act_clocked s f hc, h]

/-- While no injection is armed, an activation takes no free value and makes no injected fault. -/
theorem Act.armedBit_off {a : Act} (h : a.d.get F.ERR_INJ_ARMED = 0) : a.armedBit = a := by
  simp [Act.armedBit, Dev.armed, h]

/-- While no injection is armed, no activation is faulted. -/
theorem Act.injected_off {a : Act} (h : a.d.get F.ERR_INJ_ARMED = 0) (seq : Nat) (t : Turn) : a.injected seq t = none := by
  unfold Act.injected Act.residueHit
  cases t <;> simp [Dev.armed, h]

/-- A stage command on a stage that nothing keeps from its turn closes that turn. -/
theorem Dev.stage_turn {d : Dev} {w : StageRef} {opc : Nat} {a : Act} (h : d.turnAt w opc = some a) (ok : Nat → Bool)
    (hok : ok a.w = true) (turn : Act → List (Nat × Block) × Turn) :
    d.stage w opc ok turn = a.close w.act.toNat (turn a).1 (turn a).2 := by
  unfold Dev.turnAt at h
  cases hx : d.actOf w with
  | none => simp [hx] at h
  | some x =>
    simp only [hx, Option.map_some, Option.filter_eq_some_iff, Option.some.injEq, Bool.and_eq_true, beq_iff_eq, Bool.not_eq_true'] at h
    obtain ⟨rfl, ⟨⟨h1, h2⟩, h3⟩, h4⟩ := h
    have hd : x.applyK.d = d := by
      unfold Dev.actOf at hx
      simp only [Option.bind_eq_some_iff] at hx
      obtain ⟨i, _, r, _, p, _, st, _, hx⟩ := hx
      split at hx
      · simp at hx; subst hx; rfl
      · simp at hx
    have e1 : x.w = x.applyK.w := rfl
    have e2 : x.slotBad = x.applyK.slotBad := rfl
    unfold Dev.stage
    simp only [hx, e1, e2, h2, h3, hok, h4]
    simp only [and_self, if_true, Bool.false_eq_true, if_false]
    rw [Act.armedBit_off (by rw [hd]; exact h1), Act.injected_off (by rw [hd]; exact h1)]

/-- A stage with blocks to work on works them. -/
theorem Act.streamTurn_offer {a b : Act} {bs : List (Nat × Block)} (h : a.offer = some (b, bs)) (whole : Bool)
    (body : Act → List (Nat × Block) → Turn) (final : Act → Turn) : a.streamTurn whole body final = (bs, body b bs) := by
  unfold Act.offer at h
  simp only at h
  split at h
  · rename_i hh
    simp only [Bool.and_eq_true] at hh
    obtain ⟨⟨⟨h1, h2⟩, h3⟩, h4⟩ := hh
    rw [Option.map_eq_some_iff] at h
    obtain ⟨c, hc, he⟩ := h
    injection he with he1 he2
    have e : ((a.ins.map fun v => (v, a.inBlock v)).filterMap fun x => x.2.map fun b => (x.1, b)) = bs := by
      rw [← he2, List.filterMap_map]; rfl
    have e3 : (List.map (fun v => (v, a.inBlock v)) a.ins).all (fun x => x.2.isSome) = true := by
      rw [List.all_map]; exact h1
    unfold Act.streamTurn
    simp only [e3, if_true, e]
    rw [he2] at hc h2 he1
    simp [hc, h2, h3, h4, he1]
  · simp at h

/-- A stage whose inputs have ended takes its last turn. -/
theorem Act.streamTurn_end {a : Act} (h1 : (a.ins.any fun v => (a.inBlock v).isNone) = true) (h2 : a.ins.all a.inEnded = true)
    (whole : Bool) (body : Act → List (Nat × Block) → Turn) (final : Act → Turn) : a.streamTurn whole body final = ([], final a) := by
  have e3 : (List.map (fun v => (v, a.inBlock v)) a.ins).all (fun x => x.2.isSome) = false := by
    rw [List.all_map]
    rw [List.any_eq_true] at h1
    obtain ⟨v, hv, hn⟩ := h1
    rw [List.all_eq_false]
    exact ⟨v, hv, by simpa using hn⟩
  unfold Act.streamTurn
  simp only [e3, Bool.false_eq_true, if_false]
  have : (a.ins.all fun v => a.inEnded v) = true := h2
  simp [this]

/-- A command of a stage with blocks to work on closes the turn that works them. -/
theorem Dev.stage_offer {d : Dev} {w : StageRef} {opc : Nat} {a : Act} {bs} (h : d.offerAt w opc = some (a, bs)) (ok : Nat → Bool)
    (whole : Bool) (body : Act → List (Nat × Block) → Turn) (final : Act → Turn) :
    ∃ x : Act, d.turnAt w opc = some x ∧ x.offer = some (a, bs) ∧ (ok x.w = true →
      d.stage w opc ok (fun a => a.streamTurn whole body final) = x.close w.act.toNat bs (body a bs)) := by
  unfold Dev.offerAt at h
  rw [Option.bind_eq_some_iff] at h
  obtain ⟨x, hx, hy⟩ := h
  refine ⟨x, hx, hy, fun hok => ?_⟩
  rw [Dev.stage_turn hx ok hok, Act.streamTurn_offer hy]

/-- A command of a stage whose inputs have ended closes its last turn. -/
theorem Dev.stage_end {d : Dev} {w : StageRef} {opc : Nat} {a : Act} (h : d.endAt w opc = some a) (ok : Nat → Bool) (hok : ok a.w = true)
    (whole : Bool) (body : Act → List (Nat × Block) → Turn) (final : Act → Turn) :
      d.stage w opc ok (fun a => a.streamTurn whole body final) = a.close w.act.toNat [] (final a) := by
  unfold Dev.endAt at h
  rw [Option.filter_eq_some_iff] at h
  obtain ⟨h, hh⟩ := h
  simp only [Bool.and_eq_true] at hh
  rw [Dev.stage_turn h ok hok, Act.streamTurn_end hh.1 hh.2]

/-- Accepting blocks keeps the pipeline, the stage, its registers and the run. -/
theorem Act.accept_same {bs : List (Nat × Block)} {a b : Act} (h : a.accept bs = some b) : b.p = a.p ∧ b.n = a.n ∧ b.st = a.st ∧ b.r = a.r := by
  induction bs generalizing a with
  | nil => simp [Act.accept] at h; subst h; exact ⟨rfl, rfl, rfl, rfl⟩
  | cons x xs ih =>
    obtain ⟨v, k⟩ := x
    unfold Act.accept at h
    split at h
    · exact ih h
    · split at h
      · have := ih h; exact this
      · split at h
        · have := ih h; exact this
        · simp at h

/-- Looking a block up changes the device only. -/
theorem Act.lookBlock_same (a : Act) (x : Nat) : (a.lookBlock x).p = a.p ∧ (a.lookBlock x).n = a.n ∧ (a.lookBlock x).st = a.st ∧ (a.lookBlock x).r = a.r ∧ (a.lookBlock x).i = a.i := by
  unfold Act.lookBlock; split <;> exact ⟨rfl, rfl, rfl, rfl, rfl⟩

/-- Looking dictionaries up changes the device only. -/
theorem Act.lookDicts_same (bs : List (Nat × Block)) (a : Act) : (a.lookDicts bs).p = a.p ∧ (a.lookDicts bs).n = a.n ∧ (a.lookDicts bs).st = a.st ∧ (a.lookDicts bs).r = a.r ∧ (a.lookDicts bs).i = a.i := by
  unfold Act.lookDicts; split
  · exact ⟨rfl, rfl, rfl, rfl, rfl⟩
  · clear * -
    induction bs generalizing a with
    | nil => exact ⟨rfl, rfl, rfl, rfl, rfl⟩
    | cons x xs ih =>
      simp only [List.foldl_cons]
      refine (fun (k : _ ∧ _ ∧ _ ∧ _ ∧ _) => ⟨(ih _).1.trans k.1, (ih _).2.1.trans k.2.1, (ih _).2.2.1.trans k.2.2.1, (ih _).2.2.2.1.trans k.2.2.2.1, (ih _).2.2.2.2.trans k.2.2.2.2⟩) ?_
      split
      · split
        · exact Act.lookBlock_same _ _
        · exact ⟨rfl, rfl, rfl, rfl, rfl⟩
      · exact ⟨rfl, rfl, rfl, rfl, rfl⟩

/-- The activation that works the blocks is of the same stage and run. -/
theorem Act.offer_same {a b : Act} {bs} (h : a.offer = some (b, bs)) : b.p = a.p ∧ b.n = a.n ∧ b.st = a.st ∧ b.r = a.r := by
  unfold Act.offer at h
  simp only at h
  split at h
  · rw [Option.map_eq_some_iff] at h
    obtain ⟨c, hc, he⟩ := h
    injection he with he1 he2
    have h1 := Act.accept_same hc
    have h2 := Act.lookDicts_same (List.filterMap (fun v => Option.map (fun b => (v, b)) (a.inBlock v)) a.ins) c
    rw [← he1]
    exact ⟨h2.1.trans h1.1, h2.2.1.trans h1.2.1, h2.2.2.1.trans h1.2.2.1, h2.2.2.2.1.trans h1.2.2.2⟩
  · simp at h

/-- Its stage word is the same. -/
theorem Act.offer_w {a b : Act} {bs} (h : a.offer = some (b, bs)) : b.w = a.w := by
  have := Act.offer_same h; unfold Act.w; rw [this.1, this.2.1]

/-- A stage command whose body works the blocks: they are finished, and the results stand. -/
theorem gives_offer {c : Instr} {s : State} {w : StageRef} {opc : Nat} {a b : Act} {bs} {ok : Nat → Bool} {whole body final}
    (e : exec c s = s.act fun d => d.stage w opc ok (fun a => a.streamTurn whole body final)) (hc : s.dev.clocked)
    (h : s.dev.offerAt w opc = some (a, bs)) (hok : ok a.w = true) (hb : body a bs = .done b true) : Gives c s (b.finished w bs) := by
  refine Gives.of_act (f := fun d => d.stage w opc ok _) e hc ?_
  obtain ⟨x, hx, hy, hk⟩ := Dev.stage_offer h ok whole body final
  rw [hk (by rw [← Act.offer_w hy]; exact hok), hb]; rfl

/-- A stage command whose body keeps the blocks: the results stand. -/
theorem gives_offer_kept {c : Instr} {s : State} {w : StageRef} {opc : Nat} {a b : Act} {bs} {ok : Nat → Bool} {whole body final}
    (e : exec c s = s.act fun d => d.stage w opc ok (fun a => a.streamTurn whole body final)) (hc : s.dev.clocked)
    (h : s.dev.offerAt w opc = some (a, bs)) (hok : ok a.w = true) (hb : body a bs = .quiet b) : Gives c s b.commit := by
  refine Gives.of_act (f := fun d => d.stage w opc ok _) e hc ?_
  obtain ⟨x, hx, hy, hk⟩ := Dev.stage_offer h ok whole body final
  rw [hk (by rw [← Act.offer_w hy]; exact hok), hb]; rfl

/-- A stage command closes its turn. -/
theorem gives_turn {c : Instr} {s : State} {w : StageRef} {opc : Nat} {a : Act} {ok : Nat → Bool} {turn}
    (e : exec c s = s.act fun d => d.stage w opc ok turn) (hc : s.dev.clocked)
    (h : s.dev.turnAt w opc = some a) (hok : ok a.w = true) : Gives c s (a.close w.act.toNat (turn a).1 (turn a).2) := by
  refine Gives.of_act (f := fun d => d.stage w opc ok _) e hc ?_
  exact Dev.stage_turn h ok hok turn

/-- A stage command at the end of its inputs. -/
theorem gives_end {c : Instr} {s : State} {w : StageRef} {opc : Nat} {a b : Act} {ok : Nat → Bool} {whole body final}
    (e : exec c s = s.act fun d => d.stage w opc ok (fun a => a.streamTurn whole body final)) (hc : s.dev.clocked)
    (h : s.dev.endAt w opc = some a) (hok : ok a.w = true) (hb : final a = .quiet b) : Gives c s b.commit := by
  refine Gives.of_act (f := fun d => d.stage w opc ok _) e hc ?_
  rw [Dev.stage_end h ok hok, hb]; rfl

end Sys2Proof.Machine
end

