-- ==== Sys2Proof/Tests/Slice0.lean ====
section
/-! SUPPORT. Small checks of the model, each of one step on a small state, and for every statement of
Obligations.lean a state and operands that meet the hypotheses of each of its clauses together. -/

namespace Sys2Proof.Tests

open Sys2Proof Sys2Proof.Machine

-- One theorem at a time: each asks the kernel, and many at once would wait with a stack each.
set_option Elab.async false

/-! ### States -/

/-- A state with no command waiting. -/
def st (d : Dev) : State := { dev := d, pending := [] }

/-- The device after reset. -/
abbrev d0 : Dev := Dev.reset

/-- The device that a command gives, where it gives one. -/
def after (c : Instr) (d : Dev) : Option Dev :=
  match exec c (st d) with
  | .next t => some t.dev
  | _ => none

/-- Memory of 4 GiB, trained; the host link up at 64 GT/s. -/
def ready : Dev :=
  let d := (d0.put F.MEM_TRAIN_STATE 3).put F.MEM_CFG_CAP_GIB 4
  { d with host := { d.host with up := true, speed := 5, width := 4, flit := true } }

/-- Pod 3 owns tiles 0 and 1 and the second GiB, in a state. -/
def podded (n : Nat) : Dev :=
  let d := ((ready.put F.POD_STATUS_STATE n 3).put F.POD_TILES_MASK 3 3).put F.POD_PASID_PASID 7 3
  ((d.put F.POD_DDR_VALID 1 3 0).put F.POD_DDR_BASE_GIB 1 3 0).put F.POD_DDR_COUNT_GIB 1 3 0

/-- Registers of a thread: G3 is an aligned address of the pod, G1 is `x`, G2 is 2. -/
def regs (x : Word) : List Word :=
  ((((List.replicate 32 0).set 1 x).set 2 2).set 3 0x40000000).set 4 0x40000004

/-- A thread of the executive on core 1. -/
def exT (x : Word) : Thread :=
  { slot := 0, number := 0, pod := 0, priv := true, ring := 0, index := 0, pipe := 0, inst := 0, stage := 0, prio := 3,
    st := .running, pc := 0x100, g := regs x, event := 4, dest := 0, mask := 0, expiry := 0, lockwait := 0 }

/-- A thread of run 0 of ring 5 on core 0, spawned by stage 0 of pipeline 0. -/
def podT (x : Word) : Thread :=
  { slot := 64, number := 0, pod := 3, priv := false, ring := 5, index := 0, pipe := 0, inst := 0, stage := 0,
    prio := 16, st := .running, pc := 0, g := regs x, event := 4, dest := 0, mask := 0, expiry := 0, lockwait := 0 }

/-- A pipeline of two stages without streams: a YIELD, and a stage of a word. -/
def pipe2 (w : StageWord) : Pipe :=
  { place := 0, tileCount := 1, depends := 0, seed := 1, tsRegion := 0, intens := [1, 1], stages := [0x1A, w],
    streams := [] }

/-- A program of one pipeline and one word of control code. -/
def image (p : Pipe) (c : CIns) : Image :=
  { v2 := false, crc := 77, span := false, paramLen := 0, tag := 9, pipes := [p], binds := [], ucode := [], consts := [],
    ctrl := [c.encode] }

/-- Run 0 of ring 5, of pod 3, running. -/
def run5 (p : Pipe) (c : CIns) : Run :=
  { ring := 5, index := 0, pod := 3, entry := leBytes 4 1 ++ List.replicate 24 0 ++ leBytes 4 100 ++ List.replicate 32 0,
    startTs := 0, st := .running, image := some (image p c), order := 0, params := [], kinit := [], placed := true,
    failure := none, epochs := [0], peerDone := [], joins := [], resUsed := 0, resBatches := 0, resRows := 0,
    resFields := 0, areas := [], rows := 0, bytes := 0, jlocks := [], rlocks := [], unwritten := false }

/-- Its instance on slot 2 of tile 0. -/
def inst0 (p : Pipe) (l : Life) : Inst :=
  { ring := 5, index := 0, pod := 3, pipe := 0, number := 0, tile := 0, slot := 2, life := l, epoch := 0,
    chans := p.streams.map fun x => ⟨x.stream, [], false⟩, stages := p.stages.map fun _ => StageSt.start [], accs := [],
    extInit := false, stop := false, leaving := false, parkArea := 0 }

/-- What tile 0 holds there. -/
def slot0 (l : Life) : SlotSt :=
  { tile := 0, slot := 2, ring := 5, index := 0, pod := 3, handle := 0, pipe := 0, number := 0, life := l, epoch := 0,
    drain := 0, pairs := 0, stalls := [] }

/-- A device whose run 0 of ring 5 has a pipeline and its instance in a state. -/
def running (p : Pipe) (c : CIns) (l : Life) : Dev :=
  { podded 2 with runs := [run5 p c], insts := [inst0 p l], slots := [slot0 l] }

/-- Cores 0 and 1 with the pod's thread, about to execute `c`, and the executive's. -/
def coded (c : CIns) (x : Word) : Dev :=
  { running (pipe2 0x06) c .running with
    threads := [exT x, podT x]
    cores := ((List.replicate 8 Core.reset).set 0 { Core.reset with cur := some 64 }).set 1
      { Core.reset with cur := some 0 } }

/-- 64 bytes. -/
def line64 : Bytes64 := Vector.replicate 64 1

/-! ### Operands outside the spec's, one for each check of WellFormed.lean -/

/-- The check refuses the operands, and the machine still goes on. -/
def refuses (c : Instr) : Bool := !c.wellFormed && (after c d0).isSome

theorem test_illFormed :
    refuses (.ringPush 0 .bar0 [1]) ∧ refuses (.dimmThermalPoll 0 [1, 2, 3]) ∧
    refuses (.exchangePacket ⟨0, 0, 0, 0, 0⟩ [⟨[]⟩, ⟨[(.null, none)]⟩]) ∧ refuses (.bar4Write 0 [] none) ∧
    refuses (.linkstate 1 [(0, 1), (0, 2)]) ∧ refuses (.join 1 0 0 0 (List.replicate 9 0)) ∧
    refuses (.requestFirmwareData .smbus (List.replicate 1025 0)) ∧
    refuses (.badCommand 0 (List.replicate 9 0)) := by decide +kernel

theorem test_illFormed_control :
    refuses (.ctlCsrr ⟨0, 1, 1, 0⟩) ∧ refuses (.ctlCsrw ⟨0, 1, 1, 0⟩) ∧ refuses (.ctlSleep ⟨0, 1, 1, 0⟩) ∧
    refuses (.ctlSleep ⟨0, 0, 1, 1⟩) ∧ refuses (.ctlWait ⟨0, 0, 1, 1⟩) ∧ refuses (.ctlSetpri ⟨0, 0, 1, 1⟩) ∧
    refuses (.ctlSelf ⟨0, 0, 1, 0⟩) ∧ refuses (.ctlNow ⟨0, 0, 0, 1⟩) ∧ refuses (.ctlLock ⟨0, 0, 1, 1⟩) ∧
    refuses (.ctlTrylock ⟨0, 0, 1, 1⟩) ∧ refuses (.ctlUnlock ⟨0, 0, 1, 1⟩) ∧ refuses (.ctlClrpoison ⟨0, 0, 1, 1⟩) := by
  decide +kernel

/-! ### The queue -/

/-- A queue of three commands, and one that the spec does not give. -/
theorem witness_StepRunsFrontCommand : ({ dev := d0, pending := [.tick, .endBoot .shell] } : State).pending =
    .tick :: [.endBoot .shell] := rfl

theorem witness_ResetAndIdleSteps : (st d0).pending = [] ∧ (st d0).dev.clocked ∧ (st d0).dev.host.ptmMode = 0 ∧
    (st d0).dev.now + 1 < 2 ^ 64 := by decide +kernel

theorem witness_StoppedClocksFreezeTheDevice :
    (st { d0 with pw := { d0.pw with clocksStopped := true } }).dev.halted = true ∧ Instr.anyTime .tick = false := by decide +kernel

/-! ### Control instructions -/

/-- The largest word of an R-format instruction decodes. -/
theorem witness_ControlCodeRoundTrip : (CIns.decode 0b000000_11111_11111_11111_00000001110).isSome = true := by decide +kernel

/-- Words written out from the formats of R385 and the opcodes of R386. -/
theorem test_controlWords :
    CIns.decode 0b000000_00001_00010_00011_00000000001 = some (.alu 1 1 2 3) ∧
    CIns.decode 0b000001_00001_00010_1111111111111111 = some (.addi 1 2 0xFFFF) ∧
    CIns.decode 0b000101_00001_00010_00000000_10_111111 = some (.shi 2 1 2 63) ∧
    CIns.decode 0b000101_00001_00010_00000000_11_000000 = none ∧
    CIns.decode 0b000111_00001_000_10_0000000000000101 = some (.mov true 1 2 5) ∧
    CIns.decode 0b001110_00001_00010_0000000000001000 = some (.load 6 1 2 8) ∧
    CIns.decode 0b010011_00001_00010_0000000000001000 = some (.store 3 1 2 8) ∧
    CIns.decode 0b010100_00001_00010_00011_00000000100 = some (.atom 4 1 2 3) ∧
    CIns.decode 0b011000_00001_00010_1111111111111110 = some (.branch 0 1 2 0xFFFE) ∧
    CIns.decode 0b011110_00000000000000000000000001 = some (.jal 1) ∧
    CIns.decode 0b100000_00001_00010_00011_00000000101 = some (.spawn 1 2 3) ∧
    CIns.decode 0b100001_00001_00010_00000_00000000011 = some (.lockOp 3 1 2) ∧
    CIns.decode 0b100010_00001_00010_00011_00000000001 = some (.kwr 1 2 3) ∧
    CIns.decode 0b110001_00001_00000_0000000000000100 = some (.csr true 1 4) ∧
    CIns.decode 0b001111_00000_00000_0000000000000000 = none ∧
    CIns.decode 0b100000_00001_00000_00000_00000000000 = none := by decide +kernel

/-- SRA of a negative number keeps its sign, and the PC goes on. -/
theorem test_sra : ((after (.ctlSra ⟨0, 5, 1, 2⟩) (coded (.alu 7 5 1 2) 0x8000000000000004)).bind fun d =>
    (d.thread 64).map fun t => (t.g.getD 5 0, t.pc)) = some (0xE000000000000001, 4) := by decide +kernel

/-- DIVS of −2^63 by −1 wraps, and a pod thread's write to G0 is lost. -/
theorem test_divs : ((after (.ctlDivs ⟨1, 5, 1, 6⟩) { coded .fence 0 with threads :=
    [{ exT 0 with g := ((List.replicate 32 0).set 1 (BitVec.intMin 64)).set 6 (BitVec.allOnes 64) }] }).bind fun d =>
    (d.thread 0).map fun t => t.g.getD 5 0) = some (BitVec.intMin 64) ∧
  ((after (.ctlAdd ⟨0, 0, 1, 2⟩) (coded (.alu 0 0 1 2) 7)).bind fun d =>
    (d.thread 64).map fun t => t.g.getD 0 1) = some 0 := by decide +kernel

/-- A store of two bytes is little-endian and changes no other byte. -/
theorem test_st16 : ((after (.ctlSt16 ⟨0, 1, 3, 2⟩) (coded (.store 1 1 3 2) 0x123456)).map fun d => d.mem) =
    some [(0x40000002, 0x56), (0x40000003, 0x34)] := by decide +kernel

/-- An instruction of a pod thread. -/
abbrev podRuns (c : CIns) (x : Word) : Prop :=
  (st (coded c x)).dev.clocked ∧ (st (coded c x)).dev.executes 0 (podT x) c

/-- An instruction of an executive thread. -/
abbrev execRuns (c : CIns) (x : Word) : Prop :=
  (st (coded c x)).dev.clocked ∧ (st (coded c x)).dev.executes 1 (exT x) c

theorem witness_ControlComputations :
    (∀ k : Fin 16, podRuns (.alu k 31 1 2) 7 ∧ podRuns (.alu k 0 1 0) 7) ∧
    podRuns (.addi 1 2 0xFFFF) 0 ∧ (∀ k : Fin 3, podRuns (.logic k 1 2 0xFFFF) 0) ∧
    (∀ k : Fin 3, podRuns (.shi k 1 2 63) 7 ∧ podRuns (.shi k 1 2 0) 7) ∧
    podRuns (.mov false 1 3 0xFFFF) 7 ∧ podRuns (.mov true 1 3 0xFFFF) 7 ∧ execRuns (.alu 0 1 2 3) 7 := by decide +kernel

/-- The accesses reach the last bytes of the pod's GiB; the faults lie one byte on, or past it. -/
theorem witness_ControlMemoryAccesses :
    (∀ k : Fin 7, podRuns (.load k 1 3 0xFFF8) 0 ∧ podRuns (.load k 1 3 0) 0) ∧
    (∀ n ∈ [1, 2, 4, 8], (coded .fence 0).usable (podT 0) ((podT 0).target 3 0) n ∧
      (coded .fence 0).anyPoison ((podT 0).target 3 0) n = .clean ∧
      (coded .fence 0).mayUse (podT 0) ((podT 0).target 3 0xFFF8) n = false) ∧
    (∀ n ∈ [2, 4, 8], (podT 0).target 3 1 % n ≠ 0) ∧
    (∀ k : Fin 4, podRuns (.store k 1 3 0) 0 ∧ podRuns (.store k 1 3 0xFFF8) 0) ∧
    (∀ k : Fin 5, podRuns (.atom k 1 3 2) 0 ∧ podRuns (.atom k 1 4 2) 0 ∧ podRuns (.atom k 1 2 2) 0) ∧
    (coded .fence 0).usable (podT 0) ((podT 0).word 3).toNat 8 ∧
    (coded .fence 0).anyPoison ((podT 0).word 3).toNat 8 = .clean ∧ ((podT 0).word 4).toNat % 8 ≠ 0 ∧
    (coded .fence 0).mayUse (podT 0) ((podT 0).word 0).toNat 8 = false := by decide +kernel

theorem witness_ControlTransfers :
    (∀ k : Fin 6, podRuns (.branch k 1 2 0x8000) 2 ∧ podRuns (.branch k 1 2 0x7FFF) 3) ∧
    podRuns (.jal 0x2000000) 0 ∧ podRuns (.jalr 0 1 3) 0xFFFFFFFFFFFFFFFF ∧ podRuns .fence 0 := by decide +kernel

theorem witness_ControlRegisterAndStageAccess :
    ((st (coded .fence 0)).dev.clocked ∧ (coded .fence 0).running 1 = some (exT 0) ∧ (exT 0).priv = true ∧
      ((List.range 2048).any fun k => (barReg (8 * k)).isSome)) ∧
    (podRuns (.krd 5 1 6) 1 ∧ ((podT 1).word 1).toNat < (coded (.krd 5 1 6) 1).stageCount (podT 1) ∧
      ((podT 1).word 6).toNat < 64) ∧
    (podRuns (.kwr 5 1 6) 1 ∧ (podT 1).stage < ((podT 1).word 1).toNat ∧
      ((coded (.kwr 5 1 6) 1).instOf (podT 1)).isSome = true) ∧
    (podRuns .resume 0 ∧ ((coded .resume 0).instOf (podT 0)).isSome = true) := by decide +kernel

theorem witness_ControlRegisterAndStageAccess_faults :
    (podRuns (.krd 5 1 6) 2 ∧ (coded (.krd 5 1 6) 2).stageCount (podT 2) ≤ ((podT 2).word 1).toNat) ∧
    (podRuns (.krd 5 0 1) 64 ∧ 64 ≤ ((podT 64).word 1).toNat) ∧
    (podRuns (.kwr 5 1 6) 0 ∧ ((podT 0).word 1).toNat ≤ (podT 0).stage) ∧
    (podRuns (.sleep 1) 0x80000000 ∧ 2 ^ 31 ≤ ((podT 0x80000000).word 1).toNat) ∧
    (∀ k : Fin 4, podRuns (.lockOp k 5 1) 16 ∧ execRuns (.lockOp k 5 1) 256) ∧
    16 ≤ ((podT 16).word 1).toNat ∧ 256 ≤ ((exT 256).word 1).toNat := by decide +kernel

/-! ### The scheduler -/

theorem witness_SchedulerOperations :
    (podRuns .exit 0 ∧ (coded .exit 0).locks = [] ∧ ∀ u ∈ (coded .exit 0).threads, u.st ≠ .stalled) ∧
    podRuns .yieldcpu 0 ∧ podRuns (.sleep 1) 0 ∧ (podT 0).word 1 = 0 ∧ podRuns (.sleep 1) 0x7FFFFFFF ∧
    ((podT 0x7FFFFFFF).word 1).toNat < 2 ^ 31 ∧
    podRuns (.setpri 5 1) 40 ∧ execRuns (.setpri 5 1) 40 ∧ podRuns (.self 5) 0 ∧ podRuns (.now 5) 0 := by decide +kernel

theorem witness_SchedulerOperations_events :
    (podRuns (.wait 5 1) 4 ∧ (podT 4).event &&& (podT 4).word 1 ≠ 0) ∧
    (podRuns (.wait 5 1) 3 ∧ (podT 3).event &&& (podT 3).word 1 = 0) ∧
    (podRuns (.post 5 1 2) 1 ∧ (coded (.post 5 1 2) 1).numbered (podT 1) ((podT 1).word 1) = none) ∧
    (podRuns (.spawn 5 1 2) 0 ∧ (coded (.spawn 5 1 2) 0).freeThreadSlot 3 false = some 65 ∧
      ∀ u ∈ (coded (.spawn 5 1 2) 0).threads, (podT 0).kin u = true → u.number ≠ 1 ∧ u.number = 0) := by decide +kernel

/-- A second thread of the run that waits for event bit 1, or for bit 8; and a pod with no slot left. -/
theorem witness_SchedulerOperations_others :
    (let u := { podT 0 with slot := 65, number := 1, st := .waiting, mask := 2, event := 0 }
     let d := { coded (.post 5 1 2) 1 with threads := [podT 1, u] }
     (st d).dev.executes 0 (podT 1) (.post 5 1 2) ∧ d.numbered (podT 1) ((podT 1).word 1) = some u ∧
     u.slot ≠ (podT 1).slot ∧ d.thread u.slot = some u ∧ (u.event ||| (podT 1).word 2) &&& u.mask ≠ 0) ∧
    (let u := { podT 0 with slot := 65, number := 1, st := .waiting, mask := 256, event := 0 }
     let d := { coded (.post 5 1 2) 1 with threads := [podT 1, u] }
     (st d).dev.executes 0 (podT 1) (.post 5 1 2) ∧ d.numbered (podT 1) ((podT 1).word 1) = some u ∧
     (u.event ||| (podT 1).word 2) &&& u.mask = 0) ∧
    (let d := (coded (.spawn 5 1 2) 0).put F.CTL_SCHED_CFG_POD_MAX 1
     (st d).dev.clocked ∧ (st d).dev.executes 0 (podT 0) (.spawn 5 1 2) ∧ d.freeThreadSlot 3 false = none) := by
  decide +kernel

/-- Lock 32, bound to the run's number 1, held by a thread. -/
def lock1 (owner : Nat) (held poison : Bool) : HLock :=
  { id := 32, held := held, poison := poison, bound := true, pod := 3, ring := 5, index := 0, local_ := 1,
    owner := owner, waiters := [] }

/-- A pod thread about to execute a lock operation on its number `x`, with a lock. -/
def locking (k : Fin 4) (x : Word) (l : List HLock) : Dev := { coded (.lockOp k 5 1) x with locks := l }

theorem witness_HardwareLockOperations :
    ((podT 15).lockOk ((podT 15).word 1).toNat = true ∧ (exT 255).lockOk ((exT 255).word 1).toNat = true) ∧
    (∀ k : Fin 2, podRuns (.lockOp (k.castLE (by decide)) 5 1) 15 ∧
      ((locking (k.castLE (by decide)) 15 []).lockFor (podT 15) 15).any fun x => !x.1.held) ∧
    (∀ k : Fin 2, ((locking (k.castLE (by decide)) 1 [lock1 65 true false]).lockFor (podT 1) 1).any fun x => x.1.held) ∧
    (∀ k : Fin 4, (locking k 1 [lock1 64 true true]).executes 0 (podT 1) (.lockOp k 5 1) ∧
      (locking k 1 [lock1 64 true true]).lockNow (podT 1) 1 = some (lock1 64 true true) ∧
      (locking k 1 [lock1 64 true true]).lock 32 = some (lock1 64 true true)) ∧
    ((locking 2 1 [lock1 64 true false]).lockNow (podT 1) 1 = some (lock1 64 true false) ∧
      ∀ u ∈ (locking 2 1 [lock1 64 true false]).threads, ¬(u.st = .blocked ∧ u.lockwait = 256)) ∧
    ((locking 2 1 [lock1 65 true false]).lockNow (podT 1) 1 = some (lock1 65 true false) ∧
      (lock1 65 true false).owner ≠ (podT 1).slot) := by decide +kernel

/-- Every lock of the pool is taken. -/
theorem witness_HardwareLockOperations_full :
    (let d := locking 0 1 ((List.range 224).map fun n => { lock1 0 false false with id := 32 + n, ring := 9 })
     d.executes 0 (podT 1) (.lockOp 0 5 1) ∧ d.lockFor (podT 1) 1 = none) := by
  refine ⟨by decide +kernel, ?_⟩
  have hb : ∀ l : List Nat, ((l.map fun n => { lock1 0 false false with id := 32 + n, ring := 9 }).find? fun l =>
      l.bound && l.ring == (podT 1).ring && l.index == (podT 1).index && l.local_ == 1) = none := by
    intro l
    simp [lock1, podT]
  have hf : ∀ n, n < 224 → (((List.range 224).map fun n => { lock1 0 false false with id := 32 + n, ring := 9 }).find?
      fun l => l.id == n + 32).isSome = true := by
    intro n hn
    simp only [List.find?_isSome, List.mem_map, List.mem_range]
    exact ⟨_, ⟨n, hn, rfl⟩, by simp [Nat.add_comm]⟩
  show (if (podT 1).priv then _ else _) = none
  simp only [podT, Bool.false_eq_true, if_false]
  unfold Dev.bindLock Dev.boundLock
  rw [show (locking 0 1 ((List.range 224).map fun n => { lock1 0 false false with id := 32 + n, ring := 9 })).locks =
    (List.range 224).map fun n => { lock1 0 false false with id := 32 + n, ring := 9 } from rfl]
  have h1 := hb (List.range 224)
  simp only [podT] at h1
  rw [h1]
  simp only [Option.map_eq_none_iff, List.find?_eq_none, List.mem_map, List.mem_range]
  rintro _ ⟨n, hn, rfl⟩
  have h2 := hf n hn
  show ¬((Dev.lock _ _).isNone = true)
  unfold Dev.lock
  rw [show (locking 0 1 ((List.range 224).map fun n => { lock1 0 false false with id := 32 + n, ring := 9 })).locks =
    (List.range 224).map fun n => { lock1 0 false false with id := 32 + n, ring := 9 } from rfl]
  simpa [Option.isSome_iff_ne_none] using h2

theorem witness_SchedulerTime :
    (st (coded .fence 0)).dev.clocked ∧
    (let d := (coded .fence 0).put F.CTL_SCHED_CFG_SLICE_US 1000
     d.running 0 = some (podT 0) ∧ d.get F.CTL_SCHED_CFG_SLICE_US ≠ 0 ∧
     (d.readyThreads.any fun u => u.prio == (podT 0).prio) = false) ∧
    (let d := { coded .fence 0 with threads := [podT 0, { podT 0 with slot := 65, number := 1, st := .ready }], ready := [65] }
     let d := d.put F.CTL_SCHED_CFG_SLICE_US 1
     d.running 0 = some (podT 0) ∧ (d.readyThreads.any fun u => u.prio == (podT 0).prio) = true) := by decide +kernel

/-- A delay whose expiry tick lies past the wrap of the counter does not end before it, and ends at it. -/
theorem test_tickWraps : (let d := { coded .fence 0 with threads := [{ podT 0 with st := .delayed, expiry := 1 }] }
    (d.expires (2 ^ 32 - 1) 64, d.expires 0 64, d.expires 1 64)) = (false, false, true) := by decide +kernel

/-! ### Clocks, power states and resets -/

/-- CCLK at a frequency, its request clamped to another. -/
def clock (mhz want : Nat) : Dev := (d0.put F.CLK_CCLK_STATUS_MHZ mhz).put F.CLK_CCLK_STATUS_CLAMPED_MHZ want

/-- The frequency CCLK is to have. -/
def wanted (d : Dev) : Nat := min (d.get F.CLK_CCLK_STATUS_CLAMPED_MHZ) (min d.pw.powerMhz d.pw.thermalMhz)

theorem witness_CclkFollowsItsTarget :
    (wanted (clock 1600 1550) < (clock 1600 1550).get F.CLK_CCLK_STATUS_MHZ) ∧
    ((clock 800 1600).get F.CLK_CCLK_STATUS_MHZ < wanted (clock 800 1600) ∧
      (clock 800 1600).pw.pendingMhz ≠ some (wanted (clock 800 1600))) ∧
    ((clock 1600 1600).get F.CLK_CCLK_STATUS_MHZ = wanted (clock 1600 1600) ∧ (clock 1600 1600).pw.pendingMhz = none) := by
  decide +kernel

/-- A device whose power manager is changed. -/
def power (f : Power → Power) : Dev := { d0 with pw := f d0.pw }

theorem witness_ClockCommandsTakeEffect :
    (st d0).dev.clocked ∧
    (∀ m ∈ [none, some 1600], (power fun p => { p with avsWait := true, pendingMhz := m }).clocked ∧
      (power fun p => { p with avsWait := true, pendingMhz := m }).pw.avsWait = true) ∧
    (let d := d0.put F.PWR_LIMIT_TDP_W 400
     d.clocked ∧ d.get F.PWR_LIMIT_TDP_W < (BitVec.ofNat 16 401).toNat ∧
       100 * (BitVec.ofNat 16 391).toNat < 98 * d.get F.PWR_LIMIT_TDP_W) ∧
    (let d := (d0.put F.PWR_THERMAL_THROTTLE 1).put F.PWR_THERMAL_TJ_MAX 100
     d.clocked ∧ d.get F.PWR_THERMAL_THROTTLE = 1) ∧
    d0.pw.stretched.contains 7 = false := by decide +kernel

/-- A device in a power state. -/
def inState (n : Nat) : Dev := d0.put F.PWR_STATE_STATE n

theorem witness_PowerStateCommands :
    ((inState 0).clocked ∧ (inState 0).get F.PWR_STATE_STATE = 0 ∧ (inState 0).runs = [] ∧ (inState 0).insts = [] ∧
      ∀ t ∈ (inState 0).errs.tests, t.testing = false) ∧
    ((inState 1).get F.PWR_STATE_STATE = 1) ∧
    ({ inState 1 with runs := [run5 (pipe2 6) .fence] } : Dev).quiet = false ∧
    (inState 2).get F.PWR_STATE_STATE = 2 ∧
    (∀ n ∈ [2, 3], let d := { inState 4 with pw := { d0.pw with target := n } }
      d.clocked ∧ d.get F.PWR_STATE_STATE = 4 ∧ ∀ p ∈ d.ports, p.lpWait = false) ∧
    (∀ k ∈ [1, 2, 3, 4], let d := { (inState 5).put F.PWR_STATE_STEP k with pw := { d0.pw with fromState := 2 } }
      d.get F.PWR_STATE_STATE = 5 ∧ d.pw.off = false ∧ d.get F.PWR_STATE_STEP k = d.get F.PWR_STATE_STEP k ∧
      d.pw.fromState ≠ 3 ∧ d.pw.tripPending = false ∧ d.pw.heldReq = none) := by decide +kernel

/-- Nothing runs, and every ring and channel stands at its reset value. -/
theorem witness_PowerStateCommands_quiet : (inState 1).quiet = true := by decide +kernel

theorem witness_ResetCommands :
    (d0.mayReset = true ∧ d0.shell.running = true ∧ d0.pw.off = false ∧ d0.clocked) ∧
    ((inState 3).pw.off = false ∧ (inState 3).get F.PWR_STATE_STATE = 3) ∧
    ((inState 2).pw.off = false ∧ (inState 2).get F.PWR_STATE_STATE ≤ 2) ∧
    (power fun p => { p with pwrokLost := true }).pw.pwrokLost = true ∧ 115 ≤ (BitVec.ofNat 8 115).toNat := by decide +kernel

/-- A part that powers on without an image for Sprout, and one in VOID. -/
def poweredOn (lifecycle : Nat) : Dev :=
  let d := { d0 with shell := { d0.shell with flash := [] }, hull := { d0.hull with otp := { d0.hull.otp with lifecycle := lifecycle } } }
  ((d.coldLoss.setCause 1).onShell fun x => { x with powerCycle := x.powerCycle + 1 }).acorn

theorem witness_ResetCommands_powerOn : (poweredOn 0).pstate ≠ 3 ∧ (poweredOn 4).pstate = 3 := by decide +kernel

theorem witness_WarmResetLeaves : (st (running (pipe2 6) .fence .running)).dev.mayReset = true := by decide +kernel

/-- Neither 1,000 errors nor a run survives a warm reset, and the event is in the cause. -/
theorem test_warmReset : ((after (.warmReset true) (running (pipe2 6) .fence .running)).map fun d =>
    (d.runs.length, d.insts.length, d.podState 3, d.get F.PWR_RESET_CAUSE_CAUSE)) = some (0, 0, 0, 7) := by decide +kernel

/-! ### The Hull -/

/-- The header of an executive image signed by key 0, and one byte of body. -/
def signed : List Byte :=
  leBytes 4 0x4E47534B ++ [2, 0] ++ leBytes 2 5 ++ leBytes 4 1 ++ List.replicate 52 0 ++ List.replicate 29792 0 ++ [9]

/-- A device whose executive slot A holds it. -/
def signedDev : Dev :=
  { (d0.put F.MEM_TRAIN_STATE 3) with shell := { d0.shell with flash := [⟨2, false, signed⟩, ⟨2, true, []⟩] } }

/-- The Hull accepts it, where the verification of its signature, which the model leaves open, succeeds. -/
theorem witness_BootEnds_accepted
    (h : Config.slhVerify (d0.hull.otp.keys.getD 0 []) (imageSigned signed) (imageSig signed) = true) :
    signedDev.clocked ∧ signedDev.get F.MEM_TRAIN_STATE = 3 ∧ signedDev.hull.mode = 0 ∧
    signedDev.acceptedIn 2 2 (!true) = some signed ∧ signedDev.freeThreadSlot 0 true = some 0 := by
  refine ⟨by decide +kernel, by decide +kernel, by decide +kernel, ?_, by decide +kernel⟩
  have e : d0.hull.otp.accepts 2 signed = true := by
    have hk : fieldAt signed 5 1 = 0 := by decide +kernel
    have hl : 0x74A0 + fieldAt signed 8 4 ≤ signed.length := by
      rw [show fieldAt signed 8 4 = 1 from by decide +kernel]
      simp only [signed, List.length_append, List.length_replicate, List.length_cons, List.length_nil, leBytes]
      omega
    unfold Otp.accepts
    rw [hk]
    simp only [Bool.and_eq_true, decide_eq_true_eq]
    refine ⟨⟨⟨⟨⟨⟨⟨⟨⟨?_, ?_⟩, ?_⟩, ?_⟩, ?_⟩, ?_⟩, hl⟩, ?_⟩, ?_⟩, h⟩ <;> decide +kernel
  show (Option.filter _ _) = _
  rw [show signedDev.shell.image 2 (!true) = some signed from rfl]
  simp only [Option.filter, show signedDev.hull.otp = d0.hull.otp from rfl, e, if_true]

theorem witness_BootEnds : (st d0).dev.clocked ∧ d0.hull.mode = 0 ∧
    (let d := { d0.put F.MEM_TRAIN_STATE 3 with shell := { d0.shell with flash := [⟨2, false, []⟩, ⟨2, true, []⟩] } }
     d.get F.MEM_TRAIN_STATE = 3 ∧ d.acceptedIn 2 2 false = none ∧ d.acceptedIn 2 2 true = none) := by
  refine ⟨by decide +kernel, by decide +kernel, by decide +kernel, ?_, ?_⟩ <;>
    · unfold Dev.acceptedIn Otp.accepts
      rw [show Shell.image _ 2 _ = some [] from rfl]
      simp [Option.filter, show fieldAt [] 0 4 = 0 from rfl]

/-- The digest engine held by the host with a message of 8 of `len` bytes. -/
def digesting (len : Nat) (absorbing : Bool) (latch : Option Word) : Dev :=
  { d0 with hull := { d0.hull with digest := { Digest.reset with
    owner := some .host, len := len, message := List.replicate 8 1, absorbing := absorbing, latch := latch } } }

theorem witness_DigestEngineCommandsAndDelivery :
    ((digesting 8 true none).clocked ∧ (digesting 8 true none).hull.digest.expired.contains .host = false) ∧
    ((digesting 8 false none).openReason .exec 0 ≠ 0 ∧ d0.openReason .host (0xFF <<< F.SEC_DG_CTRL_DEST.lo) = 0) ∧
    ((digesting 8 false none).hull.digest.owner = some .host ∧
      (digesting 8 false none).hull.digest.message.length = (digesting 8 false none).hull.digest.len) ∧
    ((digesting 9 true none).hull.digest.message.length ≠ (digesting 9 true none).hull.digest.len ∧
      (digesting 9 true (some 3)).hull.digest.absorbing = true ∧ (digesting 9 true (some 3)).hull.digest.latch.isSome = true) ∧
    ((digesting 9 false none).hull.digest.message.length < (digesting 9 false none).hull.digest.len) ∧
    (∀ x ∈ [255, 63], ({ Digest.reset with dest := x } : Digest).lost = false) ∧
    ({ Digest.reset with lost := true } : Digest).lost = true := by decide +kernel

/-- SHA3-256 of no bytes, as FIPS 202 has it. -/
theorem test_sha3 : ((sha3_256 []).take 4).map BitVec.toNat = [0xA7, 0xFF, 0xC6, 0xF8] := by decide +kernel

/-- A Hull that is changed. -/
def hulled (f : Hull → Hull) : Dev := { d0 with hull := f d0.hull }

theorem witness_HullCommands :
    d0.clocked ∧ d0.hull.drbgReady = true ∧ (hulled fun h => { h with drbgReady := false }).hull.drbgReady = false ∧
    d0.hull.healthFail = false ∧ d0.pitNow ≠ .readable ∧
    (let d := hulled fun h => { h with otp := { h.otp with lifecycle := 0 }, pit := [⟨0, List.replicate 64 7, true⟩] }
     d.pitNow = .readable ∧ (d.hull.pitSlot (d.get F.SEC_PIT_SEL_SLOT)).isSome = true) ∧
    (hulled fun h => { h with locked := true }).hull.locked = true ∧ d0.hull.locked = false ∧ d0.hull.token.length < 3732 ∧
    d0.hull.verifying = false ∧ d0.hull.nonce = none ∧
    (let d := hulled fun h => { h with verifying := true }
     d.clocked ∧ d.hull.verifying = true) := by decide +kernel

/-- A token that begins with `ws`. -/
def tokenOf (ws : List Word) : List Word := ws ++ List.replicate (3732 - ws.length) 0

/-- A full token, and one that carries the challenge of its nonce. -/
theorem witness_HullCommands_token :
    (let d := hulled fun h => { h with nonce := some [0, 0, 0, 0], otp := { h.otp with lifecycle := 0 } }
     let head := (List.range 8).map fun i => BitVec.ofNat 64 (leNat (slice (d.challenge [0, 0, 0, 0]) (8 * i) 8))
     ((tokenOf head).flatMap fun (x : Word) => leBytes 8 x.toNat).take 64 = d.challenge [0, 0, 0, 0]) := by decide +kernel

theorem witness_HullCommands_tokenLength (ws : List Word) (h : ws.length ≤ 3732) : (tokenOf ws).length = 3732 := by
  simp only [tokenOf, List.length_append, List.length_replicate]
  omega

/-- A token that does not verify: of no bytes. -/
theorem witness_HullCommands_refused : (hulled fun h => { h with verifying := true, submitted := [] }).hull.tokenGood =
    false := by
  unfold Hull.tokenGood
  simp [hulled]

/-! ### The Shell -/

/-- A Shell that is changed. -/
def shelled (f : Shell → Shell) : Dev := { d0 with shell := f d0.shell }

/-- An update under way on SMBus in a state, with 4 of 4 bytes received. -/
def updating (n c size : Nat) : Dev := shelled fun s => { s with update := some ⟨.smbus, n, c, size, [1, 2, 3, 4]⟩ }

theorem witness_FirmwareUpdateCommands :
    d0.serves .smbus .update = true ∧ d0.shell.update = none ∧
    (∀ n ∈ [1, 2, 3, 4, 5], (updating n 2 4).serves .smbus .update = true ∧
      ∃ u ∈ (updating n 2 4).shell.update, u.binding = .smbus ∧ u.state = n ∧ u.received.length = u.size) ∧
    (updating 2 2 4).componentOk (BitVec.ofNat 16 3).toNat = true ∧
    (BitVec.ofNat 32 0x10000).toNat ≤ slotSize (BitVec.ofNat 16 3).toNat ∧
    (updating 5 3 4).hull.mode ≠ 3 ∧
    (∃ u ∈ (updating 3 2 5).shell.update, u.received.length ≠ u.size) := by
  refine ⟨by decide +kernel, by decide +kernel, ?_, by decide +kernel, by decide +kernel, by decide +kernel,
    ⟨⟨.smbus, 3, 2, 5, [1, 2, 3, 4]⟩, rfl, by decide⟩⟩
  intro n hn
  simp only [List.mem_cons, List.not_mem_nil, or_false] at hn
  rcases hn with rfl | rfl | rfl | rfl | rfl <;> exact ⟨by decide +kernel, _, rfl, rfl, rfl, rfl⟩

/-- Four bytes are no image; a signed one is, where its signature verifies. -/
theorem witness_FirmwareUpdateCommands_verify :
    (updating 4 2 4).updateGood ⟨.smbus, 4, 2, 4, [1, 2, 3, 4]⟩ = false ∧
    (d0.hull.otp.accepts 2 signed = true → d0.updateGood ⟨.smbus, 4, 2, 29857, signed⟩ = true) := by
  refine ⟨?_, fun h => ?_⟩
  · unfold Dev.updateGood Otp.accepts
    have h : (fieldAt [1, 2, 3, 4] 0 4 == 0x4E47534B) = false := by decide +kernel
    simp only [h, Bool.false_and]
  · simp [Dev.updateGood, h]

theorem witness_SensorAndControlAnswers :
    d0.serves .i3c .sensors = true ∧ d0.serves .i3c .control = true ∧ d0.serves .i3c .vendor = true ∧
    (∃ v, (shelled fun s => { s with readings := [⟨1, 40⟩] }).shell.reading (BitVec.ofNat 16 1).toNat = some v) ∧
    d0.shell.reading (BitVec.ofNat 16 71).toNat = none ∧ 71 < (BitVec.ofNat 16 72).toNat ∧
    d0.shellRuns = true ∧ d0.get F.PWR_STATE_STATE ≠ 3 ∧ (⟨40, 5⟩ : SensorReading).sensor.toNat < 41 := by
  refine ⟨by decide +kernel, by decide +kernel, by decide +kernel, ?_, by decide +kernel, by decide, by decide +kernel,
    by decide +kernel, by decide⟩
  exact ⟨_, rfl⟩

theorem witness_AttestationAnswers :
    d0.serves .smbus .version = true ∧ d0.serves .smbus .spdm = true ∧ d0.hull.identity = true ∧
    d0.shell.signing = none ∧ d0.hull.healthFail = false ∧ (List.replicate 32 (0 : Byte)).length = 32 ∧
    (hulled fun h => { h with debug := 2 }).serves .smbus .spdm = true ∧
    (hulled fun h => { h with debug := 2 }).hull.identity = false ∧
    d0.serves .smbus (.measure false) = true ∧ d0.measured (BitVec.ofNat 8 0).toNat = some [5] ∧
    (shelled fun s => { s with signing := some (.smbus, [3, 1]) }).shell.signing = some (.smbus, [3, 1]) ∧
    (shelled fun s => { s with signing := some (.smbus, [3, 1]) }).shellRuns = true := by
  refine ⟨by decide +kernel, by decide +kernel, by decide +kernel, rfl, rfl, by simp, by decide +kernel, by decide +kernel,
    by decide +kernel, rfl, rfl, by decide +kernel⟩

theorem witness_TestAccessPort : (st d0).dev.pw.off = false ∧ (st d0).dev.get F.PWR_STATE_STATE ≠ 3 := by decide +kernel

/-! ### The mailbox and pods -/

theorem witness_MailboxCommandsAndCompletion :
    (let d := (podded 2).put F.CTL_MBX_CTRL_BUSY 1 3
     d.clocked ∧ d.get F.CTL_MBX_CTRL_BUSY 3 = 1) ∧
    ((podded 4).get F.CTL_MBX_CTRL_BUSY 3 = 0 ∧ (podded 2).podState 3 = 2 ∧ (podded 4).podState 3 = 4 ∧
      (podded 2).progCount 3 < 1024 ∧ (podded 2).progOf 3 5 = none) ∧
    (∃ g, ({ podded 2 with progs := [⟨3, 5, 0, 0, false⟩] } : Dev).progOf 3 5 = some g) ∧
    (512 ≤ (BitVec.ofNat 64 512).toNat ∧ (BitVec.ofNat 64 5).toNat % 256 = 5 ∧ (BitVec.ofNat 64 0x100).toNat % 256 = 0) ∧
    (let d := { podded 2 with mbxs := [⟨3, [0], false⟩] }
     d.clocked ∧ (d.mbxs.find? fun x => x.pod == 3) = some ⟨3, [0], false⟩ ∧ d.coreLeft = true ∧
     (d.freeThreadSlot 0 true).isSome = true) ∧
    (let d := { podded 2 with progs := [⟨3, 5, 0, 0, true⟩] }
     d.progOf 3 (BitVec.ofNat 32 5).toNat = some ⟨3, 5, 0, 0, true⟩ ∧ d.runs = []) := by
  refine ⟨by decide +kernel, by decide +kernel, ⟨_, rfl⟩, by decide, by decide +kernel, by decide +kernel⟩

/-- Every executive slot is taken, and 1,024 programs are registered. -/
theorem witness_MailboxCommandsAndCompletion_full :
    (let d := { podded 2 with threads := (List.range 64).map fun n => { exT 0 with slot := n } }
     d.freeThreadSlot 0 true = none) ∧
    (let d := { podded 2 with progs := List.replicate 1024 ⟨3, 5, 0, 0, false⟩ }
     1024 ≤ d.progCount 3) := by
  refine ⟨by decide +kernel, ?_⟩
  show 1024 ≤ ((List.replicate 1024 (⟨3, 5, 0, 0, false⟩ : ProgReg)).filter fun g => g.pod == 3).length
  rw [List.filter_replicate_of_pos (by rfl), List.length_replicate]

/-- A pod that CREATE accepts, and one without a PASID. -/
def creatable : Dev := podded 0

theorem witness_PodCommands_create :
    (creatable.clocked ∧ creatable.get F.POD_STATUS_STATE 3 = 0 ∧ creatable.createReason 3 = 0) ∧
    (d0.get F.POD_STATUS_STATE 3 = 0 ∧ d0.createReason 3 ≠ 0) := by decide +kernel

theorem witness_PodCommands :
    (∀ n : Fin 9, (podded n.val).clocked ∧ (podded n.val).get F.POD_STATUS_STATE 3 = n.val) ∧
    (let d := ((podded 4).put F.POD_STATUS_SAVE_NEED_MIB 9 3).put F.POD_SAVE_LEN_LEN_MIB 9 3
     d.get F.POD_STATUS_SAVE_NEED_MIB 3 ≤ d.get F.POD_SAVE_LEN_LEN_MIB 3 ∧ d.runs = [] ∧
     d.imageAddrOk 3 (d.get F.POD_STATUS_SAVE_NEED_MIB 3 * 2 ^ 20) = true) ∧
    (let d := ((podded 4).put F.POD_STATUS_SAVE_NEED_MIB 9 3).put F.POD_SAVE_LEN_LEN_MIB 8 3
     d.get F.POD_SAVE_LEN_LEN_MIB 3 < d.get F.POD_STATUS_SAVE_NEED_MIB 3) ∧
    ((podded 4).imageReach 3 0 64 = .ok ∧ (podded 4).restoreReason 3 ≠ 0) := by decide +kernel

/-- A pod image of a header alone, as this model writes it, in the device memory of no pod. -/
def imageHead : List Byte :=
  let h := fun (c : Nat) => (podded 4).imageHeader 3 0x444F504B 64 c
  h (crc32c (h 0))

/-- The pod with that image to restore, in a state. -/
def restorable (n : Nat) : Dev :=
  let d := ((podded n).put F.POD_SAVE_LEN_LEN_MIB 1 3).put F.POD_SAVE_ADDR_ADDR 4 3
  { d with mem := memWrite [] 0x4000 imageHead, images := [{ (podded 4).takeImage 3 0 imageHead with header := imageHead }] }

theorem witness_PodCommands_restore : (restorable 4).get F.POD_STATUS_STATE 3 = 4 ∧
    (restorable 4).imageReach 3 0 64 = .ok ∧ (restorable 4).restoreReason 3 = 0 := by decide +kernel

theorem witness_PodStepsEnd :
    (∀ n ∈ [1, 7, 8], (podded n).podBusy 3 = false ∧ (podded n).podPend = []) ∧
    (∀ n ∈ [1, 7], (3, 2) ∈ ({ podded n with podPend := [(3, 2)] } : Dev).podPend) ∧
    ((podded 3).podAtRest 3 = true ∧ (podded 5).saveHost 3 = false) ∧
    ((restorable 6).imageReach 3 0 (fieldAt ((restorable 6).imageLoad 3 0 64) 0x30 8) = .ok ∧
      ((restorable 6).images.find? fun m => m.header == (restorable 6).imageLoad 3 0 64).isSome = true) ∧
    ((podded 2).get F.POD_LOG_CFG_SWAP_PEND 3 = 0 ∧
      ((podded 2).put F.POD_LOG_CFG_SWAP_PEND 1 3).get F.POD_LOG_CFG_SWAP_PEND 3 = 1) ∧
    (∀ p : Fin 64, d0.get F.POD_STATUS_STATE p.val = 0) := by decide +kernel

/-- The last page of a window of 2^12 bytes × 2, and the one after it. -/
theorem witness_SaveNeedAndDirtyPages :
    (let d := ((podded 2).put F.POD_LOG_CFG_EN 1 3).put F.POD_LOG_CFG_SPAN_LOG2 13 3
     d.get F.POD_LOG_CFG_EN 3 = 1 ∧ d.get F.POD_LOG_BASE_ADDR 3 = 0 ∧ 2 ^ (d.get F.POD_LOG_CFG_SPAN_LOG2 3 - 12) = 2) ∧
    (podded 2).get F.POD_LOG_CFG_EN 3 = 0 := by decide +kernel

/-! ### The host link -/

/-- A host that is live as agent 16. -/
def hostLive (d : Dev) : Dev := d.reviveAgent 16

theorem witness_HostLinkCommands :
    d0.clocked ∧ 4 ≤ (5 : Fin 6).val ∧ (3 : Fin 6).val < 4 ∧ d0.live 16 = false ∧ (hostLive ready).live 16 = true ∧
    ready.clocked ∧ ready.host.up = true ∧ 4 ≤ ready.host.speed ∧ ready.scrubs.contains 16 = false ∧
    d0.get F.MEM_CFG_CAP_GIB = 0 ∧ d0.get F.MEM_TRAIN_STATE ≠ 4 ∧ ready.get F.MEM_CFG_CAP_GIB ≠ 0 := by decide +kernel

/-- A host that has a page request of PASID 7 outstanding. -/
def paging : Dev := { ready with host := { ready.host with pageReqs := [⟨7, 3, .nvme⟩] } }

theorem witness_TranslationCommands : paging.clocked ∧ (1 : BitVec 32) ≠ 0 ∧
    (paging.host.pageReqs.any fun q => q.pasid == (BitVec.ofNat 20 7).toNat && q.page == (BitVec.ofNat 52 3).toNat) = true ∧
    d0.host.up = false := by decide +kernel

/-- The host has CXL.mem. -/
def cxl (d : Dev) : Dev := { d with host := { d.host with cxl := true } }

/-- The last bytes of 4 GiB. -/
theorem witness_HostMemoryCommands :
    (ready.clocked ∧ ready.leaveP1.host.up = true ∧ ready.leaveP1.memReady = true ∧
      (BitVec.ofNat 48 0xFFFFF000).toNat + (4096 : Fin 4097).val ≤ ready.leaveP1.get F.MEM_CFG_CAP_GIB * 2 ^ 30) ∧
    line64.toList.length = 64 ∧ (cxl ready).leaveP1.inHdm (BitVec.ofNat 52 0xFFFFFFC0).toNat = true ∧
    (cxl ready).leaveP1.memReady = true ∧ (cxl ready).leaveP1.hostOwns (BitVec.ofNat 52 0xFFFFFFC0).toNat = false ∧
    (let d := { hostLive (cxl ready) with dir := [⟨0, 0, 0, 0x4000, false, false, [16], true⟩] }
     d.leaveP1.hostOwns (BitVec.ofNat 52 0x4000).toNat = true) ∧
    ((hostLive (cxl ready)).live 16 = true ∧
      (hostLive (cxl ready)).homeAgent (BitVec.ofNat 52 0x8000000000000).toNat = some 16 ∧
      (hostLive (cxl ready)).homeAgent (lineOf (BitVec.ofNat 52 0x8000000000001).toNat) = some 16) := by decide +kernel

theorem witness_AccessesBeforeMemoryIsReady :
    (let d := (cxl ready).put F.MEM_TRAIN_STATE 2
     d.clocked ∧ d.leaveP1.memReady = false ∧ d.leaveP1.host.up = true ∧
     (BitVec.ofNat 48 0xFFFFFFFF).toNat + (1 : Fin 4097).val ≤ d.leaveP1.get F.MEM_CFG_CAP_GIB * 2 ^ 30 ∧
     d.leaveP1.inHdm (BitVec.ofNat 52 0xFFFFFFC0).toNat = true) := by decide +kernel

/-- A BAR4 read before memory is ready is answered with Completer Abort. -/
theorem test_bar4Abort : ((after (.bar4Read 0 64) ((cxl ready).put F.MEM_TRAIN_STATE 2)).map fun d => d.out.head?) =
    some (some .completerAbort) := by decide +kernel

theorem witness_InterruptAndTimeCommands :
    (d0.clocked ∧ d0.host.unmasked.contains (false, 2047) = false ∧ d0.host.pending.contains (false, 2047) = false) ∧
    (let d := { ready with host := { ready.host with pending := [(false, 0)] } }
     d.host.pending.contains (false, 0) = true ∧ d.host.unmasked.contains (false, 0) = false) ∧
    (let d := ready.put F.CLK_PTM_CTRL_EN 1
     d.clocked ∧ d.get F.CLK_PTM_CTRL_EN = 1 ∧ d.host.up = true) ∧
    (-1000000 ≤ (-1000000 : Int) ∧ (1000000 : Int) < 1000001 ∧ (-1000001 : Int) < -1000000) := by decide +kernel

/-! ### NVMe -/

/-- A ready controller with the admin queues and I/O queue 1, each with one command. -/
def nvme : Dev :=
  { ready with nvme := { Nvme.reset with
    enabled := true, rdy := true
    sqs := [⟨0, 4096, 4095, 0, 0, 0⟩, ⟨1, 16, 0, 1, 1, 0⟩]
    cqs := [⟨0, 4096, 0, 0, 0, true, 0, [], 0⟩, ⟨1, 16, 0, 0, 1, true, 0, [], 0⟩] } }

/-- Namespace 1 of one GiB, attached, in the second GiB, which is pod 3's and the pool's. -/
def nsDev : Dev :=
  let d := ((nvme.put F.POD_STATUS_STATE 2 3).put F.POD_DDR_VALID 1 3 0).put F.POD_DDR_BASE_GIB 1 3 0
  let d := ((d.put F.POD_DDR_COUNT_GIB 2 3 0).put F.ING_NS_VALID 1 0).put F.ING_NS_POD 3 0
  let d := (d.put F.ING_NS_SIZE_GIB 1 0).put F.ING_NS_BASE_GIB 1 0
  let d := ((d.put F.ING_POOL_VALID 1 0).put F.ING_POOL_BASE_GIB 1 0).put F.ING_POOL_COUNT_GIB 2 0
  { d with nvme := { d.nvme with attached := [1] } }

/-- An I/O command of queue 1 on the last LBA of the namespace. -/
def io1 (prinfo : BitVec 4) : NvmeIo :=
  { sq := 1, cid := 5, nsid := 1, slba := 262143, nlb := 0, fua := false, prinfo := prinfo, prps := [0x10000], hostFail := false }

theorem witness_NvmeControllerAndQueues :
    (ready.clocked ∧ ready.nvme.enabled = false ∧ nvme.clocked ∧ nvme.nvme.enabled = true ∧ nvme.nvme.rdy = true) ∧
    ((nvme.nvme.sq? 1).any fun x => x.head != x.tail) ∧ nvme.host.up = true ∧
    (({ nvme.nvme with sqs := [⟨1, 16, 3, 3, 1, 0⟩] } : Nvme).sq? 1).any (fun x => x.head == x.tail) ∧
    ((nvme.nvme.cq? 1).any fun c => decide (c.posted.length + 1 < c.size)) ∧ nvme.nvme.waits = [] := by decide +kernel

theorem witness_NvmeAdminCommandsAndData :
    ((nvme.takeCmd 0).any fun d =>
      d.nvme.cqStatus 2 1 64 true 0x1000 == 0 && d.nvme.cqStatus 2 1 65 true 0x1000 != 0 &&
      d.nvme.sqStatus 2 4095 1 true 0x1000 == 0 && d.nvme.sqStatus 2 4096 1 true 0x1000 != 0 &&
      (d.nvme.sq? 1).isSome && (d.nvme.idleCmds 1).isEmpty && (d.nvme.cq? 1).isSome &&
      (d.nvme.sqs.any fun x => x.cq == 1) && decide (d.nvme.aborts < 4) && !(d.nvme.idleCmds 1).contains 9 &&
      d.nvme.setStatus 6 false 1 == 0 && d.nvme.setStatus 99 false 1 != 0 && featureOk 6 && !featureOk 99 &&
      prpsOk [0x10000] 4096 && d.runsReach (prpRuns [0x10000] 4096) == .ok) = true ∧
    (nvme.identify 0x01 0).isOk = true ∧ 0x13 < (BitVec.ofNat 8 0x14).toNat := by decide +kernel

/-- Four aborts wait; a command that waits for room; a completion queue with no submission queue. -/
theorem witness_NvmeAdminCommandsAndData_others :
    (let w : NvmeWait := ⟨0, 0, 1, 0, 0, .abort 1 9, []⟩
     4 ≤ ({ nvme.nvme with waits := [w, w, w, w] } : Nvme).aborts) ∧
    (({ nvme.nvme with writeWaits := [io1 0] } : Nvme).idleCmds 1).contains 5 = true ∧
    (({ nvme.nvme with sqs := [⟨0, 4096, 4095, 0, 0, 0⟩] } : Nvme).sqs.any fun x => x.cq == 1) = false := by decide +kernel

theorem witness_NvmeNamespaceCommands :
    ((nsDev.takeCmd 0).any fun d => d.freeNsid == some 2 && d.freeRun 1 == some 2 && d.nsExists 1 && !d.nvme.zeroing 1 &&
      !d.nsBusy 1 && d.nvme.attached.contains 1 && !d.nsExists 2) = true ∧
    (({ nsDev with runs := [run5 (pipe2 6) .fence] } : Dev).nsBusy 1 = true) ∧
    (({ nsDev with nvme := { nsDev.nvme with attached := [] } } : Dev).nvme.attached.contains 1 = false) ∧
    (({ nsDev.nvme with creating := [⟨1, none⟩] } : Nvme).creating.find? fun c => c.nsid == 1) = some ⟨1, none⟩ := by
  decide +kernel

/-- A pool range within the pod, and one that no pod holds. -/
theorem witness_NvmeNamespaceCommands_pool :
    (let r : RegRef := ⟨.ING_POOL, 1, 0⟩
     let new := fun (v : Nat) => regAfter r.kind.fields ((nsDev.unstage r.addr).rd r) v false false
     let a := new (2 ^ 63 + 1 * 2 ^ 32 + 2)
     let b := new (2 ^ 63 + 1 * 2 ^ 32 + 3)
     (nsDev.podHolding (bitsOf a 0 16) (bitsOf a 32 16)).isSome = true ∧
     nsDev.poolLoses 1 ((nsDev.unstage r.addr).rd r) a = false ∧
     bitsOf b 63 1 = 1 ∧ nsDev.podHolding (bitsOf b 0 16) (bitsOf b 32 16) = none) := by decide +kernel

theorem witness_NvmeIoCommands :
    ((nsDev.takeCmd 1).any fun d => nsDev.ioStatus (io1 0) true == 0 && nsDev.ioStatus (io1 1) true != 0 &&
      nsDev.nvme.writeWaits.isEmpty && nsDev.nvme.roomFor (io1 0) &&
      d.runsReach (prpRuns (io1 0).prps (ioBytes (io1 0))) == .ok && !(io1 0).hostFail &&
      ({ io1 0 with hostFail := true } : NvmeIo).hostFail && d.ioStatus (io1 0) false == 0 &&
      d.ioStatus (io1 1) false != 0 && d.nsActive 1) = true ∧
    (let d := { nsDev with host := { nsDev.host with failed := [(0, 16)] } }
     d.runsReach (prpRuns (io1 0).prps (ioBytes (io1 0))) = .fault) ∧
    (∀ k ∈ [0, 62, 63], ({ nsDev.nvme with buf := [⟨1, 0, [], k⟩] } : Nvme).buf = ⟨1, 0, [], k⟩ :: []) := by decide +kernel

/-- A buffer of 4,096 LBAs has no room. -/
theorem witness_NvmeIoCommands_full :
    ({ nsDev.nvme with buf := List.replicate 4096 ⟨9, 0, [], 0⟩ } : Nvme).roomFor (io1 0) = false := by
  have h : ({ nsDev.nvme with buf := List.replicate 4096 ⟨9, 0, [], 0⟩ } : Nvme).newEntries (io1 0) = 1 := by
    unfold Nvme.newEntries
    rw [show ioLbas (io1 0) = [(1, 262143)] by decide +kernel]
    have : ({ nsDev.nvme with buf := List.replicate 4096 ⟨9, 0, [], 0⟩ } : Nvme).holds 1 262143 = false := by
      unfold Nvme.holds
      simp only [List.any_replicate]
      rfl
    simp only [List.filter_cons, this, Bool.not_false, if_true, List.filter_nil, List.length_singleton]
  unfold Nvme.roomFor
  rw [h]
  simp only [List.length_replicate]
  decide

/-- A Read of LBA 0 returns what device memory holds there, in the host page of PRP 1. -/
theorem test_nvmeRead : ((after (.read { io1 0 with slba := 0 }) { nsDev with mem := [(0x40000000, 7)] }).map fun d =>
    d.hmem) = some [(0x10000, 7)] := by decide +kernel

/-! ### Column caches, the directory and the memory channels -/

/-- Cluster 0's cache is on, and pod 3 has its way 15. -/
def cached : Dev := ((podded 2).put F.CCH_CTRL_EN 1 0).put F.CCH_POD_WAYS_WAYS 0x8000 0 3

/-- A line of the pod's memory. -/
abbrev aLine : BitVec 52 := 0x40000000

/-- A miss of cluster 0 there. -/
def miss0 : MissReg :=
  { cluster := 0, addr := 0x40000000, pod := 3, store := false, prefetch := false, secondaries := [], maint := 0, fill := 0,
    fillPoison := .clean, way := 0, openHint := false, old := [] }

/-- A line of an agent there. -/
def held (agent : Nat) (c : CState) : CLine := ⟨agent, 0x40000000, 0, c, false, .clean, none⟩

theorem witness_CacheCommands :
    (let d := { cached with misses := [miss0] }
     d.clocked ∧ d.findLine 0 (lineOf (d.localForm aLine.toNat)) = none ∧
     d.findMiss 0 (lineOf (d.localForm aLine.toNat)) = some miss0 ∧ d.homeAgent (lineOf (d.localForm aLine.toNat)) ≠ some 16 ∧
     ((d.wayCandidates 0 3 0x40000000).find? fun w => !((d.setLines 0 0x40000000).any fun l => l.way == w)).isSome) ∧
    (({ cached with lines := [held 8 .s] } : Dev).findLine 8 0x40000000 = some (held 8 .s)) ∧
    (({ cached with lines := [held 8 .m] } : Dev).findLine 8 0x40000000 = some (held 8 .m)) ∧
    (let d := { cached with misses := [miss0], lines := [held 0 .s] }
     d.findLine 0 0x40000000 = some (held 0 .s) ∧ d.findMiss 0 0x40000000 = some miss0) ∧
    (let d := { cached with wbb := [(0, 0x40000000)] }
     (d.misses.any fun m => m.cluster == 0 && m.fill != 0) = false ∧ d.get F.CCH_CTRL_EN 0 ≠ 2 ∧ d.maint = []) ∧
    (cached.target 0xFFFFFFFFFFC0 = .nowhere ∧ cached.target 0x40000000 ≠ .nowhere ∧ cached.homeAgent 0x40000000 = none ∧
      cached.sectorBusy (sectorOf 0x40000000) = false ∧ cached.podOfAddr 0x40000000 = some 3) ∧
    (cached.missCount 0 = 0 ∧ ({ cached with misses := [miss0] } : Dev).missCount 0 ≠ 0) ∧
    (let d := (cached.put F.TIL_TS_SCRUB_EN 1 63).put F.TIL_TS_SCRUB_ZEROING 1 63
     d.get F.TIL_TS_SCRUB_EN 63 = 1 ∧ d.errs.planted = [] ∧ d.tsPoison.contains (63, 8) = false ∧
     d.get F.TIL_TS_SCRUB_ZEROING 63 = 1) := by decide +kernel

/-- Maintenance: an operation under way and none, a line that is not held, clean, and dirty. -/
theorem witness_CacheCommands_maintenance :
    (({ cached with maint := [(0, 4, 0, false)] } : Dev).maint.any fun m => m.1 == 0) = true ∧
    (cached.maint.any fun m => m.1 == 0) = false ∧ cached.findMiss 0 (cached.localForm (aLine.toNat / 64 * 64)) = none ∧
    cached.findLine 0 (cached.localForm (aLine.toNat / 64 * 64)) = none ∧
    ({ cached with lines := [held 0 .e] } : Dev).findLine 0 0x40000000 = some (held 0 .e) ∧
    ({ cached with lines := [held 0 .m] } : Dev).findLine 0 0x40000000 = some (held 0 .m) ∧ cached.wbbBusy 0 = false ∧
    (let d := { cached with maint := [(0, 4, 0, false)] }
     (d.maint.find? fun m => m.1 == 0) = some (0, 4, 0, false) ∧ d.maintDone 0 4 0 false = true) ∧
    (let a := RegRef.addr ⟨.CCH_CTRL, 0, 0⟩
     (cached.unstage a).get F.CCH_CTRL_EN 0 = 1 ∧ ((cached.put F.CCH_CTRL_EN 0 0).unstage a).get F.CCH_CTRL_EN 0 = 0 ∧
     bitsOf (BitVec.toNat (1 : Word)) 0 2 = 1) ∧
    (let d := cached.put F.CCH_CTRL_EN 2 0
     d.get F.CCH_CTRL_EN 0 = 2 ∧ d.wbbBusy 0 = false ∧ d.maintNext 0 = none) := by decide +kernel

/-- Agent 0's request for that line. -/
def ask0 : HomeReq := ⟨0, 0x40000000, 0, false⟩

/-- Agents 0, 1 and 8 are live. -/
def agents : Dev := ((cached.reviveAgent 0).reviveAgent 1).reviveAgent 8

/-- The line's entry, with agent 1. -/
def entry1 (excl : Bool) : DirEnt := ⟨cached.sliceOf 0x40000000, 0, 0, 0x40000000, false, false, [1], excl⟩

/-- A request of agent 0 that waits for agent 1. -/
def txn0 : HomeTxn := ⟨cached.sliceOf 0x40000000, 0x40000000, 0, 0x40000000, false, .rdUnique, [1], true, 0, false, false, [], 0, 0⟩

theorem witness_CoherenceCommands :
    (d0.clocked ∧ d0.live 16 = false) ∧
    (agents.live 0 = true ∧ agents.target 0xFFFFFFFFFFC0 = .nowhere ∧ agents.target 0x40000000 ≠ .nowhere ∧
      agents.homeAgent 0x40000000 ≠ some 16 ∧ agents.sectorBusy (sectorOf 0x40000000) = false ∧
      agents.queuedTxns (agents.sliceOf (sectorOf 0x40000000)) = [] ∧ agents.errs.planted = [] ∧
      agents.findDir (sectorOf 0x40000000) = none ∧ (agents.newDir (sectorOf 0x40000000) 0 false).isSome ∧
      (agents.newDir (sectorOf 0x40000000) 0 true).isSome) ∧
    (let d := { agents with dir := [entry1 false] }
     d.findDir (sectorOf 0x40000000) = some (entry1 false) ∧ d.holders (entry1 false) 0 ≠ []) ∧
    (let d := { agents with txns := [txn0] }
     (d.txns.find? fun t => t.opened && t.sector == sectorOf (d.localForm 0x40000000) && t.waits.contains 1) = some txn0 ∧
     (#v[none, none, none, some line64] : Vector (Option Bytes64) 4)[3].isSome = true) ∧
    (agents.txns.any fun t => t.opened && t.sector == sectorOf 0x40000000 && t.waits.contains 0) = false ∧
    (({ agents with dir := [entry1 true] } : Dev).findDir (sectorOf 0x40000000) = some (entry1 true) ∧
      (entry1 true).ptrs.contains 0 = false) ∧
    (let t := { txn0 with opened := false, waits := [], retries := 15 }
     (({ agents with txns := [t] } : Dev).txns.find? fun t => t.slice == txn0.slice && !t.opened && t.retries != 0) = some t) ∧
    txn0.slice < 16 ∧ ({ d0 with scrubs := [16] } : Dev).scrubs = [16] := by decide +kernel

/-- Every way of the sector's set is open, so no entry can be made. -/
theorem witness_CoherenceCommands_full :
    (let set := fun w => (⟨0, 1, w, 1000 + w, false, false, [1], true⟩ : DirEnt)
     let opened := fun w => { txn0 with sector := 1000 + w }
     ({ agents with dir := (List.range 16).map set, txns := (List.range 16).map opened } : Dev).newDir
       (sectorOf 0x40000000) 0 true).isNone := by decide +kernel

/-- DIMMs of 16 GiB at 8,000 MT/s, one a channel. -/
def dimms1 : Dimms := ⟨.registered, 1, 16, 8, 16, 1, 8000, true, true, []⟩

/-- A read of a line, waiting in channel 15's queue. -/
def readEnt : QEnt := ⟨0, 0, 3, false, false, false, false, none⟩

/-- Channel 15 with something. -/
def chan15 (f : MemCh → MemCh) : Dev := ready.onCh 15 f

theorem witness_MemoryChannelCommands :
    (d0.clocked ∧ d0.get F.MEM_TRAIN_STATE < 3 ∧ dimmsGood dimms1 (d0.get F.MEM_CFG_SPEED_MAX) = true ∧
      dimmsGood { dimms1 with uniform := false } (d0.get F.MEM_CFG_SPEED_MAX) = false) ∧
    (ready.get F.MEM_TRAIN_STATE = 3 ∧ 85 < BitVec.toNat (86 : BitVec 8) ∧ BitVec.toNat (92 : BitVec 8) ≤ 92 ∧
      95 < BitVec.toNat (96 : BitVec 8)) ∧
    ((chan15 fun c => { c with rq := [readEnt] }).memCh 15).quiet = false ∧
    ((chan15 fun c => { c with zqDue := true }).memCh 15).due = true ∧
    (let c := (chan15 fun c => { c with ports := [⟨0, 3, false, false, false, [0], none⟩] }).memCh 15
     c.ports.any c.eligible = true) ∧
    (let d := chan15 fun c => { c with rq := [readEnt] }
     d.nextRead 15 = some readEnt ∧ d.errs.planted = [] ∧ (d.memCh 15).rq = [readEnt] ∧ readEnt.aged = false) ∧
    (let d := (chan15 fun c => { c with wq := [{ readEnt with write := true }] }).put F.MEM_CH_WM_HIGH 1 15
     d.get F.MEM_CH_WM_HIGH 15 ≤ (d.memCh 15).wq.length ∧ (d.memCh 15).rq = []) ∧
    (let d := ((chan15 fun c => { c with ptr := 0 }).put F.MEM_CH_SLOT_ENTRY 14 15 0).unstage
       (RegRef.addr ⟨.MEM_CH_SLOT_COMMIT, 15, 0⟩)
     ((d.shadow 15).all slotLegal && (d.shadow 15).any fun e => e.toNat % 16 == 14) = true ∧
     ((d.put F.MEM_CH_SLOT_ENTRY 11 15 0).shadow 15).all slotLegal = false) ∧
    (let d := (chan15 fun c => { c with ptr := 0 }).put F.MEM_CH_STATUS_COMMIT_PEND 1 15
     d.get F.MEM_CH_STATUS_COMMIT_PEND 15 = 1 ∧ (d.memCh 15).ptr = 0) := by decide +kernel

/-! ### DMA and compression -/

/-- A DMA descriptor. -/
def dmaDesc (op flags : Byte) (src dst len : Nat) : List Byte :=
  [op, flags, 0, 0, 0, 0, 0, 0] ++ leBytes 8 src ++ leBytes 8 dst ++ leBytes 8 len ++ List.replicate 32 0

/-- Channel 31 of pod 3 in a state, its ring at the start of the pod's memory, with a descriptor in it. -/
def dmaDev (n : Nat) (desc : List Byte) : Dev :=
  let d := ((podded 2).put F.DMA_CH_OWNER_ASSIGNED 1 31).put F.DMA_CH_OWNER_POD 3 31
  let d := ((d.put F.DMA_CH_STATUS_STATE n 31).put F.DMA_CH_RING_ADDR 0x1000000 31).put F.DMA_CH_CFG_SIZE_LOG2 6 31
  { d with mem := memWrite [] 0x40000000 desc }

/-- A copy of a line, within the pod's memory. -/
def copyDesc : List Byte := dmaDesc 1 0 0x40001000 0x40002000 64

/-- A transfer of channel 31 under way. -/
def moving (desc : List Byte) : Dev := { dmaDev 2 desc with dmas := [DmaCur.fresh 31 desc] }

/-- What DMA_CHn_CFG holds after a write of `v` that leaves EN as it is. -/
def dmaCfg (d : Dev) (v : Word) : Dev :=
  let r : RegRef := ⟨.DMA_CH_CFG, 31, 0⟩
  (d.unstage r.addr).wr r (regAfter r.kind.fields ((d.unstage r.addr).rd r) (setBits v.toNat 0 1 0) false false)

theorem witness_DmaCommands_registers :
    (let d := dmaDev 0 copyDesc
     d.clocked ∧ d.get F.DMA_CH_OWNER_ASSIGNED 31 = 1 ∧ (d.unstage (RegRef.addr ⟨.DMA_CH_CFG, 31, 0⟩)).dmaState 31 = 0 ∧
     (dmaCfg d 1).get F.DMA_CH_CFG_RING_HOST 31 = 0 ∧ (dmaCfg d 1).dmaRingOk 31 = true ∧
     (dmaCfg (d.put F.DMA_CH_RING_ADDR 0 31) 1).dmaRingOk 31 = false) ∧
    (dmaDev 1 copyDesc).dmaState 31 = 1 ∧ (dmaDev 3 copyDesc).dmaState 31 = 3 ∧
    ((dmaDev 2 copyDesc).dmaState 31 = 2 ∧ (dmaDev 2 copyDesc).dmaCur 31 = none) ∧
    ((moving copyDesc).dmaCur 31).any (fun c => c.st == .moving) = true ∧
    fieldIn F.DMA_CH_CTRL_RESTART 1 = 1 := by decide +kernel

/-- The channel takes the descriptor at HEAD, and it is this one, valid or not and in the pod or not. -/
def takes (desc : List Byte) (valid inPod : Bool) : Bool :=
  let d := dmaDev 2 desc
  d.dmaMayTake 31 && (match d.dmaRead 31 with | .ok _ b => b == desc | _ => false) &&
    d.dmaValid (DmaCur.fresh 31 desc) == valid && (!valid || d.dmaInPod (DmaCur.fresh 31 desc) == inPod)

theorem witness_DmaCommands :
    takes (dmaDesc 4 0 0 0 0) false false = true ∧ takes (dmaDesc 0 0 0 64 0) false false = true ∧
    takes (dmaDesc 1 0 0 0 0) false false = true ∧ takes (dmaDesc 2 4 0 0x40002000 64) false false = true ∧
    takes (dmaDesc 3 0 1 0 0) false false = true ∧ takes (dmaDesc 1 0 0x40001000 0 64) true false = true ∧
    takes (dmaDesc 2 0 7 0 64) true false = true ∧ takes (dmaDesc 3 0 0 0 0) true false = true ∧
    takes (dmaDesc 0 0 0 0 0) true true = true ∧ takes copyDesc true true = true ∧
    takes (dmaDesc 2 0 7 0x40002000 64) true true = true ∧ takes (dmaDesc 3 0 0x40003000 0 0) true true = true ∧
    (DmaCur.fresh 31 copyDesc).flag 2 = false := by decide +kernel

theorem witness_DmaCommands_beats :
    (let d := moving copyDesc
     (d.dmaAsk.dmaPick.any fun x => x.2 == DmaCur.fresh 31 copyDesc) = true ∧
     d.dmaAsk.xlateRuns 7 ((DmaCur.fresh 31 copyDesc).hostRuns 64) = .ok) ∧
    (let d := moving (dmaDesc 1 1 0x5000 0x40002000 64)
     let d := { d with host := { d.host with failed := [(7, 5)] } }
     d.dmaAsk.dmaPick.isSome ∧
     d.dmaAsk.xlateRuns 7 ((DmaCur.fresh 31 (dmaDesc 1 1 0x5000 0x40002000 64)).hostRuns 64) = .fault) ∧
    (dmaDev 2 copyDesc).dmaCur 30 = none ∧
    (let c := { DmaCur.fresh 31 copyDesc with st := .readback }
     ({ dmaDev 2 copyDesc with dmas := [c] } : Dev).dmaCur 31 = some c) ∧
    (let c := DmaCur.fresh 31 (dmaDesc 2 0 7 0x4000203F 1)
     (dmaDev 2 copyDesc).poison = [] ∧ c.op = 2 ∧ c.flag 1 = false ∧ fieldAt c.desc 2 1 = 0 ∧
     c.dstAt c.done % 64 + 1 ≤ 64) := by decide +kernel

theorem witness_CircularTransferAddresses : 1 ≤ 12 ∧ 63 ≤ 63 ∧ (0x1FFF : Nat) < 2 ^ 13 := by decide

/-- A job of pod 3: a stage's, or a DMA channel's whose descriptor is in the pod's memory. -/
def job (stageJob : Bool) (op : Nat) : Job :=
  ⟨stageJob, 0, 2, 0, 0, 31, 0, 3, 0x40003000, op, 1, [0x28, 0xB5, 0x2F, 0xFD, 0x20, 1, 9, 0, 0, 0x41], 64⟩

/-- It on engine 7. -/
def engine (j : Job) (finished : Bool) : Dev := { podded 2 with engJobs := [⟨7, j, finished, 0, 0, [], none⟩] }

/-- A job descriptor. -/
def jobDesc (op : Byte) (src : Nat) : List Byte :=
  [op, 1, op, 0, 0, 0, 0, 0] ++ leBytes 8 src ++ leBytes 8 10 ++ leBytes 8 0x40005000 ++ leBytes 8 64 ++ List.replicate 24 0

theorem witness_CompressionCommands :
    (let d := { podded 2 with stageJobs := [job true 0] }
     d.clocked ∧ d.engJob 7 = none ∧ d.engineOn 7 = true ∧ d.stageJobs.find? d.jobRuns = some (job true 0)) ∧
    (let d := { podded 2 with dmaJobs := [job false 0] }
     d.stageJobs.find? d.jobRuns = none ∧ d.dmaEngines < d.get F.CMP_CTRL_DMA_MAX ∧ d.nextDmaJob = some (job false 0) ∧
     (d.put F.CMP_CTRL_DMA_MAX 0).get F.CMP_CTRL_DMA_MAX ≤ d.dmaEngines) ∧
    ((engine (job true 0) false).armed 9 7 = false ∧ ((engine (job true 0) false).engJob 7).isSome ∧
      (unpack 1 (job true 0).src false).out.length = 1) ∧
    (let x : EngJob := ⟨7, job false 0, true, 0, 0, [], none⟩
     (engine (job false 0) true).engJob 7 = some x ∧ x.finished = true ∧ x.job.stageJob = false) ∧
    (let ok := fun (b : List Byte) => (podded 2).jobValid b && (podded 2).jobInPod 3 b
     ok (jobDesc 0 0x40004000) = true ∧ ok (jobDesc 1 0x40004000) = true ∧ jobFlag (jobDesc 1 0x40004000) 3 = false ∧
     (podded 2).jobValid (jobDesc 1 0) = true ∧ (podded 2).jobInPod 3 (jobDesc 1 0) = false ∧
     (podded 2).jobValid (List.replicate 64 0) = false) := by decide +kernel

/-- The job an engine works is of its operation: a stage's job, and a DMA job by its descriptor. -/
theorem witness_CompressionCommands_operation :
    (podded 2).engOp ⟨7, job true 0, false, 0, 0, [], none⟩ = 0 ∧ (podded 2).engOp ⟨7, job true 1, false, 0, 0, [], none⟩ = 1 ∧
    (let d := { podded 2 with mem := memWrite [] 0x40003000 (jobDesc 1 0x40004000) }
     d.engOp ⟨7, job false 0, false, 0, 0, [], none⟩ = 1 ∧ d.ld (d.localForm 0x40003000) 64 = jobDesc 1 0x40004000) := by
  decide +kernel

/-! ### Rings, entries and placement -/

/-- Ring 1023 of pod 3 in a state, at the start of the pod's memory. -/
def ring (n : Nat) : Dev :=
  let d := ((podded 2).put F.RNG_OWNER_ASSIGNED 1 1023).put F.RNG_OWNER_POD 3 1023
  ((d.put F.RNG_STATUS_STATE n 1023).put F.RNG_BASE_ADDR 0x40000 1023).put F.RNG_CFG_SIZE_LOG2 6 1023

theorem witness_RingCommands :
    (let cfg := fun (d : Dev) =>
       let r : RegRef := ⟨.RNG_CFG, 1023, 0⟩
       (d.unstage r.addr).wr r (regAfter r.kind.fields ((d.unstage r.addr).rd r) (setBits 1 0 1 0) false false)
     (ring 0).clocked ∧ (ring 0).ringState 1023 = 0 ∧ (ring 1).ringState 1023 ≠ 0 ∧ fieldIn F.RNG_CFG_EN 1 = 1 ∧
     (cfg (ring 0)).get F.RNG_OWNER_ASSIGNED 1023 = 1 ∧ (cfg (ring 0)).ringHost 1023 = false ∧
     (cfg (ring 0)).ringInPod 1023 = true ∧ (cfg ((ring 0).put F.RNG_BASE_ADDR 0 1023)).ringInPod 1023 = false) ∧
    ((ring 2).leaveP1.ringState 1023 = 2 ∧ 3 ≤ (ring 3).leaveP1.ringState 1023) ∧
    (let full := fun (t : Nat) =>
       let d := (((ring 2).put F.RNG_DB_TAIL t 1023).put F.RNG_HEAD_DONE 1 1023).leaveP1
       (d.ringTail 1023 + d.ringSize 1023 - d.ringDone 1023) % d.ringSize 1023 + 1
     full 0 = (ring 2).ringSize 1023 ∧ full 1 ≠ (ring 2).ringSize 1023) ∧
    (let d := (ring 2).put F.RNG_DB_TAIL 1 1023
     d.mayFetch 1023 = true ∧ (d.pushed.find? fun x => x.1 == 1023 && x.2.1 == d.ringFetch 1023) = none ∧
     d.ringHost 1023 = false ∧ d.poisonAt (d.localForm (d.ringAddr 1023 (d.ringFetch 1023))) = .clean ∧
     (({ d with pushed := [(1023, 0, [])] } : Dev).pushed.find? fun x => x.1 == 1023 && x.2.1 == 0).isSome) ∧
    (let d := { ring 2 with host := { (ring 2).host with holdoff := [(1023, true, 5)] } }
     (d.host.holdoff.find? fun h => h.1 == 1023) = some (1023, true, 5)) := by decide +kernel

/-- Ring 5 of pod 3, running, with one entry of a kind at index 0. -/
def entry (kind : Byte) (st : EntSt) (r : Run → Run) : Dev :=
  let d := ((podded 2).put F.RNG_OWNER_ASSIGNED 1 5).put F.RNG_OWNER_POD 3 5
  let d := ((d.put F.RNG_STATUS_STATE 2 5).put F.RNG_BASE_ADDR 0x40000 5).put F.RNG_CFG_SIZE_LOG2 6 5
  let x := run5 (pipe2 6) .fence
  { d with runs := [r { x with entry := [kind, 0, 0, 0] ++ x.entry.drop 4, st := st, placed := false, image := none }] }

/-- It. -/
def theRun (d : Dev) (f : Run → Bool) : Bool := (d.findRun 5 0).any f

/-- An Arrow batch of no rows and one INT8 field, as a header of 64 bytes. -/
def emptyBatch : List Byte :=
  leBytes 4 0x5441424B ++ leBytes 2 1 ++ List.replicate 10 0 ++ leBytes 4 64 ++ List.replicate 12 0 ++ [1] ++
    List.replicate 31 0

theorem witness_EntryCommands :
    (let d := entry 0 .fetched id
     d.clocked ∧ theRun d (fun r => r.st == .fetched && r.kind == 0 && r.index == d.ringDone r.ring) ∧
     theRun (d.put F.RNG_HEAD_DONE 1 5) (fun r => r.index != (d.put F.RNG_HEAD_DONE 1 5).ringDone r.ring)) ∧
    (let d := entry 1 .fetched id
     let g : ProgReg := ⟨3, 0, 0x40000000, 64, false⟩
     let good := { d with progs := [g], pgc := [⟨0, 3, 0, 0, image (pipe2 6) .fence⟩] }
     theRun d (fun r => r.st == .fetched && r.kind == 1 && d.nextToStart r && d.podState r.pod == 2 && !d.podFenced r.pod &&
       (match d.program r.pod r.handle with | .error f => f.status == 0x10 | _ => false)) ∧
     theRun good (fun r => match good.program r.pod r.handle with | .ok m => m == image (pipe2 6) .fence | _ => false) ∧
     theRun { d with progs := [g] } (fun r =>
       match ({ d with progs := [g] } : Dev).program r.pod r.handle with | .error f => f.status != 0x10 | _ => false) ∧
     (d.put F.ERR_FENCE_TILE_FENCED 3).podFenced 3 = true) ∧
    (let at_ := fun (a : Nat) => entry 2 .fetched fun r => { r with entry := r.entry.take 16 ++ leBytes 8 a ++ r.entry.drop 24 }
     let d := at_ 0x40000000
     let e := { d with mem := memWrite [] 0x40000000 emptyBatch }
     theRun d (fun r => r.kind == 2 && d.nextToStart r && !d.engineHalted r.pod && !r.flag 2 && d.inPod r.pod r.paramAddr 64 &&
       d.poisonIn (d.localForm r.paramAddr) 64 == .clean && (batchHeader (d.ld (d.localForm r.paramAddr) 64)).isNone) ∧
     theRun (at_ 0) (fun r => !(at_ 0).inPod r.pod r.paramAddr 64) ∧
     theRun e (fun r => (batchHeader (e.ld (e.localForm r.paramAddr) 64)).any fun x => x.2 == 64) ∧
     ({ d with poison := [(0x40000000, .ue)] } : Dev).poisonIn 0x40000000 64 ≠ .clean) := by decide +kernel

theorem witness_EntryCommands_ends :
    (let d := entry 1 .waiting id
     theRun d (fun r => fieldAt r.entry 0x1C 4 != 0 && r.failure.isNone && r.st != .ended && d.podState r.pod == 2 && !r.placed)) ∧
    (let d := running (pipe2 6) .fence .running
     theRun d (fun r => r.placed && !d.runSettled r.ring r.index && r.failure.isNone)) ∧
    (let d := entry 1 .waiting fun r => { r with entry := List.replicate 64 0 }
     theRun d (fun r => fieldAt r.entry 0x1C 4 == 0)) ∧
    (let d := entry 0 .ended id
     theRun d (fun r => r.index == d.ringDone r.ring && d.runEnded r && !r.unwritten && r.kind != 1 &&
       !d.ringHost r.ring)) := by decide +kernel

/-- A start waits for the governor. -/
def governed (queue : List GovStart) (advancing : Bool) : Dev :=
  { (if queue.isEmpty then podded 2 else running (pipe2 6) .fence .starting) with
    pw := { d0.pw with queue := queue, advancing := advancing, announced := true } }

theorem witness_PlacementAndGovernor :
    (∀ r ∈ (podded 2).runs, r.st ≠ .waiting) ∧
    (let d := entry 1 .waiting id
     d.clocked ∧ (d.runs.filter fun r => r.st == .waiting).length = 1 ∧ (d.findRun 5 0).isSome) ∧
    (governed [] true).pw.advancing = true ∧ (governed [] false).pw.advancing = false ∧ (governed [] false).pw.queue = [] ∧
    (governed [⟨0, 2, 5⟩] false).pw.queue ≠ [] ∧ (governed [⟨0, 2, 5⟩] false).pw.announced = true ∧ d0.pw.announced = false ∧
    (governed [] false).admitStarts.pw.queue = [] ∧ (governed [⟨0, 2, 5⟩] true).admitStarts.pw.advancing = true ∧
    (let d := (governed [⟨0, 2, 5⟩] false).admitStarts
     d.pw.queue = [⟨0, 2, 5⟩] ∧ d.pw.advancing = false ∧ 5 ≤ d.pw.acct + 32 * d.get F.PWR_GOV_CFG_SLEW) ∧
    (let d := (governed [⟨0, 2, 10 ^ 9⟩] false).admitStarts
     d.pw.queue = [⟨0, 2, 10 ^ 9⟩] ∧ d.pw.acct + 32 * d.get F.PWR_GOV_CFG_SLEW < 10 ^ 9) ∧
    (let d := running (pipe2 6) .fence .placed
     theRun d (fun r => r.image == some (image (pipe2 6) .fence) && d.mayStart r && d.dependsDone r (pipe2 6) &&
       !d.regionsLocked r (image (pipe2 6) .fence)) ∧
     d.pipeInsts 5 0 0 = [inst0 (pipe2 6) .placed]) ∧
    (running (pipe2 6) .fence .running).pipeInsts 5 0 0 = [inst0 (pipe2 6) .running] := by decide +kernel

/-! ### Stages -/

/-- Stage 1 of the instance. -/
def stage1 : StageRef := ⟨0, 2, 1, 0⟩

/-- The stage is there, with this opcode. -/
def works (w : Nat) : Bool :=
  ((running (pipe2 (BitVec.ofNat _ w)) .fence .running).actOf stage1).any fun a => a.w == w

theorem witness_StageCommands :
    d0.clocked ∧ (d0.actOf stage1).isNone ∧ d0.get F.ERR_INJ_ARMED = 0 ∧ d0.errs.jdrLost = false ∧
    ([0x01, 0x02, 0x03, 0x04, 0x05, 0x06, 0x08, 0x09, 0x0A, 0x0B, 0x0C, 0x0D, 0x10, 0x11, 0x12, 0x14, 0x18, 0x19, 0x1A,
      0x20, 0x22, 0x23].all fun c => works c && swOp c == c) = true ∧
    ([0, 1].all fun k => works (0x11 + k * 2 ^ 40) && mergeSource (0x11 + k * 2 ^ 40) == k) = true ∧
    ([0, 1, 2, 3, 4].all fun k => works (0x21 + k * 2 ^ 40) && rangeOp (0x21 + k * 2 ^ 40) == k) = true ∧
    joinStage 0x09 = true ∧ joinStage 0x0A = true ∧ joinStage 0x14 = true ∧ joinStage 0x01 = false ∧ swOp 0x02 ≠ 0x01 := by
  decide +kernel

/-- A pipeline whose stage 1, of opcode `c`, reads streams 0 and 1 and writes stream 2; bit 46 of its word is `b`. -/
def pipeIO (c b : Nat) : Pipe :=
  { pipe2 0 with
    stages := [BitVec.ofNat _ (0x04 + 0xFFFFFFFF0000 + 0xFFFF * 2 ^ 48),
      BitVec.ofNat _ (c + 0x02010000 + 0xFF * 2 ^ 32 + b * 2 ^ 46 + 0xFFFFFFFF * 2 ^ 48)]
    streams := [⟨0, 0, 1, 1, 3, 0, false⟩, ⟨1, 0, 1, 1, 3, 0, false⟩, ⟨2, 1, 2, 1, 3, 0, false⟩] }

/-- A block of one row. -/
def blk (seq epoch : Nat) : Block := ⟨seq, epoch, 0, 2, .decoded [some (.int 1)], none, [], false⟩

/-- An activation of that stage with blocks on its streams. -/
def turnOf (b : Nat) (chans : List Chan) : Act :=
  { d := podded 2, i := { inst0 (pipeIO 5 b) .running with chans := chans }, r := run5 (pipeIO 5 b) .fence,
    p := pipeIO 5 b, n := 1, st := StageSt.start [] }

theorem witness_StreamTurns :
    (let got := fun (a : Act) (bs : List (Nat × Block)) =>
       decide ((a.ins.map fun v => (a.inBlock v).map fun b => (v, b)) = bs.map some)
     let two := fun (b : Nat) (x y : Block) (out : List Block) =>
       turnOf b [⟨0, [x], false⟩, ⟨1, [y], false⟩, ⟨2, out, false⟩]
     let pair := fun (x y : Block) => [(0, x), (1, y)]
     got (two 0 (blk 0 1) (blk 0 0) []) (pair (blk 0 1) (blk 0 0)) = true ∧
     ((two 0 (blk 0 1) (blk 0 0) []).accept (pair (blk 0 1) (blk 0 0))).isNone ∧
     ((two 0 (blk 0 0) (blk 0 0) []).accept (pair (blk 0 0) (blk 0 0))).isSome ∧
     aligned (pair (blk 0 0) (blk 1 0)) = false ∧ aligned (pair (blk 0 0) (blk 0 0)) = true ∧
     (two 1 (blk 0 0) (blk 0 0) []).writersDone = false ∧ (two 0 (blk 0 0) (blk 0 0) []).writersDone = true ∧
     (two 0 (blk 0 0) (blk 0 0) [blk 0 0, blk 1 0]).outRoom = false ∧ (two 0 (blk 0 0) (blk 0 0) []).outRoom = true) ∧
    (let a := turnOf 0 [⟨0, [], true⟩, ⟨1, [], true⟩, ⟨2, [], false⟩]
     a.ins = [0, 1] ∧ (a.inBlock 0).isNone ∧ a.inEnded 0 = true ∧ a.inEnded 1 = true) ∧
    (let a := turnOf 0 [⟨0, [], true⟩, ⟨1, [blk 0 0], false⟩, ⟨2, [], false⟩]
     (a.inBlock 0).isNone ∧ a.inEnded 0 = true ∧ a.inEnded 1 = false ∧ (a.inBlock 1).isSome) ∧
    (let a := turnOf 0 [⟨0, [], false⟩, ⟨1, [], false⟩, ⟨2, [], false⟩]
     (a.inBlock 0).isNone ∧ a.inEnded 0 = false ∧ a.inEnded 1 = false) := by decide +kernel

/-- A stage word: opcode, inputs, outputs, MODE, and its bits from 48. -/
def word128 (c i0 i1 o0 o1 mode hi : Nat) : Nat :=
  c + i0 * 2 ^ 8 + i1 * 2 ^ 16 + o0 * 2 ^ 24 + o1 * 2 ^ 32 + mode * 2 ^ 40 + hi * 2 ^ 48

/-- No stream. -/
abbrev no : Nat := 0xFF

/-- Streams 0 and 1 come to stage 1, 0 in form `form`, and 2, decoded, and 3, encoded, go from it. -/
def streams4 (form : Nat) : List StreamDesc :=
  [⟨0, 0, 1, form, 3, 0, false⟩, ⟨1, 0, 1, 1, 3, 0, false⟩, ⟨2, 1, 2, 1, 3, 0, false⟩, ⟨3, 1, 2, 0, 3, 0, false⟩]

/-- Stage 1 has the word; a block stands at each of its inputs, or all have ended. The pod's memory holds `mem`. -/
def staged (w form : Nat) (b : Option Body) (f : StageSt → StageSt) (mem : List Host.Cell) : Dev :=
  let p := { pipe2 0 with tsRegion := 1, stages := [0x1A, BitVec.ofNat _ w], streams := streams4 form }
  let chan := fun n => (⟨n, b.toList.map fun x => ⟨0, 0, 0, 2, x, some [7], [], false⟩, b.isNone⟩ : Chan)
  let i := { inst0 p .running with chans := [chan 0, chan 1, ⟨2, [], false⟩, ⟨3, [], false⟩],
                                   stages := [StageSt.start [], f (StageSt.start [])] }
  (({ running p .fence .running with insts := [i], mem := mem } : Dev).put F.POD_SHARES_JDR_B 4 3)

/-- The address of the pod's memory. -/
abbrev home : Nat := 0x40000000

/-- K registers. -/
def withK (l : List (Nat × Nat)) (s : StageSt) : StageSt :=
  { s with k := l.foldl (fun k x => k.set x.1 (BitVec.ofNat 64 x.2)) (List.replicate 64 0) }

/-- K9 and K10 name a destination area. -/
def dest : StageSt → StageSt := withK [(9, home + 0x10000), (10, 0x40000)]

/-- A row of value 1, decoded, and encoded with its zone. -/
def one : Option Body := some (.decoded [some (.int 1)])
def oneBlock : List Byte × List Byte := zonedBlock 3 [some (.int 1)]
def enc : Option Body := some (.encoded oneBlock.1 oneBlock.2)

/-- A column set of that block. -/
def setMem : List Host.Cell :=
  memWrite (memWrite [] (home + 1024) (oneBlock.1 ++ oneBlock.2)) home
    (leBytes 4 1 ++ [1, 0, 0, 0] ++ leBytes 8 1 ++ leBytes 8 (home + 1024))

/-- A block stands at the inputs of the stage, and it may work it. -/
def offered (w form : Nat) (b : Option Body) (f : StageSt → StageSt) (ok : Act → List (Nat × Block) → Bool) : Bool :=
  ((staged w form b f []).offerAt stage1 (swOp w)).any fun x => ok x.1 x.2

/-- A source stage has buffers for its outputs. -/
def sources (w : Nat) (f : StageSt → StageSt) (mem : List Host.Cell) (ok : Act → Bool) : Bool :=
  ((staged w 1 none f mem).sourceAt stage1 (swOp w)).any ok

/-- The inputs of the stage have ended. -/
def inputsEnd (w : Nat) (f : StageSt → StageSt) (ok : Act → Bool) : Bool :=
  ((staged w 1 none f []).endAt stage1 (swOp w)).any ok

/-- A SCAN of that set with zone column `z`. -/
def scanWord (z : Nat) : Nat := word128 0x01 no no 3 no 0 (0xFFFF + 5 * 2 ^ 16 + z * 2 ^ 24 + 6 * 2 ^ 56 + 7 * 2 ^ 64)

theorem witness_SourceStagesComplete :
    (sources (scanWord no) (withK [(5, home)]) setMem fun a =>
      match a.lookSource.scanOpen with
      | .ok s => let c := a.lookSource.claim s
        !a.lookSource.st.opened && c.st.groups == [0] && swField c.w 72 == no && (c.fetchCols s 0 c.outs 0).2.isOk
      | _ => false) = true ∧
    (sources (scanWord 0) (withK [(5, home), (6, 2), (7, 3)]) setMem fun a =>
      match a.lookSource.scanOpen with
      | .ok s => let c := a.lookSource.claim s
        match (c.look (c.setAddr s 0 (swField c.w 72)) 64).scanSkips s 0 with
        | .ok skips => c.st.groups == [0] && swField c.w 72 != no && skips
        | _ => false
      | _ => false) = true ∧
    (sources (scanWord no) (fun s => { s with opened := true }) [] fun a =>
      a.lookSource.st.opened && a.lookSource.st.groups.isEmpty) = true ∧
    (sources (word128 0x14 no no 2 no 0 0x100) id [] fun a =>
      let t := (a.d.region a.i.pod a.rrgn).keyType
      !swMode a.w 0 && (a.joinLookups t (a.lookupKeys t)).isOk) = true ∧
    (sources (word128 0x14 no no 2 no 1 0x100) id [] fun a =>
      swMode a.w 0 && (a.d.rcheck (a.i.tile / 8) a.i.pod a.rrgn).isOk) = true ∧
    ([0, 1].all fun k => [[], [[some (Val.int 1)]]].all fun rows =>
      sources (word128 0x11 no no 2 no k 0xFF00000000) (fun s => { s with outRows := some rows }) [] fun a =>
        mergeSource a.w == k && a.st.outRows == some rows) = true ∧
    (sources (word128 0x11 no no 2 no 1 0xFF00000007) id [] fun a => a.st.outRows.isNone && a.regionRows.isOk) = true := by
  decide +kernel

theorem witness_RowStagesComplete :
    ([(1, true), (2, false)].all fun k => offered (word128 0x02 0 no 3 no 0 0x706) 0 enc (withK [(6, k.1), (7, k.1)])
      fun a bs => match bs with
        | (v, ⟨_, _, _, _, .encoded h _, _, _, _⟩) :: _ =>
          a.mayHold (a.p.typeOf (streamNo v)) (swField a.w 48) (swField a.w 56) (Husk.ofBytes h) == k.2 &&
            (a.skipChecks bs).isNone
        | _ => false) = true ∧
    (offered (word128 0x02 0 no 3 no 0 0x706) 1 one id fun a bs => (a.skipChecks bs).isNone) = true ∧
    (offered (word128 0x03 0 no 2 no 0 no) 0 enc id fun a bs => match bs with
      | (v, ⟨_, _, _, _, .encoded h raw, _, _, _⟩) :: _ =>
        match a.decodeBlock (zoneType (a.p.typeOf (streamNo v))) h raw a.dictK with
        | .ok y => let t := a.p.typeOf (streamNo (a.outs.headD 0))
          (Husk.ofBytes h).typ == t && decide (decodedSize t y.2 ≤ blockLimit)
        | _ => false
      | _ => false) = true ∧
    ([2, no].all fun o => offered (word128 0x08 0 no o no 0 0) 1 one id fun a bs =>
      (a.readAll bs).isOk && a.outs.isEmpty == (o == no)) = true ∧
    (offered (word128 0x04 0 no no no 0 0xFFFF) 1 one id fun a bs =>
      a.selRoom (a.p.groupOfStage a.n) (setSeq bs) && match a.runCode 0 bs (List.replicate (setRows bs) true) with
        | .ok y => (firstFault y.2 0).isNone
        | _ => false) = true ∧
    (offered (word128 0x05 0 no 2 no 0 0xFFFF) 1 one id fun a bs =>
      match a.runCode (bitsOf a.w 40 2) bs (a.selected (setSeq bs) (setRows bs)) with
      | .ok y => (firstFault (y.1.chargeOuts y.2) 0).isNone
      | _ => false) = true ∧
    (offered (word128 0x06 0 no 2 no 0 0xFFFFFFFF) 1 one id fun a bs => (a.readAll bs).isOk) = true ∧
    ([1, 2].all fun n => offered (word128 0x19 0 no 2 no 0 n) 1 one id fun a bs => match a.readAll bs with
      | .ok (e, cols) =>
        let x := limitRows e.limitOffset (limitCount e.w) (e.selected (setSeq bs) (setRows bs)) e.st.skipped e.st.passed
        let f := (e.putKept x.1 e.outs bs cols).onSt fun st => { st with skipped := x.2.1, passed := x.2.2 }
        limitCount a.w == n && (f.st.passed == limitCount f.w) == (n == 1)
      | _ => false) = true ∧
    (((staged (word128 0x19 0 no 2 no 0 0) 1 one id []).turnAt stage1 0x19).any fun a => limitCount a.w == 0) = true ∧
    ([0, 1].all fun m => offered (word128 0x1A 0 no 2 no m 1) 1 one id fun a bs =>
      !a.st.heldBlk && !a.st.posted && decide (bitsOf a.w 48 16 ≤ a.st.count + 1) && swMode a.w 0 == (m == 1) &&
        (a.d.spawn (a.eventThread (setSeq bs))).isSome) = true ∧
    (offered (word128 0x1A 0 no 2 no 1 1) 1 one (fun s => { s with posted := true }) fun a _ =>
      !a.st.heldBlk && a.st.posted) = true ∧
    (offered (word128 0x1A 0 no 2 no 0 2) 1 one id fun a _ =>
      !a.st.heldBlk && !a.st.posted && decide (a.st.count + 1 < bitsOf a.w 48 16)) = true := by
  decide +kernel

theorem witness_DirectoryStagesComplete :
    ([1, 2].all fun pay => offered (word128 0x09 0 (if pay = 2 then 1 else no) no no 0 (pay * 2 ^ 8)) 1 one id fun a bs =>
      let x := a.fillAnn bs
      match x.2, x.1.readAll x.2 with
      | (v, b) :: _, .ok (e, cols) => (e.buildRows (swField e.w 56) (e.buildRecs v b cols)).2.isNone
      | _, _ => false) = true ∧
    ([0, 1].all fun m => offered (word128 0x0B 0 no no no m 0) 1 one id fun a bs =>
      let x := if swMode a.w 0 then a.fillAnn bs else (a, bs)
      match x.2, x.1.readAll x.2 with
      | (_, b) :: _, .ok (e, cols) =>
        let rows := (keepRows (e.selected b.seq b.body.rowCount) (List.range b.body.rowCount)).map fun r =>
          (r, if swMode e.w 0 then b.annAt r else 0, [(cols.getD 0 []).getD r none, (cols.getD 0 []).getD r none])
        match e.foldRows (e.p.accArray e.w e.st.k e.i.number e.count) b.seq rows with
        | .done _ true => rows.length == 1
        | _ => false
      | _, _ => false) = true ∧
    ([0, 1, 2, 4].all fun op => offered (word128 0x21 0 no (if op < 3 then 2 else no) no op 0) 1 one id fun a bs =>
      rangeOp a.w == op && match a.readAll bs with
        | .ok (e, _) => (e.d.rcheck (e.i.tile / 8) e.i.pod e.rrgn).isOk
        | _ => false) = true ∧
    (((((staged (word128 0x21 0 1 no no 3 0) 1 one id []).put F.RDR_POD_RGN_CFG_SIZE 8 3 0).put F.RDR_POD_RGN_CFG_HOLE 3 3
        0).offerAt stage1 0x21).any fun x => rangeOp x.1.w == 3 && match x.1.readAll x.2 with
      | .ok (e, cols) =>
        let rows := ((orderedKeys 3 (cols.getD 0 [])).zipIdx).filterMap fun y => y.1.map fun k =>
          (k, (((cols.getD 1 []).getD y.2 none).map fun z => z.toInt.toNat))
        ((e.d.useRegion e.i.pod e.rrgn 3).rinsertRows e.i.pod e.rrgn (swField e.w 56) rows).2.isNone
      | _ => false) = true := by
  decide +kernel

theorem witness_DirectoryStagesComplete_rows :
    ([0x22, 0x23].all fun c => offered (word128 c 0 no no no 0 (16 + 2 * 2 ^ 8 + 9 * 2 ^ 56)) 1 one (withK [(9, home)])
      fun a bs => let x := a.fillAnn bs
        match x.2 with
        | (v, k) :: _ => match x.1.readBlock v k with
          | .ok (e, c) => let hs := (keepRows (e.selected k.seq c.length) (keyHashes k c)).filterMap id
            x.1.selRoom (x.1.p.groupOfStage x.1.n) k.seq && ((e.lookBits hs).bloomSetRows hs).isOk &&
              ((e.lookBits ((keyHashes k c).filterMap id)).bloomTestRows (keyHashes k c)).isOk
          | _ => false
        | _ => false) = true ∧
    ([(0, no, no), (0, 1, no), (8, no, 2)].all fun m =>
      ((staged (word128 0x0A 0 m.2.1 m.2.2 no m.1 0) 1 one id []).turnAt stage1 0x0A).any fun y =>
        !y.st.liveDone && y.offer.any fun y =>
          let x := y.1.fillAnn y.2
          x.1.st.outRows.isNone && x.1.jst != 5 && x.1.jst != 6 && x.1.selRoom (x.1.p.groupOfStage x.1.n) 0 &&
          match x.2 with
          | (v, k) :: rest => (rest.isEmpty == (m.2.1 == no)) && match x.1.readBlock v k with
            | .ok (e, c) =>
              let cf := e.d.get F.JDR_POD_RGN_STATE_CASEFOLD e.i.pod e.rgn == 1
              let n := k.body.rowCount
              match e.liveRows false k (c.map fun z => z.map (normKey (e.p.typeOf (streamNo v)) cf)) []
                  ((List.range n).zip (e.selected k.seq n)) with
              | .ok (f, ps) => (swMode f.w 3 == (m.1 == 8)) &&
                decide ((expandOut ((List.range ps.length).map (rowNumber k.seq)) ps).length ≤ f.maxRows)
              | _ => false
            | _ => false
          | _ => false) = true := by
  decide +kernel

/-- Bits from 48 of a stage that writes the area of K9; `rest` stands at 64. -/
def toArea (rest : Nat) : Nat := 0xFFFF + rest * 2 ^ 16 + 9 * 2 ^ 56

/-- The turn works its block. -/
def turnWorks : Turn → Bool
  | .done _ true => true
  | _ => false

theorem witness_WritingStagesComplete_areas :
    (offered (word128 0x0C 0 no no no 0 (toArea 0)) 1 one dest fun a bs => let x := a.fillAnn bs
      match x.1.openArea (swField x.1.w 104) x.1.partHead with
      | .ok b => match b.readAll x.2, x.2 with
        | .ok (c, cols), (_, k) :: _ => let n := k.body.rowCount
          (c.partRows c.destArea (keepRows (c.selected k.seq n) (((List.range n).map k.annAt).zip (rowsOfCols n cols)))).isOk
        | _, _ => false
      | _ => false) = true ∧
    (offered (word128 0x0D 0 no no no 0 (toArea 0)) 0 enc dest fun a bs =>
      match a.openArea (swField a.w 104) 64 with
      | .ok c => let sel := c.selected (setSeq bs) (setRows bs)
        !swMode c.w 0 && !c.w.testBit 46 &&
          (c.putSetGroup c.destArea 0 (c.spillBlocks sel bs (bs.map fun _ => [])) (sel.filter id).length).isOk
      | _ => false) = true ∧
    (offered (word128 0x0D 0 no no no 64 (toArea 0)) 0 enc dest fun a bs =>
      match a.openArea (swField a.w 104) 64 with
      | .ok b => match b.readAll bs with
        | .ok (c, cols) => let sel := c.selected (setSeq bs) (setRows bs)
          c.w.testBit 46 && (c.putSetGroup c.destArea 0 (c.spillBlocks sel bs cols) (sel.filter id).length).isOk
        | _ => false
      | _ => false) = true ∧
    ((({ staged (word128 0x0D 0 no no no 1 (toArea 0)) 0 enc dest [] with
        jobResults := [⟨0, 2, 1, 0, home + 0x10040, 0, [1, 2, 3]⟩] } : Dev).offerAt stage1 0x0D).any fun x =>
      match x.1.openArea (swField x.1.w 104) 64 with
      | .ok c => let sel := c.selected (setSeq x.2) (setRows x.2)
        let addr := c.destArea.base + c.st.cursor
        swMode c.w 0 && match c.packBlocks addr (c.spillBlocks sel x.2 (x.2.map fun _ => [])) 0 with
          | .ok f blocks => ((f.dropResults addr).putSetGroup (f.dropResults addr).destArea 0 blocks
            (sel.filter id).length).isOk
          | _ => false
      | _ => false) = true := by
  decide +kernel

theorem witness_WritingStagesComplete_rows :
    (offered (word128 0x10 0 no no no 0 (toArea 1)) 1 one dest fun a bs =>
      match a.openArea (swField a.w 104) 0x4040 with
      | .ok b => match b.storeCheck b.heldBytes with
        | .ok x => match x.readAll bs with
          | .ok (c, cols) => (c.holdRows (c.presentRows (setSeq bs) (setRows bs) cols)).isOk
          | _ => false
        | _ => false
      | _ => false) = true ∧
    (offered (word128 0x12 0 no 2 no 0 (0xFF + 3 * 2 ^ 16)) 1 one id fun a bs =>
      match a.storeCheck (a.st.held.length * a.topSize) with
      | .ok b => (b.readAll bs).isOk
      | _ => false) = true ∧
    ([[], [some (Val.int 1)]].all fun c => offered (word128 0x18 0 no no no 0 (toArea 0)) 1 (some (.decoded c)) dest
      fun a bs => match a.emitCols bs with
        | .ok (b, typed) => let sel := b.selected (setSeq bs) (setRows bs)
          (sel.filter id).length == c.length && b.st.source.isNone &&
            turnWorks (b.writeBatch (setSeq bs) (typed.map fun x => (x.1, keepRows sel x.2)) (sel.filter id).length)
        | _ => false) = true ∧
    (((staged (word128 0x18 0 no no no 2 (toArea 0)) 1 (some (.decoded [some (.int 0)]))
        (fun s => { dest s with source := some (⟨home, 1, 1, 1⟩, 3) }) setMem).offerAt stage1 0x18).any fun x =>
      match x.1.emitCols x.2 with
      | .ok (b, typed) => let sel := b.selected (setSeq x.2) (setRows x.2)
        match b.st.source, typed with
        | some y, k :: _ => match (b.lookGather y.1 (keepRows sel k.2)).gatherField (typed.map fun z => (z.1, keepRows sel z.2)) with
          | .ok (c, g) => turnWorks (c.writeBatch (setSeq x.2) g (sel.filter id).length)
          | _ => false
        | _, _ => false
      | _ => false) = true := by
  decide +kernel

/-- What sending comes to: the blocks have gone, or some rows wait. -/
def sends (a : Act) (seq : Nat) : Option Bool :=
  match a.sendAll (a.d.spanInsts a.r a.i.pipe) seq with
  | .done _ true => some true
  | .quiet _ => some false
  | _ => none

theorem witness_WritingStagesComplete_exchange :
    ([(true, [(⟨0, 1, true, 5⟩ : Credit)]), (false, [])].all fun m =>
      offered (word128 0x20 0 no no no 0 0xFFFFFFFF) 1 one (fun s => { s with credits := m.2 }) fun a bs =>
        let dests := a.d.spanInsts a.r a.i.pipe
        !a.st.heldBlk && match a.readAll bs with
          | .ok (b, cols) => let x := b.fillAnn bs
            let anns := (List.range (setRows bs)).map fun r => (x.2.head?.map fun y => y.2.annAt r).getD 0
            let rows := keepRows (x.1.selected (setSeq bs) (setRows bs)) ((List.range (setRows bs)).zip
              (anns.zip (rowsOfCols (setRows bs) cols)))
            match x.1.routeRows dests.length bs rows with
            | some c => sends (c.onSt fun st => { st with heldBlk := true }) (setSeq bs) == some m.1
            | none => false
          | _ => false) = true ∧
    ([(true, []), (false, [(⟨0, [[some (.int 1)]], []⟩ : RowBuf)])].all fun m =>
      offered (word128 0x20 0 no no no 0 0xFFFFFFFF) 1 one (fun s => { s with heldBlk := true, bufs := m.2 }) fun a bs =>
        a.st.heldBlk && sends a (setSeq bs) == some m.1) = true := by
  decide +kernel

theorem witness_WritingStagesComplete_ends :
    (inputsEnd (word128 0x0C 0 no no no 0 (toArea 0)) dest fun a => match a.openArea (swField a.w 104) a.partHead with
      | .ok b => match b.flushParts a.destArea (List.range 1) with
        | .ok c => 2 ^ bitsOf a.w 64 8 == 1 && (c.writeSets a.destArea c.ins.length
          (c.st.sets ++ List.replicate (1 - c.st.sets.length) { groups := [], rows := 0 })).isOk
        | _ => false
      | _ => false) = true ∧
    (inputsEnd (word128 0x0D 0 no no no 0 (toArea 0)) dest fun a => match a.openArea (swField a.w 104) 64 with
      | .ok b => (b.writeSet a.destArea (b.st.sets.headD { groups := [], rows := 0 }) b.ins.length).isOk
      | _ => false) = true ∧
    (inputsEnd (word128 0x10 0 no no no 0 (toArea 1)) dest fun a => match a.openArea (swField a.w 104) 0x4040 with
      | .ok b => match (b.drainRuns (b.st.held.length + 1)).bind Act.flushRun with
        | .ok c => (c.writeSets a.destArea c.ins.length c.st.sets).isOk
        | _ => false
      | _ => false) = true ∧
    (inputsEnd (word128 0x12 0 no 2 no 0 (0xFF + 3 * 2 ^ 16)) id fun a =>
      a.outRoom && a.st.bases.isEmpty && decide (a.st.held.length ≤ a.maxRows)) = true ∧
    (inputsEnd (word128 0x18 0 no no no 0 (toArea 0)) dest fun a =>
      a.emitK != no && a.lastEmit && decide (64 ≤ a.emitDest.len) &&
        match a.emitPut a.emitDest 0 (resultHeader a.ins.length a.emitCount.2.1 a.emitCount.2.2 a.emitCount.1) with
        | .ok _ => true
        | _ => false) = true ∧
    (inputsEnd (word128 0x20 0 no no no 0 0xFFFFFFFF) id fun a => let dests := a.d.spanInsts a.r a.i.pipe
      (a.lostPeer dests (List.range dests.length)).isNone) = true := by
  decide +kernel

theorem witness_StagesEndWithTheirInputs :
    ([0x02, 0x03, 0x04, 0x05, 0x06, 0x08, 0x09, 0x0B, 0x1A, 0x22, 0x23, 0x19, 0x0A].all fun op =>
      inputsEnd (word128 op 0 no no no 0 0x1FFFF) id fun a =>
        (op != 0x19 || limitCount a.w != 0) && !a.st.liveDone && a.jst != 5 && a.jst != 6) = true ∧
    ([0, 1, 2, 3, 4].all fun k => inputsEnd (word128 0x21 0 no no no k 0) id fun a => rangeOp a.w == k) = true ∧
    ([5, 6].all fun k => (((staged (word128 0x0A 0 no no no 0 0) 1 none id []).put F.JDR_POD_RGN_STATE_STATE k 3 0).endAt
      stage1 0x0A).any fun a => !a.st.liveDone && a.jst == k) = true := by
  decide +kernel

theorem witness_BlockChecksum : (List.replicate 64 (0 : Byte)).length = 64 := by decide

/-! ### Instances, regions and exchanges -/

/-- Stage 1 of the instance holds its block. -/
def yielding : Dev :=
  let p := { pipe2 0x1A with streams := [] }
  { running p .fence .running with
    insts := [{ inst0 p .running with stages := [StageSt.start [], { StageSt.start [] with heldBlk := true }] }] }

theorem witness_InstanceCommands :
    (let i := { inst0 (pipe2 6) .running with stop := true }
     ({ running (pipe2 6) .fence .running with insts := [i] } : Dev).findInst 0 2 = some i) ∧
    (running (pipe2 6) .fence .running).findInst 0 2 = some (inst0 (pipe2 6) .running) ∧
    ((yielding.actOf stage1).any fun a => swOp a.w == 0x1A && a.st.heldBlk && a.i.life == .running &&
      yielding.podState a.i.pod != 3) = true ∧
    (let d := { podded 2 with slots := [slot0 .migrating] }
     d.findSlot 0 2 = some (slot0 .migrating) ∧ d.findInst 0 2 = none ∧ (slot0 .migrating).drain = 0) ∧
    (let i := { inst0 (pipe2 6) .running with slot := 3, chans := [⟨0, [blk 0 0], false⟩] }
     ({ podded 2 with insts := [i] } : Dev).undrained 0 2 ≠ 0 ∧ ({ podded 2 with insts := [i] } : Dev).findInst 0 2 = none) ∧
    (let d := (running (pipe2 6) .fence .running).put F.POD_STATUS_STATE 3 3
     (d.instAt 0 2).isSome ∧ d.podState 3 = 3) ∧
    (let d := running (pipe2 6) .fence .running
     (d.instAt 0 2).any (fun x => d.mayLeave x.1 x.2.1 && d.podState x.2.1.pod == 2 &&
       (d.moveTarget x.1 x.2.1 x.2.2.2).any (fun k => !d.zeroing k && !d.foreignTile x.2.1.pod k) &&
       !d.tileClaimed 0) = true) ∧
    (let d := (running (pipe2 6) .fence .running).put F.POD_TILES_MASK 1 3
     let e := d.setTest { d.tileTest 0 with claimed := true }
     (e.instAt 0 2).any (fun x => e.tileClaimed 0 && (e.moveTarget x.1 x.2.1 x.2.2.2).isNone && (e.reserved x.1).isNone &&
       e.inPod 3 0x40000000 (savedBytes x.2.2.1) && e.mayLeave x.1 x.2.1) = true) ∧
    ((running (pipe2 6) .fence .migrating).instAt 0 2).isSome ∧
    (let d := running (pipe2 6) .fence .parked
     (d.instAt 0 2).any (fun x => x.1.life == .parked && !x.1.stop && d.podState x.2.1.pod == 2 && d.tileReturned x.1) =
       true) := by decide +kernel

/-- Region 15 of pod 63 in a state of the join directory. -/
def joinRegion (n : Nat) (r : JRegion → JRegion) : Dev :=
  ({ d0 with jrgns := [r (JRegion.blank 63 15)] } : Dev).put F.JDR_POD_RGN_STATE_STATE n 63 15

/-- An instance of pod 63 with a PROBE of region 15 whose live pass has ended. -/
def probing (d : Dev) : Dev :=
  let p := pipe2 (BitVec.ofNat _ (0x0A + 15 * 2 ^ 48))
  { d with
    runs := [{ run5 p .fence with pod := 63 }]
    insts := [{ inst0 p .running with pod := 63, stages := [StageSt.start [],
      { StageSt.start [] with liveDone := true, waveDone := true }] }] }

theorem witness_RegionCommands :
    ((joinRegion 1 id).clocked ∧ (joinRegion 1 id).jstate 63 15 = 1 ∧ ((joinRegion 1 id).region 63 15).forBuild = false) ∧
    ((joinRegion 1 fun r => { r with forBuild := true }).region 63 15).forBuild = true ∧
    d0.jstate 63 15 ≠ 1 ∧ d0.jstate 63 15 ≠ 4 ∧
    (let d := joinRegion 4 fun r => { r with unloaded := false }
     d.jstate 63 15 = 4 ∧ (d.region 63 15).unloaded = false ∧
     ((d.freeEntries 63 15).unloadRecs (d.region 63 15) []
       ((d.jents.filter fun e => e.pod == 63 && e.rgn == 15).flatMap fun e =>
         d.unloadEntry (d.region 63 15) (d.regionPay 63 15) e)).isSome) ∧
    (let d := probing (joinRegion 5 id)
     d.jstate 63 15 = 5 ∧ d.replayReady 63 15 = some (5, 0, 0, 1)) ∧ d0.replayReady 63 15 = none ∧
    (let d := probing (joinRegion 6 fun r => { r with replay := some (5, 0, 0, 1) })
     (d.region 63 15).replay = some (5, 0, 0, 1) ∧ d.jstate 63 15 = 6 ∧
     ((d.replayInsts (5, 0, 0, 1)).all fun i => i.stAt 1 fun st => st.waveDone) = true) ∧
    (d0.region 63 15).replay = none ∧ (d0.put F.RDR_POD_RGN_STATE_STATE 1 63 15).rstate 63 15 = 1 ∧ d0.rstate 63 15 ≠ 1 ∧
    BitVec.toNat (0x8000 : Word) = 2 ^ 15 ∧
    (let f := (d0.put F.POD_SHARES_RDR_Q 8 63).unstage (RegRef.addr ⟨.RDR_POD_RGN_CFG, 63, 15⟩)
     f.rcfgOk 63 15 4 0 8 = true ∧ f.rcfgOk 63 15 32 0 8 = true ∧ f.rcfgOk 63 15 3 0 8 = false ∧ f.rcfgOk 63 15 4 0 9 = false) := by
  decide +kernel

/-- An EXCHANGE at stage 1 that writes stream 2, of one instance of a run of this member alone. -/
def exchanging (life : Life) (x : XRecv → XRecv) (c : Option Credit) : Dev :=
  let p := pipeIO 0x20 0
  let i := inst0 p life
  let s : StageSt := { StageSt.start [] with credits := c.toList }
  { running p .fence life with
    insts := [{ i with stages := [StageSt.start [], s] }]
    xrecvs := [x ⟨0, 2, 1, [], 0, [], [], []⟩] }

/-- The exchange with the run's one instance. -/
def xref : XRef := ⟨0, 2, 1, 0, 0⟩

theorem witness_ExchangeCommands :
    (let d := exchanging .running id (some ⟨0, 1, true, 5⟩)
     d.clocked ∧ (d.findInst 0 2).isSome ∧
     theRun d (fun r => globalOf (d.spanInsts r 0) 0 0 == some 0) ∧
     (d.findInst 0 2).any (fun i => (i.stages[1]?).any fun s => (s.credit 0).asked && !s.ended) = true) ∧
    ((StageSt.start []).credit 0).asked = false ∧
    (let d := exchanging .running id none
     (d.xAt xref).any (fun c => c.room && (c.x.holds.filter fun h => h != (0, 0)).isEmpty && !c.x.holds.contains (0, 0) &&
       !c.x.granted.contains (0, 0) && (d.spanInsts c.r c.i.pipe).contains (0, 0) && !c.x.ends.contains (0, 0) &&
       !(d.spanInsts c.r c.i.pipe).contains (7, 0) && c.x.rows.isEmpty &&
       (d.spanInsts c.r c.i.pipe).all fun w => [(0, 0)].contains w) = true) ∧
    (let d := exchanging .quiesced (fun x => { x with holds := [(0, 0)] }) none
     (d.xAt xref).any (fun c => !c.room && c.x.holds.contains (0, 0)) = true) ∧
    (let d := exchanging .running (fun x => { x with holds := [(0, 0)] }) none
     (d.xAt xref).any (fun c => c.room && c.x.holds == [(0, 0)]) = true) ∧
    (let d := exchanging .running (fun x => { x with granted := [(0, 0)] }) none
     (d.xAt xref).any (fun c => c.x.granted.contains (0, 0) && c.streams.length == 1) = true) ∧
    rowsOk (List.replicate 1 ⟨[(.null, none)]⟩) = true := by decide +kernel

/-- Two instances of the pipeline: the first END is not the last. -/
theorem witness_ExchangeCommands_ends :
    (let d := exchanging .running id none
     let e : Dev := { d with insts := d.insts ++ (d.insts.map fun i => { i with tile := 1, number := 1 }) }
     (e.xAt xref).any (fun c => (e.spanInsts c.r c.i.pipe).contains (0, 0) &&
       !((e.spanInsts c.r c.i.pipe).all fun w => [(0, 0)].contains w)) = true) := by decide +kernel

/-! ### The span -/

/-- Port 3 in a state. -/
def port3 (n : Nat) (f : Port → Port) : Dev := (d0.put F.LNK_PORT_STATUS_STATE n 3).onPort 3 f

/-- Its identity is locked, as span 9 number 0, and the device is in use. -/
def locked (d : Dev) : Dev :=
  let d := (d.put F.LNK_SPAN_CFG_LOCK 1).put F.LNK_SPAN_CFG_SPAN_ID 9
  { d with hull := { d.hull with otp := { d.hull.otp with lifecycle := 1 } } }

theorem witness_PortAndLinkCommands :
    d0.clocked ∧ d0.get F.LNK_SPAN_CFG_LOCK = 0 ∧ (locked d0).get F.LNK_SPAN_CFG_LOCK = 1 ∧
    ([0, 1, 2, 3, 4, 5, 6, 7].all fun n => (port3 n id).portState 3 == n) = true ∧ (d0.port 3).kept = false ∧
    (let d := ((port3 2 id).put F.LNK_PORT_CTRL_NARROW_OK 1 3).put F.LNK_PORT_STATUS_WIDTH 3 3
     d.portState 3 = 2 ∧ d.get F.LNK_PORT_CTRL_NARROW_OK 3 = 1 ∧ d.get F.LNK_PORT_STATUS_WIDTH 3 = 3) ∧
    ((port3 2 id).put F.LNK_PORT_CTRL_NARROW_OK 0 3).get F.LNK_PORT_CTRL_NARROW_OK 3 ≠ 1 ∧
    (let d := locked (port3 3 id)
     d.portState 3 = 3 ∧ d.accepts 3 ⟨9, 1, 0, true⟩ = true ∧ d.accepts 3 ⟨8, 1, 0, true⟩ = false ∧ (d.port 3).kept = false) ∧
    ((port3 4 fun p => { p with lpWait := true }).port 3).lpWait = true ∧ (d0.port 3).lpWait = false ∧
    ((port3 6 id).get F.PWR_STATE_STATE ≤ 1 ∧ (port3 6 id).pw.off = false ∧ (port3 6 id).hull.otp.lifecycle ≠ 4) ∧
    (let d := port3 4 fun p => { p with cwLock := true, cwSeq := 255 }
     d.portState 3 = 4 ∧ (d.port 3).cwLock = true ∧ bitsOf (BitVec.toNat (0xA5000 : BitVec 20)) 12 8 = 0xA5 ∧
     bitsOf (BitVec.toNat (0xA5000 : BitVec 20)) 4 8 = ((d.port 3).cwSeq + 1) % 256 ∧ BitVec.toNat (15 : BitVec 8) ≤ 15 ∧
     bitsOf (BitVec.toNat (0xA5002 : BitVec 20)) 0 4 ≤ 2 ∧ 3 ≤ bitsOf (BitVec.toNat (0xA5003 : BitVec 20)) 0 4 ∧
     15 < BitVec.toNat (16 : BitVec 8) ∧ (d.port 3).cwBad < 3) ∧
    3 ≤ ((port3 4 fun p => { p with cwBad := 3 }).port 3).cwBad ∧
    (let d := port3 4 fun p => { p with rxSeq := 4095 }
     BitVec.toNat (4095 : BitVec 12) = (d.port 3).rxSeq ∧ BitVec.toNat (0 : BitVec 12) ≠ (d.port 3).rxSeq ∧
     (d.port 3).replay.contains 7 = false ∧ (d.port 3).waiting = [] ∧ 11 < (d.port 3).credits.length) := by
  decide +kernel

/-- Peer 7 is live. -/
def spanned (d : Dev) : Dev := (locked d).put F.LNK_SPAN_STATUS_LIVE 0x80

/-- Pod 3 is in group 1 with members 0 and 7, and its run's program is a span program. -/
def spanRunning (placed : Bool) (joins : List JoinMsg) : Dev :=
  let d := ((spanned (podded 2)).put F.LNK_POD_SPAN_GROUP 1 3).put F.LNK_POD_SPAN_MEMBERS 0x81 3
  let r := run5 (pipe2 6) .fence
  { d with runs := [{ r with placed := placed, joins := joins, image := some { image (pipe2 6) .fence with span := true } }] }

theorem witness_SpanCommands :
    d0.clocked ∧ d0.self = 0 ∧ d0.isLive 7 = false ∧ (spanned d0).isLive 7 = true ∧ nbrsOk [(1, 3), (7, 0)] = true ∧
    countsOk [] = true ∧ countsOk (List.replicate 8 1) = true ∧ ((spanned d0).spanRun 1 0).isNone ∧
    (let d := spanRunning true []
     d.isLive 7 = true ∧ (d.spanRun 1 0).any (fun r => r.placed && (d.runPeers r).contains 7 &&
       r.image.map (fun m => m.crc) == some 77 && r.failure.isNone &&
       ((d.runPeers r).find? fun k => !(r.joins.any fun j => j.member == k)) == some 7) = true) ∧
    (let d := spanRunning true [⟨7, 1, 0, 77, [1]⟩]
     theRun d (fun r => r.placed && (d.runPeers r).all fun k => r.joins.any fun j => j.member == k) = true) := by
  decide +kernel

/-! ### Errors -/

theorem witness_FaultCommands :
    d0.clocked ∧ d0.get F.ERR_INJ_ARMED = 0 ∧ (d0.put F.ERR_FENCE_TILE_FENCED (2 ^ 63)).tileFenced 63 = true ∧
    d0.tileFenced 63 = false ∧
    (let d := running (pipe2 6) .fence .running
     d.tileFenced 0 = false ∧ d.findInst 0 2 = some (inst0 (pipe2 6) .running)) ∧
    ((d0.put F.ERR_FENCE_OTHER_CLUSTER 0x80).get F.ERR_FENCE_OTHER_CLUSTER).testBit 7 = true ∧
    (d0.get F.ERR_FENCE_OTHER_CLUSTER).testBit 7 = false ∧
    (let d := fun (n : Nat) (f : List Nat) => ({ d0 with errs := { d0.errs with parity := [(9, n)], segFenced := f } } : Dev)
     (d 0 [9]).errs.segFenced.contains 9 = true ∧ (d 1 []).parityCount 9 < 2 ∧ 2 ≤ (d 2 []).parityCount 9 ∧
     (d 2 []).errs.segFenced.contains 9 = false) ∧
    ((d0.onCore 7 fun c => { c with fenced := true }).core 7).fenced = true ∧ (d0.core 7).fenced = false ∧
    (d0.core 7).cur = none ∧ (d0.core 7).next = none := by decide +kernel

/-- The self-test is on. -/
def testing : Dev := d0.put F.ERR_ST_CTRL_EN 1

theorem witness_SelfTestAndInjection :
    (d0.clocked ∧ (d0.put F.ERR_ST_CTRL_EN 0).get F.ERR_ST_CTRL_EN = 0 ∧ testing.get F.ERR_ST_CTRL_EN = 1) ∧
    ((∀ v ∈ clusterTiles 7, (testing.tileTest v).claimed = false ∧ (testing.tileTest v).testing = false) ∧
      testing.nextTest 7 = none ∧ testing.oldestTested ((clusterTiles 7).filter testing.claimable) = some 56) ∧
    (let d := testing.setTest { testing.tileTest 63 with claimed := true }
     d.testDue 63 = true ∧ d.tileEmptied 63 = true ∧ d.asleep = false) ∧
    (running (pipe2 6) .fence .running).tileEmptied 0 = false ∧ (testing.tileTest 63).testing = false ∧
    ((testing.setTest { testing.tileTest 63 with testing := true }).tileTest 63).testing = true ∧
    testing.get F.ERR_INJ_ARMED = 0 ∧ (testing.tileTest 63).late = false ∧ testing.tileFenced 63 = false ∧
    (let d := (d0.put F.ERR_FENCE_TILE_FENCED (2 ^ 63)).unstage (RegRef.addr ⟨.ERR_RETEST, 0, 0⟩)
     d.tileFenced 63 = true ∧ (d.get F.ERR_FENCE_OTHER_CLUSTER).testBit (63 / 8) = false) := by decide +kernel

/-- A register after a whole write. -/
def written (d : Dev) (r : RegRef) (v : Nat) : Dev :=
  (d.unstage r.addr).wr r (regAfter r.kind.fields ((d.unstage r.addr).rd r) v false false)

theorem witness_SelfTestAndInjection_rings :
    (d0.get F.ERR_RING_CFG_EN = 0 ∧ (written d0 ⟨.ERR_RING_CFG, 0, 0⟩ 1).get F.ERR_RING_CFG_EN = 1 ∧
      (d0.put F.ERR_RING_CFG_EN 1).get F.ERR_RING_CFG_EN = 1) ∧
    (let r : RegRef := ⟨.ERR_POD_RING_CFG, 3, 0⟩
     let d := (podded 2).put F.ERR_POD_RING_BASE_ADDR 0x40000 3
     d.get F.ERR_POD_RING_CFG_EN 3 = 0 ∧ (written d r 1).get F.ERR_POD_RING_CFG_EN 3 = 1 ∧
     (written d r 1).errRingBad 3 = false ∧ (written (podded 2) r 1).errRingBad 3 = true) ∧
    (let r : RegRef := ⟨.ERR_INJ, 0, 0⟩
     let arm := 2 ^ 61
     let d := written d0 r (arm + 1)
     BitVec.toNat (0 : Word) = 0 ∧ (arm + 1).testBit 61 = true ∧ (0 : Nat).testBit 61 = false ∧
     d.get F.ERR_INJ_ARMED = 0) := by decide +kernel

theorem witness_RegisterWritesAndWakes :
    d0.clocked ∧ d0.get F.RNG_STATUS_STATE 5 = 0 ∧ (d0.put F.RNG_STATUS_STATE 2 5).get F.RNG_STATUS_STATE 5 ≠ 0 ∧
    (({ d0 with staging := [(RegRef.addr ⟨.RNG_BASE, 5, 0⟩, 7)] } : Dev).staged (RegRef.addr ⟨.RNG_BASE, 5, 0⟩)) = some 7 ∧
    d0.ringOf 3 1023 = false ∧ d0.pw.off = false ∧ d0.hull.otp.lifecycle ≠ 4 ∧
    ([2, 3, 4].all fun n => (inState n).get F.PWR_STATE_STATE == n && (inState n).pw.off == false) = true := by decide +kernel

/-! ### Further clauses -/

/-- A power-up at a step, from a state of the block. -/
def exiting (step from_ : Nat) : Dev :=
  { (inState 5).put F.PWR_STATE_STEP step with pw := { d0.pw with fromState := from_ } }

/-- With VDDC at 800 mV, a reading of nothing is outside the range of every rail. -/
theorem witness_PowerStateCommands_rails :
    (exiting 1 3).badRail = none ∧ (exiting 3 3).pw.fromState ≠ 2 ∧ (exiting 3 2).pw.fromState = 2 ∧
    ∃ r code, (({ exiting 1 3 with shell := { d0.shell with readings := [⟨41, 0⟩] } } : Dev).put F.CLK_CCLK_STATUS_VDDC_MV
      800).badRail = some (r, code) := by
  refine ⟨by decide +kernel, by decide +kernel, by decide +kernel, ⟨41, 0⟩, 0x10, ?_⟩
  have hv : ∀ n, n < 6 → (((exiting 1 3).put F.CLK_CCLK_STATUS_VDDC_MV 800).railRange n).any (fun x => decide (0 < x.1)) =
      true := by decide +kernel
  have h := hv (Config.monitorRail 41 % 6) (Nat.mod_lt _ (by decide))
  have e : Dev.railFault (({ exiting 1 3 with shell := { d0.shell with readings := [⟨41, 0⟩] } } : Dev).put
      F.CLK_CCLK_STATUS_VDDC_MV 800) ⟨41, 0⟩ = some 0x10 := by
    unfold Dev.railFault
    rw [if_neg (by decide)]
    change (Option.bind (((exiting 1 3).put F.CLK_CCLK_STATUS_VDDC_MV 800).railRange (Config.monitorRail 41 % 6)) _) = _
    cases hr : ((exiting 1 3).put F.CLK_CCLK_STATUS_VDDC_MV 800).railRange (Config.monitorRail 41 % 6) with
    | none => rw [hr] at h; simp at h
    | some x =>
      rw [hr] at h
      have hx : 0 < x.1 := by simpa using h
      simp [hx]
  change List.findSome? _ [(⟨41, 0⟩ : SensorReading)] = _
  simp only [List.findSome?_cons, e, Option.map_some]

theorem witness_CacheCommands_hints :
    (cached.hints.find? fun h => h.1 == 0 && h.2.1 == 0x40000000) = none ∧ cached.missWait = [] ∧
    (({ cached with wbb := [(0, 0x40000000)], hints := [(0, 0x40000000, 5)] } : Dev).hints.find? fun h =>
      h.1 == 0 && h.2.1 == 0x40000000) = some (0, 0x40000000, 5) := by decide +kernel

theorem witness_MemoryChannelCommands_scrub :
    (let d := ready.put F.MEM_SCRUB_EN 1
     d.scrubDue 15 = true ∧ (d.memCh 15).due = false ∧ (d.memCh 15).ports = [] ∧ (d.memCh 15).rq = [] ∧
     (d.memCh 15).wq = []) ∧
    ((chan15 fun c => { c with wq := [{ readEnt with write := true }] }).put F.MEM_CH_WM_HIGH 1 15).draining 15 = true ∧
    tableOk (((chan15 id).put F.MEM_CH_SLOT_ENTRY 14 15 0).shadow 15) = true ∧
    tableOk ((((chan15 id).put F.MEM_CH_SLOT_ENTRY 14 15 0).put F.MEM_CH_SLOT_ENTRY 11 15 0).shadow 15) = false := by
  decide +kernel

/-- An entry of region 15 of pod 63. -/
def jent (ue : Bool) : JEntry := ⟨63, 15, 0, 0, [1], 1, 0, 0, 0, false, 0, ue⟩

/-- A builder that has failed, one that lives, and a SPILLING region with an uncorrectable entry. -/
theorem witness_RegionCommands_errors :
    (joinRegion 1 fun r => { r with forBuild := true }).builderLives ((joinRegion 1 id).region 63 15) = false ∧
    (let d := joinRegion 1 fun r => { r with forBuild := true, owner := some (5, 0) }
     ({ d with runs := [run5 (pipe2 6) .fence] } : Dev).builderLives (d.region 63 15) = true) ∧
    (let d := { joinRegion 4 (fun r => { r with unloaded := false }) with jents := [jent true] }
     d.jstate 63 15 = 4 ∧ (d.region 63 15).unloaded = false ∧ ∃ e ∈ d.jents, e.pod = 63 ∧ e.rgn = 15 ∧ e.ue = true) ∧
    (let d := { joinRegion 4 (fun r => { r with unloaded := false }) with jents := [{ jent false with rgn := 14 }] }
     ∀ e ∈ d.jents, e.pod = 63 → e.rgn = 15 → e.ue = false) := by decide +kernel

/-- LEN is below 256, so a port with its first credits can send. -/
theorem slotLen_lt (v : Nat) : slotLen v < 256 := Nat.mod_lt _ (by decide)

/-- A peer that an ACTIVE port leads to, and the same with no port; the greatest header. -/
theorem witness_PortAndLinkCommands_headers :
    (Out.span 7 29 []).peer 0 = some (7, none) ∧ d0.self = 0 ∧ d0.portsTo 7 = [] ∧
    ((port3 4 id).portsTo 7)[(none.getD 0) % ((port3 4 id).portsTo 7).length]? = some 3 ∧
    (let h := (Out.coh 23 4 0).head 0 7 0
     slotLen h.slot ≤ (d0.port 3).credits.getD (Out.coh 23 4 0).creditAt 0 ∧
       (d0.port 3).replay.length < 256 ∧ (d0.port 3).waiting = []) ∧
    256 ≤ ((port3 4 fun p => { p with replay := List.replicate 256 0 }).port 3).replay.length ∧
    (let h : DzHeader := ⟨2 ^ 16 - 1, 2 ^ 46 - 1, 2 ^ 16 - 1, 3, 255, 255, 15, 15, 3, 2 ^ 110 - 1⟩
     h.group < 2 ^ 16 ∧ h.addr < 2 ^ 46 ∧ h.txn < 2 ^ 16 ∧ h.poison < 4 ∧ h.len < 256 ∧ h.opc < 256 ∧ h.src < 16 ∧
       h.dst < 16 ∧ h.hop < 4 ∧ h.body < 2 ^ 110) := by
  refine ⟨by decide +kernel, by decide +kernel, by decide +kernel, by decide +kernel, ?_, by decide +kernel,
    by decide +kernel⟩
  exact ⟨Nat.le_trans (Nat.le_of_lt (slotLen_lt _))
    (by decide +kernel : 256 ≤ (d0.port 3).credits.getD (Out.coh 23 4 0).creditAt 0), by decide +kernel,
    by decide +kernel⟩

/-- The last register's last half, an address between registers, and one past the last. -/
theorem witness_RegisterWritesAndWakes_addresses :
    (let r : RegRef := ⟨.RNG_BASE, 1023, 0⟩
     (BitVec.ofNat 27 r.addr).toNat = r.addr ∧ r.addr < 0x4000000 ∧ r.addr % 8 = 0 ∧ barReg r.addr = some r ∧
     r.kind ≠ .RNG_PUSH ∧ d0.staged r.addr = none ∧
     (({ d0 with staging := [(r.addr, 7)] } : Dev).staged r.addr) = some 7 ∧ (r.addr + 4) % 8 ≠ 0) ∧
    barReg 0x3FFFFF8 = none ∧ d0.wakers 0 = 0 ∧
    (let d := inState 2 |>.put F.PWR_WAKE_EN 0xFF
     d.wakers 0x20 ≠ 0 ∧ d.get F.PWR_STATE_STATE = 2) ∧
    (let d := { (inState 3).put F.PWR_WAKE_EN 0xFF with pw := { d0.pw with pwrokLost := true } }
     d.wakers 2 ≠ 0 ∧ d.get F.PWR_STATE_STATE = 3 ∧ d.pw.pwrokLost = true) := by decide +kernel

theorem witness_RegisterWritesAndWakes_reads :
    (7 : Nat) < 8 ∧ d0.reaches .bar0 ⟨.RNG_BASE, 5, 0⟩ = true ∧ RegKind.RNG_BASE ≠ .SEC_DG_STATUS ∧
    RegKind.RNG_BASE ≠ .SEC_RNG ∧ RegKind.RNG_BASE ≠ .SEC_PIT_DATA ∧ d0.inWindow 63 ⟨.RNG_BASE, 5, 0⟩ = false ∧
    barReg (RegRef.addr ⟨.RNG_BASE, 5, 0⟩ / 8 * 8) = some ⟨.RNG_BASE, 5, 0⟩ ∧ pf1Defined 0x40 = false ∧
    d0.windowReg 63 0xFFF8 = none := by decide +kernel

end Sys2Proof.Tests
end

/-! The CRC of a block (R129): the byte-wise reflected register of the model against the bit-wise division by
the Castagnoli polynomial, and where the CRC stands in the bytes of a husk. -/

namespace Sys2Proof.Machine

/-! ### Reflection -/

/-- Reflection is linear. -/
theorem reverse_xor {w : Nat} (x y : BitVec w) : (x ^^^ y).reverse = x.reverse ^^^ y.reverse := by
  ext i hi
  simp [BitVec.getElem_reverse, BitVec.getMsbD_xor]

/-- Reflection turns a shift to the left into one to the right. -/
theorem reverse_shiftLeft_one {w : Nat} (x : BitVec w) : (x <<< 1).reverse = x.reverse >>> 1 := by
  ext i hi
  simp [BitVec.getElem_reverse, BitVec.getLsbD_reverse, BitVec.getMsbD_shiftLeft, Nat.add_comm]

/-- The reflected remainder after one bit: one place to the right, and the reflected polynomial where the bit differs
from the one shifted out. -/
theorem reverse_castagnoli (c : BitVec 32) (b : Bool) : (castagnoli c b).reverse =
    if c.msb ^^ b then (c.reverse >>> 1) ^^^ 0x82F63B78 else c.reverse >>> 1 := by
  have poly : (0x1EDC6F41 : BitVec 32).reverse = 0x82F63B78 := by decide +kernel
  unfold castagnoli
  rw [Bool.bne_eq_xor]
  split <;> simp only [reverse_xor, reverse_shiftLeft_one, poly]

/-- The bit that the division shifts out is the lowest of the reflected remainder. -/
theorem testBit_zero_reverse (c : BitVec 32) : c.reverse.toNat.testBit 0 = c.msb := by
  rw [BitVec.testBit_toNat, BitVec.getLsbD_reverse, BitVec.msb]

/-! ### The register -/

theorem crcBit_eq (c : Nat) : crcBit c = if c.testBit 0 then (c >>> 1) ^^^ 0x82F63B78 else c >>> 1 := by
  simp [crcBit, Nat.testBit_zero, Nat.shiftRight_one]

/-- One step of the register with a message `m` added takes the lowest bit of `m` into the division; the other bits
of `m` move down. -/
theorem crcBit_reverse_xor (c : BitVec 32) (m : Nat) :
    crcBit (c.reverse.toNat ^^^ m) = (castagnoli c (m.testBit 0)).reverse.toNat ^^^ (m >>> 1) := by
  rw [crcBit_eq, Nat.testBit_xor, testBit_zero_reverse, reverse_castagnoli, Nat.shiftRight_xor_distrib]
  cases c.msb ^^ m.testBit 0 with
  | false => simp
  | true => simp [Nat.xor_assoc, Nat.xor_comm]

/-- `k` steps of the register with a message added take its `k` lowest bits into the division, lowest first. -/
theorem crcBit_iterate_reverse_xor (c : BitVec 32) (m k : Nat) : crcBit^[k] (c.reverse.toNat ^^^ m) =
    (((List.range k).map m.testBit).foldl castagnoli c).reverse.toNat ^^^ (m >>> k) := by
  induction k with
  | zero => simp
  | succ k ih =>
    rw [Function.iterate_succ_apply', ih, crcBit_reverse_xor, Nat.testBit_shiftRight, ← Nat.shiftRight_add]
    simp [List.range_succ]

/-- A byte enters the register as its eight bits enter the division. -/
theorem crcByte_reverse (c : BitVec 32) (b : Byte) :
    crcByte c.reverse.toNat b = (((List.range 8).map b.getLsbD).foldl castagnoli c).reverse.toNat := by
  have spent : b.toNat >>> 8 = 0 := by
    rw [Nat.shiftRight_eq_div_pow, Nat.div_eq_of_lt b.isLt]
  calc crcByte c.reverse.toNat b
      = crcBit^[8] (c.reverse.toNat ^^^ b.toNat) := rfl
    _ = (((List.range 8).map b.toNat.testBit).foldl castagnoli c).reverse.toNat ^^^ (b.toNat >>> 8) :=
        crcBit_iterate_reverse_xor c b.toNat 8
    _ = (((List.range 8).map b.getLsbD).foldl castagnoli c).reverse.toNat := by rw [spent, Nat.xor_zero]; rfl

theorem foldl_crcByte_reverse (bs : List Byte) (c : BitVec 32) :
    bs.foldl crcByte c.reverse.toNat = ((bitsOfBytes bs).foldl castagnoli c).reverse.toNat := by
  induction bs generalizing c with
  | nil => rfl
  | cons b bs ih =>
    have split_bits : bitsOfBytes (b :: bs) = (List.range 8).map b.getLsbD ++ bitsOfBytes bs := rfl
    rw [List.foldl_cons, crcByte_reverse, ih, split_bits, List.foldl_append]

/-- The model's CRC-32C is the one of the definition, for every message. -/
theorem crc32c_eq_castagnoliCrc (bs : List Byte) : crc32c bs = (castagnoliCrc bs).toNat := by
  have ones : (BitVec.allOnes 32).reverse.toNat = 0xFFFFFFFF := by decide +kernel
  rw [castagnoliCrc, BitVec.toNat_xor, ← foldl_crcByte_reverse, ones]
  rfl

/-! ### The CRC field of a husk (R125) -/

@[simp] theorem length_leBytes (n v : Nat) : (leBytes n v).length = n := by
  induction n generalizing v with
  | zero => rfl
  | succ n ih => rw [leBytes, List.length_cons, ih]

@[simp] theorem length_slice (bs : List Byte) (off n : Nat) : (slice bs off n).length = n := by
  simp only [slice, List.length_append, List.length_replicate, List.length_take]
  omega

/-- The 28 bytes of a husk before its CRC. -/
def Husk.beforeCrc (h : Husk) : List Byte :=
  leBytes 2 h.magic ++ leBytes 1 h.typ ++ leBytes 1 h.enc ++ leBytes 2 h.rows ++ leBytes 2 h.nulls ++
    leBytes 4 h.payloadLen ++ leBytes 1 h.width ++ leBytes 1 h.flags ++ leBytes 2 h.runs ++
    leBytes 8 h.base ++ leBytes 4 h.rawLen

/-- The 32 bytes of a husk after its CRC: the zone. -/
def Husk.afterCrc (h : Husk) : List Byte := slice h.zmin 0 16 ++ slice h.zmax 0 16

theorem Husk.bytes_eq (h : Husk) : h.bytes = h.beforeCrc ++ leBytes 4 h.crc ++ h.afterCrc := by
  simp only [Husk.bytes, Husk.beforeCrc, Husk.afterCrc, List.append_assoc]

@[simp] theorem Husk.length_beforeCrc (h : Husk) : h.beforeCrc.length = 28 := by simp [Husk.beforeCrc]

@[simp] theorem Husk.length_afterCrc (h : Husk) : h.afterCrc.length = 32 := by simp [Husk.afterCrc]

theorem Husk.length_bytes (h : Husk) : h.bytes.length = 64 := by simp [Husk.bytes_eq]

/-- Bytes 28 to 31 of a husk are its CRC, little-endian. -/
theorem Husk.crc_field (h : Husk) : (h.bytes.drop 28).take 4 = leBytes 4 h.crc := by
  rw [Husk.bytes_eq, List.append_assoc, List.drop_left' h.length_beforeCrc, List.take_left' (length_leBytes 4 h.crc)]

/-- The CRC of a block does not depend on what its husk's CRC field holds. -/
theorem blockCrc_bytes (h : Husk) (payload : List Byte) :
    blockCrc h.bytes payload = crc32c (h.beforeCrc ++ [0, 0, 0, 0] ++ h.afterCrc ++ payload) := by
  have to_crc : (h.beforeCrc ++ leBytes 4 h.crc).length = 32 := by simp
  have before : h.bytes.take 28 = h.beforeCrc := by
    rw [Husk.bytes_eq, List.append_assoc, List.take_left' h.length_beforeCrc]
  have after : h.bytes.drop 32 = h.afterCrc := by rw [Husk.bytes_eq, List.drop_left' to_crc]
  rw [blockCrc, before, after]

/-- Sealing a husk gives it the CRC of the block, whatever CRC it held. -/
theorem Husk.seal_crc (h : Husk) (payload : List Byte) : (h.seal payload).crc = blockCrc h.bytes payload := by
  rw [blockCrc_bytes]
  exact blockCrc_bytes { h with crc := 0 } payload

/-- The published check value, by the model's register (R129). -/
theorem crc32c_check : crc32c [0x31, 0x32, 0x33, 0x34, 0x35, 0x36, 0x37, 0x38, 0x39] = 0xE3069283 := by
  decide +kernel

/-- Settles O51: the reflected register follows the division bit by bit, and the bytes of a husk around its CRC field
do not depend on the field. -/
theorem blockChecksum : Obligations.BlockChecksum := by
  refine ⟨crc32c_eq_castagnoliCrc, ?_, fun husk payload _ => crc32c_eq_castagnoliCrc _,
    fun h payload => ⟨(h.seal payload).length_bytes, ?_⟩⟩
  · exact BitVec.eq_of_toNat_eq ((crc32c_eq_castagnoliCrc _).symm.trans crc32c_check)
  · rw [Husk.crc_field, Husk.seal_crc]

end Sys2Proof.Machine

/-! KH64 (R166): the model's loop over the bytes of a key, in numbers cut to 64 bits, against the fold over the
key's words in 64-bit arithmetic. -/

namespace Sys2Proof.Machine

/-! ### 64-bit arithmetic -/

/-- The model's product cut to 64 bits is the product of 64-bit words. -/
theorem m64_toNat_mul (x c : Word) : m64 (x.toNat * c.toNat) = (x * c).toNat := (BitVec.toNat_mul x c).symm

/-- The model's rotation is the rotation of 64-bit words. -/
theorem rotl_toNat (x : Word) {n : Nat} (hn : n < 64) : rotl x.toNat n = (x.rotateLeft n).toNat := by
  have spilled : x.toNat >>> (64 - n) < 2 ^ 64 := (x >>> (64 - n)).isLt
  rw [rotl, m64, BitVec.toNat_rotateLeft, Nat.mod_eq_of_lt hn, Nat.or_mod_two_pow, Nat.mod_eq_of_lt spilled]

/-! ### The words of a key -/

/-- The number that a byte list spells has the bytes as its digits. -/
theorem leNat_eq_ofDigits (bs : List Byte) : leNat bs = Nat.ofDigits 256 (bs.map BitVec.toNat) := by
  induction bs with
  | nil => rfl
  | cons b bs ih => rw [leNat, ih, List.map_cons, Nat.ofDigits_cons]

theorem leNat_lt (bs : List Byte) : leNat bs < 256 ^ bs.length := by
  have digits : ∀ d ∈ bs.map BitVec.toNat, d < 256 := by
    simpa using fun b _ => b.isLt
  simpa [leNat_eq_ofDigits] using Nat.ofDigits_lt_base_pow_length (by decide) digits

/-- Missing bytes are zero: they add nothing to the number. -/
theorem leNat_append_replicate_zero (bs : List Byte) (n : Nat) :
    leNat (bs ++ List.replicate n 0) = leNat bs := by
  simp [leNat_eq_ofDigits, Nat.ofDigits_append_replicate_zero]

theorem fieldAt_zero (bs : List Byte) (n : Nat) : fieldAt bs 0 n = leNat (bs.take n) := by
  rw [fieldAt, slice, List.drop_zero, leNat_append_replicate_zero]

/-- The first word of a key is its first eight bytes as a number, nothing cut off. -/
theorem toNat_firstWord (k : List Byte) : (BitVec.ofNat 64 (leNat (k.take 8))).toNat = fieldAt k 0 8 := by
  have bound : leNat (k.take 8) < 2 ^ 64 := calc
    leNat (k.take 8) < 256 ^ (k.take 8).length := leNat_lt _
    _ ≤ 256 ^ 8 := Nat.pow_le_pow_right (by decide) (List.length_take_le 8 k)
    _ = 2 ^ 64 := by decide
  rw [fieldAt_zero, BitVec.toNat_ofNat, Nat.mod_eq_of_lt bound]

/-- A key that is not empty has its first word and the words of what follows eight bytes. -/
theorem keyWords_cons (b : Byte) (bs : List Byte) : keyWords (b :: bs) =
    BitVec.ofNat 64 (leNat ((b :: bs).take 8)) :: keyWords ((b :: bs).drop 8) := by
  have count : ((b :: bs).length + 7) / 8 = (((b :: bs).drop 8).length + 7) / 8 + 1 := by
    rw [List.length_drop, List.length_cons]
    omega
  simp only [keyWords, count, List.range_succ_eq_map, List.map_cons, List.map_map, List.drop_drop]
  congr 1
  exact List.map_congr_left fun i _ => by simp [Nat.mul_add, Nat.add_comm]

/-! ### The loop and the end of the hash -/

/-- What the hash does with one word of the key. -/
def mixKeyWord (h w : Word) : Word :=
  let m := ((h ^^^ w).rotateLeft 27) * 0x8F31D6C52A7BE469
  m ^^^ (m >>> 31)

/-- The end of the hash: two shifted products and a shift. -/
def finishKeyHash (h : Word) : Word :=
  let x := (h ^^^ (h >>> 32)) * 0xE3A907F5B46C1D2D
  let y := (x ^^^ (x >>> 29)) * 0xB7E45A1D3C926F0B
  y ^^^ (y >>> 32)

theorem keyHash_eq (seed : Word) (k : List Byte) : keyHash seed k = finishKeyHash
    ((keyWords k).foldl mixKeyWord (seed ^^^ (BitVec.ofNat 64 k.length * 0xB7E45A1D3C926F0B))) := rfl

/-- One turn of the model's loop mixes in the first word of what is left of the key. -/
theorem kh64Words_cons (fuel : Nat) (b : Byte) (bs : List Byte) (h : Word) :
    kh64Words (fuel + 1) (b :: bs) h.toNat = kh64Words fuel ((b :: bs).drop 8)
      (mixKeyWord h (BitVec.ofNat 64 (leNat ((b :: bs).take 8)))).toNat := by
  have turn (x : Word) : m64 (rotl x.toNat 27 * kc2) = (x.rotateLeft 27 * 0x8F31D6C52A7BE469).toNat := by
    rw [rotl_toNat x (by decide)]
    exact m64_toNat_mul _ 0x8F31D6C52A7BE469
  simp only [kh64Words, List.isEmpty_cons, Bool.false_eq_true, if_false, ← toNat_firstWord, ← BitVec.toNat_xor,
    turn, ← BitVec.toNat_ushiftRight, mixKeyWord]

/-- The model's loop, with a turn for every word, folds the words of the key. -/
theorem kh64Words_toNat (fuel : Nat) (k : List Byte) (h : Word) (enough : k.length ≤ 8 * fuel) :
    kh64Words fuel k h.toNat = ((keyWords k).foldl mixKeyWord h).toNat := by
  induction fuel generalizing k h with
  | zero =>
    obtain rfl : k = [] := List.length_eq_zero_iff.mp (by omega)
    rfl
  | succ fuel ih =>
    cases k with
    | nil => rfl
    | cons b bs =>
      have left : ((b :: bs).drop 8).length ≤ 8 * fuel := by
        rw [List.length_drop]
        omega
      rw [kh64Words_cons, ih _ _ left, keyWords_cons, List.foldl_cons]

/-- The model's shift and product, cut to 64 bits, on 64-bit words. -/
theorem m64_xorShift_mul (x c : Word) (n : Nat) :
    m64 ((x.toNat ^^^ (x.toNat >>> n)) * c.toNat) = ((x ^^^ (x >>> n)) * c).toNat := by
  rw [← BitVec.toNat_ushiftRight, ← BitVec.toNat_xor, m64_toNat_mul]

/-- The model's numbers, cut to 64 bits after each product, are the 64-bit words of R166 all the way. -/
theorem kh64_toNat (seed : Word) (k : List Byte) : kh64 seed.toNat k = (keyHash seed k).toNat := by
  have start : seed.toNat ^^^ m64 (k.length * kc1) =
      (seed ^^^ (BitVec.ofNat 64 k.length * 0xB7E45A1D3C926F0B)).toNat := by
    rw [BitVec.toNat_xor, BitVec.toNat_mul, BitVec.toNat_ofNat, Nat.mod_mul_mod]
    rfl
  have turns : k.length ≤ 8 * (k.length / 8 + 1) := by omega
  have kc3_eq : kc3 = (0xE3A907F5B46C1D2D : Word).toNat := rfl
  have kc1_eq : kc1 = (0xB7E45A1D3C926F0B : Word).toNat := rfl
  rw [keyHash_eq, kh64, start, kh64Words_toNat _ k _ turns]
  simp only [kc3_eq, kc1_eq, m64_xorShift_mul, finishKeyHash, BitVec.toNat_xor, BitVec.toNat_ushiftRight]

/-- Settles O52: the loop over the bytes folds the words of the key (`kh64Words_toNat`), and each cut product is a
product of 64-bit words (`m64_toNat_mul`). -/
theorem keyHashIsKh64 : Obligations.KeyHashIsKh64 := kh64_toNat

end Sys2Proof.Machine

/-! Transfers with WRAP (R285): the model's start of the circular buffer, in numbers, against R285's mask, and the
addresses of the transfer's bytes in the buffer. -/

namespace Sys2Proof.Machine

/-! ### Rounding down -/

/-- R285's `start and not (2^w - 1)` shifts the low `w` bits out and zeros in. -/
theorem and_not_lowMask (x : Word) (w : Nat) : x &&& ~~~(BitVec.ofNat 64 (2 ^ w - 1)) = x >>> w <<< w := by
  rw [BitVec.shiftLeft_ushiftRight]
  congr 1
  ext i hi
  have maskBit : (BitVec.ofNat 64 (2 ^ w - 1))[i] = decide (i < w) := by
    rw [← BitVec.getLsbD_eq_getElem, BitVec.getLsbD_ofNat, Nat.testBit_two_pow_sub_one, decide_eq_true hi,
      Bool.true_and]
  rw [BitVec.getElem_not, maskBit, BitVec.getElem_shiftLeft, BitVec.getElem_allOnes, Bool.and_true]

/-- R285's mask rounds an address down to a multiple of `2 ^ w`. -/
theorem toNat_and_not_lowMask (x : Word) (w : Nat) :
    (x &&& ~~~(BitVec.ofNat 64 (2 ^ w - 1))).toNat = x.toNat / 2 ^ w * 2 ^ w := by
  have inWord : x.toNat / 2 ^ w * 2 ^ w < 2 ^ 64 := (Nat.div_mul_le_self _ _).trans_lt x.isLt
  rw [and_not_lowMask, BitVec.toNat_shiftLeft, BitVec.toNat_ushiftRight, Nat.shiftRight_eq_div_pow, Nat.shiftLeft_eq,
    Nat.mod_eq_of_lt inWord]

/-! ### The bytes of a transfer -/

/-- The address of a byte in the circular buffer. -/
theorem wrapAddr_of_ne_zero {w : Nat} (hw : w ≠ 0) (start i : Nat) :
    wrapAddr start w i = start / 2 ^ w * 2 ^ w + (start + i) % 2 ^ w := if_neg hw

/-- Every byte lies below the end of the circular buffer. -/
theorem wrapAddr_lt {w : Nat} (hw : w ≠ 0) (start i : Nat) :
    wrapAddr start w i < start / 2 ^ w * 2 ^ w + 2 ^ w := by
  rw [wrapAddr_of_ne_zero hw]
  exact Nat.add_lt_add_left (Nat.mod_lt _ (Nat.two_pow_pos w)) _

/-- Different bytes of a buffer's length lie at different addresses: equal addresses make the indices congruent modulo
the length. -/
theorem wrapAddr_inj {w start i j : Nat} (hw : w ≠ 0) (hi : i < 2 ^ w) (hj : j < 2 ^ w)
    (same : wrapAddr start w i = wrapAddr start w j) : i = j := by
  rw [wrapAddr_of_ne_zero hw, wrapAddr_of_ne_zero hw] at same
  have congruent : start + i ≡ start + j [MOD 2 ^ w] := Nat.add_left_cancel same
  exact congruent.add_left_cancel'.eq_of_lt_of_lt hi hj

/-- Settles O42: R285's mask is the model's rounding down (`toNat_and_not_lowMask`), and within the buffer a byte's
address determines its index (`wrapAddr_inj`). -/
theorem circularTransferAddresses : Obligations.CircularTransferAddresses := by
  intro start w hlow _
  have hw : w ≠ 0 := Nat.one_le_iff_ne_zero.mp hlow
  rw [toNat_and_not_lowMask]
  refine ⟨Nat.mul_mod_left _ _, Nat.div_mul_le_self _ _, Nat.lt_div_mul_add (Nat.two_pow_pos w),
    fun i => ⟨wrapAddr_of_ne_zero hw _ i, wrapAddr_lt hw _ i⟩, fun i j => wrapAddr_inj hw, ?source, ?destination⟩
  case source =>
    rintro c i hsrc rfl
    rw [DmaCur.srcAt, hsrc, wrapAddr_of_ne_zero hw]
  case destination =>
    rintro c i hdst rfl
    rw [DmaCur.dstAt, hdst, wrapAddr_of_ne_zero hw]

end Sys2Proof.Machine

/-! Accesses of the host to device memory before it is ready (R298): BAR4 over CXL.io and the HDM range over CXL.mem. -/

namespace Sys2Proof.Machine

/-! ### The range of an access -/

theorem Dev.inBar4_iff (d : Dev) (off n : Nat) : d.inBar4 off n = true ↔ off + n ≤ d.get F.MEM_CFG_CAP_GIB * 2 ^ 30 :=
  decide_eq_true_iff

/-- An access that the device takes and that finds memory not ready has R298's outcome: of an access command's three
branches (not taken, not ready, ready) the middle one. -/
theorem access_notReady {α : Type} {missed ready : Bool} (taken : missed = false) (notReady : ready = false)
    (ignored refused served : α) : (if missed then ignored else if !ready then refused else served) = refused := by
  rw [taken, notReady, if_neg Bool.false_ne_true, Bool.not_false, if_pos rfl]

/-- The guard of a BAR4 access whose bytes lie in BAR4 while the link is up. -/
theorem Dev.bar4_taken {d : Dev} {off n : Nat} (up : d.host.up = true)
    (inside : off + n ≤ d.get F.MEM_CFG_CAP_GIB * 2 ^ 30) : (!d.host.up || !d.inBar4 off n) = false := by
  rw [up, (d.inBar4_iff off n).mpr inside]
  rfl

/-- The guard of a CXL.mem access to the HDM range. -/
theorem Dev.hdm_taken {d : Dev} {a : Nat} (inside : d.inHdm a = true) : (!d.inHdm a) = false := by
  rw [inside, Bool.not_true]

/-! ### The four accesses (R298) -/

section
variable {s : State} (clocked : s.dev.clocked) (notReady : s.dev.leaveP1.memReady = false)
include clocked notReady

theorem bar4Read_notReady {off : BitVec 48} {len : Fin 4097} (up : s.dev.leaveP1.host.up = true)
    (inside : off.toNat + len.val ≤ s.dev.leaveP1.get F.MEM_CFG_CAP_GIB * 2 ^ 30) :
    Gives (.bar4Read off len) s ((s.dev.leaveP1.regError off.toNat).emit .completerAbort) :=
  .of_act (exec_bar4Read off len s) clocked (access_notReady (Dev.bar4_taken up inside) notReady _ _ _)

theorem bar4Write_notReady {off : BitVec 48} {bs : List Byte} (tag : Option (BitVec 8))
    (up : s.dev.leaveP1.host.up = true)
    (inside : off.toNat + bs.length ≤ s.dev.leaveP1.get F.MEM_CFG_CAP_GIB * 2 ^ 30) :
    Gives (.bar4Write off bs tag) s (s.dev.leaveP1.regError off.toNat) :=
  .of_act (exec_bar4Write off bs tag s) clocked (access_notReady (Dev.bar4_taken up inside) notReady _ _ _)

theorem hostMemrd_notReady {a : BitVec 52} (mv : MetaValue) (inside : s.dev.leaveP1.inHdm a.toNat = true) :
    Gives (.hostMemrd a mv) s ((s.dev.leaveP1.regError a.toNat).emit (.data (List.replicate 64 0) true)) :=
  .of_act (exec_hostMemrd a mv s) clocked (access_notReady (Dev.hdm_taken inside) notReady _ _ _)

theorem hostMemwr_notReady {a : BitVec 52} (data : Bytes64) (poison : Poison)
    (inside : s.dev.leaveP1.inHdm a.toNat = true) :
    Gives (.hostMemwr a data poison) s (s.dev.leaveP1.regError a.toNat) :=
  .of_act (exec_hostMemwr a data poison s) clocked (access_notReady (Dev.hdm_taken inside) notReady _ _ _)

end

/-- Settles O32: each of the four accesses is taken and finds memory not ready (`access_notReady`), so a read is
answered by Completer Abort or poisoned data, and a write changes nothing but the error record. -/
theorem accessesBeforeMemoryIsReady : Obligations.AccessesBeforeMemoryIsReady := by
  intro s clocked d notReady
  refine ⟨?bar4Read, ?bar4Write, fun a inside => ⟨?hostMemrd, ?hostMemwr⟩⟩
  case bar4Read => exact fun off len up inside => bar4Read_notReady clocked notReady up inside
  case bar4Write => exact fun off bs tag _ _ up inside => bar4Write_notReady clocked notReady tag up inside
  case hostMemrd => exact fun mv => hostMemrd_notReady clocked notReady mv inside
  case hostMemwr => exact fun data poison => hostMemwr_notReady clocked notReady data poison inside

end Sys2Proof.Machine

/-! Control-class words (R385, R386): decoding cuts a word into its fields, and encoding puts them together again. -/

namespace Sys2Proof.Machine

/-! ### Words and their fields (R385) -/

section
variable (opc fn : Nat) (x y z : BitVec 5) (low : BitVec 16) (w : BitVec 32)

theorem toNat_cword : (cword opc x y low).toNat =
    ((opc % 64 * 32 + x.toNat) * 32 + y.toNat) * 65536 + low.toNat := by
  unfold cword
  rw [BitVec.toNat_append, BitVec.toNat_append, BitVec.toNat_append, BitVec.toNat_ofNat,
    ← Nat.shiftLeft_add_eq_or_of_lt x.isLt, ← Nat.shiftLeft_add_eq_or_of_lt y.isLt,
    ← Nat.shiftLeft_add_eq_or_of_lt low.isLt]
  simp only [Nat.shiftLeft_eq]

theorem toNat_rlow : (rlow z fn).toNat = z.toNat * 2048 + fn % 2048 := by
  unfold rlow
  rw [BitVec.toNat_append, ← Nat.shiftLeft_add_eq_or_of_lt (BitVec.isLt _), BitVec.toNat_ofNat, Nat.shiftLeft_eq]

/-- A field of a word as a number. -/
theorem toNat_field (lo n : Nat) : (w.extractLsb' lo n).toNat = w.toNat / 2 ^ lo % 2 ^ n := by
  rw [BitVec.extractLsb'_toNat, Nat.shiftRight_eq_div_pow]

theorem opc_cword : ((cword opc x y low).extractLsb' 26 6).toNat = opc % 64 := by
  have := x.isLt; have := y.isLt; have := low.isLt
  rw [toNat_field, toNat_cword]
  omega

@[simp] theorem rd_cword : (cword opc x y low).extractLsb' 21 5 = x := by
  have := x.isLt; have := y.isLt; have := low.isLt
  apply BitVec.eq_of_toNat_eq
  rw [toNat_field, toNat_cword]
  omega

@[simp] theorem ra_cword : (cword opc x y low).extractLsb' 16 5 = y := by
  have := x.isLt; have := y.isLt; have := low.isLt
  apply BitVec.eq_of_toNat_eq
  rw [toNat_field, toNat_cword]
  omega

@[simp] theorem low_cword : (cword opc x y low).extractLsb' 0 16 = low := by
  have := x.isLt; have := y.isLt; have := low.isLt
  apply BitVec.eq_of_toNat_eq
  rw [toNat_field, toNat_cword]
  omega

@[simp] theorem rb_cword_rlow : (cword opc x y (rlow z fn)).extractLsb' 11 5 = z := by
  have := x.isLt; have := y.isLt; have := z.isLt
  apply BitVec.eq_of_toNat_eq
  rw [toNat_field, toNat_cword, toNat_rlow]
  omega

theorem fn_cword_rlow : ((cword opc x y (rlow z fn)).extractLsb' 0 11).toNat = fn % 2048 := by
  have := x.isLt; have := y.isLt; have := z.isLt
  rw [toNat_field, toNat_cword, toNat_rlow]
  omega

/-- A word is put together from its fields. -/
theorem cword_fields : cword (w.extractLsb' 26 6).toNat (w.extractLsb' 21 5) (w.extractLsb' 16 5)
    (w.extractLsb' 0 16) = w := by
  have := w.isLt
  apply BitVec.eq_of_toNat_eq
  simp only [toNat_cword, toNat_field]
  omega

/-- The low half of an R-format word is put together from RB and FN. -/
theorem rlow_fields : rlow (w.extractLsb' 11 5) (w.extractLsb' 0 11).toNat = w.extractLsb' 0 16 := by
  apply BitVec.eq_of_toNat_eq
  simp only [toNat_rlow, toNat_field]
  omega

end

theorem finOf_eq_some {n v : Nat} {k : Fin n} : finOf n v = some k ↔ k.val = v := by
  unfold finOf
  split
  · simp [Fin.ext_iff, eq_comm]
  · simp
    have := k.isLt
    omega

theorem finOf_val {n : Nat} (k : Fin n) : finOf n k.val = some k := finOf_eq_some.mpr rfl

theorem map_finOf_eq_some {n v : Nat} {f : Fin n → CIns} {c : CIns} :
    (finOf n v).map f = some c ↔ ∃ k : Fin n, k.val = v ∧ f k = c := by
  simp only [Option.map_eq_some_iff, finOf_eq_some]

/-! ### Words that the formats put together differently -/

section
variable {w : BitVec 32}

theorem cword_of_opc {opc : Nat} (h : (w.extractLsb' 26 6).toNat = opc) :
    cword opc (w.extractLsb' 21 5) (w.extractLsb' 16 5) (w.extractLsb' 0 16) = w := h ▸ cword_fields w

theorem cword_of_opc_fn {opc fn : Nat} (ho : (w.extractLsb' 26 6).toNat = opc)
    (hf : (w.extractLsb' 0 11).toNat = fn) :
    cword opc (w.extractLsb' 21 5) (w.extractLsb' 16 5) (rlow (w.extractLsb' 11 5) fn) = w := by
  rw [← hf, rlow_fields, cword_of_opc ho]

/-- The low half of an immediate shift: eight zeros, the kind and the amount. -/
theorem toNat_shiLow (k : Nat) (n : BitVec 6) : (0#8 ++ BitVec.ofNat 2 k ++ n).toNat = k % 4 * 64 + n.toNat := by
  rw [BitVec.toNat_append, BitVec.toNat_append, ← Nat.shiftLeft_add_eq_or_of_lt n.isLt,
    ← Nat.shiftLeft_add_eq_or_of_lt (BitVec.isLt _), BitVec.toNat_ofNat, Nat.shiftLeft_eq, Nat.shiftLeft_eq]
  simp

theorem shiLow_fields (high : w.extractLsb' 8 8 = 0) {k : Nat} (hk : (w.extractLsb' 6 2).toNat = k) :
    0#8 ++ BitVec.ofNat 2 k ++ w.extractLsb' 0 6 = w.extractLsb' 0 16 := by
  have zero : _ = 0 := congrArg BitVec.toNat high
  apply BitVec.eq_of_toNat_eq
  rw [toNat_shiLow]
  simp only [toNat_field] at zero hk ⊢
  omega

/-- The second register field of MOVZ and MOVK: three zeros and the shift. -/
theorem toNat_movRa (sh : BitVec 2) : (0#3 ++ sh).toNat = sh.toNat := by
  rw [BitVec.toNat_append, ← Nat.shiftLeft_add_eq_or_of_lt sh.isLt]
  simp

theorem movRa_fields (high : w.extractLsb' 18 3 = 0) : 0#3 ++ w.extractLsb' 16 2 = w.extractLsb' 16 5 := by
  have zero : _ = 0 := congrArg BitVec.toNat high
  apply BitVec.eq_of_toNat_eq
  rw [toNat_movRa]
  simp only [toNat_field] at zero ⊢
  omega

theorem toNat_jal (off : BitVec 26) : (BitVec.ofNat 6 0x1E ++ off).toNat = 0x1E * 2 ^ 26 + off.toNat := by
  rw [BitVec.toNat_append, ← Nat.shiftLeft_add_eq_or_of_lt off.isLt, Nat.shiftLeft_eq]
  rfl

theorem jal_fields (h : (w.extractLsb' 26 6).toNat = 0x1E) : BitVec.ofNat 6 0x1E ++ w.extractLsb' 0 26 = w := by
  have := w.isLt
  apply BitVec.eq_of_toNat_eq
  rw [toNat_jal]
  simp only [toNat_field] at h ⊢
  omega

theorem fence_fields (h : (w.extractLsb' 26 6).toNat = 0x15) (low : w.extractLsb' 0 26 = 0) : cword 0x15 0 0 0 = w := by
  have := w.isLt
  have zero : _ = 0 := congrArg BitVec.toNat low
  apply BitVec.eq_of_toNat_eq
  simp only [toNat_field, toNat_cword, BitVec.ofNat_eq_ofNat, BitVec.toNat_zero] at h zero ⊢
  omega

end

/-! ### From an instruction to its word and back -/

/-- An instruction of the scheduler has the word of its fields. -/
theorem CIns.encode_of_schedOf {fn : Nat} {x y z : BitVec 5} {c : CIns} (h : schedOf fn x y z = some c) :
    c.encode = cword 0x20 x y (rlow z fn) := by
  unfold schedOf at h
  split at h <;> simp_all only [Option.ite_none_right_eq_some, Option.some.injEq, reduceCtorEq] <;> grind [CIns.encode]

/-- An instruction of the stages has the word of its fields. -/
theorem CIns.encode_of_stageOf {fn : Nat} {x y z : BitVec 5} {c : CIns} (h : stageOf fn x y z = some c) :
    c.encode = cword 0x22 x y (rlow z fn) := by
  unfold stageOf at h
  split at h <;> simp_all only [Option.ite_none_right_eq_some, Option.some.injEq, reduceCtorEq] <;> grind [CIns.encode]

theorem CIns.decode_jal (off : BitVec 26) : CIns.decode (CIns.jal off).encode = some (.jal off) := by
  have := off.isLt
  have opc : ((BitVec.ofNat 6 0x1E ++ off).extractLsb' 26 6).toNat = 0x1E := by
    rw [toNat_field, toNat_jal]
    omega
  have rest : (BitVec.ofNat 6 0x1E ++ off).extractLsb' 0 26 = off := by
    apply BitVec.eq_of_toNat_eq
    rw [toNat_field, toNat_jal]
    omega
  simp (disch := omega) only [CIns.decode, CIns.encode, opc, rest, if_true, if_neg]

theorem CIns.decode_encode (c : CIns) : CIns.decode c.encode = some c := by
  cases c with
  | alu k | logic k | load k | store k | atom k | branch k | lockOp k =>
    have := k.isLt
    simp (disch := omega) only [CIns.decode, CIns.encode, opc_cword, fn_cword_rlow, Nat.mod_eq_of_lt, if_pos, if_neg,
      rd_cword, ra_cword, low_cword, rb_cword_rlow, Nat.add_sub_cancel_left, finOf_val, Option.map_some, if_true]
  | addi | jalr | exit | yieldcpu | sleep | wait | post | spawn | setpri | self | now | krd | kwr | resume =>
    simp (disch := omega) only [CIns.decode, CIns.encode, opc_cword, fn_cword_rlow, Nat.mod_eq_of_lt, if_pos, if_neg,
      rd_cword, ra_cword, low_cword, rb_cword_rlow, schedOf, stageOf, and_self, if_true]
  | shi k rd ra n =>
    have := k.isLt
    have := n.isLt
    have low : (0#8 ++ BitVec.ofNat 2 k ++ n).toNat = k * 64 + n.toNat := by
      rw [toNat_shiLow, Nat.mod_eq_of_lt (by omega)]
    have high : (cword 5 rd ra (0#8 ++ BitVec.ofNat 2 k ++ n)).extractLsb' 8 8 = 0 := by
      apply BitVec.eq_of_toNat_eq
      rw [toNat_field, toNat_cword, low]
      change _ = 0
      omega
    have kind : ((cword 5 rd ra (0#8 ++ BitVec.ofNat 2 k ++ n)).extractLsb' 6 2).toNat = k := by
      rw [toNat_field, toNat_cword, low]
      omega
    have amount : (cword 5 rd ra (0#8 ++ BitVec.ofNat 2 k ++ n)).extractLsb' 0 6 = n := by
      apply BitVec.eq_of_toNat_eq
      rw [toNat_field, toNat_cword, low]
      omega
    simp (disch := omega) only [CIns.decode, CIns.encode, opc_cword, high, kind, amount, if_pos, if_neg,
      rd_cword, ra_cword, finOf_val, Option.map_some, if_true]
  | mov keep rd sh imm =>
    have := sh.isLt
    have := imm.isLt
    have high (opc : Nat) : (cword opc rd (0#3 ++ sh) imm).extractLsb' 18 3 = 0 := by
      apply BitVec.eq_of_toNat_eq
      rw [toNat_field, toNat_cword, toNat_movRa]
      change _ = 0
      omega
    have place (opc : Nat) : (cword opc rd (0#3 ++ sh) imm).extractLsb' 16 2 = sh := by
      apply BitVec.eq_of_toNat_eq
      rw [toNat_field, toNat_cword, toNat_movRa]
      omega
    cases keep with
    | false =>
      change CIns.decode (cword 0x06 rd (0#3 ++ sh) imm) = _
      simp (disch := omega) only [CIns.decode, opc_cword, Nat.mod_eq_of_lt, if_pos, if_neg, high, place, rd_cword,
        low_cword]
      rfl
    | true =>
      change CIns.decode (cword 0x07 rd (0#3 ++ sh) imm) = _
      simp (disch := omega) only [CIns.decode, opc_cword, Nat.mod_eq_of_lt, if_pos, if_neg, high, place, rd_cword,
        low_cword]
      rfl
  | jal off => exact CIns.decode_jal off
  | csr write rd imm =>
    cases write with
    | false =>
      change CIns.decode (cword 0x30 rd 0 imm) = _
      simp (disch := omega) only [CIns.decode, opc_cword, Nat.mod_eq_of_lt, if_pos, if_neg,
        rd_cword, ra_cword, low_cword]
      rfl
    | true =>
      change CIns.decode (cword 0x31 rd 0 imm) = _
      simp (disch := omega) only [CIns.decode, opc_cword, Nat.mod_eq_of_lt, if_pos, if_neg, 
        rd_cword, ra_cword, low_cword]
      rfl
  | fence => decide +kernel

theorem CIns.encode_of_decode {w : BitVec 32} {c : CIns} (h : CIns.decode w = some c) : c.encode = w := by
  simp only [CIns.decode] at h
  by_cases alu : (w.extractLsb' 26 6).toNat = 0x00
  · rw [if_pos alu] at h
    obtain ⟨k, hk, rfl⟩ := map_finOf_eq_some.mp h
    exact cword_of_opc_fn alu hk.symm
  rw [if_neg alu] at h
  by_cases addi : (w.extractLsb' 26 6).toNat = 0x01
  · rw [if_pos addi] at h
    obtain rfl := Option.some.inj h
    exact cword_of_opc addi
  rw [if_neg addi] at h
  by_cases logic : (w.extractLsb' 26 6).toNat ≤ 0x04
  · rw [if_pos logic] at h
    obtain ⟨k, hk, rfl⟩ := map_finOf_eq_some.mp h
    exact cword_of_opc (by omega)
  rw [if_neg logic] at h
  by_cases shi : (w.extractLsb' 26 6).toNat = 0x05
  · rw [if_pos shi] at h
    obtain ⟨free, h⟩ := Option.ite_none_right_eq_some.mp h
    obtain ⟨k, hk, rfl⟩ := map_finOf_eq_some.mp h
    exact (congrArg _ (shiLow_fields free hk.symm)).trans (cword_of_opc shi)
  rw [if_neg shi] at h
  by_cases mov : (w.extractLsb' 26 6).toNat ≤ 0x07
  · rw [if_pos mov] at h
    obtain ⟨free, h⟩ := Option.ite_none_right_eq_some.mp h
    obtain rfl := Option.some.inj h
    by_cases keep : (w.extractLsb' 26 6).toNat = 7
    · simp only [CIns.encode, keep, movRa_fields free, BEq.rfl, if_true]
      exact cword_of_opc keep
    · simp only [CIns.encode, beq_false_of_ne keep, movRa_fields free, Bool.false_eq_true, if_false]
      exact cword_of_opc (by omega)
  rw [if_neg mov] at h
  by_cases load : (w.extractLsb' 26 6).toNat ≤ 0x0E
  · rw [if_pos load] at h
    obtain ⟨k, hk, rfl⟩ := map_finOf_eq_some.mp h
    exact cword_of_opc (by omega)
  rw [if_neg load] at h
  by_cases gap : (w.extractLsb' 26 6).toNat = 0x0F
  · rw [if_pos gap] at h
    cases h
  rw [if_neg gap] at h
  by_cases store : (w.extractLsb' 26 6).toNat ≤ 0x13
  · rw [if_pos store] at h
    obtain ⟨k, hk, rfl⟩ := map_finOf_eq_some.mp h
    exact cword_of_opc (by omega)
  rw [if_neg store] at h
  by_cases atom : (w.extractLsb' 26 6).toNat = 0x14
  · rw [if_pos atom] at h
    obtain ⟨k, hk, rfl⟩ := map_finOf_eq_some.mp h
    exact cword_of_opc_fn atom hk.symm
  rw [if_neg atom] at h
  by_cases fence : (w.extractLsb' 26 6).toNat = 0x15
  · rw [if_pos fence] at h
    obtain ⟨free, h⟩ := Option.ite_none_right_eq_some.mp h
    obtain rfl := Option.some.inj h
    exact fence_fields fence free
  rw [if_neg fence] at h
  by_cases gap2 : (w.extractLsb' 26 6).toNat ≤ 0x17
  · rw [if_pos gap2] at h
    cases h
  rw [if_neg gap2] at h
  by_cases branch : (w.extractLsb' 26 6).toNat ≤ 0x1D
  · rw [if_pos branch] at h
    obtain ⟨k, hk, rfl⟩ := map_finOf_eq_some.mp h
    exact cword_of_opc (by omega)
  rw [if_neg branch] at h
  by_cases jal : (w.extractLsb' 26 6).toNat = 0x1E
  · rw [if_pos jal] at h
    obtain rfl := Option.some.inj h
    exact jal_fields jal
  rw [if_neg jal] at h
  by_cases jalr : (w.extractLsb' 26 6).toNat = 0x1F
  · rw [if_pos jalr] at h
    obtain rfl := Option.some.inj h
    exact cword_of_opc jalr
  rw [if_neg jalr] at h
  by_cases sched : (w.extractLsb' 26 6).toNat = 0x20
  · rw [if_pos sched] at h
    rw [CIns.encode_of_schedOf h]
    exact cword_of_opc_fn sched rfl
  rw [if_neg sched] at h
  by_cases lock : (w.extractLsb' 26 6).toNat = 0x21
  · rw [if_pos lock] at h
    obtain ⟨free, h⟩ := Option.ite_none_right_eq_some.mp h
    obtain ⟨k, hk, rfl⟩ := map_finOf_eq_some.mp h
    have whole := cword_of_opc_fn lock hk.symm
    rwa [free] at whole
  rw [if_neg lock] at h
  by_cases stage : (w.extractLsb' 26 6).toNat = 0x22
  · rw [if_pos stage] at h
    rw [CIns.encode_of_stageOf h]
    exact cword_of_opc_fn stage rfl
  rw [if_neg stage] at h
  obtain ⟨csr, h⟩ := Option.ite_none_right_eq_some.mp h
  obtain ⟨free, h⟩ := Option.ite_none_right_eq_some.mp h
  obtain rfl := Option.some.inj h
  rcases csr with read | write
  · simp only [CIns.encode, read]
    exact free ▸ cword_of_opc read
  · simp only [CIns.encode, write]
    exact free ▸ cword_of_opc write

/-- Settles O5: in each direction the fields of a word are cut out of it and put together again (`cword_fields`), one
format after another. -/
theorem controlCodeRoundTrip : Obligations.ControlCodeRoundTrip :=
  ⟨CIns.decode_encode, fun _ _ => CIns.encode_of_decode⟩

end Sys2Proof.Machine

/-! The queue and the clocks: every command changes the device only, whatever its operands, and with the clocks
stopped most commands change nothing. -/

namespace Sys2Proof.Machine

/-- Every command answers a state that differs in the device only. -/
theorem exec_completes (c : Instr) (s : State) : ∃ d, Gives c s d := by
  cases c <;> exact ⟨_, rfl⟩

theorem step_cons {s : State} {c : Instr} {rest : List Instr} (queue : s.pending = c :: rest) :
    step s = exec c { s with pending := rest } := by
  rw [step, queue]

theorem step_nil {s : State} (queue : s.pending = []) : step s = idle s := by
  rw [step, queue]

/-- Time changes the device only. -/
theorem idle_completes (s : State) : ∃ d, idle s = .next { s with dev := d } := ⟨_, rfl⟩

/-- A step takes the front command, if there is one, and leaves the rest of the queue. -/
theorem step_completes (s : State) : ∃ t, step s = .next t ∧ t.pending = s.pending.drop 1 := by
  cases queue : s.pending with
  | nil =>
    obtain ⟨d, passes⟩ := idle_completes s
    exact ⟨_, (step_nil queue).trans passes, queue⟩
  | cons c rest =>
    obtain ⟨d, gives⟩ := exec_completes c { s with pending := rest }
    exact ⟨_, (step_cons queue).trans gives, rfl⟩

/-- Settles O2: every arm of `exec` is an answer with another device (`exec_completes`). -/
theorem commandsAlwaysComplete : Obligations.CommandsAlwaysComplete := ⟨exec_completes, step_completes⟩

/-- Settles O1: by the definition of a step. -/
theorem stepRunsFrontCommand : Obligations.StepRunsFrontCommand := fun _ _ _ => step_cons

/-- A command that does not come at any time leaves the device as it is while the clocks stand still. -/
theorem exec_waits_for_clocks (c : Instr) (s : State) (frozen : Instr.anyTime c = false) :
    ∃ d, Gives c s (if s.dev.halted then s.dev else d) := by
  cases c with
  | wakePattern | wake | exitStepReady | brownout | powerOnReset | coldReset | warmReset | pwrokLoss | sysPwrokRise
  | vauxRemoved | shellWatchdog | sensorSample | queryDeviceIdentifiers | getFirmwareParameters | requestUpdate
  | passComponentTable | updateComponent | requestFirmwareData | transferComplete | verifyComplete | applyComplete
  | activateFirmware | getStatus | cancelUpdateComponent | cancelUpdate | getPdrRepositoryInfo | getPdr
  | getSensorReading | getStateSensorReadings | mctpControl | eventLogReadMessage | getVersion | getCapabilities
  | negotiateAlgorithms | getDigests | getCertificate | challenge | getMeasurements | spdmSignDone | tapReset | bypass
  | samplePreload | extest | idcode => cases frozen
  | _ => exact ⟨_, rfl⟩

/-- Settles O4: a command that does not come at any time waits for the clocks (`exec_waits_for_clocks`). -/
theorem stoppedClocksFreezeTheDevice : Obligations.StoppedClocksFreezeTheDevice := by
  intro s c halted frozen
  obtain ⟨d, gives⟩ := exec_waits_for_clocks c s frozen
  rwa [if_pos halted] at gives

/-! ### A step on an empty queue that writes memory -/

/-- Channel 0 has a ZQ calibration due and nothing to do, and its stall counter is full. A saturated counter is
recorded, and the manager's error ring lies in device memory. -/
def calibrationDue : State where
  dev := (((((Dev.reset.onCh 0 fun c => { c with zqDue := true }).put F.MEM_CFG_SPEED 1).wr ⟨.MEM_CH_STALL, 0, 0⟩
    (2 ^ 48 - 1)).put F.ERR_CFG_SAT_REC 1).put F.ERR_RING_CFG_EN 1).put F.ERR_RING_CFG_SIZE_LOG2 8
  pending := []

/-- Refutes O3: on an empty queue the calibration that is due stalls its channel, the stall counter saturates (R479),
and the record of it (R477) is written to the error ring in device memory. -/
theorem not_resetAndIdleSteps : ¬ Obligations.ResetAndIdleSteps := by
  intro holds
  obtain ⟨-, -, -, -, -, -, -, idleKeeps⟩ := holds
  obtain ⟨t, gives, -, keeps, -⟩ := idleKeeps calibrationDue rfl
  have grown : (match step calibrationDue with
      | .next u => u.dev.mem != calibrationDue.dev.mem
      | _ => false) = true := by decide +kernel
  rw [gives] at grown
  simp [keeps] at grown

end Sys2Proof.Machine

/-! Control code: what an instruction on a core gives, and the arithmetic of R386 and R387 on 64-bit words. -/

namespace Sys2Proof.Machine

/-! ### One instruction of a core -/

/-- An instruction that its core executes gives what `runIns` leaves. -/
theorem gives_ctl {c : Instr} {s : State} {core : Fin 8} {i : CIns} {t : Thread} {d : Dev}
    (e : exec c s = s.act fun d => d.ctl core i) (clocked : s.dev.clocked) (runs : s.dev.executes core t i)
    (h : s.dev.runIns t i = d) : Gives c s d :=
  .of_act (f := fun d => d.ctl core i) e clocked ((Dev.ctl_executes runs).trans h)

/-- A word of a result that is computed on numbers. -/
theorem Dev.setThread_put (d : Dev) (t : Thread) (rd : BitVec 5) (v : Nat) :
    d.setThread (t.put rd v) = d.withThread (t.wrote rd (BitVec.ofNat 64 v)) := by
  rw [Dev.setThread_eq, Thread.put_eq]

theorem Dev.runIns_alu (d : Dev) (t : Thread) (k : Fin 16) (rd ra rb : BitVec 5) : d.runIns t (.alu k rd ra rb) =
    d.withThread (t.wrote rd (BitVec.ofNat 64 (aluOp k.val (t.word ra).toNat (t.word rb).toNat))) := by
  rw [← Thread.reg_toNat, ← Thread.reg_toNat, ← Dev.setThread_put]
  rfl

theorem Dev.runIns_logic (d : Dev) (t : Thread) (k : Fin 3) (rd ra : BitVec 5) (imm : BitVec 16) :
    d.runIns t (.logic k rd ra imm) =
      d.withThread (t.wrote rd (BitVec.ofNat 64 (logicOp k.val (t.word ra).toNat imm.toNat))) := by
  rw [← Thread.reg_toNat, ← Dev.setThread_put]
  rfl

theorem Dev.runIns_shi (d : Dev) (t : Thread) (k : Fin 3) (rd ra : BitVec 5) (n : BitVec 6) :
    d.runIns t (.shi k rd ra n) =
      d.withThread (t.wrote rd (BitVec.ofNat 64 (shiftBy k.val (t.word ra).toNat n.toNat))) := by
  rw [← Thread.reg_toNat, ← Dev.setThread_put]
  rfl

theorem rWrites_alu {c : RFmt → Instr} {k : Fin 16} {op : Word → Word → Word}
    (e : ∀ f s, exec (c f) s = s.act fun d => d.ctl f.core (.alu k f.rd f.ra f.rb))
    (result : ∀ a b : Word, BitVec.ofNat 64 (aluOp k.val a.toNat b.toNat) = op a b) : RWrites c (.alu k) op := by
  intro s f t clocked runs
  refine gives_ctl (e f s) clocked runs ?_
  rw [Dev.runIns_alu, result]

theorem iWrites_logic {c : IFmt → Instr} {k : Fin 3} {op : Word → BitVec 16 → Word}
    (e : ∀ f s, exec (c f) s = s.act fun d => d.ctl f.core (.logic k f.rd f.ra f.imm))
    (result : ∀ (a : Word) (b : BitVec 16), BitVec.ofNat 64 (logicOp k.val a.toNat b.toNat) = op a b) :
    IWrites c (.logic k) op := by
  intro s f t clocked runs
  refine gives_ctl (e f s) clocked runs ?_
  rw [Dev.runIns_logic, result]

theorem gives_shi {c : ShiFmt → Instr} {k : Fin 3} {op : Word → Nat → Word} {s : State} {f : ShiFmt} {t : Thread}
    (e : ∀ s, exec (c f) s = s.act fun d => d.ctl f.core (.shi k f.rd f.ra f.amount))
    (result : ∀ (a : Word) (n : Nat), BitVec.ofNat 64 (shiftBy k.val a.toNat n) = op a (n % 64))
    (clocked : s.dev.clocked) (runs : s.dev.executes f.core t (.shi k f.rd f.ra f.amount)) :
    Gives (c f) s (s.dev.withThread (t.wrote f.rd (op (t.word f.ra) f.amount.toNat))) := by
  refine gives_ctl (e s) clocked runs ?_
  rw [Dev.runIns_shi, result, Nat.mod_eq_of_lt f.amount.isLt]

/-! ### Arithmetic -/

/-- A number below 2^64 as a word. -/
theorem ofNat_eq_of_toNat {v : Nat} {w : Word} (h : v % 2 ^ 64 = w.toNat) : BitVec.ofNat 64 v = w :=
  BitVec.eq_of_toNat_eq (by rw [BitVec.toNat_ofNat, h])

theorem s64_lt_iff_slt (a b : Word) : s64 a.toNat < s64 b.toNat ↔ a.slt b = true := by
  rw [s64_toNat, s64_toNat, BitVec.slt, decide_eq_true_iff]

theorem ofNat_ofSigned (v : Int) : BitVec.ofNat 64 (ofSigned 64 v) = BitVec.ofInt 64 v := by
  rw [ofSigned_toNat, BitVec.ofNat_toNat, BitVec.setWidth_eq]

theorem toNat_eq_zero_iff (b : Word) : b.toNat = 0 ↔ b = 0 := by
  rw [← BitVec.toNat_inj]; rfl

section
variable (a b : Word)

theorem aluOp_add : BitVec.ofNat 64 (aluOp 0 a.toNat b.toNat) = a + b :=
  ofNat_eq_of_toNat (BitVec.toNat_add a b).symm

theorem aluOp_sub : BitVec.ofNat 64 (aluOp 1 a.toNat b.toNat) = a - b := by
  apply ofNat_eq_of_toNat
  rw [BitVec.toNat_sub, aluOp, Nat.add_comm]

theorem aluOp_and : BitVec.ofNat 64 (aluOp 2 a.toNat b.toNat) = a &&& b := by
  rw [aluOp, ← BitVec.toNat_and, BitVec.ofNat_toNat, BitVec.setWidth_eq]

theorem aluOp_or : BitVec.ofNat 64 (aluOp 3 a.toNat b.toNat) = a ||| b := by
  rw [aluOp, ← BitVec.toNat_or, BitVec.ofNat_toNat, BitVec.setWidth_eq]

theorem aluOp_xor : BitVec.ofNat 64 (aluOp 4 a.toNat b.toNat) = a ^^^ b := by
  rw [aluOp, ← BitVec.toNat_xor, BitVec.ofNat_toNat, BitVec.setWidth_eq]

theorem shiftBy_left (n : Nat) : BitVec.ofNat 64 (shiftBy 0 a.toNat n) = a <<< (n % 64) :=
  ofNat_eq_of_toNat (BitVec.toNat_shiftLeft).symm

theorem shiftBy_right (n : Nat) : BitVec.ofNat 64 (shiftBy 1 a.toNat n) = a >>> (n % 64) := by
  rw [shiftBy, ← BitVec.toNat_ushiftRight, BitVec.ofNat_toNat, BitVec.setWidth_eq]

theorem shiftBy_arithmetic (n : Nat) : BitVec.ofNat 64 (shiftBy 2 a.toNat n) = a.sshiftRight (n % 64) := by
  have shifted : shiftBy 2 a.toNat n = ofSigned 64 (s64 a.toNat / 2 ^ (n % 64)) := rfl
  rw [shifted, ofNat_ofSigned, s64_toNat, BitVec.sshiftRight, Int.shiftRight_eq_div_pow]
  rfl

theorem aluOp_slt : BitVec.ofNat 64 (aluOp 8 a.toNat b.toNat) = if a.slt b then 1 else 0 := by
  simp only [aluOp, s64_lt_iff_slt]
  split <;> rfl

theorem aluOp_sltu : BitVec.ofNat 64 (aluOp 9 a.toNat b.toNat) = if a.ult b then 1 else 0 := by
  simp only [aluOp, BitVec.ult, decide_eq_true_iff]
  split <;> rfl

theorem aluOp_mul : BitVec.ofNat 64 (aluOp 10 a.toNat b.toNat) = a * b :=
  ofNat_eq_of_toNat (BitVec.toNat_mul a b).symm

theorem aluOp_divu : BitVec.ofNat 64 (aluOp 12 a.toNat b.toNat) = if b = 0 then BitVec.allOnes 64 else a / b := by
  simp only [aluOp, toNat_eq_zero_iff]
  split
  · rfl
  · rw [← BitVec.toNat_udiv, BitVec.ofNat_toNat, BitVec.setWidth_eq]

theorem aluOp_remu : BitVec.ofNat 64 (aluOp 13 a.toNat b.toNat) = if b = 0 then a else a % b := by
  simp only [aluOp, toNat_eq_zero_iff]
  split
  · rw [BitVec.ofNat_toNat, BitVec.setWidth_eq]
  · rw [← BitVec.toNat_umod, BitVec.ofNat_toNat, BitVec.setWidth_eq]

/-- −2^63 by −1: the quotient 2^63 wraps to −2^63 (R387). -/
theorem aluOp_divs : BitVec.ofNat 64 (aluOp 14 a.toNat b.toNat) =
    if b = 0 then BitVec.allOnes 64 else if a = BitVec.intMin 64 ∧ b = BitVec.allOnes 64 then BitVec.intMin 64
    else BitVec.ofInt 64 (a.toInt.tdiv b.toInt) := by
  simp only [aluOp, toNat_eq_zero_iff]
  split
  · rfl
  rw [ofNat_ofSigned, s64_toNat, s64_toNat]
  split
  case isTrue overflow =>
    obtain ⟨rfl, rfl⟩ := overflow
    decide +kernel
  case isFalse => rfl

theorem aluOp_rems : BitVec.ofNat 64 (aluOp 15 a.toNat b.toNat) =
    if b = 0 then a else if a = BitVec.intMin 64 ∧ b = BitVec.allOnes 64 then 0
    else BitVec.ofInt 64 (a.toInt.tmod b.toInt) := by
  simp only [aluOp, toNat_eq_zero_iff]
  split
  · rw [BitVec.ofNat_toNat, BitVec.setWidth_eq]
  rw [ofNat_ofSigned, s64_toNat, s64_toNat]
  split
  case isTrue overflow =>
    obtain ⟨rfl, rfl⟩ := overflow
    decide +kernel
  case isFalse => rfl

end

/-! ### Immediates -/

section
variable (a : Word) (i : BitVec 16)

theorem toNat_zeroExtend_imm : (i.zeroExtend 64).toNat = i.toNat :=
  BitVec.toNat_setWidth_of_le (by decide)

theorem logicOp_and : BitVec.ofNat 64 (logicOp 0 a.toNat i.toNat) = a &&& i.zeroExtend 64 := by
  rw [logicOp, ← toNat_zeroExtend_imm, ← BitVec.toNat_and, BitVec.ofNat_toNat, BitVec.setWidth_eq]

theorem logicOp_or : BitVec.ofNat 64 (logicOp 1 a.toNat i.toNat) = a ||| i.zeroExtend 64 := by
  rw [logicOp, ← toNat_zeroExtend_imm, ← BitVec.toNat_or, BitVec.ofNat_toNat, BitVec.setWidth_eq]

theorem logicOp_xor : BitVec.ofNat 64 (logicOp 2 a.toNat i.toNat) = a ^^^ i.zeroExtend 64 := by
  have result : logicOp 2 a.toNat i.toNat = a.toNat ^^^ i.toNat := rfl
  rw [result, ← toNat_zeroExtend_imm, ← BitVec.toNat_xor, BitVec.ofNat_toNat, BitVec.setWidth_eq]

/-- MOVZ: the immediate at its place. -/
theorem ofNat_movz (sh : BitVec 2) :
    BitVec.ofNat 64 (i.toNat * 2 ^ (16 * sh.toNat)) = i.zeroExtend 64 <<< (16 * sh.toNat) := by
  apply ofNat_eq_of_toNat
  rw [BitVec.toNat_shiftLeft, toNat_zeroExtend_imm, Nat.shiftLeft_eq]

/-- MOVK: the immediate replaces the 16 bits at its place. -/
theorem ofNat_movk (sh : BitVec 2) : BitVec.ofNat 64 (setBits a.toNat (16 * sh.toNat) 16 i.toNat) =
    (a &&& ~~~((0xFFFF : Word) <<< (16 * sh.toNat))) ||| (i.zeroExtend 64 <<< (16 * sh.toNat)) := by
  have mask (m : Nat) : (0xFFFF : Word).getLsbD m = decide (m < 16) := by
    change (BitVec.ofNat 64 (2 ^ 16 - 1)).getLsbD m = _
    rw [BitVec.getLsbD_ofNat, Nat.testBit_two_pow_sub_one]
    grind
  apply BitVec.eq_of_getLsbD_eq
  intro n hn
  simp only [BitVec.getLsbD_ofNat, testBit_setBits, BitVec.getLsbD_or, BitVec.getLsbD_and, BitVec.getLsbD_not,
    BitVec.getLsbD_shiftLeft, mask, BitVec.getLsbD_setWidth, hn, decide_true, Bool.true_and, BitVec.testBit_toNat]
  by_cases low : n < 16 * sh.toNat
  · grind
  by_cases high : 16 * sh.toNat + 16 ≤ n
  · have : i.getLsbD (n - 16 * sh.toNat) = false := BitVec.getLsbD_of_ge _ _ (by omega)
    grind
  · grind

end

theorem iWrites_addi : IWrites .ctlAddi .addi (fun a i => a + i.signExtend 64) := by
  intro s f t clocked runs
  refine gives_ctl (exec_ctlAddi f s) clocked runs ?_
  rw [Dev.runIns, Dev.setThread_put, Thread.addr_eq, Thread.target, BitVec.ofNat_toNat, BitVec.setWidth_eq]

/-- Settles O6: each result is an equation of `aluOp`, `logicOp` or `shiftBy` on words. -/
theorem controlComputations : Obligations.ControlComputations := by
  refine ⟨⟨rWrites_alu exec_ctlAdd aluOp_add, rWrites_alu exec_ctlSub aluOp_sub, rWrites_alu exec_ctlAnd aluOp_and,
      rWrites_alu exec_ctlOr aluOp_or, rWrites_alu exec_ctlXor aluOp_xor,
      rWrites_alu exec_ctlSll fun a b => shiftBy_left a b.toNat,
      rWrites_alu exec_ctlSrl fun a b => shiftBy_right a b.toNat,
      rWrites_alu exec_ctlSra fun a b => shiftBy_arithmetic a b.toNat,
      rWrites_alu exec_ctlSlt aluOp_slt, rWrites_alu exec_ctlSltu aluOp_sltu, rWrites_alu exec_ctlMul aluOp_mul,
      rWrites_alu exec_ctlMulhu fun _ _ => rfl⟩,
    ⟨rWrites_alu exec_ctlDivu aluOp_divu, rWrites_alu exec_ctlRemu aluOp_remu, rWrites_alu exec_ctlDivs aluOp_divs,
      rWrites_alu exec_ctlRems aluOp_rems⟩,
    iWrites_addi, iWrites_logic exec_ctlAndi logicOp_and, iWrites_logic exec_ctlOri logicOp_or,
    iWrites_logic exec_ctlXori logicOp_xor, fun s f t clocked => ⟨fun runs => ?sll, fun runs => ?srl, fun runs => ?sra⟩,
    fun s f t clocked => ⟨fun runs => ?movz, fun runs => ?movk⟩⟩
  case sll => exact gives_shi (exec_ctlShiSll f) shiftBy_left clocked runs
  case srl => exact gives_shi (exec_ctlShiSrl f) shiftBy_right clocked runs
  case sra => exact gives_shi (exec_ctlShiSra f) shiftBy_arithmetic clocked runs
  case movz =>
    refine gives_ctl (exec_ctlMovz f s) clocked runs ?_
    rw [Dev.runIns, Dev.setThread_put, ← ofNat_movz]
    rfl
  case movk =>
    refine gives_ctl (exec_ctlMovk f s) clocked runs ?_
    rw [Dev.runIns, Dev.setThread_put, ← ofNat_movk, ← Thread.reg_toNat]
    rfl

end Sys2Proof.Machine

/-! Loads, stores and atomics of control code (R386 to R388). -/

namespace Sys2Proof.Machine

/-! ### Bytes as words -/

theorem length_memRead (m : List Host.Cell) (a n : Nat) : (memRead m a n).length = n := by
  simp [memRead]

theorem Dev.length_anyRead (d : Dev) (a n : Nat) : (d.anyRead a n).length = n := by
  unfold Dev.anyRead
  split
  · exact length_memRead _ _ _
  · exact length_memRead _ _ _
  · exact length_memRead _ _ _
  · exact List.length_replicate

theorem Dev.leNat_anyRead_lt (d : Dev) (a n : Nat) : leNat (d.anyRead a n) < 2 ^ (8 * n) := by
  have bound := leNat_lt (d.anyRead a n)
  rwa [d.length_anyRead, show 256 = 2 ^ 8 from rfl, ← Nat.pow_mul] at bound

/-- The signed value of a number's low bits is that of the bit vector. -/
theorem toSigned_eq_toInt {w : Nat} (hw : 0 < w) (v : Nat) : toSigned w v = (BitVec.ofNat w v).toInt := by
  have half : 2 ^ w = 2 * 2 ^ (w - 1) := by rw [← Nat.pow_succ', Nat.succ_eq_add_one, Nat.sub_add_cancel hw]
  have iff : v % 2 ^ w < 2 ^ (w - 1) ↔ 2 * (v % 2 ^ w) < 2 ^ w := by omega
  simp only [BitVec.toInt_eq_toNat_cond, BitVec.toNat_ofNat, toSigned, iff]

/-- Bytes read, sign-extended to a word. -/
theorem ofNat_signExtend {w : Nat} (hw : 0 < w) (v : Nat) :
    BitVec.ofNat 64 (ofSigned 64 (toSigned w v)) = (BitVec.ofNat w v).signExtend 64 := by
  rw [ofNat_ofSigned, toSigned_eq_toInt hw, BitVec.signExtend]

/-- Bytes read, zero-extended to a word. -/
theorem ofNat_zeroExtend {w v : Nat} (hv : v < 2 ^ w) : BitVec.ofNat 64 v = (BitVec.ofNat w v).zeroExtend 64 := by
  apply BitVec.eq_of_toNat_eq
  rw [BitVec.zeroExtend, BitVec.toNat_setWidth, BitVec.toNat_ofNat, BitVec.toNat_ofNat, Nat.mod_eq_of_lt hv]

/-! ### Reads -/

section
variable {d : Dev} {t : Thread} {a n : Nat} {own : Bool} {use : Dev → Nat → Dev}

theorem Dev.ctlRead_usable (usable : d.usable t a n) (clean : (d.loadSeen t a own).anyPoison a n = .clean) :
    d.ctlRead t a n own use = use (d.loadSeen t a own) (leNat ((d.loadSeen t a own).anyRead a n)) := by
  obtain ⟨aligned, mine⟩ := usable
  have ok : ¬(a % n ≠ 0 ∨ d.mayUse t a n = false) := by simp [aligned, mine]
  unfold Dev.ctlRead
  rw [if_neg ok]
  exact if_neg (not_not_intro clean)

theorem Dev.ctlRead_fault (bad : a % n ≠ 0 ∨ d.mayUse t a n = false) :
    d.ctlRead t a n own use = d.threadFault t addrFault := if_pos bad

end

/-- The bytes that a load of kind `k` reads. -/
def loadSize (k : Nat) : Nat := 2 ^ (if k < 4 then k else k - 4)

theorem Dev.runIns_load (d : Dev) (t : Thread) (k : Fin 7) (rd ra : BitVec 5) (imm : BitVec 16) :
    d.runIns t (.load k rd ra imm) = d.ctlRead t (t.target ra imm) (loadSize k.val) false fun d v =>
      d.withThread (t.wrote rd (BitVec.ofNat 64
        (if 4 ≤ k.val then ofSigned 64 (toSigned (8 * loadSize k.val) v) else v))) := by
  simp only [← Dev.setThread_put, ← Thread.addr_eq]
  simp only [Dev.runIns, Dev.ctlLoad, decide_eq_true_iff]
  rfl

/-- A load of a kind reads its bytes and extends them as its kind says. -/
theorem loads {c : IFmt → Instr} {k : Fin 7} (e : ∀ f s, exec (c f) s = s.act fun d => d.ctl f.core (.load k f.rd f.ra f.imm)) :
    Loads c k (loadSize k.val) (decide (4 ≤ k.val)) := by
  intro s f t clocked runs usable d clean
  refine gives_ctl (e f s) clocked runs ?_
  rw [Dev.runIns_load, Dev.ctlRead_usable usable clean]
  congr 2
  have bound := d.leNat_anyRead_lt (t.target f.ra f.imm) (loadSize k.val)
  have bits : 0 < 8 * loadSize k.val := Nat.mul_pos (by decide) (Nat.two_pow_pos _)
  by_cases signed : 4 ≤ k.val
  · simp only [signed, decide_true, if_true]
    exact ofNat_signExtend bits _
  · simp only [signed, decide_false, if_false, Bool.false_eq_true]
    exact ofNat_zeroExtend bound

theorem addressFaults_load {c : IFmt → Instr} {k : Fin 7}
    (e : ∀ f s, exec (c f) s = s.act fun d => d.ctl f.core (.load k f.rd f.ra f.imm)) :
    AddressFaults c (.load k) (loadSize k.val) := by
  intro s f t clocked runs bad
  refine gives_ctl (e f s) clocked runs ?_
  rw [Dev.runIns_load, Dev.ctlRead_fault bad]
  rfl

/-! ### Stores -/

theorem Dev.runIns_store (d : Dev) (t : Thread) (k : Fin 4) (rd ra : BitVec 5) (imm : BitVec 16) :
    d.runIns t (.store k rd ra imm) =
      if t.target ra imm % 2 ^ k.val ≠ 0 ∨ d.mayUse t (t.target ra imm) (2 ^ k.val) = false then
        d.threadFault t addrFault
      else ((d.coreAsk t (t.target ra imm) true).anyWrite (t.target ra imm)
        (leBytes (2 ^ k.val) (t.word rd).toNat)).withThread t.passed := by
  rw [← Thread.addr_eq, ← Thread.reg_toNat, ← Thread.step_eq, ← Dev.setThread_eq]
  rfl

section
variable {c : IFmt → Instr} {k : Fin 4}
  (e : ∀ f s, exec (c f) s = s.act fun d => d.ctl f.core (.store k f.rd f.ra f.imm))
include e

theorem stores : Stores c k (2 ^ k.val) := by
  intro s f t clocked runs usable
  obtain ⟨aligned, mine⟩ := usable
  refine gives_ctl (e f s) clocked runs ?_
  rw [Dev.runIns_store, if_neg (by simp [aligned, mine])]

theorem addressFaults_store : AddressFaults c (.store k) (2 ^ k.val) := by
  intro s f t clocked runs bad
  refine gives_ctl (e f s) clocked runs ?_
  rw [Dev.runIns_store, if_pos bad]
  rfl

end

/-! ### Atomics -/

theorem Dev.runIns_atom (d : Dev) (t : Thread) (k : Fin 5) (rd ra rb : BitVec 5) :
    d.runIns t (.atom k rd ra rb) = d.ctlRead t (t.word ra).toNat 8 true fun d old =>
      ((atomOp k.val old (t.word rb).toNat (t.word rd).toNat).elim d fun v =>
        d.anyWrite (t.word ra).toNat (leBytes 8 v)).withThread (t.wrote rd (BitVec.ofNat 64 old)) := by
  simp only [← Dev.setThread_put, ← Thread.reg_toNat]
  simp only [Dev.runIns, Dev.ctlAtomic]
  congr 1
  funext d old
  split <;> simp only [*, Option.elim]

section
variable {c : RFmt → Instr} {k : Fin 5}
  (e : ∀ f s, exec (c f) s = s.act fun d => d.ctl f.core (.atom k f.rd f.ra f.rb))
include e

/-- An atomic writes what `atomOp` names, on words. -/
theorem atomics {op : Word → Word → Word → Option Word}
    (result : ∀ old b x : Word, atomOp k.val old.toNat b.toNat x.toNat = (op old b x).map BitVec.toNat) :
    Atomics c k op := by
  intro s f t clocked runs usable a d clean old
  refine gives_ctl (e f s) clocked runs ?_
  have read : leNat (d.anyRead a 8) = old.toNat := by
    rw [BitVec.toNat_ofNat, Nat.mod_eq_of_lt (d.leNat_anyRead_lt a 8)]
  rw [Dev.runIns_atom, Dev.ctlRead_usable usable clean]
  change ((atomOp _ (leNat (d.anyRead a 8)) _ _).elim d _).withThread (t.wrote f.rd old) = _
  rw [read, result, Option.elim_map]
  rfl

theorem atomicFaults : AtomicFaults c k := by
  intro s f t clocked runs bad
  refine gives_ctl (e f s) clocked runs ?_
  rw [Dev.runIns_atom, Dev.ctlRead_fault bad]
  rfl

end

theorem atomOp_cas (old b x : Word) :
    atomOp 4 old.toNat b.toNat x.toNat = (if old = x then some b else none).map BitVec.toNat := by
  simp only [atomOp, BitVec.toNat_inj]
  split <;> rfl

/-- Settles O7: by kind, each access does what its size and extension say (`loads`, `stores`, `atomics`), or faults. -/
theorem controlMemoryAccesses : Obligations.ControlMemoryAccesses := by
  refine ⟨⟨loads exec_ctlLdu8, loads exec_ctlLdu16, loads exec_ctlLdu32, loads exec_ctlLd64, loads exec_ctlLds8,
      loads exec_ctlLds16, loads exec_ctlLds32⟩,
    ⟨stores exec_ctlSt8, stores exec_ctlSt16, stores exec_ctlSt32, stores exec_ctlSt64⟩,
    ⟨atomics exec_ctlSwap fun _ _ _ => rfl, atomics exec_ctlAadd fun old b _ => ?add,
      atomics exec_ctlAand fun old b _ => ?and, atomics exec_ctlAor fun old b _ => ?or, atomics exec_ctlCas atomOp_cas⟩,
    addressFaults_load exec_ctlLdu8, addressFaults_load exec_ctlLdu16, addressFaults_load exec_ctlLdu32,
    addressFaults_load exec_ctlLd64, addressFaults_load exec_ctlLds8, addressFaults_load exec_ctlLds16,
    addressFaults_load exec_ctlLds32,
    addressFaults_store exec_ctlSt8, addressFaults_store exec_ctlSt16, addressFaults_store exec_ctlSt32,
    addressFaults_store exec_ctlSt64,
    atomicFaults exec_ctlSwap, atomicFaults exec_ctlAadd, atomicFaults exec_ctlAand, atomicFaults exec_ctlAor,
    atomicFaults exec_ctlCas⟩
  case add => exact congrArg some (BitVec.toNat_add old b).symm
  case and => exact congrArg some (BitVec.toNat_and old b).symm
  case or => exact congrArg some (BitVec.toNat_or old b).symm

end Sys2Proof.Machine

/-! Branches, jumps and FENCE of control code (R385, R386): the PC in words. -/

namespace Sys2Proof.Machine

theorem Dev.runIns_branch (d : Dev) (t : Thread) (k : Fin 6) (ra rb : BitVec 5) (off : BitVec 16) :
    d.runIns t (.branch k ra rb off) = d.withThread (if branchTaken k.val (t.word ra).toNat (t.word rb).toNat then
      t.goTo (ofSigned 64 ((t.pc : Int) + 4 * off.toInt)) else t.step) := by
  rw [← Dev.setThread_eq, ← Thread.reg_toNat, ← Thread.reg_toNat]
  rfl

/-- A PC displaced by so many instructions. -/
theorem ofSigned_pc (t : Thread) {w : Nat} (off : BitVec w) :
    ofSigned 64 ((t.pc : Int) + 4 * off.toInt) = (t.pcWord + 4 * off.signExtend 64).toNat := by
  rw [ofSigned_toNat, BitVec.ofInt_add, BitVec.ofInt_mul, Thread.pcWord, BitVec.ofInt_natCast, BitVec.signExtend]
  rfl

theorem Thread.goTo_pc (t : Thread) {w : Nat} (off : BitVec w) :
    t.goTo (ofSigned 64 ((t.pc : Int) + 4 * off.toInt)) = t.atPc (t.pcWord + 4 * off.signExtend 64) := by
  rw [ofSigned_pc, Thread.goTo, Thread.atPc, Nat.mod_eq_of_lt (BitVec.isLt _)]

theorem Thread.step_atPc (t : Thread) : t.step = t.atPc (t.pcWord + 4) := Thread.step_eq t

/-- A branch by a test on words. -/
theorem branches {c : BFmt → Instr} {k : Fin 6} {test : Word → Word → Bool}
    (e : ∀ f s, exec (c f) s = s.act fun d => d.ctl f.core (.branch k f.ra f.rb f.off))
    (result : ∀ a b : Word, branchTaken k.val a.toNat b.toNat = test a b) : Branches c k test := by
  intro s f t clocked runs
  refine gives_ctl (e f s) clocked runs ?_
  rw [Dev.runIns_branch, result, Thread.goTo_pc, Thread.step_atPc]
  split <;> rfl

/-! ### The tests -/

section
variable (a b : Word)

theorem branchTaken_eq : branchTaken 0 a.toNat b.toNat = (a == b) := by
  rw [branchTaken, Bool.eq_iff_iff, beq_iff_eq, beq_iff_eq, BitVec.toNat_inj]

theorem branchTaken_ne : branchTaken 1 a.toNat b.toNat = (a != b) := by
  rw [branchTaken, Bool.eq_iff_iff, bne_iff_ne, bne_iff_ne, ne_eq, BitVec.toNat_inj]

theorem branchTaken_lt : branchTaken 2 a.toNat b.toNat = a.slt b := by
  rw [branchTaken, s64_toNat, s64_toNat, BitVec.slt]

theorem branchTaken_ge : branchTaken 3 a.toNat b.toNat = !a.slt b := by
  rw [branchTaken, s64_toNat, s64_toNat, BitVec.slt, ← decide_not, decide_eq_decide, not_lt]

theorem branchTaken_ltu : branchTaken 4 a.toNat b.toNat = a.ult b := rfl

theorem branchTaken_geu : branchTaken 5 a.toNat b.toNat = !a.ult b := by
  have test : branchTaken 5 a.toNat b.toNat = decide (b.toNat ≤ a.toNat) := rfl
  rw [test, BitVec.ult, ← decide_not, decide_eq_decide, not_lt]

/-! ### Jumps -/

/-- Clearing the two low bits rounds down to an instruction. -/
theorem toNat_and_not_three : (a &&& ~~~(3 : Word)).toNat = a.toNat / 4 * 4 := toNat_and_not_lowMask a 2

end

theorem Thread.setReg_word (t : Thread) (rd : BitVec 5) (v : Nat) :
    t.setReg rd.toNat v = { t with g := t.withReg rd (BitVec.ofNat 64 v) } := by
  unfold Thread.setReg Thread.withReg
  by_cases h : rd = 0
  · subst h; rfl
  · have h' : rd.toNat ≠ 0 := fun z => h (BitVec.eq_of_toNat_eq z)
    rw [if_neg h, if_neg h']

theorem Thread.ofNat_pc_add (t : Thread) : BitVec.ofNat 64 (t.pc + 4) = t.pcWord + 4 := by
  rw [BitVec.ofNat_add]
  rfl

theorem Dev.runIns_jal (d : Dev) (t : Thread) (off : BitVec 26) : d.runIns t (.jal off) = d.withThread
    { t with g := t.withReg 31 (t.pcWord + 4), pc := (t.pcWord + 4 * off.signExtend 64).toNat } := by
  rw [← Dev.setThread_eq, ← Thread.ofNat_pc_add, ← ofSigned_pc, Dev.runIns]
  rw [show (31 : Nat) = (31 : BitVec 5).toNat from rfl, Thread.setReg_word, Thread.goTo, ofSigned_toNat,
    Nat.mod_eq_of_lt (BitVec.isLt _)]

theorem Dev.runIns_jalr (d : Dev) (t : Thread) (rd ra : BitVec 5) (imm : BitVec 16) :
    d.runIns t (.jalr rd ra imm) = d.withThread { t with
      g := t.withReg rd (t.pcWord + 4), pc := ((t.word ra + imm.signExtend 64) &&& ~~~(3 : Word)).toNat } := by
  have inWord := BitVec.isLt ((t.word ra + imm.signExtend 64) &&& ~~~(3 : Word))
  rw [toNat_and_not_three] at inWord ⊢
  rw [← Dev.setThread_eq, ← Thread.ofNat_pc_add, Dev.runIns, Thread.setReg_word, Thread.goTo, Thread.addr_eq,
    Thread.target, Nat.mod_eq_of_lt inWord]

/-- Settles O8: the PC as a number modulo 2^64 is the PC as a word (`ofSigned_pc`), and each test is one on words. -/
theorem controlTransfers : Obligations.ControlTransfers := by
  refine ⟨branches exec_ctlBeq branchTaken_eq, branches exec_ctlBne branchTaken_ne, branches exec_ctlBlt branchTaken_lt,
    branches exec_ctlBge branchTaken_ge, branches exec_ctlBltu branchTaken_ltu, branches exec_ctlBgeu branchTaken_geu,
    fun s core off t clocked runs => ?jal, fun s f t clocked runs => ?jalr, fun s core t clocked runs => ?fence⟩
  case jal => exact gives_ctl (exec_ctlJal core off s) clocked runs (Dev.runIns_jal _ _ _)
  case jalr => exact gives_ctl (exec_ctlJalr f s) clocked runs (Dev.runIns_jalr _ _ _ _ _)
  case fence =>
    refine gives_ctl (exec_ctlFence core s) clocked runs ?_
    rw [Dev.runIns, Dev.setThread_eq, Thread.step_eq]

end Sys2Proof.Machine

/-! CSRR, CSRW, KRD, KWR and RESUME, and the INDEX_RANGE thread faults (R386, R391, R394, R399). -/

namespace Sys2Proof.Machine

/-! ### Words with unused fields -/

/-- A command whose word is legal acts as any other. -/
theorem exec_legal {c : Instr} {s : State} {ok : Bool} {f : Dev → Dev} (e : exec c s = s.legal ok f)
    (legal : ok = true) : exec c s = s.act f := e.trans (State.legal_ok s f ok legal)

theorem noRb_of {f : RFmt} (h : f.rb = 0) : noRb f = true := beq_iff_eq.mpr h

theorem noRa_noRb_of {f : RFmt} (ha : f.ra = 0) (hb : f.rb = 0) : (noRa f && noRb f) = true := by
  rw [noRb_of hb, Bool.and_true]
  exact beq_iff_eq.mpr ha

theorem noRd_noRb_of {f : RFmt} (hd : f.rd = 0) (hb : f.rb = 0) : (noRd f && noRb f) = true := by
  rw [noRb_of hb, Bool.and_true]
  exact beq_iff_eq.mpr hd

theorem iNoRa_of {f : IFmt} (h : f.ra = 0) : iNoRa f = true := beq_iff_eq.mpr h

/-! ### Registers of the device -/

theorem Dev.csr_priv {d : Dev} {core : Nat} {t : Thread} (runs : d.running core = some t) (priv : t.priv = true)
    (f : Dev → Thread → Dev) : d.csr core f = f d t := by
  rw [Dev.csr, runs]
  exact if_pos priv

theorem Dev.csrRead_eq {d : Dev} {t : Thread} {rd : BitVec 5} {imm : BitVec 16} {r : RegRef}
    (reg : barReg (8 * imm.toNat) = some r) :
    d.csrRead t rd imm = d.withThread (t.wrote rd (BitVec.ofNat 64 (d.readReg .exec r))) := by
  rw [Dev.csrRead, csrReg, reg, Dev.setThread_put]
  rfl

theorem Dev.csrWrite_eq (d : Dev) (t : Thread) (rd : BitVec 5) (imm : BitVec 16) :
    d.csrWrite t rd imm = (d.withThread t.passed).registerWrite ⟨.exec, .full, t.word rd⟩ (8 * imm.toNat) := by
  have value : BitVec.ofNat 64 (t.reg rd.toNat) = t.word rd := by
    rw [Thread.reg_toNat, BitVec.ofNat_toNat, BitVec.setWidth_eq]
  rw [Dev.csrWrite, value, Dev.setThread_eq, Thread.step_eq]

/-! ### Stages -/

/-- Changing the element at an index. -/
theorem map_zipIdx_eq_modify {α : Type} (l : List α) (n : Nat) (f : α → α) :
    (l.zipIdx.map fun x => if x.2 = n then f x.1 else x.1) = l.modify n f := by
  apply List.ext_getElem
  · simp
  · intro i _ _
    simp [List.getElem_modify, eq_comm]

theorem Dev.runIns_krd (d : Dev) (t : Thread) (rd ra rb : BitVec 5) : d.runIns t (.krd rd ra rb) =
    if d.stageCount t ≤ (t.word ra).toNat ∨ 64 ≤ (t.word rb).toNat then d.threadFault t ⟨0x43, 0⟩
    else d.withThread (t.wrote rd (((d.instOf t).bind fun i => i.stages[(t.word ra).toNat]?).elim 0 fun st =>
      st.k.getD (t.word rb).toNat 0)) := by
  simp only [Dev.runIns, Dev.ctlKrd, Thread.reg_toNat, Dev.setThread_put]
  cases (d.instOf t).bind fun i => i.stages[(t.word ra).toNat]? with
  | none => rfl
  | some st => simp only [Option.map_some, Option.getD_some, kReg, BitVec.ofNat_toNat, BitVec.setWidth_eq, Option.elim]

theorem Dev.runIns_kwr_fault {d : Dev} {t : Thread} (rd : BitVec 5) {ra rb : BitVec 5}
    (bad : (t.word ra).toNat ≤ t.stage ∨ d.stageCount t ≤ (t.word ra).toNat ∨ 64 ≤ (t.word rb).toNat) :
    d.runIns t (.kwr rd ra rb) = d.threadFault t ⟨0x43, 0⟩ := by
  simp only [Dev.runIns, Dev.ctlKwr, Thread.reg_toNat]
  exact if_pos bad

theorem Dev.runIns_kwr {d : Dev} {t : Thread} {i : Inst} (rd : BitVec 5) {ra rb : BitVec 5}
    (ok : ¬((t.word ra).toNat ≤ t.stage ∨ d.stageCount t ≤ (t.word ra).toNat ∨ 64 ≤ (t.word rb).toNat))
    (inst : d.instOf t = some i) :
    d.runIns t (.kwr rd ra rb) = (d.setInst { i with stages := i.stages.modify (t.word ra).toNat fun st =>
      { st with kPend := st.kPend ++ [((t.word rb).toNat, t.word rd)] } }).withThread t.passed := by
  rw [← map_zipIdx_eq_modify]
  simp only [Dev.runIns, Dev.ctlKwr, Thread.reg_toNat, if_neg ok, inst, BitVec.ofNat_toNat,
    BitVec.setWidth_eq, Dev.setThread_eq, Thread.step_eq]

theorem Dev.runIns_resume {d : Dev} {t : Thread} {i : Inst} (inst : d.instOf t = some i) : d.runIns t .resume =
    (d.setInst { i with stages := i.stages.modify t.stage fun st => { st with heldBlk := false } }).withThread
      t.passed := by
  rw [← map_zipIdx_eq_modify]
  simp only [Dev.runIns, Dev.ctlResume, inst, Dev.setThread_eq, Thread.step_eq]

/-! ### Numbers out of range -/

theorem Dev.runIns_sleep_fault {d : Dev} {t : Thread} {ra : BitVec 5} (long : 2 ^ 31 ≤ (t.word ra).toNat) :
    d.runIns t (.sleep ra) = d.threadFault t ⟨0x43, 0⟩ := by
  have some_ticks : (t.word ra).toNat ≠ 0 := Nat.ne_of_gt ((by decide : 0 < 2 ^ 31).trans_le long)
  simp only [Dev.runIns, Dev.ctlSleep, Thread.reg_toNat, if_neg some_ticks]
  exact if_pos long

theorem Dev.runIns_lockOp_fault {d : Dev} {t : Thread} {ra : BitVec 5} (k : Fin 4) (rd : BitVec 5)
    (out : (if t.priv then 256 else 16) ≤ (t.word ra).toNat) :
    d.runIns t (.lockOp k rd ra) = d.threadFault t ⟨0x43, 0⟩ := by
  have bad : t.lockOk (t.word ra).toNat = false := decide_eq_false (Nat.not_lt.mpr out)
  simp only [Dev.runIns, Dev.ctlLockOp, Thread.reg_toNat, bad, Bool.not_false, if_true]

/-- Settles O9: what each instruction does where its numbers are in range, and the fault where one is not. -/
theorem controlRegisterAndStageAccess : Obligations.ControlRegisterAndStageAccess := by
  refine ⟨fun s f t clocked unused runs priv => ⟨fun r reg => ?csrr, ?csrw⟩,
    ⟨fun s f t clocked stage k runs => ?krd, fun s f t i clocked after stage k runs inst => ?kwr,
      fun s core t i clocked runs inst => ?resume⟩,
    fun s f t clocked => ⟨fun runs bad => ?krdFault, fun runs bad => ?kwrFault, fun runs hd hb long => ?sleepFault,
      fun hb out => ⟨fun runs => ?lock, fun runs => ?trylock, fun runs => ?unlock, fun runs => ?clrpoison⟩⟩⟩
  case csrr =>
    exact .of_act (exec_legal (exec_ctlCsrr f s) (iNoRa_of unused)) clocked
      ((Dev.csr_priv runs priv _).trans (Dev.csrRead_eq reg))
  case csrw =>
    exact .of_act (exec_legal (exec_ctlCsrw f s) (iNoRa_of unused)) clocked
      ((Dev.csr_priv runs priv _).trans (Dev.csrWrite_eq _ _ _ _))
  case krd =>
    refine gives_ctl (exec_ctlKrd f s) clocked runs ?_
    rw [Dev.runIns_krd, if_neg (by omega)]
  case kwr => exact gives_ctl (exec_ctlKwr f s) clocked runs (Dev.runIns_kwr _ (by omega) inst)
  case resume => exact gives_ctl (exec_ctlResume core s) clocked runs (Dev.runIns_resume inst)
  case krdFault =>
    refine gives_ctl (exec_ctlKrd f s) clocked runs ?_
    rw [Dev.runIns_krd, if_pos bad]
  case kwrFault => exact gives_ctl (exec_ctlKwr f s) clocked runs (Dev.runIns_kwr_fault _ bad)
  case sleepFault =>
    exact gives_ctl (exec_legal (exec_ctlSleep f s) (noRd_noRb_of hd hb)) clocked runs (Dev.runIns_sleep_fault long)
  case lock =>
    exact gives_ctl (exec_legal (exec_ctlLock f s) (noRb_of hb)) clocked runs (Dev.runIns_lockOp_fault _ _ out)
  case trylock =>
    exact gives_ctl (exec_legal (exec_ctlTrylock f s) (noRb_of hb)) clocked runs (Dev.runIns_lockOp_fault _ _ out)
  case unlock =>
    exact gives_ctl (exec_legal (exec_ctlUnlock f s) (noRb_of hb)) clocked runs (Dev.runIns_lockOp_fault _ _ out)
  case clrpoison =>
    exact gives_ctl (exec_legal (exec_ctlClrpoison f s) (noRb_of hb)) clocked runs (Dev.runIns_lockOp_fault _ _ out)

end Sys2Proof.Machine

/-! The scheduler operations of control code (R390, R394, R397, R398). -/

namespace Sys2Proof.Machine

/-! ### Threads and cores -/

theorem Dev.onThread_withThread (d : Dev) (t : Thread) (f : Thread → Thread) :
    (d.withThread t).onThread t.slot f = { d with threads := d.threads.map fun u =>
      if u.slot = t.slot then (f t) else u } := by
  simp only [Dev.onThread, Dev.withThread, mapIf, List.map_map]
  congr 1
  refine List.map_congr_left fun u _ => ?_
  by_cases same : u.slot = t.slot
  · simp [same]
  · simp [same]

/-- A thread that is put back and then changed. -/
theorem Dev.onThread_withThread_same (d : Dev) (t : Thread) {f : Thread → Thread} (slot : (f t).slot = t.slot) :
    (d.withThread t).onThread t.slot f = d.withThread (f t) := by
  rw [Dev.onThread_withThread, Dev.withThread, slot]

theorem Dev.offCore_eq (d : Dev) (t : Thread) :
    d.offCore t = ({ d with cores := d.coresWithout t.slot } : Dev).withThread t := by
  simp only [Dev.offCore, Dev.setThread_eq, Dev.coresWithout, mapIf, beq_iff_eq]
  rfl

theorem bne_eq_decide_ne (x n : Nat) : (x != n) = decide (x ≠ n) := by
  rw [Bool.eq_iff_iff, bne_iff_ne, decide_eq_true_iff]

theorem filter_bne_eq (l : List Nat) (n : Nat) : l.filter (· != n) = l.filter fun x => x ≠ n :=
  List.filter_congr fun x _ => bne_eq_decide_ne x n

/-- A thread that leaves its core and is made ready again. -/
theorem Dev.ctlYield_eq (d : Dev) (t : Thread) : d.ctlYield t = d.requeues t := by
  rw [Dev.ctlYield, Dev.offCore_eq, Dev.makeReady, Dev.onThread_withThread_same _ _ rfl, Dev.requeues, filter_bne_eq]
  rfl

theorem Dev.offCore_schedule (d : Dev) (t : Thread) : (d.offCore t).schedule = d.parks t := by
  rw [Dev.offCore_eq, Dev.parks]

/-! ### EXIT -/

/-- Where no thread is stalled, none is spawned. -/
theorem Dev.retrySpawns_none {d : Dev} (none_stalled : ∀ u ∈ d.threads, u.st ≠ .stalled) : d.retrySpawns = d := by
  have same (slot : Nat) : d.retrySpawn slot = d := by
    unfold Dev.retrySpawn
    split
    · rfl
    · next u found => exact if_pos (none_stalled u (List.mem_of_find?_eq_some found))
  unfold Dev.retrySpawns
  exact List.foldlRecOn (motive := fun e => e = d) (List.range 1024) _ rfl fun e h slot _ => by rw [h, same]

theorem Dev.locksOf_none {d : Dev} {slot : Nat} (free : ∀ l ∈ d.locks, ¬(l.held = true ∧ l.owner = slot)) :
    d.locksOf slot = [] := by
  rw [Dev.locksOf, List.map_eq_nil_iff, List.filter_eq_nil_iff]
  intro l mem
  rw [Bool.and_eq_true, beq_iff_eq]
  exact free l mem

theorem filter_ne_option (o : Option Nat) (n : Nat) :
    o.filter (fun x => decide (x ≠ n)) = if o = some n then none else o := by
  cases o with
  | none => rfl
  | some m =>
    by_cases h : m = n
    · simp [h]
    · simp [h, Option.filter]

/-- The end of a thread that holds no lock, while none is stalled. -/
theorem Dev.endThread_free {d : Dev} {slot : Nat} (free : ∀ l ∈ d.locks, ¬(l.held = true ∧ l.owner = slot))
    (none_stalled : ∀ u ∈ d.threads, u.st ≠ .stalled) (poison : Bool) : d.endThread slot poison = { d with
      threads := d.threads.filter fun u => u.slot ≠ slot,
      ready := d.ready.filter fun x => x ≠ slot,
      cores := d.cores.map fun c =>
        { c with cur := if c.cur = some slot then none else c.cur,
                 next := if c.next = some slot then none else c.next },
      locks := d.locks.map fun l => { l with waiters := l.waiters.filter fun x => x ≠ slot } } := by
  unfold Dev.endThread
  simp only [Dev.locksOf_none free, List.foldl_nil, bne_eq_decide_ne, filter_ne_option]
  rw [Dev.retrySpawns_none]
  intro u mem
  exact none_stalled u (List.mem_of_mem_filter mem)

/-! ### SLEEP and WAIT -/

theorem Dev.runIns_sleep_zero {d : Dev} {t : Thread} {ra : BitVec 5} (zero : t.word ra = 0) :
    d.runIns t (.sleep ra) = d.requeues t.passed := by
  rw [← Dev.ctlYield_eq, ← Thread.step_eq]
  simp only [Dev.runIns, Dev.ctlSleep, Thread.reg_toNat, zero]
  rfl

theorem Dev.runIns_sleep {d : Dev} {t : Thread} {ra : BitVec 5} (pos : 0 < (t.word ra).toNat)
    (short : (t.word ra).toNat < 2 ^ 31) : d.runIns t (.sleep ra) = d.parks { t.passed with
      st := .delayed, expiry := (d.get F.CTL_SCHED_STATUS_TICKS + (t.word ra).toNat) % 2 ^ 32 } := by
  rw [← Dev.offCore_schedule, ← Thread.step_eq]
  simp only [Dev.runIns, Dev.ctlSleep, Thread.reg_toNat, if_neg pos.ne', if_neg (Nat.not_le.mpr short)]

theorem Thread.ofNat_reg (t : Thread) (r : BitVec 5) : BitVec.ofNat 64 (t.reg r.toNat) = t.word r := by
  rw [Thread.reg_toNat, BitVec.ofNat_toNat, BitVec.setWidth_eq]

theorem Dev.runIns_wait_parks {d : Dev} {t : Thread} {ra : BitVec 5} (rd : BitVec 5)
    (quiet : t.event &&& t.word ra = 0) :
    d.runIns t (.wait rd ra) = d.parks { t.passed with st := .waiting, dest := rd.toNat, mask := t.word ra } := by
  rw [← Dev.offCore_schedule, ← Thread.step_eq]
  simp only [Dev.runIns, Dev.ctlWait, Thread.ofNat_reg, if_neg (not_not_intro quiet)]

theorem Dev.runIns_wait_takes {d : Dev} {t : Thread} {ra : BitVec 5} (rd : BitVec 5)
    (seen : t.event &&& t.word ra ≠ 0) :
    d.runIns t (.wait rd ra) = d.withThread { t.wrote rd (t.event &&& t.word ra) with
      event := t.event &&& ~~~t.word ra, mask := 0, dest := 0 } := by
  have taken : (t.takeEvent rd.toNat (t.word ra)).step = { t.wrote rd (t.event &&& t.word ra) with
      event := t.event &&& ~~~t.word ra, mask := 0, dest := 0 } := by
    rw [Thread.takeEvent, Thread.setReg_word, Thread.step_eq, BitVec.ofNat_toNat, BitVec.setWidth_eq]
    rfl
  rw [← taken, ← Dev.setThread_eq]
  simp only [Dev.runIns, Dev.ctlWait, Thread.ofNat_reg, if_pos seen]

/-! ### POST -/

/-- Another thread is found as before. -/
theorem Dev.thread_withThread_ne {d : Dev} {t : Thread} {slot : Nat} (other : slot ≠ t.slot) :
    (d.withThread t).thread slot = d.thread slot := by
  unfold Dev.thread Dev.withThread
  induction d.threads with
  | nil => rfl
  | cons u us ih =>
    by_cases replaced : u.slot = t.slot
    · have skip : u.slot ≠ slot := fun h => other (h.symm.trans replaced)
      simpa [List.find?_cons, replaced, Ne.symm other, skip] using ih
    · simp only [List.map_cons, if_neg replaced, List.find?_cons, ih]

theorem Dev.runIns_post_none {d : Dev} {t : Thread} {ra : BitVec 5} (rd rb : BitVec 5)
    (nobody : d.numbered t (t.word ra) = none) : d.runIns t (.post rd ra rb) = d.withThread (t.wrote rd 1) := by
  have nobody : d.threads.find? (fun u => t.kin u && u.number == (t.word ra).toNat) = none := nobody
  simp only [Dev.runIns, Dev.ctlPost, Thread.reg_toNat, nobody, Dev.setThread_put]
  rfl

/-- POST to another thread of the run: the event reaches it once RD is written. -/
theorem Dev.runIns_post {d : Dev} {t u : Thread} {ra : BitVec 5} (rd rb : BitVec 5)
    (target : d.numbered t (t.word ra) = some u) (other : u.slot ≠ t.slot) (live : d.thread u.slot = some u) :
    d.runIns t (.post rd ra rb) = ((d.withThread (t.wrote rd 0)).postTo u (t.word rb)).schedule := by
  have target : d.threads.find? (fun u => t.kin u && u.number == (t.word ra).toNat) = some u := target
  have found : (d.withThread (t.wrote rd 0)).thread u.slot = some u :=
    (Dev.thread_withThread_ne (t := t.wrote rd 0) other).trans live
  have bits : BitVec.ofNat 64 (t.reg rb.toNat) = t.word rb := t.ofNat_reg rb
  simp only [Dev.runIns, Dev.ctlPost, bits, Thread.reg_toNat t ra, target, Dev.setThread_put]
  rw [show BitVec.ofNat 64 0 = 0 from rfl, found]

section
variable {d : Dev} {u : Thread} {bits : Word}

theorem Dev.postTo_keeps (not_due : ¬(u.st = .waiting ∧ (u.event ||| bits) &&& u.mask ≠ 0)) :
    d.postTo u bits = d.withThread { u with event := u.event ||| bits } := by
  rw [← Dev.setThread_eq]
  exact if_neg not_due

theorem Dev.postTo_wakes (waits : u.st = .waiting) (due : (u.event ||| bits) &&& u.mask ≠ 0) :
    d.postTo u bits = (d.withThread { u.setReg u.dest ((u.event ||| bits) &&& u.mask).toNat with
      event := (u.event ||| bits) &&& ~~~u.mask, mask := 0, dest := 0 }).makeReady u.slot := by
  have taken : ({ u with event := u.event ||| bits } : Thread).takeEvent u.dest u.mask =
      { u.setReg u.dest ((u.event ||| bits) &&& u.mask).toNat with
        event := (u.event ||| bits) &&& ~~~u.mask, mask := 0, dest := 0 } := by
    unfold Thread.takeEvent Thread.setReg
    split <;> rfl
  rw [← taken, ← Dev.setThread_eq]
  exact if_pos ⟨waits, due⟩

end

/-! ### SPAWN -/

/-- The lowest number that no thread of the run holds. -/
theorem Dev.freeNumber_eq {d : Dev} {t : Thread} {n : Nat} (inRange : n < 1024)
    (free : ∀ u ∈ d.threads, t.kin u = true → u.number ≠ n)
    (lowest : ∀ m < n, ∃ u ∈ d.threads, t.kin u = true ∧ u.number = m) : d.freeNumber t = n := by
  have found : (List.range 1024).find? (fun n => !d.threads.any fun u => t.kin u && u.number == n) = some n := by
    rw [List.find?_range_eq_some]
    refine ⟨?_, List.mem_range.mpr inRange, fun m less => ?_⟩
    · simpa using free
    · simpa using lowest m less
  rw [Dev.freeNumber, found, Option.getD_some]

theorem Dev.freeNumber_congr (d : Dev) {t u : Thread} (same : t.kin = u.kin) : d.freeNumber t = d.freeNumber u := by
  rw [Dev.freeNumber, Dev.freeNumber, same]

theorem Dev.freeThreadSlot_free {d : Dev} {pod slot : Nat} {priv : Bool}
    (free : d.freeThreadSlot pod priv = some slot) : ∀ u ∈ d.threads, u.slot ≠ slot := by
  unfold Dev.freeThreadSlot at free
  split at free
  · cases free
  · have empty := List.find?_some free
    simpa [Dev.thread] using empty

/-- The thread that a SPAWN makes: what it takes of its parent, the entry, and G1. -/
def Thread.spawned (t : Thread) (slot n : Nat) (entry g1 : Word) : Thread :=
  { t with slot := slot, number := n, st := .ready, pc := 4 * entry.toNat, g := (List.replicate 32 0).set 1 g1,
           event := 0, dest := 0, mask := 0, expiry := 0, lockwait := 0 }

/-- The same before it has its number and G1. -/
def Thread.blank (t : Thread) (slot : Nat) (entry : Word) : Thread :=
  { t with slot := slot, number := 0, st := .ready, pc := 4 * entry.toNat, g := List.replicate 32 0, event := 0,
           dest := 0, mask := 0, expiry := 0, lockwait := 0 }

/-- Making a thread ready that has just been put into a free slot as a ready one only lists it. -/
theorem Dev.makeReady_added {d : Dev} {t : Thread} (ready : t.st = .ready) (nothing : t.lockwait = 0)
    (free : ∀ u ∈ d.threads, u.slot ≠ t.slot) : ({ d with threads := d.threads ++ [t] } : Dev).makeReady t.slot =
      { d with ready := (d.ready.filter fun x => x ≠ t.slot) ++ [t.slot], threads := d.threads ++ [t] } := by
  have others : (d.threads.map fun u => if (u.slot == t.slot) = true then { u with st := .ready, lockwait := 0 } else u) =
      d.threads :=
    (List.map_congr_left (g := id) fun u mem => if_neg (by simpa using free u mem)).trans d.threads.map_id
  have itself : ({ t with st := .ready, lockwait := 0 } : Thread) = t := by
    rw [← ready, ← nothing]
  simp only [Dev.makeReady, Dev.onThread, mapIf, List.map_append, others, List.map_cons, List.map_nil, BEq.rfl, if_true,
    itself, filter_bne_eq]

theorem Dev.spawn_child {d : Dev} {t : Thread} {slot n : Nat} (entry g1 : Word)
    (free : d.freeThreadSlot t.pod t.priv = some slot) (number : d.freeNumber t = n) :
    d.spawn (t.child entry.toNat g1.toNat) = some (n, { d with
      ready := (d.ready.filter fun x => x ≠ slot) ++ [slot],
      threads := d.threads ++ [t.spawned slot n entry g1] }) := by
  have g1_word : BitVec.ofNat 64 g1.toNat = g1 := by rw [BitVec.ofNat_toNat, BitVec.setWidth_eq]
  have number : d.freeNumber (t.blank slot entry) = n := (Dev.freeNumber_congr d rfl).trans number
  have made : ({ t.blank slot entry with number := n } : Thread).setReg 1 g1.toNat = t.spawned slot n entry g1 := by
    simp only [Thread.setReg, g1_word]
    rfl
  have spawns : d.spawn (t.child entry.toNat g1.toNat) =
      let u := { t.blank slot entry with number := d.freeNumber (t.blank slot entry) }.setReg 1 g1.toNat
      some (u.number, ({ d with threads := d.threads ++ [u] } : Dev).makeReady slot) := by
    have free : d.freeThreadSlot (t.child entry.toNat g1.toNat).pod (t.child entry.toNat g1.toNat).priv = some slot :=
      free
    rw [Dev.spawn, free]
    rfl
  rw [spawns, number, made]
  exact congrArg (fun e => some (n, e))
    (Dev.makeReady_added (t := t.spawned slot n entry g1) rfl rfl (Dev.freeThreadSlot_free free))

theorem Dev.runIns_spawn {d : Dev} {t : Thread} {ra rb : BitVec 5} {slot n : Nat} (rd : BitVec 5)
    (free : d.freeThreadSlot t.pod t.priv = some slot) (number : d.freeNumber t = n) :
    d.runIns t (.spawn rd ra rb) = (({ d with
      ready := (d.ready.filter fun x => x ≠ slot) ++ [slot],
      threads := d.threads ++ [t.spawned slot n (t.word ra) (t.word rb)] } : Dev).withThread
        (t.wrote rd (BitVec.ofNat 64 n))).schedule := by
  simp only [Dev.runIns, Dev.ctlSpawn, Thread.reg_toNat, Dev.spawn_child _ _ free number, Dev.setThread_put]

theorem Dev.runIns_spawn_stalls {d : Dev} {t : Thread} (rd ra rb : BitVec 5)
    (full : d.freeThreadSlot t.pod t.priv = none) :
    d.runIns t (.spawn rd ra rb) = ((({ d with cores := d.coresWithout t.slot } : Dev).withThread
      { t.passed with st := .stalled, dest := rd.toNat, mask := t.word ra, expiry := (t.word rb).toNat }).count
        .CTL_SCHED_STALL 1).schedule := by
  have none : d.spawn (t.child (t.word ra).toNat (t.word rb).toNat) = none := by
    rw [Dev.spawn]
    exact congrArg (Option.map _) full
  simp only [Dev.runIns, Dev.ctlSpawn, Thread.reg_toNat, none, Dev.countStall, Dev.offCore_eq, Thread.step_eq,
    BitVec.ofNat_toNat, BitVec.setWidth_eq]
  rfl

/-! ### SETPRI, SELF and NOW -/

theorem Dev.runIns_setpri (d : Dev) (t : Thread) (rd ra : BitVec 5) : d.runIns t (.setpri rd ra) =
    (d.withThread { t.wrote rd (BitVec.ofNat 64 t.prio) with
      prio := if t.priv then (t.word ra).toNat % 32 else max 8 (min 31 (t.word ra).toNat) }).schedule := by
  simp only [Dev.runIns, Dev.ctlSetpri, Thread.reg_toNat, Dev.setThread_eq, Thread.put_eq]

/-- Settles O10: one equation for each operation and case. -/
theorem schedulerOperations : Obligations.SchedulerOperations := by
  refine ⟨⟨fun s core t clocked runs free none_stalled => ?exit, fun s core t clocked runs => ?yieldcpu,
      fun s f t clocked hd hb runs => ⟨fun zero => ?sleepZero, fun pos short => ?sleep⟩,
      fun s f t clocked hb runs => ⟨fun seen => ?waitTakes, fun quiet => ?waitParks⟩⟩,
    fun s f t clocked runs nobody => ?postNone,
    fun s f t u clocked runs target other live => ⟨fun not_due => ?postKeeps, fun waits due => ?postWakes⟩,
    fun s f t clocked runs => ⟨fun slot n free inRange unused lowest => ?spawn, fun full => ?spawnStalls⟩,
    fun s f t clocked hb runs => ?setpri, fun s f t clocked ha hb => ⟨fun runs => ?self, fun runs => ?now⟩⟩
  case exit =>
    refine gives_ctl (exec_ctlExit core s) clocked runs ?_
    rw [Dev.runIns, Dev.endThread_free free none_stalled]
  case yieldcpu =>
    refine gives_ctl (exec_ctlYieldcpu core s) clocked runs ?_
    rw [Dev.runIns, Dev.ctlYield_eq, Thread.step_eq]
  case sleepZero =>
    exact gives_ctl (exec_legal (exec_ctlSleep f s) (noRd_noRb_of hd hb)) clocked runs (Dev.runIns_sleep_zero zero)
  case sleep =>
    exact gives_ctl (exec_legal (exec_ctlSleep f s) (noRd_noRb_of hd hb)) clocked runs (Dev.runIns_sleep pos short)
  case waitTakes =>
    exact gives_ctl (exec_legal (exec_ctlWait f s) (noRb_of hb)) clocked runs (Dev.runIns_wait_takes _ seen)
  case waitParks =>
    exact gives_ctl (exec_legal (exec_ctlWait f s) (noRb_of hb)) clocked runs (Dev.runIns_wait_parks _ quiet)
  case postNone => exact gives_ctl (exec_ctlPost f s) clocked runs (Dev.runIns_post_none _ _ nobody)
  case postKeeps =>
    refine gives_ctl (exec_ctlPost f s) clocked runs ?_
    rw [Dev.runIns_post _ _ target other live, Dev.postTo_keeps not_due]
  case postWakes =>
    refine gives_ctl (exec_ctlPost f s) clocked runs ?_
    rw [Dev.runIns_post _ _ target other live, Dev.postTo_wakes waits due]
  case spawn =>
    exact gives_ctl (exec_ctlSpawn f s) clocked runs
      (Dev.runIns_spawn _ free (Dev.freeNumber_eq inRange unused lowest))
  case spawnStalls => exact gives_ctl (exec_ctlSpawn f s) clocked runs (Dev.runIns_spawn_stalls _ _ _ full)
  case setpri => exact gives_ctl (exec_legal (exec_ctlSetpri f s) (noRb_of hb)) clocked runs (Dev.runIns_setpri _ _ _ _)
  case self =>
    exact gives_ctl (exec_legal (exec_ctlSelf f s) (noRa_noRb_of ha hb)) clocked runs (Dev.setThread_put _ _ _ _)
  case now =>
    exact gives_ctl (exec_legal (exec_ctlNow f s) (noRa_noRb_of ha hb)) clocked runs (Dev.setThread_put _ _ _ _)

end Sys2Proof.Machine

/-! The operations on hardware locks (R399 to R401). -/

namespace Sys2Proof.Machine

/-- Locks and threads are changed apart. -/
theorem Dev.setLock_withThread (d : Dev) (t : Thread) (l : HLock) :
    (d.withThread t).setLock l = (d.setLock l).withThread t := by
  unfold Dev.setLock
  split <;> rfl

theorem Dev.blockOn_withThread (d : Dev) (t : Thread) (l : HLock) (dest : Nat) :
    (d.withThread t).blockOn l t.slot dest = (d.setLock { l with waiters := l.waiters ++ [t.slot] }).withThread
      { t with st := .blocked, lockwait := l.id, dest := dest } := by
  rw [Dev.blockOn, Dev.setLock_withThread, Dev.onThread_withThread_same _ _ rfl]

theorem HLock.ofNat_status (l : HLock) : BitVec.ofNat 64 l.status = if l.poison then 1 else 0 := by
  unfold HLock.status
  cases l.poison <;> rfl

/-- The lock with its new owner, who no longer waits for it. -/
theorem Dev.grantLock_eq (d : Dev) (l : HLock) (slot : Nat) : d.grantLock l slot =
    d.setLock { l with held := true, owner := slot, waiters := l.waiters.filter fun x => x ≠ slot } := by
  rw [Dev.grantLock, filter_bne_eq]

/-- The threads of other slots are those that were there. -/
theorem Dev.otherThreads_withThread (d : Dev) (t : Thread) :
    (d.withThread t).threads.filter (fun u => u.slot ≠ t.slot) = d.threads.filter fun u => u.slot ≠ t.slot := by
  unfold Dev.withThread
  induction d.threads with
  | nil => rfl
  | cons u us ih =>
    by_cases same : u.slot = t.slot
    · simpa [same] using ih
    · simpa [same] using ih

section
variable {d : Dev} {t : Thread} {ra : BitVec 5} (ok : t.lockOk (t.word ra).toNat = true) (rd : BitVec 5)
include ok

theorem Dev.runIns_lock : d.runIns t (.lockOp 0 rd ra) = d.ctlLock t rd (t.word ra).toNat := by
  simp only [Dev.runIns, Dev.ctlLockOp, Thread.reg_toNat, ok, Bool.not_true, Bool.false_eq_true, if_false]
  rfl

theorem Dev.runIns_trylock : d.runIns t (.lockOp 1 rd ra) = d.ctlTrylock t rd (t.word ra).toNat := by
  simp only [Dev.runIns, Dev.ctlLockOp, Thread.reg_toNat, ok, Bool.not_true, Bool.false_eq_true, if_false]
  rfl

theorem Dev.runIns_unlock : d.runIns t (.lockOp 2 rd ra) = d.ctlUnlock t rd (t.word ra).toNat := by
  simp only [Dev.runIns, Dev.ctlLockOp, Thread.reg_toNat, ok, Bool.not_true, Bool.false_eq_true, if_false]
  rfl

theorem Dev.runIns_clrpoison : d.runIns t (.lockOp 3 rd ra) = d.ctlClrpoison t rd (t.word ra).toNat := by
  simp only [Dev.runIns, Dev.ctlLockOp, Thread.reg_toNat, ok, Bool.not_true, Bool.false_eq_true, if_false]

end

/-! ### LOCK and TRYLOCK -/

section
variable {d e : Dev} {t : Thread} {n : Nat} {l : HLock} (rd : BitVec 5)

theorem Dev.ctlLock_free (found : d.lockFor t n = some (l, e)) (free : l.held = false) :
    d.ctlLock t rd n = (e.grantLock l t.slot).withThread (t.wrote rd (if l.poison then 1 else 0)) := by
  rw [← HLock.ofNat_status, ← Dev.setThread_put, Dev.ctlLock, found]
  exact if_neg (by simp [free])

theorem Dev.ctlLock_held (found : d.lockFor t n = some (l, e)) (held : l.held = true) :
    d.ctlLock t rd n = (({ e with cores := e.coresWithout t.slot }.setLock
      { l with waiters := l.waiters ++ [t.slot] }).withThread
        { t.passed with st := .blocked, lockwait := l.id, dest := rd.toNat }).schedule := by
  have parked := Dev.blockOn_withThread { e with cores := e.coresWithout t.slot } t.passed l rd.toNat
  rw [Dev.ctlLock, found]
  refine (if_pos held).trans (congrArg Dev.schedule ?_)
  rw [Thread.step_eq, Dev.offCore_eq]
  exact parked

theorem Dev.ctlLock_none (empty : d.lockFor t n = none) : d.ctlLock t rd n = ({ d with
    cores := d.coresWithout t.slot,
    threads := (d.threads.filter fun u => u.slot ≠ t.slot) ++ [{ t.passed with
      st := .blocked, lockwait := 256, dest := rd.toNat, mask := BitVec.ofNat 64 n }] } : Dev).schedule := by
  have others := Dev.otherThreads_withThread { d with cores := d.coresWithout t.slot } { t.passed with
    st := .blocked, lockwait := 256, dest := rd.toNat, mask := BitVec.ofNat 64 n }
  rw [Dev.ctlLock, empty]
  simp only [Dev.offCore_eq, Thread.step_eq, bne_eq_decide_ne]
  exact congrArg (fun us => ({ d with
    cores := d.coresWithout t.slot,
    threads := us ++ [{ t.passed with
      st := .blocked, lockwait := 256, dest := rd.toNat, mask := BitVec.ofNat 64 n }] } : Dev).schedule) others

theorem Dev.ctlTrylock_free (found : d.lockFor t n = some (l, e)) (free : l.held = false) :
    d.ctlTrylock t rd n = (e.grantLock l t.slot).withThread (t.wrote rd (if l.poison then 1 else 0)) := by
  rw [← HLock.ofNat_status, ← Dev.setThread_put, Dev.ctlTrylock, found]
  exact if_neg (by simp [free])

theorem Dev.ctlTrylock_held (found : d.lockFor t n = some (l, e)) (held : l.held = true) :
    d.ctlTrylock t rd n = e.withThread (t.wrote rd 2) := by
  rw [Dev.ctlTrylock, found]
  exact (if_pos held).trans (Dev.setThread_put _ _ _ _)

theorem Dev.ctlTrylock_none (empty : d.lockFor t n = none) :
    d.ctlTrylock t rd n = d.withThread (t.wrote rd 2) := by
  rw [Dev.ctlTrylock, empty]
  exact Dev.setThread_put _ _ _ _

end

/-! ### UNLOCK and CLRPOISON -/

/-- The lock that a number names and its thread holds. -/
theorem Dev.lockNow_mine {d : Dev} {t : Thread} {n : Nat} {l : HLock} (found : d.lockNow t n = some l)
    (held : l.held = true) (mine : l.owner = t.slot) :
    (d.lockNow t n).filter (fun l => l.held && l.owner == t.slot) = some l := by
  rw [found, Option.filter_some_pos]
  rw [held, mine, BEq.rfl, Bool.and_self]

theorem Dev.lockNow_others {d : Dev} {t : Thread} {n : Nat}
    (others : ∀ l, d.lockNow t n = some l → ¬(l.held = true ∧ l.owner = t.slot)) :
    (d.lockNow t n).filter (fun l => l.held && l.owner == t.slot) = none := by
  rw [Option.filter_eq_none_iff]
  simpa using others

section
variable {d : Dev} {id : Nat} {l : HLock} (listed : d.lock id = some l) (nobody : l.waiters = [])
include listed nobody

/-- A poisoned lock that nobody waits for stays poisoned. -/
theorem Dev.releaseLock_poisoned (poison : l.poison = true) (p : Bool) :
    d.releaseLock id p = d.setLock { l with held := false, owner := 0 } := by
  unfold Dev.releaseLock
  rw [listed]
  simp only [nobody, poison, Bool.true_or, if_true, Dev.nextWaiter, List.filterMap_nil, bestThread]

/-- A lock that nobody waits for, and no thread the pool, is listed no more. -/
theorem Dev.releaseLock_clean (poison : l.poison = false)
    (pool : ∀ u ∈ d.threads, ¬(u.st = .blocked ∧ u.lockwait = 256)) :
    d.releaseLock id false = { d with locks := d.locks.filter fun x => x.id ≠ id } := by
  have unlisted : d.setLock (HLock.idle id) = { d with locks := d.locks.filter fun x => x.id ≠ id } := by
    simp only [Dev.setLock, HLock.idle, bne_eq_decide_ne]
    rfl
  have waiting : (d.threads.filter fun t => t.st == .blocked && t.lockwait == poolWait) = [] := by
    rw [List.filter_eq_nil_iff]
    intro u mem
    rw [Bool.and_eq_true, beq_iff_eq, beq_iff_eq]
    exact pool u mem
  unfold Dev.releaseLock
  rw [listed]
  simp only [nobody, poison, Bool.or_false, Dev.nextWaiter, List.filterMap_nil, bestThread, unlisted, Dev.servePool,
    waiting]
  rfl

end

section
variable {d : Dev} {t : Thread} {n : Nat} {l : HLock} (rd : BitVec 5)

theorem Dev.ctlUnlock_mine (found : d.lockNow t n = some l) (held : l.held = true) (mine : l.owner = t.slot) :
    d.ctlUnlock t rd n = ((d.withThread (t.wrote rd 0)).releaseLock l.id false).schedule := by
  rw [Dev.ctlUnlock, Dev.lockNow_mine found held mine]
  simp only [Dev.setThread_put]
  rfl

theorem Dev.ctlClrpoison_mine (found : d.lockNow t n = some l) (held : l.held = true) (mine : l.owner = t.slot) :
    d.ctlClrpoison t rd n = (d.setLock { l with poison := false }).withThread (t.wrote rd 0) := by
  rw [Dev.ctlClrpoison, Dev.lockNow_mine found held mine]
  exact Dev.setThread_put _ _ _ _

variable (others : ∀ l, d.lockNow t n = some l → ¬(l.held = true ∧ l.owner = t.slot))
include others

theorem Dev.ctlUnlock_others : d.ctlUnlock t rd n = d.withThread (t.wrote rd 3) := by
  rw [Dev.ctlUnlock, Dev.lockNow_others others]
  exact Dev.setThread_put _ _ _ _

theorem Dev.ctlClrpoison_others : d.ctlClrpoison t rd n = d.withThread (t.wrote rd 3) := by
  rw [Dev.ctlClrpoison, Dev.lockNow_others others]
  exact Dev.setThread_put _ _ _ _

end

/-- The thread that a core runs is one of the device's. -/
theorem Dev.running_mem {d : Dev} {core : Nat} {t : Thread} (runs : d.running core = some t) : t ∈ d.threads := by
  unfold Dev.running at runs
  split at runs
  · cases runs
  · obtain ⟨slot, -, found⟩ := Option.bind_eq_some_iff.mp runs
    exact List.mem_of_find?_eq_some found

/-- Writing a register makes no thread wait for a pool lock. -/
theorem Dev.pool_withThread_wrote {d : Dev} {t : Thread} (rd : BitVec 5) (w : Word) (mem : t ∈ d.threads)
    (pool : ∀ u ∈ d.threads, ¬(u.st = .blocked ∧ u.lockwait = 256)) :
    ∀ u ∈ (d.withThread (t.wrote rd w)).threads, ¬(u.st = .blocked ∧ u.lockwait = 256) := by
  intro u found
  obtain ⟨v, listed, rfl⟩ := List.mem_map.mp found
  split
  · exact pool t mem
  · exact pool v listed

/-- Settles O11: LOCK and TRYLOCK by what the number's lock is, UNLOCK and CLRPOISON by who holds it. -/
theorem hardwareLockOperations : Obligations.HardwareLockOperations := by
  intro s f t clocked hb ok
  refine ⟨fun l d found => ⟨fun runs => ⟨fun free => ?lockFree, fun held => ?lockHeld⟩,
      fun runs => ⟨fun free => ?trylockFree, fun held => ?trylockHeld⟩⟩,
    fun empty => ⟨fun runs => ?lockNone, fun runs => ?trylockNone⟩,
    fun l found held mine => ⟨fun runs listed nobody poison => ?unlockPoisoned,
      fun runs listed nobody clean pool => ?unlockClean, fun runs => ?clrpoison⟩,
    fun others => ⟨fun runs => ?unlockOthers, fun runs => ?clrpoisonOthers⟩⟩
  case lockFree =>
    refine gives_ctl (exec_legal (exec_ctlLock f s) (noRb_of hb)) clocked runs ?_
    rw [Dev.runIns_lock ok, Dev.ctlLock_free _ found free, Dev.grantLock_eq]
  case lockHeld =>
    refine gives_ctl (exec_legal (exec_ctlLock f s) (noRb_of hb)) clocked runs ?_
    rw [Dev.runIns_lock ok, Dev.ctlLock_held _ found held]
  case trylockFree =>
    refine gives_ctl (exec_legal (exec_ctlTrylock f s) (noRb_of hb)) clocked runs ?_
    rw [Dev.runIns_trylock ok, Dev.ctlTrylock_free _ found free, Dev.grantLock_eq]
  case trylockHeld =>
    refine gives_ctl (exec_legal (exec_ctlTrylock f s) (noRb_of hb)) clocked runs ?_
    rw [Dev.runIns_trylock ok, Dev.ctlTrylock_held _ found held]
  case lockNone =>
    refine gives_ctl (exec_legal (exec_ctlLock f s) (noRb_of hb)) clocked runs ?_
    rw [Dev.runIns_lock ok, Dev.ctlLock_none _ empty, BitVec.ofNat_toNat, BitVec.setWidth_eq]
  case trylockNone =>
    refine gives_ctl (exec_legal (exec_ctlTrylock f s) (noRb_of hb)) clocked runs ?_
    rw [Dev.runIns_trylock ok, Dev.ctlTrylock_none _ empty]
  case unlockPoisoned =>
    refine gives_ctl (exec_legal (exec_ctlUnlock f s) (noRb_of hb)) clocked runs ?_
    have listed : (s.dev.withThread (t.wrote f.rd 0)).lock l.id = some l := listed
    rw [Dev.runIns_unlock ok, Dev.ctlUnlock_mine _ found held mine, Dev.releaseLock_poisoned listed nobody poison]
  case unlockClean =>
    refine gives_ctl (exec_legal (exec_ctlUnlock f s) (noRb_of hb)) clocked runs ?_
    have listed : (s.dev.withThread (t.wrote f.rd 0)).lock l.id = some l := listed
    have still := Dev.pool_withThread_wrote f.rd 0 (Dev.running_mem runs.1) pool
    rw [Dev.runIns_unlock ok, Dev.ctlUnlock_mine _ found held mine, Dev.releaseLock_clean listed nobody clean still]
    rfl
  case clrpoison =>
    refine gives_ctl (exec_legal (exec_ctlClrpoison f s) (noRb_of hb)) clocked runs ?_
    rw [Dev.runIns_clrpoison ok, Dev.ctlClrpoison_mine _ found held mine]
  case unlockOthers =>
    refine gives_ctl (exec_legal (exec_ctlUnlock f s) (noRb_of hb)) clocked runs ?_
    rw [Dev.runIns_unlock ok, Dev.ctlUnlock_others _ others]
  case clrpoisonOthers =>
    refine gives_ctl (exec_legal (exec_ctlClrpoison f s) (noRb_of hb)) clocked runs ?_
    rw [Dev.runIns_clrpoison ok, Dev.ctlClrpoison_others _ others]

end Sys2Proof.Machine

/-! TICK and TIME_SLICE (R396, R397). -/

namespace Sys2Proof.Machine

/-! ### The threads whose delay expires -/

/-- Another thread is found as before. -/
theorem Dev.thread_makeReady_ne {d : Dev} {slot other : Nat} (ne : other ≠ slot) :
    (d.makeReady slot).thread other = d.thread other := by
  unfold Dev.thread Dev.makeReady Dev.onThread mapIf
  simp only
  induction d.threads with
  | nil => rfl
  | cons u us ih =>
    by_cases changed : u.slot = slot
    · have skip : u.slot ≠ other := fun h => ne (h.symm.trans changed)
      simpa [List.find?_cons, changed, Ne.symm ne, skip] using ih
    · simp only [List.map_cons, beq_false_of_ne changed, Bool.false_eq_true, if_false, List.find?_cons, ih]

/-- Slot after slot, the threads whose delay had expired at the beginning are made ready: one that is made ready
leaves the others as they are. -/
theorem Dev.foldl_tick (n : Nat) (d : Dev) (slots : List Nat) (distinct : slots.Nodup) (e : Dev)
    (same : ∀ x ∈ slots, e.thread x = d.thread x) :
    slots.foldl (fun d x => if d.expires n x then d.makeReady x else d) e =
      (slots.filter fun x => d.expires n x).foldl Dev.makeReady e := by
  induction slots generalizing e with
  | nil => rfl
  | cons x xs ih =>
    obtain ⟨fresh, distinct⟩ := List.nodup_cons.mp distinct
    have first : e.expires n x = d.expires n x := by
      rw [Dev.expires, Dev.expires, same x List.mem_cons_self]
    rw [List.foldl_cons, List.filter_cons, first]
    split
    · rw [List.foldl_cons]
      refine ih distinct _ fun y mem => ?_
      have ne : y ≠ x := fun h => fresh (h ▸ mem)
      rw [Dev.thread_makeReady_ne ne]
      exact same y (List.mem_cons_of_mem x mem)
    · exact ih distinct e fun y mem => same y (List.mem_cons_of_mem x mem)

/-- Settles O12: the slots of a tick do not disturb each other (`Dev.foldl_tick`). -/
theorem schedulerTime : Obligations.SchedulerTime := by
  refine ⟨fun s clocked => ?tick, fun s core t clocked runs sliced => ⟨fun equal => ?moves, fun none => ?stays⟩⟩
  case tick =>
    refine .of_act (exec_tick s) clocked ?_
    refine congrArg Dev.schedule ((List.foldl_ext _ _ _ fun e x _ => ?turn).trans
      (Dev.foldl_tick _ s.dev _ List.nodup_range _ fun _ _ => rfl))
    unfold Dev.expires
    cases e.thread x <;> rfl
  case moves =>
    refine .of_act (exec_timeSlice core s) clocked ?_
    simp only [runs]
    rw [if_pos ⟨sliced, equal⟩, Dev.ctlYield_eq]
  case stays =>
    refine .of_act (exec_timeSlice core s) clocked ?_
    simp only [runs]
    rw [if_neg (by simp [none])]

end Sys2Proof.Machine

/-! CCLK, the regulator, the limits and droops (R408 to R411, R417). -/

namespace Sys2Proof.Machine

/-! ### Fields -/

theorem Dev.get_lt (d : Dev) (f : Fld) (i j : Nat) : d.get f i j < 2 ^ f.width := Nat.mod_lt _ (Nat.two_pow_pos _)

/-- A field that takes a value of its width reads it. -/
theorem Dev.get_put_of_lt (d : Dev) {f : Fld} {v : Nat} (i j : Nat) (inReg : f.lo + f.width ≤ 64) (fits : v < 2 ^ f.width) :
    (d.put f v i j).get f i j = v := by
  rw [Dev.get_put _ _ _ _ _ inReg, Nat.mod_eq_of_lt fits]

/-- A message to no peer leaves the device at once. -/
theorem Dev.emit_out {d : Dev} {o : Out} (alone : o.peer (d.get F.LNK_SPAN_CFG_SPAN_NO) = none) :
    d.emit o = { d with out := o :: d.out } := by
  unfold Dev.emit
  simp only [alone]

theorem Dev.emit_avs (d : Dev) (m : Bool) (mv : Nat) : d.emit (.avs m mv) = { d with out := .avs m mv :: d.out } :=
  Dev.emit_out rfl

/-- Writing a voltage leaves the clock as it is. -/
theorem Dev.get_mhz_setVddc (d : Dev) (mhz : Nat) :
    (d.setVddc mhz).get F.CLK_CCLK_STATUS_MHZ = d.get F.CLK_CCLK_STATUS_MHZ := by
  rw [Dev.setVddc, Dev.emit_avs]
  exact Dev.get_put_field _ F.CLK_CCLK_STATUS_VDDC_MV F.CLK_CCLK_STATUS_MHZ _ 0 0 rfl (by decide) (by decide)

/-! ### CCLK and its target (R409) -/

/-- The device with its limit as CLK_CCLK_STATUS shows it. -/
def Dev.withLimit (d : Dev) : Dev := d.put F.CLK_CCLK_STATUS_LIMIT_MHZ (min d.pw.powerMhz d.pw.thermalMhz)

theorem Dev.get_mhz_withLimit (d : Dev) : d.withLimit.get F.CLK_CCLK_STATUS_MHZ = d.get F.CLK_CCLK_STATUS_MHZ :=
  Dev.get_put_field _ _ _ _ _ _ rfl (by decide) (by decide)

theorem Dev.targetMhz_withLimit (d : Dev) : d.withLimit.targetMhz = d.targetMhz := by
  have clamped : d.withLimit.get F.CLK_CCLK_STATUS_CLAMPED_MHZ = d.get F.CLK_CCLK_STATUS_CLAMPED_MHZ :=
    Dev.get_put_field _ _ _ _ _ _ rfl (by decide) (by decide)
  rw [Dev.targetMhz, clamped]
  rfl

theorem Dev.retune_eq (d : Dev) : d.retune =
    if d.targetMhz < d.get F.CLK_CCLK_STATUS_MHZ then
      ((d.withLimit.put F.CLK_CCLK_STATUS_MHZ d.targetMhz).setVddc d.targetMhz).onPw fun p =>
        { p with pendingMhz := none }
    else if d.get F.CLK_CCLK_STATUS_MHZ < d.targetMhz then
      (if d.pw.pendingMhz = some d.targetMhz then d.withLimit
      else (d.withLimit.setVddc d.targetMhz).onPw fun p => { p with pendingMhz := some d.targetMhz })
    else if d.pw.pendingMhz.isSome then
      (d.withLimit.setVddc (d.get F.CLK_CCLK_STATUS_MHZ)).onPw fun p => { p with pendingMhz := none }
    else d.withLimit := by
  have pw : d.withLimit.pw = d.pw := Dev.put_pw _ _ _ _ _
  have limit : d.put F.CLK_CCLK_STATUS_LIMIT_MHZ (min d.pw.powerMhz d.pw.thermalMhz) = d.withLimit := rfl
  simp only [Dev.retune, limit, Dev.targetMhz_withLimit, Dev.get_mhz_withLimit, pw]

section
variable {d : Dev}

theorem Dev.retune_lowers (lower : d.targetMhz < d.get F.CLK_CCLK_STATUS_MHZ) : d.retune =
    ((d.withLimit.put F.CLK_CCLK_STATUS_MHZ d.targetMhz).setVddc d.targetMhz).onPw fun p =>
      { p with pendingMhz := none } := d.retune_eq.trans (if_pos lower)

theorem Dev.retune_raises (raise : d.get F.CLK_CCLK_STATUS_MHZ < d.targetMhz)
    (fresh : d.pw.pendingMhz ≠ some d.targetMhz) :
    d.retune = (d.withLimit.setVddc d.targetMhz).onPw fun p => { p with pendingMhz := some d.targetMhz } :=
  d.retune_eq.trans ((if_neg raise.not_gt).trans ((if_pos raise).trans (if_neg fresh)))

theorem Dev.retune_met (met : d.get F.CLK_CCLK_STATUS_MHZ = d.targetMhz) (quiet : d.pw.pendingMhz = none) :
    d.retune = d.withLimit :=
  d.retune_eq.trans ((if_neg met.not_gt).trans ((if_neg met.not_lt).trans (if_neg (by simp [quiet]))))

end

/-- The regulator works, with the clock that waits for it. -/
theorem Dev.pw_setVddc_pending (d : Dev) (mhz : Nat) (m : Option Nat) :
    ((d.setVddc mhz).onPw fun p => { p with pendingMhz := m }).pw = { d.pw with avsWait := true, pendingMhz := m } := by
  rw [Dev.setVddc, Dev.emit_avs]
  rfl

theorem Dev.out_withLimit (d : Dev) : d.withLimit.out = d.out := rfl

theorem Dev.targetMhz_eq (d : Dev) : min (d.get F.CLK_CCLK_STATUS_CLAMPED_MHZ) (min d.pw.powerMhz d.pw.thermalMhz) =
    d.targetMhz := rfl

theorem Dev.get_mhz_lowered (d : Dev) {t : Nat} (fits : t < 2 ^ 16) :
    (((d.put F.CLK_CCLK_STATUS_MHZ t).setVddc t).onPw fun p => { p with pendingMhz := none }).get
      F.CLK_CCLK_STATUS_MHZ = t :=
  (Dev.get_mhz_setVddc (d.put F.CLK_CCLK_STATUS_MHZ t) t).trans (Dev.get_put_of_lt d 0 0 (by decide) fits)

/-- Settles O13: lowered, raised and met, by the cases of `Dev.retune_eq`. -/
theorem cclkFollowsItsTarget : Obligations.CclkFollowsItsTarget := by
  intro d
  simp only [Dev.targetMhz_eq]
  refine ⟨fun lower => ?lowered, fun raise fresh => ?raised, fun met quiet => ?met⟩
  case lowered =>
    have fits : d.targetMhz < 2 ^ 16 := lower.trans (d.get_lt F.CLK_CCLK_STATUS_MHZ 0 0)
    rw [Dev.retune_lowers lower]
    rw [Dev.pw_setVddc_pending]
    exact ⟨Dev.get_mhz_lowered d.withLimit fits, rfl, rfl⟩
  case raised =>
    rw [Dev.retune_raises raise fresh]
    rw [Dev.pw_setVddc_pending]
    exact ⟨(Dev.get_mhz_setVddc _ _).trans d.get_mhz_withLimit, rfl, rfl⟩
  case met =>
    rw [Dev.retune_met met quiet]
    exact ⟨d.get_mhz_withLimit, d.out_withLimit⟩

/-! ### The commands (R408 to R411, R417) -/

/-- A whole register write through PF0 BAR0 reaches its register. -/
theorem Dev.access_bar0_full {r : RegRef} (plain : r.kind ≠ .RNG_PUSH) (d : Dev) (v : Word)
    (apply : Dev → Nat → Bool → Dev) :
    d.access ⟨.bar0, .full, v⟩ r apply = apply (d.unstage r.addr) v.toNat false := by
  have whole : (⟨.bar0, .full, v⟩ : RegAccess).lanes ≠ .partialBytes := nofun
  rw [Dev.access, if_neg whole]
  exact if_neg plain

theorem Dev.throttle_again {d : Dev} (throttled : d.get F.PWR_THERMAL_THROTTLE = 1) : d.throttle = d :=
  if_pos throttled

/-- Settles O14: each command by the case of its state. -/
theorem clockCommandsTakeEffect : Obligations.ClockCommandsTakeEffect := by
  refine ⟨fun s v clocked => ?request,
    fun s clocked waits => ⟨fun m pending => ?completes, fun idle => ?settles, ?timeout⟩,
    fun s w clocked => ⟨fun above => ?powerDown, fun below => ?powerUp⟩,
    fun s tj clocked => ⟨fun warm cool => ?held, fun hot throttled => ?thermalDown⟩,
    fun s c clocked => ⟨fun fresh => ?droop, ?recover⟩⟩
  case request =>
    refine .of_act (exec_cclkRequest _ s) clocked ?_
    rw [Dev.access_bar0_full (by decide)]
    rfl
  case completes =>
    refine .of_act (exec_avsCompletion s) clocked ?_
    simp only [waits, pending, Bool.not_true, Bool.false_eq_true, if_false]
    rfl
  case settles =>
    refine .of_act (exec_avsCompletion s) clocked ?_
    simp only [waits, idle, Bool.not_true, Bool.false_eq_true, if_false, Dev.onPw]
  case timeout =>
    refine .of_act (exec_avsTimeout s) clocked ?_
    simp only [waits, Bool.not_true, Bool.false_eq_true, if_false]
    rfl
  case powerDown => exact .of_act (exec_powerLimitTick w s) clocked (if_pos above)
  case powerUp =>
    have notOver : ¬s.dev.get F.PWR_LIMIT_TDP_W < w.toNat := by omega
    exact .of_act (exec_powerLimitTick w s) clocked ((if_neg notOver).trans (if_pos below))
  case held =>
    exact .of_act (exec_thermalTick tj s) clocked ((if_neg (Nat.not_le.mpr cool)).trans (if_neg (Nat.not_lt.mpr warm)))
  case thermalDown =>
    refine .of_act (exec_thermalTick tj s) clocked ((if_pos hot).trans ?_)
    rw [Dev.throttle_again throttled]
    rfl
  case droop => exact .of_act (exec_droopDetect c s) clocked (if_neg (by rw [fresh]; exact Bool.false_ne_true))
  case recover =>
    refine .of_act (exec_droopRecover c s) clocked ?_
    rw [Dev.onPw]
    simp only [filter_bne_eq]

end Sys2Proof.Machine

/-! Power states (R419 to R422) and resets (R412, R418, R423 to R425, R491, R497). -/

namespace Sys2Proof.Machine

/-- A command that takes effect whatever the clocks do. -/
theorem Gives.of_always {c : Instr} {s : State} {f : Dev → Dev} {d : Dev} (e : exec c s = s.always f)
    (h : f s.dev = d) : Gives c s d := by
  rw [Gives, e, State.always_next, h]

/-! ### Requests and entries -/

section
variable {d : Dev}

theorem Dev.powerRequest_quiet {req : Nat} (low : d.get F.PWR_STATE_STATE ≤ 1) (sleep : 2 ≤ req) (quiet : d.quiet = true) :
    d.powerRequest req = d.beginEntry req := by
  have not_p0 : req ≠ 0 := by omega
  have not_there : d.get F.PWR_STATE_STATE ≠ req := by omega
  have no_entry : d.get F.PWR_STATE_STATE ≠ 4 := by omega
  unfold Dev.powerRequest Dev.pstate
  split
  · omega
  · rw [if_neg not_p0, if_neg no_entry, if_neg not_there, if_pos quiet]

theorem Dev.powerRequest_busy {req : Nat} (low : d.get F.PWR_STATE_STATE ≤ 1) (sleep : 2 ≤ req) (busy : d.quiet = false) :
    d.powerRequest req = d.refusePower 1 := by
  have not_p0 : req ≠ 0 := by omega
  have not_there : d.get F.PWR_STATE_STATE ≠ req := by omega
  have no_entry : d.get F.PWR_STATE_STATE ≠ 4 := by omega
  unfold Dev.powerRequest Dev.pstate
  split
  · omega
  · rw [if_neg not_p0, if_neg no_entry, if_neg not_there, busy]
    rfl

theorem Dev.powerRequest_p0_of_p1 (p1 : d.get F.PWR_STATE_STATE = 1) : d.powerRequest 0 = d.enterPower 0 := by
  unfold Dev.powerRequest Dev.pstate
  rw [p1]
  rfl

theorem Dev.powerRequest_p0_of_s1 (s1 : d.get F.PWR_STATE_STATE = 2) : d.powerRequest 0 = d.wakeUp 0x20 := by
  unfold Dev.powerRequest Dev.pstate
  rw [s1]
  rfl

/-- An entry completes once no tile is under test and no port waits for its partner. -/
theorem Dev.entry_may_complete (entering : d.get F.PWR_STATE_STATE = 4) (idle : ∀ t ∈ d.errs.tests, t.testing = false)
    (ports : ∀ p ∈ d.ports, p.lpWait = false) : ¬(d.pstate ≠ 4 ∨ (d.errs.tests.any fun t => t.testing) = true ∨
      (d.ports.any fun p => p.lpWait) = true) := by
  simpa [Dev.pstate, entering] using ⟨idle, ports⟩

end

/-! ### The exit -/

section
variable {d : Dev}

theorem Dev.exitRegulators_s1 (shallow : d.pw.fromState ≠ 3) : d.exitRegulators =
    ((d.setVddc (d.get F.CLK_CCLK_STATUS_MHZ)).onPw fun p => { p with avsWait := false }).nextStep := by
  simp only [Dev.exitRegulators, Dev.regulatorsUp, if_neg shallow]

theorem Dev.exitRegulators_s2 (deep : d.pw.fromState = 3) (rails : d.badRail = none) : d.exitRegulators =
    (((d.emit (.avs true 800)).setVddc (d.get F.CLK_CCLK_STATUS_MHZ)).onPw fun p =>
      { p with avsWait := false }).nextStep := by
  simp only [Dev.exitRegulators, Dev.regulatorsUp, if_pos deep, rails, Dev.setVddm, Dev.setVddc, Dev.emit_avs]
  rfl

theorem Dev.exitRegulators_held {r : SensorReading} {code : Nat} (deep : d.pw.fromState = 3)
    (bad : d.badRail = some (r, code)) : d.exitRegulators = d.railHolds r code := by
  simp only [Dev.exitRegulators, if_pos deep, bad]

theorem Dev.nextStep_of {n : Nat} (step : d.get F.PWR_STATE_STEP = n) : d.nextStep = d.put F.PWR_STATE_STEP (n + 1) := by
  rw [Dev.nextStep, step]

theorem Dev.exitDone_shallow (trip : d.pw.tripPending = false) (shallow : d.pw.fromState ≠ 3)
    (held : d.pw.heldReq = none) : d.exitDone =
      ((d.put F.PWR_STATE_STEP 0).enterPower 0).onPw fun p => { p with clocksStopped := false, heldReq := none } := by
  have still : (((d.put F.PWR_STATE_STEP 0).enterPower 0).onPw fun p =>
    { p with clocksStopped := false, heldReq := none }).pw.tripPending = false := trip
  simp only [Dev.exitDone, held, beq_false_of_ne shallow, still, Bool.false_eq_true, if_false]

end

/-- Settles O15: requests by state and quiet, the end of an entry, and the exit step by step. -/
theorem powerStateCommands : Obligations.PowerStateCommands := by
  refine ⟨fun s clocked => ⟨fun p0 runs insts idle => ?p1Entry, fun p1 => ?p1Exit,
      fun low quiet => ⟨?requestS1, ?requestS2⟩, fun low busy => ⟨?refuseS1, ?refuseS2⟩, fun p1 => ?p0OfP1,
      fun s1 => ?p0OfS1, fun entering idle ports => ⟨fun shallow => ?entryS1, fun deep => ?entryS2⟩⟩,
    fun s tj exiting powered => ⟨fun step shallow => ?step1, fun step cool => ?step2,
      fun step deep => ⟨fun rails => ?step1Deep, fun r code bad => ?step1Bad⟩,
      fun step => ⟨fun shallow => ?step3, fun s1 => ?step3S1⟩, fun step trip shallow held => ?step4⟩⟩
  case p1Entry =>
    refine .of_act (exec_p1Entry s) clocked (if_pos ⟨p0, ?_, ?_, ?_⟩)
    · rw [runs, List.isEmpty_nil]
    · rw [insts, List.isEmpty_nil]
    · simpa using idle
  case p1Exit => exact .of_act (exec_p1Exit s) clocked (if_pos p1)
  case requestS1 => exact .of_act (exec_requestS1 s) clocked (Dev.powerRequest_quiet low (by decide) quiet)
  case requestS2 => exact .of_act (exec_requestS2 s) clocked (Dev.powerRequest_quiet low (by decide) quiet)
  case refuseS1 => exact .of_act (exec_requestS1 s) clocked (Dev.powerRequest_busy low (by decide) busy)
  case refuseS2 => exact .of_act (exec_requestS2 s) clocked (Dev.powerRequest_busy low (by decide) busy)
  case p0OfP1 => exact .of_act (exec_requestP0 s) clocked (Dev.powerRequest_p0_of_p1 p1)
  case p0OfS1 => exact .of_act (exec_requestP0 s) clocked (Dev.powerRequest_p0_of_s1 s1)
  case entryS1 =>
    exact .of_act (exec_powerEntryComplete s) clocked
      ((if_neg (Dev.entry_may_complete entering idle ports)).trans (if_pos shallow))
  case entryS2 =>
    exact .of_act (exec_powerEntryComplete s) clocked
      ((if_neg (Dev.entry_may_complete entering idle ports)).trans (if_neg deep))
  all_goals
    refine .of_always (exec_exitStepReady tj s) ((if_neg (by simp [Dev.pstate, exiting, powered])).trans ?_)
    rw [step]
  case step1 => exact Dev.exitRegulators_s1 shallow
  case step2 => exact (if_neg cool).trans (Dev.nextStep_of step)
  case step1Deep => exact Dev.exitRegulators_s2 deep rails
  case step1Bad => exact Dev.exitRegulators_held deep bad
  case step3 => exact (congrArg Dev.nextStep (if_neg shallow)).trans (Dev.nextStep_of step)
  case step3S1 => exact congrArg Dev.nextStep (if_pos s1)
  case step4 => exact Dev.exitDone_shallow trip shallow held

end Sys2Proof.Machine

/-! Resets and losses of power (R412, R418, R423 to R425, R491, R497), and what a warm reset clears. -/

namespace Sys2Proof.Machine

theorem Dev.mayReset_powered {d : Dev} (may : d.mayReset = true) : d.pw.off = false := by
  simp only [Dev.mayReset, Bool.and_eq_true, Bool.not_eq_true'] at may
  exact may.1.1.1

theorem Dev.powerOn_deep {d e : Dev}
    (he : ((d.coldLoss.setCause 1).onShell fun x => { x with powerCycle := x.powerCycle + 1 }).acorn = e)
    (deep : e.pstate = 3) : d.powerOn = e := by
  rw [Dev.powerOn, he]
  exact if_pos deep

theorem Dev.powerOn_up {d e : Dev}
    (he : ((d.coldLoss.setCause 1).onShell fun x => { x with powerCycle := x.powerCycle + 1 }).acorn = e)
    (up : e.pstate ≠ 3) :
    d.powerOn = { e with out := .avs true 800 :: e.out, pw := { e.pw with avsWait := true } } := by
  have run : d.powerOn = e.setVddm := by
    rw [Dev.powerOn, he]
    exact if_neg up
  rw [run, Dev.setVddm, Dev.emit_avs]
  rfl

/-- Settles O16: each command where the device may take it. -/
theorem resetCommands : Obligations.ResetCommands := by
  refine ⟨fun s => ⟨⟨fun deep => ?powerOnDeep, fun up => ?powerOn⟩,
      fun may => ⟨?coldPin, ?coldCommand, ?warmPin, ?warmCommand, fun running => ?watchdog⟩,
      fun powered deep => ?brownout, fun powered => ?vaux, fun powered shallow => ?pwrokLoss, fun lost => ?pwrokRise⟩,
    fun s pll clocked shallow => ?pll, fun s n v clocked hot => ?trip⟩
  case powerOnDeep => exact .of_always (exec_powerOnReset s) (Dev.powerOn_deep rfl deep)
  case powerOn => exact .of_always (exec_powerOnReset s) (Dev.powerOn_up rfl up)
  case coldPin => exact .of_always (exec_coldReset false s) (if_pos may)
  case coldCommand => exact .of_always (exec_coldReset true s) (if_pos may)
  case warmPin => exact .of_always (exec_warmReset false s) (if_pos may)
  case warmCommand => exact .of_always (exec_warmReset true s) (if_pos may)
  case watchdog =>
    refine .of_always (exec_shellWatchdog s) (if_pos ⟨?_, may⟩)
    rw [Dev.shellRuns, running, Dev.mayReset_powered may]
    rfl
  case brownout =>
    refine .of_always (exec_brownout s) (if_neg ?_)
    simp [Dev.pstate, powered, deep]
  case vaux =>
    refine .of_always (exec_vauxRemoved s) (if_neg ?_)
    simp [powered]
  case pwrokLoss =>
    refine .of_always (exec_pwrokLoss s) (if_neg ?_)
    simp only [powered, Dev.pstate, Bool.false_eq_true, false_or]
    omega
  case pwrokRise => exact .of_always (exec_sysPwrokRise s) (if_pos lost)
  case pll => exact .of_act (exec_pllLockLoss pll s) clocked (if_neg (Nat.not_lt.mpr shallow))
  case trip => exact .of_act (exec_thermalTrip n v s) clocked (if_pos hot)

/-! ### What a warm reset clears -/

/-- Fields carried over leave the registers of other addresses as they are. -/
theorem Dev.get_carry_ne (d : Dev) {g : Fld} {k l : Nat} (fs : List Fld) (e : Dev)
    (apart : ∀ f ∈ fs, RegRef.addr ⟨g.kind, k, l⟩ ≠ RegRef.addr ⟨f.kind, 0, 0⟩) :
    (e.carry d fs).get g k l = e.get g k l := by
  unfold Dev.carry
  induction fs generalizing e with
  | nil => rfl
  | cons f fs ih =>
    rw [List.foldl_cons, ih _ fun h mem => apart h (List.mem_cons_of_mem f mem),
      Dev.get_put_ne _ _ _ _ _ _ _ _ (apart f List.mem_cons_self)]

theorem Dev.get_carryNonce_ne (d : Dev) {g : Fld} {k l : Nat} (e : Dev)
    (apart : ∀ j < 4, RegRef.addr ⟨g.kind, k, l⟩ ≠ RegRef.addr ⟨F.DBG_SESAME_NONCE_NONCE.kind, j, 0⟩) :
    (e.carryNonce d).get g k l = e.get g k l := by
  have fold (js : List Nat) (e : Dev) (bound : ∀ j ∈ js, j < 4) : (js.foldl (fun e j =>
      e.put F.DBG_SESAME_NONCE_NONCE (d.get F.DBG_SESAME_NONCE_NONCE j) j) e).get g k l = e.get g k l := by
    induction js generalizing e with
    | nil => rfl
    | cons j js ih =>
      rw [List.foldl_cons, ih _ fun i mem => bound i (List.mem_cons_of_mem j mem),
        Dev.get_put_ne _ _ _ _ _ _ _ _ (apart j (bound j List.mem_cons_self))]
  exact fold _ e fun j mem => List.mem_range.mp mem

/-- A field depends on the registers only. -/
theorem Dev.get_congr {d e : Dev} (same : d.regs = e.regs) (f : Fld) (i j : Nat) : d.get f i j = e.get f i j := by
  rw [Dev.get, Dev.get, Dev.rd, Dev.rd, same]

theorem Dev.regs_warmHull (e : Dev) (shell : Shell) (hull : Hull) :
    ({ e with shell := shell, hull := hull } : Dev).warmHull.regs = e.regs := rfl

theorem Dev.regs_carryStaging (e d : Dev) : (e.carryStaging d).regs = e.regs := rfl

/-- The registers after what a warm reset loses: the reset values, but for what is carried over. -/
theorem Dev.regs_warmLoss (d : Dev) :
    d.warmLoss.regs = ((((d.lost.carry d alwaysOn).carry d rwsFields).carry d shellFields).carryNonce d).regs :=
  (Dev.regs_warmHull _ _ _).trans (Dev.regs_carryStaging _ d)

theorem Dev.get_reset (f : Fld) (i j : Nat) : Dev.reset.get f i j = bitsOf (RegRef.reset ⟨f.kind, i, j⟩) f.lo f.width :=
  rfl

/-- Every pod is FREE after what a warm reset loses. -/
theorem Dev.podState_warmLoss (d : Dev) (p : Fin 64) : d.warmLoss.get F.POD_STATUS_STATE p.val = 0 := by
  have carried : ∀ p : Fin 64, ∀ f ∈ alwaysOn ++ rwsFields ++ shellFields,
      RegRef.addr ⟨.POD_STATUS, p.val, 0⟩ ≠ RegRef.addr ⟨f.kind, 0, 0⟩ := by decide +kernel
  have nonce : ∀ p : Fin 64, ∀ j < 4, RegRef.addr ⟨.POD_STATUS, p.val, 0⟩ ≠ RegRef.addr ⟨.DBG_SESAME_NONCE, j, 0⟩ := by
    decide +kernel
  have free : ∀ p : Fin 64, bitsOf (RegRef.reset ⟨.POD_STATUS, p.val, 0⟩) F.POD_STATUS_STATE.lo
      F.POD_STATUS_STATE.width = 0 := by decide +kernel
  have blank : d.lost.get F.POD_STATUS_STATE p.val = Dev.reset.get F.POD_STATUS_STATE p.val := Dev.get_congr rfl _ _ _
  rw [Dev.get_congr d.regs_warmLoss, Dev.get_carryNonce_ne d _ (nonce p),
    Dev.get_carry_ne d _ _ fun f mem => carried p f (by simp [mem]),
    Dev.get_carry_ne d _ _ fun f mem => carried p f (by simp [mem]),
    Dev.get_carry_ne d _ _ fun f mem => carried p f (by simp [mem]), blank, Dev.get_reset]
  exact free p

/-- Nothing runs, nothing is held, and memory and caches are empty. -/
def Dev.Cleared (d : Dev) : Prop :=
  d.runs = [] ∧ d.insts = [] ∧ d.slots = [] ∧ d.threads = [] ∧ d.locks = [] ∧ d.jents = [] ∧ d.rrgns = [] ∧
    d.progs = [] ∧ d.mem = [] ∧ d.lines = [] ∧ d.dir = []

/-- It is a matter of the state outside the registers, the Shell and the Hull. -/
theorem Dev.Cleared.put {d : Dev} (h : d.Cleared) (f : Fld) (v i j : Nat) : (d.put f v i j).Cleared := h

theorem Dev.Cleared.carry {e : Dev} (h : e.Cleared) (d : Dev) (fs : List Fld) : (e.carry d fs).Cleared :=
  List.foldlRecOn (motive := Dev.Cleared) fs _ h fun _ h _ _ => h.put _ _ _ _

theorem Dev.Cleared.carryNonce {e : Dev} (h : e.Cleared) (d : Dev) : (e.carryNonce d).Cleared :=
  List.foldlRecOn (motive := Dev.Cleared) (List.range 4) _ h fun _ h _ _ => h.put _ _ _ _

theorem Dev.cleared_lost (d : Dev) : d.lost.Cleared := ⟨rfl, rfl, rfl, rfl, rfl, rfl, rfl, rfl, rfl, rfl, rfl⟩

theorem Dev.Cleared.carryStaging {e : Dev} (h : e.Cleared) (d : Dev) : (e.carryStaging d).Cleared := h

theorem Dev.Cleared.warmHull {d : Dev} (h : d.Cleared) (shell : Shell) (hull : Hull) :
    ({ d with shell := shell, hull := hull } : Dev).warmHull.Cleared := h

theorem Dev.cleared_warmLoss (d : Dev) : d.warmLoss.Cleared := by
  have carried := ((d.cleared_lost.carry d alwaysOn).carry d rwsFields).carry d shellFields
  rw [Dev.warmLoss]
  exact ((carried.carryNonce d).carryStaging d).warmHull _ _

theorem Dev.Cleared.setCause {d : Dev} (h : d.Cleared) (c : Nat) : (d.setCause c).Cleared :=
  (h.put _ _ _ _).put _ _ _ _

/-- The cause that a reset leaves. -/
theorem Dev.get_cause_setCause (d : Dev) {c : Nat} (fits : c < 2 ^ F.PWR_RESET_CAUSE_CAUSE.width) :
    (d.setCause c).get F.PWR_RESET_CAUSE_CAUSE = c :=
  (Dev.get_put_field _ F.PWR_RESET_CAUSE_HISTORY F.PWR_RESET_CAUSE_CAUSE _ 0 0 rfl (by decide) (by decide)).trans
    (Dev.get_put_of_lt d 0 0 (by decide) fits)

theorem Dev.podState_setCause (d : Dev) (c : Nat) (p : Fin 64) :
    (d.setCause c).get F.POD_STATUS_STATE p.val = d.get F.POD_STATUS_STATE p.val := by
  have apart : ∀ p : Fin 64, RegRef.addr ⟨.POD_STATUS, p.val, 0⟩ ≠ RegRef.addr ⟨.PWR_RESET_CAUSE, 0, 0⟩ := by
    decide +kernel
  rw [Dev.setCause, Dev.get_put_ne _ _ _ _ _ _ _ _ (apart p), Dev.get_put_ne _ _ _ _ _ _ _ _ (apart p)]

/-- Training writes MEM_TRAIN only. -/
theorem Dev.get_beginTraining_ne (d : Dev) {g : Fld} {k l : Nat}
    (apart : RegRef.addr ⟨g.kind, k, l⟩ ≠ RegRef.addr ⟨.MEM_TRAIN, 0, 0⟩) :
    d.beginTraining.get g k l = d.get g k l := by
  rw [Dev.beginTraining, Dev.get_put_ne _ _ _ _ _ _ _ _ apart, Dev.get_put_ne _ _ _ _ _ _ _ _ apart]

/-- What a warm reset leaves, whether training begins anew or not. -/
theorem Dev.warmReset_cases {P : Dev → Prop} {d : Dev} {c : Nat} (dead : P (d.fenceSelf.warmLoss.setCause c))
    (trains : P (d.fenceSelf.warmLoss.setCause c).beginTraining) : P (d.warmReset c) := by
  simp only [Dev.warmReset]
  split
  · exact dead
  · exact trains

/-- Settles O17: everything but the registers is as after reset (`Dev.cleared_warmLoss`), and no POD_STATUS is carried
over. -/
theorem warmResetLeaves : Obligations.WarmResetLeaves := by
  intro s may
  let e := s.dev.fenceSelf.warmLoss
  have cleared : (s.dev.warmReset 7).Cleared := by
    have dead := s.dev.fenceSelf.cleared_warmLoss.setCause 7
    exact Dev.warmReset_cases dead ((dead.put _ _ _ _).put _ _ _ _)
  have cause : (s.dev.warmReset 7).get F.PWR_RESET_CAUSE_CAUSE = 7 := by
    have dead : (e.setCause 7).get F.PWR_RESET_CAUSE_CAUSE = 7 := e.get_cause_setCause (by decide)
    exact Dev.warmReset_cases (P := fun d => d.get F.PWR_RESET_CAUSE_CAUSE = 7) dead
      ((Dev.get_beginTraining_ne _ (by decide)).trans dead)
  have free (p : Fin 64) : (s.dev.warmReset 7).get F.POD_STATUS_STATE p.val = 0 := by
    have apart : ∀ p : Fin 64, RegRef.addr ⟨.POD_STATUS, p.val, 0⟩ ≠ RegRef.addr ⟨.MEM_TRAIN, 0, 0⟩ := by decide +kernel
    have dead := (e.podState_setCause 7 p).trans (s.dev.fenceSelf.podState_warmLoss p)
    exact Dev.warmReset_cases (P := fun d => d.get F.POD_STATUS_STATE p.val = 0) dead
      ((Dev.get_beginTraining_ne _ (apart p)).trans dead)
  obtain ⟨runs, insts, slots, threads, locks, jents, rrgns, progs, mem, lines, dir⟩ := cleared
  exact ⟨_, .of_always (exec_warmReset true s) (if_pos may), runs, insts, slots, threads, locks, jents, rrgns, progs,
    mem, lines, dir, cause, free⟩

end Sys2Proof.Machine

/-!
# The Hull and the test access port (spec ch. 16)
-/

namespace Sys2Proof.Machine

/-! ### The test access port -/

theorem Dev.emit_regRead (d : Dev) (v : Nat) : d.emit (.regRead v) = { d with out := .regRead v :: d.out } :=
  Dev.emit_out rfl

theorem idcode_eq : 0x18816001 + Config.manufacturerCode % 2 ^ 11 * 2 = idcode := by
  rw [idcode]
  omega

/-- Settles O24: the port answers in each of these states, and each answer is its definition. -/
theorem testAccessPort : Obligations.TestAccessPort := by
  intro s on up
  have tapUp : s.dev.tapUp = true := by
    rw [Dev.tapUp, on]
    exact bne_iff_ne.mpr up
  rw [idcode_eq]
  exact ⟨.of_always (exec_tapReset s) (if_pos tapUp), .of_always (exec_bypass s) (if_pos tapUp),
    .of_always (exec_samplePreload s) (if_pos tapUp), .of_always (exec_extest s) (if_pos tapUp),
    .of_always (exec_idcode s) (if_pos tapUp)⟩

/-! ### The end of BOOT -/

/-- What the scheduler works on: the device changes in its threads, whose number stays, its cores and the ready
list. -/
def Dev.Moves (d e : Dev) : Prop :=
  ∃ ts cs r, e = { d with threads := ts, cores := cs, ready := r } ∧ ts.length = d.threads.length

theorem Dev.Moves.refl (d : Dev) : d.Moves d := ⟨_, _, _, rfl, rfl⟩

theorem Dev.Moves.trans {d e f : Dev} (h : d.Moves e) (k : e.Moves f) : d.Moves f := by
  obtain ⟨ts, cs, r, rfl, same⟩ := h
  obtain ⟨us, _, _, rfl, again⟩ := k
  exact ⟨us, _, _, rfl, again.trans same⟩

theorem Dev.moves_onThread (d : Dev) (n : Nat) (f : Thread → Thread) : d.Moves (d.onThread n f) :=
  ⟨_, _, _, rfl, List.length_map _⟩

theorem Dev.moves_onCore (d : Dev) (n : Nat) (f : Core → Core) : d.Moves (d.onCore n f) := ⟨_, _, _, rfl, rfl⟩

theorem Dev.moves_makeReady (d : Dev) (n : Nat) : d.Moves (d.makeReady n) := ⟨_, _, _, rfl, List.length_map _⟩

theorem Dev.moves_runOn (d : Dev) (n slot : Nat) : d.Moves (d.runOn n slot) := ⟨_, _, _, rfl, List.length_map _⟩

theorem Dev.moves_readyFirst (d : Dev) (slot : Nat) : d.Moves (d.readyFirst slot) := ⟨_, _, _, rfl, List.length_map _⟩

theorem Dev.moves_unprefetch (d : Dev) : d.Moves d.unprefetch := ⟨_, _, _, rfl, List.length_map _⟩

theorem Dev.moves_prefetchCore (d : Dev) (n : Nat) : d.Moves (d.prefetchCore n) := by
  rw [Dev.prefetchCore]
  split
  · exact .refl d
  · dsimp only
    split
    · exact (d.moves_onCore _ _).trans (Dev.moves_onThread _ _ _)
    · exact .refl d

theorem Dev.moves_dispatchOne {d e : Dev} (h : d.dispatchOne = some e) : d.Moves e := by
  rw [Dev.dispatchOne] at h
  split at h
  · split at h
    · obtain rfl := Option.some.inj h
      exact d.moves_runOn _ _
    · obtain ⟨t, -, rfl⟩ := Option.map_eq_some_iff.mp h
      exact d.moves_runOn _ _
  · split at h
    · split at h
      · obtain rfl := Option.some.inj h
        exact ((d.moves_onCore _ _).trans (Dev.moves_readyFirst _ _)).trans (Dev.moves_runOn _ _ _)
      · exact absurd h (by simp)
    · exact absurd h (by simp)

theorem Dev.moves_dispatch (d : Dev) (fuel : Nat) : d.Moves (d.dispatch fuel) := by
  induction fuel generalizing d with
  | zero => exact .refl d
  | succ n ih =>
    rw [Dev.dispatch]
    split
    next e he => exact (Dev.moves_dispatchOne he).trans (ih e)
    next => exact .refl d

theorem Dev.moves_prefetch (d : Dev) (ns : List Nat) : d.Moves (ns.foldl Dev.prefetchCore d) :=
  List.foldlRecOn (motive := d.Moves) _ _ (.refl d) fun e h n _ => h.trans (e.moves_prefetchCore n)

theorem Dev.moves_schedule (d : Dev) : d.Moves d.schedule := by
  rw [Dev.schedule]
  exact ((d.moves_dispatch _).trans (Dev.moves_unprefetch _)).trans (Dev.moves_prefetch _ _)

theorem Dev.Moves.hull {d e : Dev} (h : d.Moves e) : e.hull = d.hull := by
  obtain ⟨_, _, _, rfl, -⟩ := h
  rfl

theorem Dev.Moves.threads {d e : Dev} (h : d.Moves e) : e.threads.length = d.threads.length := by
  obtain ⟨_, _, _, rfl, same⟩ := h
  exact same

/-- A thread starts when its pod has a slot for it: one more thread, and nothing of the Hull. -/
theorem Dev.spawn_of_slot {d : Dev} {x : NewThread} {n : Nat} (slot : d.freeThreadSlot x.pod x.priv = some n) :
    ∃ k e, d.spawn x = some (k, e) ∧ e.threads.length = d.threads.length + 1 ∧ e.hull = d.hull := by
  rw [Dev.spawn, slot]
  refine ⟨_, _, rfl, ?_, rfl⟩
  exact (Dev.moves_makeReady _ n).threads.trans (List.length_append)

theorem Dev.freeThreadSlot_onHull (d : Dev) (f : Hull → Hull) (pod : Nat) (priv : Bool) :
    (d.onHull f).freeThreadSlot pod priv = d.freeThreadSlot pod priv := rfl

/-- Settles O18. -/
theorem bootEnds : Obligations.BootEnds := by
  refine ⟨fun s clocked boot => ⟨?shell, ?exec, ?host⟩,
    fun s a clocked trained boot => ⟨fun im n accepted slot => ?starts, fun none₁ none₂ => ?refused⟩⟩
  case shell => exact .of_act (exec_endBoot _ s) clocked ((if_pos rfl).trans (if_pos ⟨by decide, by decide, boot⟩))
  case exec => exact .of_act (exec_endBoot _ s) clocked ((if_pos rfl).trans (if_pos ⟨by decide, by decide, boot⟩))
  case host => exact .of_act (exec_endBoot _ s) clocked ((if_pos rfl).trans (if_neg fun h => h.1 rfl))
  case starts =>
    let e := s.dev.onHull fun h => { h with measure3 := sha3_512 (imageSigned im), mode := 1 }
    obtain ⟨k, f, spawned, more, hull⟩ := Dev.spawn_of_slot (d := e) (x := executiveThread) slot
    refine ⟨_, .of_act (exec_executiveStart a s) clocked ?_, f.moves_schedule.threads.trans more,
      f.moves_schedule.hull.trans hull⟩
    rw [if_neg (by simp [trained, boot]), accepted]
    exact congrArg (fun r : Option (Nat × Dev) => match r with | some r => r.2.schedule | none => e) spawned
  case refused =>
    refine .of_act (exec_executiveStart a s) clocked ?_
    rw [if_neg (by simp [trained, boot]), none₂, none₁]
    rfl

end Sys2Proof.Machine

namespace Sys2Proof.Machine

/-! ### Random numbers, the Pit, Sesame and the debug multiplexer -/

theorem Dev.rngRead_ready {d : Dev} (ready : d.hull.drbgReady = true) :
    d.rngRead = ((Config.drbg d.fresh).toNat, { d with
      fresh := d.fresh + 1, hull := { d.hull with drbgCount := d.hull.drbgCount + 1 } }) :=
  if_pos ready

theorem Dev.rngRead_unready {d : Dev} (wait : d.hull.drbgReady = false) : d.rngRead = (0, d) :=
  if_neg (by simp [wait])

theorem Dev.pitRead_readable {d : Dev} {p : PitSlot} (open_ : d.pitNow = .readable)
    (slot : d.hull.pitSlot (d.get F.SEC_PIT_SEL_SLOT) = some p) :
    d.pitRead = (fieldAt p.bytes (8 * d.get F.SEC_PIT_SEL_WORD) 8, d) := by
  rw [Dev.pitRead, if_pos open_, slot]
  rfl

/-- A put touches the registers alone. -/
theorem Dev.hull_puts (f : Fld) (v : Nat → Nat) (js : List Nat) (d : Dev) :
    (js.foldl (fun d j => d.put f (v j) j) d).hull = d.hull := by
  induction js generalizing d with
  | nil => rfl
  | cons j js ih => exact ih _

theorem Dev.fresh_puts (f : Fld) (v : Nat → Nat) (js : List Nat) (d : Dev) :
    (js.foldl (fun d j => d.put f (v j) j) d).fresh = d.fresh := by
  induction js generalizing d with
  | nil => rfl
  | cons j js ih => exact ih _

/-- A granted request draws a nonce of four words and begins a new token. -/
theorem Dev.sesameRequest_grants {d : Dev} {n : Nat} (unlocked : d.hull.locked = false)
    (healthy : d.hull.healthFail = false) :
    (d.sesameRequest n).hull.nonce = some ((List.range 4).map fun i => Config.drbg (d.fresh + i)) ∧
      (d.sesameRequest n).hull.level = n ∧ (d.sesameRequest n).hull.token = [] ∧
      (d.sesameRequest n).hull.tokenOver = false ∧ (d.sesameRequest n).fresh = d.fresh + 4 := by
  have granted : ¬((d.put F.DBG_SESAME_CTRL_LEVEL_REQ n).hull.locked ||
      (d.put F.DBG_SESAME_CTRL_LEVEL_REQ n).hull.healthFail) = true := by
    rw [Dev.put_hull, unlocked, healthy]
    exact Bool.false_ne_true
  simp only [Dev.sesameRequest]
  rw [if_neg granted, Dev.hull_puts F.DBG_SESAME_NONCE_NONCE, Dev.fresh_puts F.DBG_SESAME_NONCE_NONCE]
  exact ⟨rfl, rfl, rfl, rfl, rfl⟩

theorem Dev.sesameSubmit_good {d : Dev} {n : List Word} (idle : d.hull.verifying = false) (nonce : d.hull.nonce = some n)
    (fits : d.hull.tokenOver = false) (whole : d.hull.token.length = 3732)
    (challenge : (d.hull.token.flatMap fun x => leBytes 8 x.toNat).take 64 = d.challenge n) :
    d.sesameSubmit = { d with hull := { d.hull with
      nonce := none, verifying := true, submitted := d.hull.token.flatMap fun x => leBytes 8 x.toNat } } := by
  simp only [Dev.sesameSubmit, Dev.onHull, idle, nonce, fits, whole, challenge, beq_self_eq_true]
  rfl

/-- A token that fails its checks counts as a failure; the sixteenth locks Sesame. -/
theorem Dev.sesameDone_bad {d : Dev} (busy : d.hull.verifying = true) (bad : d.hull.tokenGood = false) :
    d.sesameDone =
      let e := ({ d with hull := { d.hull with
        fails := d.hull.fails + 1, sesameResult := 2, locked := decide (16 ≤ d.hull.fails + 1)
        verifying := false, submitted := [] } } : Dev)
      e.logEvent 3 0 (Config.eventCode 3) e.securityData [] := by
  simp only [Dev.sesameDone, busy, bad]
  rfl

/-- DENIED as any requester reads it. -/
theorem Dev.denied_shown (d : Dev) (src : RegFrom) :
    bitsOf (d.readShown src ⟨.DBG_MUX, 0, 0⟩) 1 1 = d.muxRefused.toNat := by
  refine (bitsOf_setBits _ _ _ _).trans ?_
  cases d.muxRefused <;> rfl

theorem Dev.muxRefused_select (d : Dev) (group : BitVec 8) (en : Bool) :
    ((d.put F.DBG_MUX_GROUP group.toNat).put F.DBG_MUX_EN en.toNat).muxRefused =
      (en && decide (muxLimit d.hull.otp.lifecycle d.hull.debug ≤ group.toNat)) := by
  rw [Dev.muxRefused, Dev.muxDenied, Dev.put_hull, Dev.put_hull,
    Dev.get_put_field _ F.DBG_MUX_EN F.DBG_MUX_GROUP _ 0 0 rfl (by decide) (by decide),
    Dev.get_put_of_lt _ 0 0 (by decide) (show en.toNat < _ by cases en <;> decide),
    Dev.get_put_of_lt _ 0 0 (by decide) (show group.toNat < _ from group.isLt)]
  cases en <;> rfl

/-- Settles O20. -/
theorem hullCommands : Obligations.HullCommands := by
  refine ⟨fun s who clocked => ⟨fun ready => ⟨?random, ?reseed⟩, fun wait => ?noRandom, fun healthy => ?fails,
      fun readable p slot => ?pit, fun hidden => ?pitHidden⟩,
    fun s level w clocked => ⟨fun barred => ?barred, fun unlocked healthy => ?request, fun room => ?word,
      fun full => ?full, fun idle nonce => ?noNonce,
      fun idle n nonce fits whole challenge => ?submit, ?drop⟩,
    fun s clocked busy bad => ?verify, fun s group en clocked => ⟨?select, ?denied⟩⟩
  case random =>
    refine .of_act (exec_rngRead who s) clocked ?_
    rw [Dev.rngRead_ready ready]
  case reseed => exact .of_act (exec_drbgReseed s) clocked (if_pos ready)
  case noRandom =>
    refine .of_act (exec_rngRead who s) clocked ?_
    rw [Dev.rngRead_unready wait]
  case fails => exact .of_act (exec_entropyHealthFail s) clocked (if_neg (by simp [healthy]))
  case pit =>
    refine .of_act (exec_pitRead who s) clocked ?_
    rw [Dev.pitRead_readable readable slot]
  case pitHidden =>
    refine .of_act (exec_pitRead who s) clocked ?_
    rw [Dev.pitRead, if_neg hidden]
  case barred => exact .of_act (exec_sesameRequest level s) clocked (if_pos (by simpa using barred))
  case request =>
    exact ⟨_, .of_act (exec_sesameRequest level s) clocked rfl, Dev.sesameRequest_grants unlocked healthy⟩
  case word =>
    refine .of_act (exec_sesameResponseWord w s) clocked ?_
    rw [Dev.sesameWord, Dev.onHull, if_pos room]
  case full =>
    refine .of_act (exec_sesameResponseWord w s) clocked ?_
    rw [Dev.sesameWord, Dev.onHull, if_neg (Nat.not_lt.mpr full)]
  case noNonce =>
    refine .of_act (exec_sesameSubmit s) clocked ?_
    simp only [Dev.sesameSubmit, idle, nonce]
    rfl
  case submit => exact .of_act (exec_sesameSubmit s) clocked (Dev.sesameSubmit_good idle nonce fits whole challenge)
  case drop => exact .of_act (exec_sesameDrop s) clocked rfl
  case verify => exact .of_act (exec_sesameVerifyDone s) clocked (Dev.sesameDone_bad busy bad)
  case select => exact .of_act (exec_debugMuxSelect group en s) clocked rfl
  case denied => exact (Dev.denied_shown _ _).trans (congrArg Bool.toNat (s.dev.muxRefused_select group en))

end Sys2Proof.Machine

/-!
# The Shell (spec ch. 16)
-/

namespace Sys2Proof.Machine

/-! ### What the endpoints answer -/

/-- A request that is served does what its command does. -/
theorem Gives.of_mgmt {c : Instr} {s : State} {b : Binding} {k : Ask} {f : Dev → Dev} {d : Dev}
    (e : exec c s = s.mgmt b k f) (served : s.dev.serves b k = true) (h : f s.dev = d) : Gives c s d :=
  .of_always e ((if_pos served).trans h)

/-- A response leaves the device at once. -/
theorem Dev.mctpAnswer_eq (d : Dev) (b : Binding) (kind : Nat) (body : List Nat) :
    d.mctpAnswer b kind body = { d with out := .mctp b kind body :: d.out } :=
  Dev.emit_out rfl

/-- A command of the update in progress, in one of its states. -/
theorem Dev.inUpdate_of {d : Dev} {b : Binding} {u : Update} {states : List Nat} (k : Nat) (f : Update → Dev)
    (has : d.shell.update = some u) (his : u.binding = b) (st : u.state ∈ states) : d.inUpdate b k states f = f u := by
  have of : d.updateOf b = some u := by simp [Dev.updateOf, has, his]
  simp only [Dev.inUpdate, of]
  exact if_pos (List.contains_iff_mem.mpr st)

theorem Dev.inUpdate_none {d : Dev} (b : Binding) (k : Nat) (states : List Nat) (f : Update → Dev)
    (no : d.shell.update = none) : d.inUpdate b k states f = d.mctpAnswer b (0x500 + k) [0x80] := by
  have of : d.updateOf b = none := by simp [Dev.updateOf, no]
  simp only [Dev.inUpdate, of]

theorem find?_upsert {α : Type} {p : α → Bool} {x : α} (l : List α) (hx : p x = true) :
    (upsert p x l).find? p = some x := by
  induction l with
  | nil => simp [upsert, hx]
  | cons y ys ih =>
    rw [upsert]
    split
    · rw [List.find?_cons_of_pos hx]
    next no => rw [List.find?_cons_of_neg no, ih]

/-- An event log entry is all that changes in the Shell. -/
theorem Dev.logEvent_shell (d : Dev) (kind sev code : Nat) (data record : List Byte) :
    ∃ l n, (d.logEvent kind sev code data record).shell = { d.shell with log := l, logSeq := n } := by
  rw [Dev.logEvent]
  split
  · exact ⟨_, _, rfl⟩
  · exact ⟨_, _, rfl⟩

theorem Dev.logEvent_hull (d : Dev) (kind sev code : Nat) (data record : List Byte) :
    (d.logEvent kind sev code data record).hull = d.hull := by
  rw [Dev.logEvent]
  split <;> rfl

/-- The image that was received takes effect. -/
theorem Shell.apply_policy {s : Shell} {u : Update} (h : u.component = 3) : (s.apply u).policy = some u.received := by
  rw [Shell.apply, if_pos h]

theorem Shell.apply_active {s : Shell} {u : Update} (h : u.component ≠ 3) :
    (s.apply u).active u.component = s.target u.component := by
  have found := find?_upsert (p := fun x : Nat × Bool => x.1 == u.component) (x := (u.component, s.target u.component))
    s.activeB (beq_self_eq_true _)
  rw [Shell.apply, if_neg h]
  exact congrArg (fun o : Option (Nat × Bool) => (o.map fun x => x.2).getD false) found

/-- What APPLY_COMPLETE does outside RECOVERY. -/
def Dev.applied (d : Dev) (b : Binding) (u : Update) : Dev :=
  (((d.onShell fun s => s.apply u).setUpdate (some { u with state := 2, received := [] })).logEvent 4 0
    (Config.eventCode 6) (leBytes 2 u.component) []).mctpAnswer b 0x518 [0]

theorem Dev.applied_hull (d : Dev) (b : Binding) (u : Update) : (d.applied b u).hull = d.hull := by
  rw [Dev.applied, Dev.mctpAnswer_eq]
  exact Dev.logEvent_hull _ _ _ _ _ _

theorem Dev.applied_shell (d : Dev) (b : Binding) (u : Update) : ∃ l n, (d.applied b u).shell =
    { d.shell.apply u with update := some { u with state := 2, received := [] }, log := l, logSeq := n } := by
  rw [Dev.applied, Dev.mctpAnswer_eq]
  exact Dev.logEvent_shell _ _ _ _ _ _

section

variable {s : State} {b : Binding} {u : Update}

/-- A served command of the update in progress. -/
theorem Gives.of_update {c : Instr} {k : Nat} {states : List Nat} {f : Dev → Update → Dev} {d : Dev}
    (e : exec c s = s.mgmt b .update fun d => d.inUpdate b k states (f d)) (served : s.dev.serves b .update = true)
    (has : s.dev.shell.update = some u) (his : u.binding = b) (st : u.state ∈ states) (h : f s.dev u = d) :
    Gives c s d :=
  .of_mgmt e served ((Dev.inUpdate_of k _ has his st).trans h)

end

/-- Settles O21. -/
theorem firmwareUpdateCommands : Obligations.FirmwareUpdateCommands := by
  intro s b served
  refine ⟨.of_mgmt (exec_queryDeviceIdentifiers b s) served rfl, .of_mgmt (exec_getFirmwareParameters b s) served rfl,
    fun no => ⟨?request, ?status, ?cancelNone⟩,
    fun u has his => ⟨?again, ?statusOf, fun c st => ?pass, fun c n st ok fits => ?component, fun bs st => ?data,
      fun st whole => ?transferred, fun st short => ?short, fun st good => ?verified, fun st bad => ?bad,
      fun st mode => ?apply, fun st => ⟨?selfContained, ?activate⟩, fun st => ?cancelComponent,
      fun least most => ?cancel⟩⟩
  case request => exact .of_mgmt (exec_requestUpdate b s) served (if_neg (by simp [no]))
  case status =>
    refine .of_mgmt (exec_getStatus b s) served ?_
    rw [no]
    rfl
  case cancelNone => exact .of_mgmt (exec_cancelUpdate b s) served (Dev.inUpdate_none b _ _ _ no)
  case again => exact .of_mgmt (exec_requestUpdate b s) served (if_pos (by simp [has]))
  case statusOf =>
    refine .of_mgmt (exec_getStatus b s) served ?_
    rw [has]
    rfl
  case pass => exact .of_update (exec_passComponentTable b c s) served has his (by simpa using st) rfl
  case component =>
    exact .of_update (exec_updateComponent b c n s) served has his (by simp [st]) (if_pos (by simp [ok, fits]))
  case data => exact .of_update (exec_requestFirmwareData b bs s) served has his (by simp [st]) rfl
  case transferred => exact .of_update (exec_transferComplete b s) served has his (by simp [st]) (if_pos whole)
  case short => exact .of_update (exec_transferComplete b s) served has his (by simp [st]) (if_neg short)
  case verified => exact .of_update (exec_verifyComplete b s) served has his (by simp [st]) (if_pos good)
  case bad => exact .of_update (exec_verifyComplete b s) served has his (by simp [st]) (if_neg (by simp [bad]))
  case apply =>
    obtain ⟨l, n, shell⟩ := s.dev.applied_shell b u
    have outside : ¬(s.dev.applied b u).hull.mode = 3 := by rwa [Dev.applied_hull]
    refine ⟨s.dev.applied b u, .of_update (exec_applyComplete b s) served has his (by simp [st]) (if_neg outside), ?_⟩
    rw [shell]
    exact ⟨rfl, Shell.apply_policy, Shell.apply_active⟩
  case selfContained => exact .of_update (exec_activateFirmware b true s) served has his (by simp [st]) rfl
  case activate => exact .of_update (exec_activateFirmware b false s) served has his (by simp [st]) rfl
  case cancelComponent => exact .of_update (exec_cancelUpdateComponent b s) served has his (by simpa using st) rfl
  case cancel =>
    have st : u.state ∈ [1, 2, 3, 4, 5] := by
      simp only [List.mem_cons, List.not_mem_nil, or_false]
      omega
    exact .of_update (exec_cancelUpdate b s) served has his st rfl

/-- A reading that no rail range is set for is stored only. -/
theorem Dev.sample_low {d : Dev} {r : SensorReading} (low : r.sensor.toNat < 41) : d.sample r =
    { d with shell := { d.shell with readings := upsert (fun x => x.sensor == r.sensor) r d.shell.readings } } := by
  have none (e : Dev) : e.railFault r = none := by rw [Dev.railFault, if_pos (Or.inl low)]
  simp only [Dev.sample, none]
  rfl

/-- Settles O22. -/
theorem sensorAndControlAnswers : Obligations.SensorAndControlAnswers := by
  refine ⟨⟨fun s b h n served => ⟨?info, ?pdr, fun least most => ⟨fun v has => ?read, fun no => ?unread⟩,
      fun out => ?outside, ?power, ?lifecycle, fun ne₁ ne₂ => ?other⟩,
    fun s b eid served => ⟨fun least most => ?setEid, ?getEid, ?types⟩, fun s b n served => ?log⟩,
    fun s r runs up low => ?sample⟩
  case info => exact .of_mgmt (exec_getPdrRepositoryInfo b s) served rfl
  case pdr => exact .of_mgmt (exec_getPdr b h s) served rfl
  case read =>
    refine .of_mgmt (exec_getSensorReading b n s) served ((if_neg (by omega)).trans ?_)
    rw [has]
    rfl
  case unread =>
    refine .of_mgmt (exec_getSensorReading b n s) served ((if_neg (by omega)).trans ?_)
    rw [no]
    rfl
  case outside => exact .of_mgmt (exec_getSensorReading b n s) served (if_pos out)
  case power => exact .of_mgmt (exec_getStateSensorReadings b 100 s) served rfl
  case lifecycle => exact .of_mgmt (exec_getStateSensorReadings b 101 s) served rfl
  case other =>
    refine .of_mgmt (exec_getStateSensorReadings b n s) served ?_
    dsimp only
    split
    next is => exact absurd is ne₁
    next is => exact absurd is ne₂
    next => rfl
  case setEid => exact .of_mgmt (exec_mctpControl b 1 eid s) served (if_neg (by omega))
  case getEid => exact .of_mgmt (exec_mctpControl b 2 eid s) served rfl
  case types => exact .of_mgmt (exec_mctpControl b 5 eid s) served rfl
  case log => exact .of_mgmt (exec_eventLogReadMessage b n s) served rfl
  case sample => exact .of_always (exec_sensorSample [r] s) ((if_pos ⟨runs, up⟩).trans (Dev.sample_low low))

/-! ### Attestation -/

/-- A signing begins: four random words are drawn and the transcript is consumed. -/
theorem Dev.beginSign_idle {d : Dev} (b : Binding) (req : Nat) (ask : List Byte) (body : List Nat)
    (idle : d.shell.signing = none) (healthy : d.hull.healthFail = false) :
    ∃ rsp, (d.beginSign b req ask body).shell.signing = some (b, BitVec.ofNat 8 (req - 0x80) :: rsp) ∧
      (d.beginSign b req ask body).shell.transcript = [] ∧ (d.beginSign b req ask body).fresh = d.fresh + 4 := by
  rw [Dev.beginSign, if_neg (by simp [idle]), if_neg (by simp [healthy])]
  exact ⟨_, rfl, rfl, rfl⟩

/-- Settles O23. -/
theorem attestationAnswers : Obligations.AttestationAnswers := by
  refine ⟨fun s b served => ?version, fun s b off len nonce served =>
      ⟨fun bare => ⟨?capsBare, ?digestsBare, ?certBare, ?challengeBare⟩,
        fun has => ⟨?caps, ?digests, ?cert, fun idle healthy => ?challenge⟩, ?algorithms⟩,
    fun s b i nonce served body measured => ?measure, fun s b r signing runs => ?signed⟩
  case version => exact .of_mgmt (exec_getVersion b s) served rfl
  case capsBare =>
    refine .of_mgmt (exec_getCapabilities b s) served ?_
    rw [bare]
    rfl
  case digestsBare => exact .of_mgmt (exec_getDigests b s) served (if_neg (by simp [bare]))
  case certBare => exact .of_mgmt (exec_getCertificate b 0 off len s) served (if_pos (by simp [bare]))
  case challengeBare => exact .of_mgmt (exec_challenge b 0 nonce s) served (if_pos (by simp [bare]))
  case caps =>
    refine .of_mgmt (exec_getCapabilities b s) served ?_
    rw [has]
    rfl
  case digests => exact .of_mgmt (exec_getDigests b s) served (if_pos has)
  case cert =>
    exact .of_mgmt (exec_getCertificate b 0 off len s) served ((if_neg (by simp [has])).trans (if_neg (by simp)))
  case challenge =>
    obtain ⟨rsp, signing, transcript, fresh⟩ := s.dev.beginSign_idle b 0x83 nonce.toList
      (natsOf (sha3_512 Config.certificateChain)) idle healthy
    exact ⟨_, .of_mgmt (exec_challenge b 0 nonce s) served ((if_neg (by simp [has])).trans (if_neg (by simp))),
      transcript, fresh, _, signing, rfl⟩
  case algorithms => exact .of_mgmt (exec_negotiateAlgorithms b s) served rfl
  case measure =>
    refine .of_mgmt (exec_getMeasurements b i false nonce s) served ?_
    rw [measured]
    rfl
  case signed =>
    refine .of_always (exec_spdmSignDone s) ?_
    rw [signing]
    exact if_neg (by simp [runs])

end Sys2Proof.Machine

/-!
# The mailbox (spec ch. 14)
-/

namespace Sys2Proof.Machine

/-! ### Writes of several instances of a register -/

/-- A device that differs in its registers only. -/
def Dev.RegsOnly (d e : Dev) : Prop := ∃ r, e = { d with regs := r }

theorem Dev.RegsOnly.refl (d : Dev) : d.RegsOnly d := ⟨_, rfl⟩

theorem Dev.RegsOnly.trans {d e f : Dev} (h : d.RegsOnly e) (k : e.RegsOnly f) : d.RegsOnly f := by
  obtain ⟨r, rfl⟩ := h
  obtain ⟨t, rfl⟩ := k
  exact ⟨t, rfl⟩

theorem Dev.regsOnly_put (d : Dev) (f : Fld) (v i j : Nat) : d.RegsOnly (d.put f v i j) := ⟨_, rfl⟩

theorem Dev.regsOnly_puts (d : Dev) (f : Fld) (v : Nat → Nat) (i : Nat) (js : List Nat) :
    d.RegsOnly (js.foldl (fun d j => d.put f (v j) i j) d) :=
  List.foldlRecOn (motive := d.RegsOnly) js _ (.refl d) fun _ h _ _ => h.trans (Dev.regsOnly_put _ _ _ _ _)

theorem Dev.regsOnly_leaveP1 (d : Dev) : d.RegsOnly d.leaveP1 := by
  rw [Dev.leaveP1]
  split
  · exact d.regsOnly_put _ _ _ _
  · exact .refl d

theorem Dev.get_puts_ne {f g : Fld} {v : Nat → Nat} {i k l : Nat} {js : List Nat} (d : Dev)
    (apart : ∀ j ∈ js, RegRef.addr ⟨g.kind, k, l⟩ ≠ RegRef.addr ⟨f.kind, i, j⟩) :
    (js.foldl (fun d j => d.put f (v j) i j) d).get g k l = d.get g k l := by
  induction js generalizing d with
  | nil => rfl
  | cons j js ih =>
    rw [List.foldl_cons, ih _ fun a mem => apart a (List.mem_cons_of_mem j mem),
      Dev.get_put_ne _ _ _ _ _ _ _ _ (apart j List.mem_cons_self)]

/-- After a row of writes each register holds what was written to it. -/
theorem Dev.get_puts {f : Fld} {v : Nat → Nat} {i j : Nat} {js : List Nat} (d : Dev) (width : f.lo + f.width ≤ 64)
    (fits : v j < 2 ^ f.width) (once : js.Nodup)
    (apart : ∀ k ∈ js, k ≠ j → RegRef.addr ⟨f.kind, i, j⟩ ≠ RegRef.addr ⟨f.kind, i, k⟩) (mem : j ∈ js) :
    (js.foldl (fun d j => d.put f (v j) i j) d).get f i j = v j := by
  induction js generalizing d with
  | nil => exact absurd mem List.not_mem_nil
  | cons k js ih =>
    rw [List.foldl_cons]
    obtain ⟨fresh, once⟩ := List.nodup_cons.mp once
    by_cases later : j ∈ js
    · exact ih _ once (fun a h => apart a (List.mem_cons_of_mem k h)) later
    · obtain rfl : j = k := (List.mem_cons.mp mem).resolve_right later
      rw [Dev.get_puts_ne _ fun a h => apart a (List.mem_cons_of_mem j h) fun e => fresh (e ▸ h)]
      exact Dev.get_put_of_lt d i j width fits

theorem Dev.get_leaveP1_ne (d : Dev) {g : Fld} {k l : Nat}
    (apart : RegRef.addr ⟨g.kind, k, l⟩ ≠ RegRef.addr ⟨.PWR_STATE, 0, 0⟩) :
    d.leaveP1.get g k l = d.get g k l := by
  rw [Dev.leaveP1]
  split
  · exact Dev.get_put_ne _ _ _ _ _ _ _ _ apart
  · rfl

/-! ### The command words -/

section

variable (d : Dev) (p : Fin 64) (ws : List Nat)

/-- The device with the command words of a pod's mailbox written. -/
def Dev.mbxWrite : Dev := (List.range 8).foldl (fun (d : Dev) j => d.put F.CTL_MBX_CMD_CMD (ws.getD j 0) p.val j) d

/-- The device that takes the command: it leaves P1 and is BUSY with it. -/
def Dev.mbxTake : Dev := (d.mbxWrite p ws).leaveP1.put F.CTL_MBX_CTRL_BUSY 1 p.val

theorem Dev.regsOnly_mbxTake : d.RegsOnly (d.mbxTake p ws) :=
  ((d.regsOnly_puts _ _ _ _).trans (Dev.regsOnly_leaveP1 _)).trans (Dev.regsOnly_put _ _ _ _ _)

theorem addr_busy_ne_cmd : ∀ (p : Fin 64), ∀ j < 8, RegRef.addr ⟨.CTL_MBX_CTRL, p.val, 0⟩ ≠
    RegRef.addr ⟨.CTL_MBX_CMD, p.val, j⟩ := by decide +kernel

theorem addr_pod_ne_cmd : ∀ (p : Fin 64), ∀ j < 8, RegRef.addr ⟨.POD_STATUS, p.val, 0⟩ ≠
    RegRef.addr ⟨.CTL_MBX_CMD, p.val, j⟩ := by decide +kernel

theorem addr_cmd_inj : ∀ (p : Fin 64), ∀ j < 8, ∀ k < 8, k ≠ j → RegRef.addr ⟨.CTL_MBX_CMD, p.val, j⟩ ≠
    RegRef.addr ⟨.CTL_MBX_CMD, p.val, k⟩ := by decide +kernel

theorem addr_ne_pwr : ∀ (p : Fin 64), RegRef.addr ⟨.POD_STATUS, p.val, 0⟩ ≠ RegRef.addr ⟨.PWR_STATE, 0, 0⟩ ∧
    RegRef.addr ⟨.CTL_MBX_CTRL, p.val, 0⟩ ≠ RegRef.addr ⟨.PWR_STATE, 0, 0⟩ ∧
    RegRef.addr ⟨.POD_STATUS, p.val, 0⟩ ≠ RegRef.addr ⟨.CTL_MBX_CTRL, p.val, 0⟩ ∧
    ∀ j < 8, RegRef.addr ⟨.CTL_MBX_CMD, p.val, j⟩ ≠ RegRef.addr ⟨.PWR_STATE, 0, 0⟩ ∧
      RegRef.addr ⟨.CTL_MBX_CMD, p.val, j⟩ ≠ RegRef.addr ⟨.CTL_MBX_CTRL, p.val, 0⟩ := by decide +kernel

theorem Dev.busy_mbxWrite :
    (d.mbxWrite p ws).leaveP1.get F.CTL_MBX_CTRL_BUSY p.val = d.get F.CTL_MBX_CTRL_BUSY p.val := by
  obtain ⟨-, ctrl, -, -⟩ := addr_ne_pwr p
  rw [Dev.get_leaveP1_ne _ ctrl]
  exact Dev.get_puts_ne d fun j mem => addr_busy_ne_cmd p j (List.mem_range.mp mem)

theorem Dev.podState_mbxTake : (d.mbxTake p ws).podState p.val = d.podState p.val := by
  obtain ⟨pod, -, ctrl, -⟩ := addr_ne_pwr p
  rw [Dev.podState, Dev.mbxTake, Dev.get_put_ne _ _ _ _ _ _ _ _ ctrl, Dev.get_leaveP1_ne _ pod]
  exact Dev.get_puts_ne d fun j mem => addr_pod_ne_cmd p j (List.mem_range.mp mem)

variable (words : ∀ j, ws.getD j 0 < 2 ^ 64)
include words

theorem Dev.mbxWord_mbxWrite {j : Nat} (lt : j < 8) : (d.mbxWrite p ws).leaveP1.mbxWord p.val j = ws.getD j 0 := by
  obtain ⟨-, -, -, cmd⟩ := addr_ne_pwr p
  rw [Dev.mbxWord, Dev.get_leaveP1_ne _ (cmd j lt).1]
  exact Dev.get_puts d (by decide) (words j) List.nodup_range
    (fun k mem => addr_cmd_inj p j lt k (List.mem_range.mp mem)) (List.mem_range.mpr lt)

theorem Dev.mbxWord_mbxTake {j : Nat} (lt : j < 8) : (d.mbxTake p ws).mbxWord p.val j = ws.getD j 0 := by
  obtain ⟨-, -, -, cmd⟩ := addr_ne_pwr p
  rw [Dev.mbxWord, Dev.mbxTake, Dev.get_put_ne _ _ _ _ _ _ _ _ (cmd j lt).2]
  exact d.mbxWord_mbxWrite p ws words lt

theorem Dev.mbxZeroFrom_mbxTake {n : Nat} (len : ws.length ≤ n) : (d.mbxTake p ws).mbxZeroFrom p.val n = true := by
  rw [Dev.mbxZeroFrom, List.all_eq_true]
  intro k mem
  by_cases lt : k < n
  · simp [lt]
  · rw [d.mbxWord_mbxTake p ws words (List.mem_range.mp mem), List.getD_eq_default _ _ (by omega)]
    simp

end

/-! ### The commands -/

/-- The device with a worked command's response. -/
def mbxReply (p : Nat) (irq : Bool) (r : List Nat × Dev) : Dev :=
  { r.2 with mbxs := r.2.mbxs ++ [⟨p, r.1.map (BitVec.ofNat 64), irq⟩] }

section

variable {s : State} {p : Fin 64} {irq : Bool} {c : Instr} {ws : List Nat}

/-- While a command is in progress, GO sets REJ. -/
theorem Gives.mbx_rejected (e : exec c s = s.act fun d => d.mbxIssue p.val ws) (clocked : s.dev.clocked)
    (busy : s.dev.get F.CTL_MBX_CTRL_BUSY p.val = 1) :
    Gives c s ((s.dev.mbxWrite p ws).leaveP1.put F.CTL_MBX_CTRL_REJ 1 p.val) :=
  .of_act e clocked (if_pos ((s.dev.busy_mbxWrite p ws).trans busy))

/-- Otherwise the command is worked, and its response waits for the executive. -/
theorem Gives.mbx_taken {rsp : List Nat} {f : Dev} (e : exec c s = s.act fun d => d.mbxIssue p.val ws)
    (clocked : s.dev.clocked) (idle : s.dev.get F.CTL_MBX_CTRL_BUSY p.val = 0) (words : ∀ j, ws.getD j 0 < 2 ^ 64)
    (bit : (ws.getD 0 0).testBit 8 = irq) (run : (s.dev.mbxTake p ws).mbxRun p.val = (rsp, f)) :
    Gives c s { f with mbxs := f.mbxs ++ [⟨p.val, rsp.map (BitVec.ofNat 64), irq⟩] } := by
  have free : ¬(s.dev.mbxWrite p ws).leaveP1.get F.CTL_MBX_CTRL_BUSY p.val = 1 := by
    rw [s.dev.busy_mbxWrite p ws, idle]
    decide
  refine .of_act e clocked ((if_neg free).trans ?_)
  have word := s.dev.mbxWord_mbxWrite p ws words (j := 0) (by decide)
  change mbxReply p.val (((s.dev.mbxWrite p ws).leaveP1.mbxWord p.val 0).testBit 8)
    ((s.dev.mbxTake p ws).mbxRun p.val) = mbxReply p.val irq (rsp, f)
  rw [word, bit, run]

end

section

variable {d : Dev} {p : Nat}

/-- A command of a pod that is ACTIVE or QUIESCED. -/
theorem Dev.mbxRun_unknown (live : d.podState p = 2 ∨ d.podState p = 4)
    (bad : 2 ^ 9 ≤ d.mbxWord p 0 ∨ (d.mbxWord p 0 % 256 = 0 ∨ 4 < d.mbxWord p 0 % 256)) : d.mbxRun p = ([1], d) := by
  simp only [Dev.mbxRun]
  rw [if_neg (by omega)]
  split
  · rfl
  · split
    next is => omega
    next is => omega
    next is => omega
    next is => omega
    next => rfl

theorem Dev.mbxRun_register {irq : Bool} (live : d.podState p = 2 ∨ d.podState p = 4) (op : d.mbxWord p 0 = mbxOp 1 irq)
    (zero : d.mbxZeroFrom p 3 = true) : d.mbxRun p = d.mbxRegister p (d.mbxWord p 1) (d.mbxWord p 2) := by
  simp only [Dev.mbxRun]
  rw [if_neg (by omega), op, zero]
  cases irq <;> rfl

theorem Dev.mbxRun_deregister {irq : Bool} (live : d.podState p = 2 ∨ d.podState p = 4)
    (op : d.mbxWord p 0 = mbxOp 2 irq) (zero : d.mbxZeroFrom p 2 = true) :
    d.mbxRun p = d.mbxDeregister p (d.mbxWord p 1) := by
  simp only [Dev.mbxRun]
  rw [if_neg (by omega), op, zero]
  cases irq <;> rfl

theorem Dev.mbxRun_query {irq : Bool} (live : d.podState p = 2 ∨ d.podState p = 4) (op : d.mbxWord p 0 = mbxOp 3 irq)
    (zero : d.mbxZeroFrom p 2 = true) : d.mbxRun p = d.mbxQuery p (d.mbxWord p 1) := by
  simp only [Dev.mbxRun]
  rw [if_neg (by omega), op, zero]
  cases irq <;> rfl

theorem Dev.mbxRun_info {irq : Bool} (live : d.podState p = 2 ∨ d.podState p = 4) (op : d.mbxWord p 0 = mbxOp 4 irq)
    (zero : d.mbxZeroFrom p 1 = true) : d.mbxRun p = d.mbxInfo p := by
  simp only [Dev.mbxRun]
  rw [if_neg (by omega), op, zero]
  cases irq <;> rfl

theorem Dev.mbxRegister_full {a l : Nat} (full : 1024 ≤ d.progCount p) : d.mbxRegister p a l = ([2], d) := if_pos full

theorem Dev.mbxRegister_room {a l : Nat} (room : d.progCount p < 1024) : d.mbxRegister p a l =
    ([0, d.handleFrom p 1026 (d.handleNext p)], { d with
      progs := d.progs ++ [⟨p, d.handleFrom p 1026 (d.handleNext p), a, l, false⟩]
      handles := upsert (fun x => x.1 == p) (p, (d.handleFrom p 1026 (d.handleNext p) + 1) % 2 ^ 32) d.handles }) :=
  if_neg (Nat.not_le.mpr room)

theorem Dev.mbxDeregister_none {h : Nat} (no : d.progOf p h = none) : d.mbxDeregister p h = ([3], d) := by
  simp only [Dev.mbxDeregister, no]

theorem Dev.mbxDeregister_some {h : Nat} {g : ProgReg} (has : d.progOf p h = some g) : d.mbxDeregister p h = ([0], { d with
    progs := d.progs.map fun g => if g.pod = p ∧ g.handle = h then { g with dereg := true } else g }) := by
  simp only [Dev.mbxDeregister, has, mapIf, Bool.and_eq_true, beq_iff_eq]

theorem Dev.mbxQuery_none {h : Nat} (no : d.progOf p h = none) : d.mbxQuery p h = ([3], d) := by
  simp only [Dev.mbxQuery, no]

theorem Dev.mbxQuery_some {h : Nat} {g : ProgReg} (has : d.progOf p h = some g) :
    d.mbxQuery p h = ([0, g.addr, g.len, d.residentMask p h + 256 * g.dereg.toNat], d) := by
  simp only [Dev.mbxQuery, has]

end

theorem mbxOp_eq (op : Nat) (irq : Bool) : op + (if irq = true then 256 else 0) = mbxOp op irq := by cases irq <;> rfl

theorem mbxOp_bit {op : Nat} (irq : Bool) (small : op < 5) : (mbxOp op irq).testBit 8 = irq := by
  cases irq <;> interval_cases op <;> rfl

/-- A program that no run uses is forgotten. -/
theorem Dev.forgetProg_eq (d : Dev) (p h : Nat) : d.forgetProg p h = { d with
    progs := d.progs.filter fun g => ¬(g.pod = p ∧ g.handle = h)
    pgc := d.pgc.filter fun e => ¬(e.pod = p ∧ e.handle = h) } := by
  have same (a b : Nat) : (!(a == p && b == h)) = decide (¬(a = p ∧ b = h)) := by
    rw [Bool.eq_iff_iff]
    simp
  simp only [Dev.forgetProg, same]

theorem Dev.mbxFinish_eq {d : Dev} {p : Nat} {m : Mbx} (quiet : m.irq = false) : d.mbxFinish p m =
    (((List.range 8).foldl (fun (d : Dev) j => d.put F.CTL_MBX_RSP_RSP (m.rsp.getD j 0).toNat p j)
      { d with mbxs := d.mbxs.filter fun x => x.pod ≠ p }).put F.CTL_MBX_CTRL_BUSY 0 p).put F.CTL_MBX_CTRL_DONE 1 p := by
  simp only [Dev.mbxFinish, quiet, bne_eq_decide_ne]
  rfl

/-! ### The device outside its registers -/

section

variable {d e : Dev} (h : d.RegsOnly e)
include h

theorem Dev.RegsOnly.progOf (p n : Nat) : e.progOf p n = d.progOf p n := by
  obtain ⟨_, rfl⟩ := h
  rfl

theorem Dev.RegsOnly.progCount (p : Nat) : e.progCount p = d.progCount p := by
  obtain ⟨_, rfl⟩ := h
  rfl

theorem Dev.RegsOnly.handleFrom (p fuel n : Nat) : e.handleFrom p fuel n = d.handleFrom p fuel n := by
  induction fuel generalizing n with
  | zero => rfl
  | succ fuel ih => rw [Dev.handleFrom, Dev.handleFrom, h.progOf, ih]

theorem Dev.RegsOnly.handleNext (p : Nat) : e.handleNext p = d.handleNext p := by
  obtain ⟨_, rfl⟩ := h
  rfl

theorem Dev.RegsOnly.residentMask (p n : Nat) : e.residentMask p n = d.residentMask p n := by
  obtain ⟨_, rfl⟩ := h
  rfl

end

/-! ### The commands of the mailbox -/

/-- Words of 64 bits. -/
theorem getD_lt {ws : List Nat} (fit : ∀ w ∈ ws, w < 2 ^ 64) (j : Nat) : ws.getD j 0 < 2 ^ 64 := by
  by_cases lt : j < ws.length
  · rw [List.getD_eq_getElem _ _ lt]
    exact fit _ (List.getElem_mem lt)
  · rw [List.getD_eq_default _ _ (Nat.not_lt.mp lt)]
    decide

theorem mbxOp_lt {op : Nat} (irq : Bool) (small : op < 5) : mbxOp op irq < 2 ^ 64 := by
  cases irq <;> simp only [mbxOp, Bool.toNat_false, Bool.toNat_true] <;> omega

section

variable {s : State} (p : Fin 64) (irq : Bool) (x y : Word)

theorem mbxWords_lt {op : Nat} (small : op < 5) :
    (∀ j, [mbxOp op irq, x.toNat, y.toNat].getD j 0 < 2 ^ 64) ∧ (∀ j, [mbxOp op irq, x.toNat].getD j 0 < 2 ^ 64) ∧
      ∀ j, [mbxOp op irq].getD j 0 < 2 ^ 64 := by
  have hop := mbxOp_lt irq small
  have hx : x.toNat < 2 ^ 64 := x.isLt
  have hy : y.toNat < 2 ^ 64 := y.isLt
  exact ⟨getD_lt (by simp only [List.forall_mem_cons]; exact ⟨hop, hx, hy, by simp⟩),
    getD_lt (by simp only [List.forall_mem_cons]; exact ⟨hop, hx, by simp⟩),
    getD_lt (by simp only [List.forall_mem_cons]; exact ⟨hop, by simp⟩)⟩

variable (live : s.dev.podState p.val = 2 ∨ s.dev.podState p.val = 4)
include live

theorem Dev.mbxRun_take_register : (s.dev.mbxTake p [mbxOp 1 irq, x.toNat, y.toNat]).mbxRun p.val =
    (s.dev.mbxTake p [mbxOp 1 irq, x.toNat, y.toNat]).mbxRegister p.val x.toNat y.toNat := by
  have words := (mbxWords_lt irq x y (op := 1) (by decide)).1
  rw [Dev.mbxRun_register (irq := irq) (by rwa [Dev.podState_mbxTake])
      (Dev.mbxWord_mbxTake _ _ _ words (by decide)) (Dev.mbxZeroFrom_mbxTake _ _ _ words (by simp)),
    Dev.mbxWord_mbxTake _ _ _ words (by decide), Dev.mbxWord_mbxTake _ _ _ words (by decide)]
  rfl

theorem Dev.mbxRun_take_deregister : (s.dev.mbxTake p [mbxOp 2 irq, x.toNat]).mbxRun p.val =
    (s.dev.mbxTake p [mbxOp 2 irq, x.toNat]).mbxDeregister p.val x.toNat := by
  have words := (mbxWords_lt irq x x (op := 2) (by decide)).2.1
  rw [Dev.mbxRun_deregister (irq := irq) (by rwa [Dev.podState_mbxTake])
      (Dev.mbxWord_mbxTake _ _ _ words (by decide)) (Dev.mbxZeroFrom_mbxTake _ _ _ words (by simp)),
    Dev.mbxWord_mbxTake _ _ _ words (by decide)]
  rfl

theorem Dev.mbxRun_take_query : (s.dev.mbxTake p [mbxOp 3 irq, x.toNat]).mbxRun p.val =
    (s.dev.mbxTake p [mbxOp 3 irq, x.toNat]).mbxQuery p.val x.toNat := by
  have words := (mbxWords_lt irq x x (op := 3) (by decide)).2.1
  rw [Dev.mbxRun_query (irq := irq) (by rwa [Dev.podState_mbxTake])
      (Dev.mbxWord_mbxTake _ _ _ words (by decide)) (Dev.mbxZeroFrom_mbxTake _ _ _ words (by simp)),
    Dev.mbxWord_mbxTake _ _ _ words (by decide)]
  rfl

theorem Dev.mbxRun_take_info : (s.dev.mbxTake p [mbxOp 4 irq]).mbxRun p.val =
    ([0, Config.executiveVersion.toNat, s.dev.progCount p.val], s.dev.mbxTake p [mbxOp 4 irq]) := by
  have words := (mbxWords_lt irq 0 0 (op := 4) (by decide)).2.2
  rw [Dev.mbxRun_info (irq := irq) (by rwa [Dev.podState_mbxTake])
      (Dev.mbxWord_mbxTake _ _ _ words (by decide)) (Dev.mbxZeroFrom_mbxTake _ _ _ words (by simp)),
    Dev.mbxInfo, (s.dev.regsOnly_mbxTake p _).progCount]

end

/-- Settles O25. -/
theorem mailboxCommandsAndCompletion : Obligations.MailboxCommandsAndCompletion := by
  refine ⟨fun s p irq x y clocked => ⟨fun busy => ?rejected, fun idle live => ⟨⟨fun full => ?full, fun room => ?room⟩,
      ⟨fun no => ?deregNone, fun g has => ?dereg⟩, ⟨fun no => ?queryNone, fun g has => ?query⟩, ?info,
      fun w bad => ?unknown⟩⟩,
    fun s p m clocked has left => ⟨fun no => ?stalls, fun slot quiet => ?completes⟩,
    fun s p h g clocked has marked unused => ?forgets⟩
  case rejected =>
    dsimp only
    rw [mbxOp_eq, mbxOp_eq, mbxOp_eq, mbxOp_eq]
    exact ⟨.mbx_rejected (exec_register p irq x y s) clocked busy, .mbx_rejected (exec_deregister p irq x s) clocked busy,
      .mbx_rejected (exec_query p irq x s) clocked busy, .mbx_rejected (exec_info p irq s) clocked busy⟩
  case full =>
    dsimp only
    rw [mbxOp_eq]
    refine .mbx_taken (exec_register p irq x y s) clocked idle (mbxWords_lt irq x y (by decide)).1
      (mbxOp_bit irq (by decide)) ((Dev.mbxRun_take_register p irq x y live).trans (Dev.mbxRegister_full ?_))
    rwa [(s.dev.regsOnly_mbxTake p _).progCount]
  case room =>
    dsimp only
    rw [mbxOp_eq]
    have same := s.dev.regsOnly_mbxTake p [mbxOp 1 irq, x.toNat, y.toNat]
    rw [← same.handleNext, ← same.handleFrom]
    refine .mbx_taken (exec_register p irq x y s) clocked idle (mbxWords_lt irq x y (by decide)).1
      (mbxOp_bit irq (by decide)) ((Dev.mbxRun_take_register p irq x y live).trans (Dev.mbxRegister_room ?_))
    rwa [same.progCount]
  case deregNone =>
    dsimp only
    rw [mbxOp_eq]
    exact .mbx_taken (exec_deregister p irq x s) clocked idle (mbxWords_lt irq x y (by decide)).2.1
      (mbxOp_bit irq (by decide)) ((Dev.mbxRun_take_deregister p irq x live).trans
        (Dev.mbxDeregister_none (((s.dev.regsOnly_mbxTake p _).progOf _ _).trans no)))
  case dereg =>
    dsimp only
    rw [mbxOp_eq]
    exact .mbx_taken (exec_deregister p irq x s) clocked idle (mbxWords_lt irq x y (by decide)).2.1
      (mbxOp_bit irq (by decide)) ((Dev.mbxRun_take_deregister p irq x live).trans
        (Dev.mbxDeregister_some (((s.dev.regsOnly_mbxTake p _).progOf _ _).trans has)))
  case queryNone =>
    dsimp only
    rw [mbxOp_eq]
    exact .mbx_taken (exec_query p irq x s) clocked idle (mbxWords_lt irq x y (by decide)).2.1
      (mbxOp_bit irq (by decide)) ((Dev.mbxRun_take_query p irq x live).trans
        (Dev.mbxQuery_none (((s.dev.regsOnly_mbxTake p _).progOf _ _).trans no)))
  case query =>
    dsimp only
    rw [mbxOp_eq, ← (s.dev.regsOnly_mbxTake p [mbxOp 3 irq, x.toNat]).residentMask]
    exact .mbx_taken (exec_query p irq x s) clocked idle (mbxWords_lt irq x y (by decide)).2.1
      (mbxOp_bit irq (by decide)) ((Dev.mbxRun_take_query p irq x live).trans
        (Dev.mbxQuery_some (((s.dev.regsOnly_mbxTake p _).progOf _ _).trans has)))
  case info =>
    have version : BitVec.ofNat 64 Config.executiveVersion.toNat = Config.executiveVersion := by simp
    dsimp only
    rw [mbxOp_eq, ← version]
    exact .mbx_taken (exec_info p irq s) clocked idle (mbxWords_lt irq x y (by decide)).2.2
      (mbxOp_bit irq (by decide)) (Dev.mbxRun_take_info p irq live)
  case unknown =>
    have words := getD_lt (ws := [w.toNat]) fun v mem => by
      obtain rfl := List.mem_singleton.mp mem
      exact w.isLt
    have word := s.dev.mbxWord_mbxTake p [w.toNat] words (j := 0) (by decide)
    have live : (s.dev.mbxTake p [w.toNat]).podState p.val = 2 ∨ (s.dev.mbxTake p [w.toNat]).podState p.val = 4 := by
      rwa [Dev.podState_mbxTake]
    exact .mbx_taken (ws := [w.toNat]) (exec_badCommand p [w] s) clocked idle words rfl (Dev.mbxRun_unknown live (by rwa [word]))
  case stalls =>
    refine .of_act (exec_mailboxComplete p s) clocked ?_
    simp only [has, left, no]
    rfl
  case completes =>
    refine .of_act (exec_mailboxComplete p s) clocked ?_
    obtain ⟨n, slot⟩ := Option.isSome_iff_exists.mp slot
    simp only [has, left, slot]
    exact Dev.mbxFinish_eq quiet
  case forgets =>
    refine .of_act (exec_deregisterTakesEffect p h s) clocked ?_
    have idle : (g.dereg && s.dev.runs.all fun r => r.pod != p.val || r.handle != h.toNat) = true := by
      simpa [marked] using unused
    simp only [has, idle]
    exact s.dev.forgetProg_eq p.val h.toNat

end Sys2Proof.Machine

/-!
# Pods: commands and the ends of their steps (spec ch. 12)
-/

namespace Sys2Proof.Machine

/-! ### Creation -/

theorem addr_podStatus_ne : ∀ p : Fin 64, (∀ t < 64, RegRef.addr ⟨.POD_STATUS, p.val, 0⟩ ≠
    RegRef.addr ⟨.TIL_TS_SCRUB, t, 0⟩) ∧ ∀ g < 16, ∀ k ∈ [RegKind.JDR_POD_RGN_STATE, .JDR_POD_RGN_ROWS,
    .JDR_POD_RGN_ENTRIES, .JDR_POD_RGN_SPILLED, .RDR_POD_RGN_STATE, .RDR_POD_RGN_CFG],
    RegRef.addr ⟨.POD_STATUS, p.val, 0⟩ ≠ RegRef.addr ⟨k, p.val, g⟩ := by decide +kernel

theorem Dev.get_resetReg_ne (d : Dev) {f : Fld} {k l i j : Nat} {r : RegKind}
    (apart : RegRef.addr ⟨f.kind, k, l⟩ ≠ RegRef.addr ⟨r, i, j⟩) : (d.resetReg r i j).get f k l = d.get f k l :=
  congrArg (bitsOf · f.lo f.width) (Dev.rd_wr_ne d ⟨r, i, j⟩ ⟨f.kind, k, l⟩ _ apart)

/-- What the clearing of a pod's regions leaves as it is: a field of POD_STATUS. -/
def Dev.KeepsStatus (p : Fin 64) (d e : Dev) : Prop := ∀ f : Fld, f.kind = .POD_STATUS → e.get f p.val = d.get f p.val

section

variable {p : Fin 64}

theorem Dev.KeepsStatus.refl (d : Dev) : Dev.KeepsStatus p d d := fun _ _ => rfl

theorem Dev.KeepsStatus.trans {d e f : Dev} (h : Dev.KeepsStatus p d e) (k : Dev.KeepsStatus p e f) :
    Dev.KeepsStatus p d f := fun g status => (k g status).trans (h g status)

theorem Dev.keepsStatus_put (d : Dev) (f : Fld) (v i j : Nat)
    (apart : RegRef.addr ⟨.POD_STATUS, p.val, 0⟩ ≠ RegRef.addr ⟨f.kind, i, j⟩) :
    Dev.KeepsStatus p d (d.put f v i j) := fun _ status => Dev.get_put_ne _ _ _ _ _ _ _ _ (status ▸ apart)

theorem Dev.keepsStatus_resetReg (d : Dev) (k : RegKind) (i j : Nat)
    (apart : RegRef.addr ⟨.POD_STATUS, p.val, 0⟩ ≠ RegRef.addr ⟨k, i, j⟩) :
    Dev.KeepsStatus p d (d.resetReg k i j) := fun _ status => Dev.get_resetReg_ne _ (status ▸ apart)

theorem Dev.keepsStatus_zeroTiles (d : Dev) (ts : List Nat) (tiles : ∀ t ∈ ts, t < 64) :
    Dev.KeepsStatus p d (d.zeroTiles ts) :=
  List.foldlRecOn (motive := Dev.KeepsStatus p d) ts _ (.refl d) fun _ h t mem =>
    h.trans (Dev.keepsStatus_put _ _ _ _ _ ((addr_podStatus_ne p).1 t (tiles t mem)))

theorem Dev.keepsStatus_emptyRegions (d : Dev) : Dev.KeepsStatus p d (d.emptyRegions p.val) := by
  intro f status
  rw [Dev.emptyRegions]
  have bound : ∀ g ∈ List.range 16, g < 16 := fun _ => List.mem_range.mp
  generalize List.range 16 = gs at bound ⊢
  refine List.foldlRecOn (motive := Dev.KeepsStatus p d) gs _ (.refl d) (fun e h g mem => ?_) f status
  have apart := (addr_podStatus_ne p).2 g (bound g mem)
  exact ((((h.trans (Dev.keepsStatus_resetReg _ _ _ _ (apart _ (by simp)))).trans
    (Dev.keepsStatus_resetReg _ _ _ _ (apart _ (by simp)))).trans
    (Dev.keepsStatus_resetReg _ _ _ _ (apart _ (by simp)))).trans
    (Dev.keepsStatus_resetReg _ _ _ _ (apart _ (by simp)))).trans
    (Dev.keepsStatus_resetReg _ _ _ _ (apart _ (by simp)))

theorem Dev.keepsStatus_ite {d e f : Dev} (c : Prop) [Decidable c] (h : Dev.KeepsStatus p d e)
    (k : Dev.KeepsStatus p d f) : Dev.KeepsStatus p d (if c then e else f) := by
  split
  · exact h
  · exact k

/-- The registers of a region of a pod that is reset. -/
theorem Dev.keepsStatus_clearRegions (d : Dev) : Dev.KeepsStatus p d (d.clearRegions p.val) := by
  rw [Dev.clearRegions]
  have bound : ∀ g ∈ List.range 16, g < 16 := fun _ => List.mem_range.mp
  generalize List.range 16 = gs at bound ⊢
  refine List.foldlRecOn (motive := Dev.KeepsStatus p d) gs _ d.keepsStatus_emptyRegions fun e h g mem => ?_
  have apart := (addr_podStatus_ne p).2 g (bound g mem)
  have cfg := h.trans (Dev.keepsStatus_resetReg e .RDR_POD_RGN_CFG p.val g (apart _ (by simp)))
  have join := Dev.keepsStatus_ite (d.jstate p.val g = 0) cfg
    (cfg.trans (Dev.keepsStatus_put _ F.JDR_POD_RGN_STATE_STATE 1 p.val g (apart .JDR_POD_RGN_STATE (by simp))))
  exact Dev.keepsStatus_ite _ join
    (join.trans (Dev.keepsStatus_put _ F.RDR_POD_RGN_STATE_STATE 1 p.val g (apart .RDR_POD_RGN_STATE (by simp))))

end

/-- The entries that a pod's cleared regions leave. -/
theorem Dev.emptyRegions_entries (d : Dev) (p : Nat) :
    (∀ e ∈ (d.emptyRegions p).jents, e.pod ≠ p) ∧ ∀ r ∈ (d.emptyRegions p).rrgns, r.pod ≠ p := by
  constructor
  · intro e mem
    exact bne_iff_ne.mp (List.mem_filter.mp mem).2
  · intro r mem
    exact bne_iff_ne.mp (List.mem_filter.mp mem).2

theorem Dev.clearRegions_entries (d : Dev) (p : Nat) :
    (d.clearRegions p).jents = (d.emptyRegions p).jents ∧ (d.clearRegions p).rrgns = (d.emptyRegions p).rrgns := by
  rw [Dev.clearRegions]
  generalize List.range 16 = gs
  refine List.foldlRecOn (motive := fun x : Dev => x.jents = (d.emptyRegions p).jents ∧
    x.rrgns = (d.emptyRegions p).rrgns) gs _ ⟨rfl, rfl⟩ fun e h g _ => ?_
  dsimp only
  split <;> split <;> exact h

section

variable {d : Dev} {p : Fin 64}

/-- The device whose pod becomes CREATING: its command is accepted and the zeroing of its tiles' stores begins. -/
def Dev.podBegins (d : Dev) (p : Nat) : Dev :=
  let e := (d.podAccept p).podEnter p 1
  e.zeroTiles ((e.podTiles p).filter fun t => !e.lastPod.contains (t, p))

theorem Dev.podCreate_eq (ok : d.createReason p.val = 0) :
    ∃ h, d.podCreate p.val = { (d.podBegins p.val).clearRegions p.val with host := h } := by
  rw [Dev.podCreate, if_neg (not_not_intro ok)]
  exact ⟨_, rfl⟩

theorem Dev.podEnter_state (v : Nat) (fits : v < 2 ^ F.POD_STATUS_STATE.width) :
    (d.podEnter p.val v).get F.POD_STATUS_STATE p.val = v :=
  Dev.get_put_of_lt _ _ _ (by decide) fits

theorem Dev.podEnter_reason (v : Nat) : (d.podEnter p.val v).get F.POD_STATUS_REASON p.val = d.get F.POD_STATUS_REASON p.val :=
  Dev.get_put_field _ F.POD_STATUS_STATE F.POD_STATUS_REASON _ _ _ rfl (by decide) (by decide)

theorem Dev.podAccept_reason : (d.podAccept p.val).get F.POD_STATUS_REASON p.val = 0 :=
  (Dev.get_put_field _ F.POD_STATUS_SAVE_DONE F.POD_STATUS_REASON _ _ _ rfl (by decide) (by decide)).trans
    (Dev.get_put_of_lt _ _ _ (by decide) (by decide))

theorem Dev.keepsStatus_podBegins : Dev.KeepsStatus p ((d.podAccept p.val).podEnter p.val 1) (d.podBegins p.val) :=
  Dev.keepsStatus_zeroTiles _ _ fun _ mem => List.mem_range.mp (List.mem_of_mem_filter (List.mem_of_mem_filter mem))

/-- A pod that passes the checks of CREATE is CREATING, with no entry of its own. -/
theorem Dev.podCreate_accepted (ok : d.createReason p.val = 0) :
    (d.podCreate p.val).get F.POD_STATUS_STATE p.val = 1 ∧ (d.podCreate p.val).get F.POD_STATUS_REASON p.val = 0 ∧
      (∀ e ∈ (d.podCreate p.val).jents, e.pod ≠ p.val) ∧ ∀ r ∈ (d.podCreate p.val).rrgns, r.pod ≠ p.val := by
  have kept := Dev.keepsStatus_podBegins.trans (Dev.keepsStatus_clearRegions (d.podBegins p.val))
  obtain ⟨h, created⟩ := Dev.podCreate_eq ok
  obtain ⟨jents, rrgns⟩ := (d.podBegins p.val).clearRegions_entries p.val
  obtain ⟨noJoin, noRange⟩ := (d.podBegins p.val).emptyRegions_entries p.val
  rw [← jents] at noJoin
  rw [← rrgns] at noRange
  have regs : (d.podCreate p.val).regs = ((d.podBegins p.val).clearRegions p.val).regs := by rw [created]
  have entries : (d.podCreate p.val).jents = ((d.podBegins p.val).clearRegions p.val).jents ∧
      (d.podCreate p.val).rrgns = ((d.podBegins p.val).clearRegions p.val).rrgns := by
    rw [created]
    exact ⟨rfl, rfl⟩
  rw [Dev.get_congr regs, Dev.get_congr regs, entries.1, entries.2]
  exact ⟨(kept F.POD_STATUS_STATE rfl).trans (Dev.podEnter_state 1 (by decide)),
    (kept F.POD_STATUS_REASON rfl).trans ((Dev.podEnter_reason 1).trans Dev.podAccept_reason), noJoin, noRange⟩

end

/-- Settles O26. -/
theorem podCommands : Obligations.PodCommands := by
  refine ⟨fun s p clocked => ⟨fun st => ?create, fun st => ?destroy, fun st => ?reset, fun st => ?quiesce,
      fun st => ⟨?resume, ?save, ?restore⟩⟩,
    fun s p clocked => ⟨fun st why => ?checks, fun st ok => ?creates, fun st => ?later, fun least most => ⟨?destroys, ?resets⟩,
      fun st => ?quiesces, fun st => ?resumes, fun st fits idle addr => ?saves, fun st short => ?short,
      fun st reach ok => ?restores, fun st reach why => ?refuses⟩⟩
  case create => exact .of_act (exec_podCreate p s) clocked (if_neg st)
  case destroy => exact .of_act (exec_podDestroy p s) clocked (if_pos st)
  case reset => exact .of_act (exec_podReset p s) clocked (if_neg fun h => by unfold Dev.podState at h; omega)
  case quiesce => exact .of_act (exec_podQuiesce p s) clocked (if_neg st)
  case resume => exact .of_act (exec_podResume p s) clocked (if_pos st)
  case save => exact .of_act (exec_podSave p s) clocked (if_pos st)
  case restore => exact .of_act (exec_podRestore p s) clocked (if_pos st)
  case checks => exact .of_act (exec_podCreate p s) clocked ((if_pos st).trans (if_pos why))
  case creates => exact ⟨_, .of_act (exec_podCreate p s) clocked (if_pos st), Dev.podCreate_accepted ok⟩
  case later =>
    exact .of_act (exec_podDestroy p s) clocked ((if_neg fun h => by unfold Dev.podState at h; omega).trans (if_pos st))
  case destroys =>
    exact .of_act (exec_podDestroy p s) clocked ((if_neg fun h => by unfold Dev.podState at h; omega).trans
      (if_neg fun h => by unfold Dev.podState at h; omega))
  case resets => exact .of_act (exec_podReset p s) clocked (if_pos ⟨least, most⟩)
  case quiesces => exact .of_act (exec_podQuiesce p s) clocked (if_pos st)
  case resumes => exact .of_act (exec_podResume p s) clocked (if_neg fun h => h st)
  case saves =>
    have here : ¬(s.dev.runs.any fun r => r.pod == p.val && (r.image.map fun m => m.span).getD false) = true := by
      rw [List.any_eq_true]
      rintro ⟨r, mem, mine⟩
      exact idle r mem (beq_iff_eq.mp (Bool.and_eq_true_iff.mp mine).1)
    have there : ¬(!s.dev.imageAddrOk p.val (s.dev.get F.POD_STATUS_SAVE_NEED_MIB p.val * 2 ^ 20)) = true := by
      rw [addr]
      decide
    exact .of_act (exec_podSave p s) clocked ((if_neg fun h => h st).trans
      ((if_neg (Nat.not_lt.mpr fits)).trans ((if_neg here).trans (if_neg there))))
  case short => exact .of_act (exec_podSave p s) clocked ((if_neg fun h => h st).trans (if_pos short))
  case restores =>
    refine .of_act (exec_podRestore p s) clocked ((if_neg fun h => h st).trans ?_)
    rw [reach]
    exact if_pos ok
  case refuses =>
    refine .of_act (exec_podRestore p s) clocked ((if_neg fun h => h st).trans ?_)
    rw [reach]
    exact if_neg why

end Sys2Proof.Machine

namespace Sys2Proof.Machine

/-! ### The ends of a pod's steps -/

theorem Dev.podPend_st (d : Dev) (a : Nat) (bs : List Byte) : (d.st a bs).podPend = d.podPend := by
  have line (d : Dev) (a : Nat) (bs : List Byte) : (d.stLine a bs).podPend = d.podPend := by
    rw [Dev.stLine]
    split
    · rfl
    · split <;> rfl
  have lines (n : Nat) (d : Dev) (a : Nat) (bs : List Byte) : (d.stLines a bs n).podPend = d.podPend := by
    induction n generalizing d a bs with
    | zero => rfl
    | succ n ih =>
      rw [Dev.stLines]
      split
      · rfl
      · exact (ih _ _ _).trans (line _ _ _)
  rw [Dev.st]
  split
  · rfl
  · exact lines _ _ _ _

theorem Dev.podPend_zeroAreas (d : Dev) (r : JRegion) : (d.zeroAreas r).podPend = d.podPend := by
  have count (d : Dev) (a : Nat) : (d.zeroCount a).podPend = d.podPend := by
    rw [Dev.zeroCount]
    split
    · rfl
    · exact Dev.podPend_st _ _ _
  have chain (d : Dev) (c : Prop) [Decidable c] : (if c then d.zeroCount r.chain else d).podPend = d.podPend := by
    split
    · exact count _ _
    · rfl
  rw [Dev.zeroAreas]
  split
  · exact (Dev.podPend_st _ _ _).trans (chain _ _)
  · exact chain _ _

theorem Dev.podPend_sweepDone (d : Dev) (p g : Nat) : (d.sweepDone p g).podPend = d.podPend := by
  rw [Dev.sweepDone]
  dsimp only
  split
  · rfl
  · split
    · rfl
    · split
      · exact Dev.podPend_zeroAreas _ _
      · rfl

theorem Dev.podPend_rclearDone (d : Dev) (p g : Nat) : (d.rclearDone p g).podPend = d.podPend := by
  rw [Dev.rclearDone]
  split <;> rfl

theorem Dev.podPend_clearsDone (d : Dev) (p : Nat) : (d.clearsDone p).podPend = d.podPend :=
  List.foldlRecOn (motive := fun e : Dev => e.podPend = d.podPend) (List.range 16) _ rfl fun e h g _ =>
    ((e.sweepDone p g).podPend_rclearDone p g).trans ((e.podPend_sweepDone p g).trans h)

section

variable {d : Dev} {p : Nat}

theorem Dev.podStepEnds_active (none : d.podPend = []) : d.podStepEnds p = (d.clearsDone p).podEnter p 2 := by
  have nothing (what : Nat) : ¬(d.clearsDone p).podPending p what = true := by
    rw [Dev.podPending, Dev.podPend_clearsDone, none]
    exact Bool.false_ne_true
  rw [Dev.podStepEnds, if_neg (nothing 2), if_neg (nothing 3)]

theorem Dev.podStepEnds_destroys (waits : (p, 2) ∈ d.podPend) : d.podStepEnds p =
    ({ d.clearsDone p with podPend := d.podPend.filter fun x => x.1 ≠ p } : Dev).podDestroy p := by
  have pending : (d.clearsDone p).podPending p 2 = true := by
    rw [Dev.podPending, Dev.podPend_clearsDone]
    exact List.contains_iff_mem.mpr waits
  rw [Dev.podStepEnds, if_pos pending, Dev.podNow, Dev.podPend_clearsDone]
  simp only [bne_eq_decide_ne]

theorem Dev.podFree_eq (d : Dev) (p : Nat) : ∃ (e : Dev) (tiles : List Nat), d.podFree p = (({ e with
    progs := e.progs.filter fun x => x.pod != p, pgc := e.pgc.filter fun x => x.pod != p,
    lastPod := e.lastPod.filter fun x => !tiles.contains x.1 } : Dev).podNow p).podEnter p 0 :=
  ⟨_, _, rfl⟩

/-- A pod that is FREE again keeps no program, registered or cached. -/
theorem Dev.podFree_leaves : (d.podFree p).get F.POD_STATUS_STATE p = 0 ∧ (∀ g ∈ (d.podFree p).progs, g.pod ≠ p) ∧
    ∀ e ∈ (d.podFree p).pgc, e.pod ≠ p := by
  obtain ⟨e, tiles, freed⟩ := d.podFree_eq p
  rw [freed]
  refine ⟨Dev.get_put_of_lt _ _ _ (by decide) (by decide), fun g mem => ?_, fun g mem => ?_⟩
  · exact bne_iff_ne.mp (List.mem_filter.mp mem).2
  · exact bne_iff_ne.mp (List.mem_filter.mp mem).2

end

/-- Settles O27. -/
theorem podStepsEnd : Obligations.PodStepsEnd := by
  refine ⟨fun s p clocked => ⟨fun idle none => ⟨fun st => ?created, fun st => ?reset⟩,
      fun idle waits => ⟨fun st => ?createDestroys, fun st => ?resetDestroys⟩, fun idle st => ?freed,
      fun st rest => ?quiesced, fun st device => ?saved, fun st reach m has => ?restored, fun free => ?swap,
      fun busy => ?swapping, ?swapped⟩,
    fun s clocked free => ?flr⟩
  case created =>
    exact .of_act (exec_podCreateDone p s) clocked ((if_pos ⟨st, idle⟩).trans (Dev.podStepEnds_active none))
  case reset =>
    exact .of_act (exec_podResetDone p s) clocked ((if_pos ⟨st, idle⟩).trans (Dev.podStepEnds_active none))
  case createDestroys =>
    exact .of_act (exec_podCreateDone p s) clocked ((if_pos ⟨st, idle⟩).trans (Dev.podStepEnds_destroys waits))
  case resetDestroys =>
    exact .of_act (exec_podResetDone p s) clocked ((if_pos ⟨st, idle⟩).trans (Dev.podStepEnds_destroys waits))
  case freed => exact ⟨_, .of_act (exec_podDestroyDone p s) clocked (if_pos ⟨st, idle⟩), Dev.podFree_leaves⟩
  case quiesced => exact .of_act (exec_podQuiesced p s) clocked (if_pos ⟨st, rest⟩)
  case saved =>
    refine .of_act (exec_podSaveDone p s) clocked ((if_neg fun h => h st).trans ?_)
    rw [device]
    rfl
  case restored =>
    refine .of_act (exec_podRestoreDone p s) clocked ((if_neg fun h => h st).trans ?_)
    dsimp only
    rw [reach, has]
    rfl
  case swap => exact .of_act (exec_logSwap p s) clocked (if_neg (by omega))
  case swapping => exact .of_act (exec_logSwap p s) clocked (if_pos busy)
  case swapped => exact .of_act (exec_logSwapDone p s) clocked rfl
  case flr =>
    refine .of_act (exec_pf0Flr s) clocked (congrArg (Dev.maskAll · false) ?_)
    have spared (p : Nat) (lt : p < 64) : s.dev.podFlr p = s.dev := by
      have state : s.dev.podState p = 0 := free ⟨p, lt⟩
      rw [Dev.podFlr, state]
      rfl
    exact List.foldlRecOn (motive := fun e => e = s.dev) (List.range 64) Dev.podFlr rfl fun e same q mem => by
      rw [same]
      exact spared q (List.mem_range.mp mem)

end Sys2Proof.Machine

/-!
# The host link (spec ch. 11)
-/

namespace Sys2Proof.Machine

/-! ### The link and configuration requests -/

theorem Dev.loseHost_dead {d : Dev} (dead : d.live 16 = false) : d.loseHost = d := if_pos (by simp [dead])

theorem Dev.loseHost_live {d : Dev} (live : d.live 16 = true) :
    d.loseHost =
      let e := (d.killAgent 16).put F.ERR_FENCE_OTHER_HOST 1
      ({ e with host := { e.host with cxl := false } } : Dev).report { cls := 0x15, srcKind := 9, fence := true } :=
  if_neg (by simp [live])

theorem Dev.sized_of_capacity {d : Dev} (cap : d.get F.MEM_CFG_CAP_GIB ≠ 0) : d.sized = true := by
  simp [Dev.sized, cap]

theorem Dev.unsized {d : Dev} (cap : d.get F.MEM_CFG_CAP_GIB = 0) (training : d.get F.MEM_TRAIN_STATE ≠ 4) :
    d.sized = false := by
  simp [Dev.sized, cap, training]

/-- Settles O29. -/
theorem hostLinkCommands : Obligations.HostLinkCommands := by
  refine ⟨fun s speed width flit clocked fast => ?up, fun s speed width flit clocked slow dead => ?upSlow,
    fun s clocked => ⟨fun dead => ⟨?down, ?timeout⟩, fun live => ⟨?lost, ?lostDown⟩, fun up fast scrubbed => ?cxl⟩,
    fun s pf1 reg clocked => ⟨fun cap training => ?retry, fun cap => ⟨?device, ?classCode⟩⟩⟩
  case up =>
    refine .of_act (exec_hostLinkUp speed width flit s) clocked ?_
    dsimp only
    rw [if_neg (Nat.not_lt.mpr fast)]
    rfl
  case upSlow =>
    refine .of_act (exec_hostLinkUp speed width flit s) clocked ?_
    have below : (flit || speed.val == 5) = flit := by
      rw [show (speed.val == 5) = false from beq_eq_false_iff_ne.mpr (by omega), Bool.or_false]
    dsimp only
    rw [if_pos slow, Dev.loseHost_dead dead, below]
  case down =>
    refine .of_act (exec_hostLinkDown s) clocked ?_
    dsimp only
    rw [Dev.loseHost_dead dead]
  case timeout => exact .of_act (exec_hostSnoopTimeout s) clocked (Dev.loseHost_dead dead)
  case lost => exact .of_act (exec_hostSnoopTimeout s) clocked (Dev.loseHost_live live)
  case lostDown =>
    refine .of_act (exec_hostLinkDown s) clocked ?_
    dsimp only
    rw [Dev.loseHost_live live]
  case cxl =>
    have admitted : (s.dev.host.up && decide (4 ≤ s.dev.host.speed) && !s.dev.scrubs.contains 16) = true := by
      rw [up, scrubbed, decide_eq_true fast]
      rfl
    exact .of_act (exec_hostCxlEnable s) clocked (if_pos admitted)
  case retry =>
    exact .of_act (exec_configRequest pf1 reg s) clocked (if_neg (by simp [Dev.unsized cap training]))
  case device => exact .of_act (exec_configRequest pf1 0 s) clocked (if_pos (Dev.sized_of_capacity cap))
  case classCode => exact .of_act (exec_configRequest pf1 8 s) clocked (if_pos (Dev.sized_of_capacity cap))

/-! ### Translations and page requests -/

/-- A page request that ends. -/
theorem Dev.endPageReq_asked {d : Dev} {pasid g : Nat}
    (asked : (d.host.pageReqs.any fun q => q.pasid == pasid && q.page == g) = true) (good : Bool) :
    d.endPageReq pasid g good =
      let h := { d.host with pageReqs := d.host.pageReqs.filter fun q => ¬(q.pasid = pasid ∧ q.page = g) }
      { d with host :=
          if good = true then { h with unmapped := h.unmapped.flatMap fun u => if u.1 = pasid then cutPage g u else [u] }
          else { h with failed := (pasid, g) :: h.failed.filter fun x => x ≠ (pasid, g) } } := by
  have request (a b : Nat) : (!(a == pasid && b == g)) = decide (¬(a = pasid ∧ b = g)) := by
    rw [Bool.eq_iff_iff]
    simp
  have page (x : Nat × Nat) : (x != (pasid, g)) = decide (x ≠ (pasid, g)) := by
    rw [Bool.eq_iff_iff]
    simp
  rw [Dev.endPageReq, if_neg (by simp [asked])]
  simp only [request, page, beq_iff_eq]

/-- Settles O30. -/
theorem translationCommands : Obligations.TranslationCommands := by
  refine ⟨fun s pasid page n clocked some => ?invalidate,
    fun s pasid page clocked asked => ⟨?failed, ?timeout, ?supplied⟩, fun d pasid a n down => if_pos (by simp [down])⟩
  case invalidate =>
    have pages : ¬n.toNat = 0 := fun h => some (BitVec.eq_of_toNat_eq h)
    have hit (a b : Nat) : (!(a == pasid.toNat && decide (page.toNat ≤ b ∧ b < page.toNat + n.toNat))) =
        decide (¬(a = pasid.toNat ∧ page.toNat ≤ b ∧ b < page.toNat + n.toNat)) := by
      rw [Bool.eq_iff_iff]
      simp
    refine .of_act (exec_atsInvalidate pasid page n s) clocked ?_
    simp only [hit, if_neg pages]
  case failed => exact .of_act (exec_pageRequestGroupResponse pasid page false s) clocked (Dev.endPageReq_asked asked false)
  case timeout => exact .of_act (exec_pageRequestTimeout pasid page s) clocked (Dev.endPageReq_asked asked false)
  case supplied => exact .of_act (exec_pageRequestGroupResponse pasid page true s) clocked (Dev.endPageReq_asked asked true)

/-! ### BAR4, CXL and snoops of the host -/

/-- An access that is taken while memory is ready. -/
theorem access_ready {d d₁ d₂ d₃ : Dev} {ignored : Bool} (taken : ignored = false) (ready : d.memReady = true) :
    (if ignored = true then d₁ else if (!d.memReady) = true then d₂ else d₃) = d₃ := by
  rw [taken, ready, if_neg Bool.false_ne_true, Bool.not_true, if_neg Bool.false_ne_true]

theorem Dev.hostSnoop_own {d : Dev} {a : Nat} (inv : Bool) (live : d.live 16 = true)
    (own : d.homeAgent a = some 16) : d.hostSnoop a inv = d.snooped 16 a inv :=
  if_pos (by simp [live, own])

/-- Settles O31. -/
theorem hostMemoryCommands : Obligations.HostMemoryCommands := by
  refine ⟨fun s off len clocked up ready inside => ?read, fun s off bs tag clocked _ _ up ready inside => ?write,
    fun s a data poison clocked inside ready => ⟨?unique, ?shared, ?once, fun owns => ?back, fun not => ?full⟩,
    fun s a clocked live => ⟨fun own => ⟨?data, ?inv⟩, fun own => ?cur⟩⟩
  case read =>
    exact .of_act (exec_bar4Read off len s) clocked (access_ready (Dev.bar4_taken up inside) ready)
  case write =>
    exact .of_act (exec_bar4Write off bs tag s) clocked (access_ready (Dev.bar4_taken up inside) ready)
  case unique => exact .of_act (exec_hostMemrd a .a s) clocked (access_ready (Dev.hdm_taken inside) ready)
  case shared => exact .of_act (exec_hostMemrd a .s s) clocked (access_ready (Dev.hdm_taken inside) ready)
  case once => exact .of_act (exec_hostMemrd a .i s) clocked (access_ready (Dev.hdm_taken inside) ready)
  case back =>
    exact .of_act (exec_hostMemwr a data poison s) clocked
      ((access_ready (Dev.hdm_taken inside) ready).trans (if_pos owns))
  case full =>
    exact .of_act (exec_hostMemwr a data poison s) clocked
      ((access_ready (Dev.hdm_taken inside) ready).trans (if_neg (by simp [not])))
  case data => exact .of_act (exec_hostSnpdata a s) clocked (Dev.hostSnoop_own false live own)
  case inv => exact .of_act (exec_hostSnpinv a s) clocked (Dev.hostSnoop_own true live own)
  case cur => exact .of_act (exec_hostSnpcur a s) clocked (if_pos (by simp [live, own]))

/-! ### Interrupts and PTM -/

section

variable {d : Dev} {v : Nat}

/-- The device with a vector's mask bit clear and nothing pending for it. -/
def Dev.unmasks (d : Dev) (v : Nat) : Dev :=
  { d with host := { d.host with
      unmasked := (false, v) :: d.host.unmasked, pending := d.host.pending.filter fun x => x ≠ (false, v) } }

theorem Dev.unmask_masked (masked : d.host.unmasked.contains (false, v) = false) :
    d.unmask false v = if d.host.pending.contains (false, v) = true then (d.unmasks v).emit (.irq false v) else d.unmasks v := by
  have vector (x : Bool × Nat) : (x != (false, v)) = decide (x ≠ (false, v)) := by
    rw [Bool.eq_iff_iff]
    simp
  rw [Dev.unmask, if_neg (by simpa using masked), Dev.unmasks]
  simp only [vector]

end

section

variable {s : State} {off : Int}

/-- The device with a measured offset. -/
def Dev.ptmMeasured (d : Dev) (v : Int) : Dev :=
  (d.put F.CLK_PTM_STATUS_OFFSET_NS (BitVec.ofInt 32 v).toNat).put F.CLK_PTM_STATUS_VALID 1

/-- A dialogue measures the offset, saturated, and corrects it. -/
theorem Gives.ptm {e : Dev} (clocked : s.dev.clocked) (en : s.dev.get F.CLK_PTM_CTRL_EN = 1) (up : s.dev.host.up = true)
    (sat : Int) (is : max (-(2 ^ 31 - 1)) (min off (2 ^ 31 - 1)) = sat)
    (corrects : (s.dev.ptmMeasured sat).ptmCorrect off = e) : Gives (.ptmDialogue off) s e := by
  refine .of_act (exec_ptmDialogue off s) clocked ((if_neg (by simp [en, up])).trans ?_)
  rw [← corrects, ← is, Dev.ptmMeasured, BitVec.toNat_ofInt]
  rfl

end

section

variable {d : Dev} {off : Int}

/-- The correction runs at a rate until the offset is used up. -/
def Dev.ptmRate (d : Dev) (off : Int) (m : Nat) : Dev := { d with host := { d.host with ptmMode := m, ptmLeft := off.natAbs } }

theorem Dev.ptmCorrect_fast (neg : off < 0) (near : off.natAbs ≤ 1000000) : d.ptmCorrect off = d.ptmRate off 1 := by
  simp only [Dev.ptmCorrect, if_neg (Int.ne_of_lt neg), if_pos neg, if_pos near]
  rfl

theorem Dev.ptmCorrect_slow (pos : 0 < off) (near : off.natAbs ≤ 1000000) : d.ptmCorrect off = d.ptmRate off 2 := by
  simp only [Dev.ptmCorrect, if_neg (Int.ne_of_gt pos), if_neg (Int.not_lt.mpr (Int.le_of_lt pos)), if_pos near]
  rfl

theorem Dev.ptmCorrect_half (pos : 0 < off) (far : ¬off.natAbs ≤ 1000000) : d.ptmCorrect off = d.ptmRate off 3 := by
  simp only [Dev.ptmCorrect, if_neg (Int.ne_of_gt pos), if_neg (Int.not_lt.mpr (Int.le_of_lt pos)), if_neg far]
  rfl

theorem Dev.ptmCorrect_step (neg : off < 0) (far : ¬off.natAbs ≤ 1000000) : d.ptmCorrect off =
    (({ d with host := { d.host with ptmMode := 0, ptmLeft := 0 } } : Dev).put F.CLK_TIMESTAMP_NS
      (d.now + off.natAbs)).put F.CLK_PTM_STATUS_STEPPED 1 := by
  simp only [Dev.ptmCorrect, if_neg (Int.ne_of_lt neg), if_pos neg, if_neg far]
  rfl

end

/-- Settles O33. -/
theorem interruptAndTimeCommands : Obligations.InterruptAndTimeCommands := by
  refine ⟨fun s v clocked masked => ⟨fun pends => ?sends, fun idle => ?quiet⟩,
    fun s off clocked en up => ⟨fun zero => ?exact_, fun least neg => ?fast, fun pos most => ?slow, fun far => ?half,
      fun far => ?steps⟩⟩
  case sends => exact .of_act (exec_vectorUnmask false v s) clocked ((Dev.unmask_masked masked).trans (if_pos pends))
  case quiet =>
    exact .of_act (exec_vectorUnmask false v s) clocked ((Dev.unmask_masked masked).trans (if_neg (by rw [idle]; decide)))
  case exact_ => exact .ptm clocked en up 0 (by omega) (if_pos zero)
  case fast => exact .ptm clocked en up off (by omega) (Dev.ptmCorrect_fast neg (by omega))
  case slow => exact .ptm clocked en up off (by omega) (Dev.ptmCorrect_slow pos (by omega))
  case half => exact .ptm clocked en up _ (by omega) (Dev.ptmCorrect_half (by omega) (by omega))
  case steps => exact .ptm clocked en up _ (by omega) (Dev.ptmCorrect_step (by omega) (by omega))

end Sys2Proof.Machine

/-!
# What error records, messages and memory traffic leave as it is

Reports write the rings, the event log and counters; messages go out through the ports; memory traffic queues at the
channels and invalidates cached lines. None of them touches what the device works on, gathered here as `Tasks`.
-/

namespace Sys2Proof.Machine

/-- What the device works on. -/
structure Tasks where
  progs : List ProgReg
  pgc : List PgcEntry
  runs : List Run
  pushed : List (Nat × Nat × List Byte)
  insts : List Inst
  slots : List SlotSt
  jents : List JEntry
  jrgns : List JRegion
  rrgns : List RRegion
  dmas : List DmaCur
  stageJobs : List Job
  dmaJobs : List Job
  engJobs : List EngJob
  nvme : Nvme
  podPend : List (Nat × Nat)
  threads : List Thread
  ready : List Nat
  cores : List Core
  locks : List HLock
  mbxs : List Mbx
  peers : List Peer
  joins : List JoinMsg
  xrecvs : List XRecv
  pw : Power
  hull : Hull

/-- The tasks of a device. -/
def Dev.tasks (d : Dev) : Tasks :=
  ⟨d.progs, d.pgc, d.runs, d.pushed, d.insts, d.slots, d.jents, d.jrgns, d.rrgns, d.dmas, d.stageJobs, d.dmaJobs,
    d.engJobs, d.nvme, d.podPend, d.threads, d.ready, d.cores, d.locks, d.mbxs, d.peers, d.joins, d.xrecvs, d.pw, d.hull⟩

/-- A fold keeps the tasks when each of its steps does. -/
theorem Dev.tasks_foldl {α : Type} {f : Dev → α → Dev} (keeps : ∀ d x, (f d x).tasks = d.tasks) (xs : List α) (d : Dev) :
    (xs.foldl f d).tasks = d.tasks := by
  induction xs generalizing d with
  | nil => rfl
  | cons x xs ih => exact (ih _).trans (keeps d x)

theorem Dev.tasks_ite {c : Prop} [Decidable c] {d e f : Dev} (h : d.tasks = f.tasks) (k : e.tasks = f.tasks) :
    (if c then d else e).tasks = f.tasks := by
  split
  · exact h
  · exact k

@[simp] theorem Dev.tasks_put (d : Dev) (f : Fld) (v i j : Nat) : (d.put f v i j).tasks = d.tasks := rfl

@[simp] theorem Dev.tasks_wr (d : Dev) (r : RegRef) (v : Nat) : (d.wr r v).tasks = d.tasks := rfl

@[simp] theorem Dev.tasks_bump16 (d : Dev) (f : Fld) (i j : Nat) : (d.bump16 f i j).tasks = d.tasks := rfl

/-! ### Messages -/

@[simp] theorem Dev.tasks_fireIf (d : Dev) (b : Bool) : (d.fireIf b).tasks = d.tasks := by
  unfold Dev.fireIf
  exact Dev.tasks_ite rfl rfl

@[simp] theorem Dev.tasks_sendFlit (d : Dev) (p : Nat) : (d.sendFlit p).tasks = d.tasks :=
  Dev.tasks_fireIf d _

@[simp] theorem Dev.tasks_postMsg (d : Dev) (p : Nat) (o : Out) (slot : Nat) : (d.postMsg p o slot).tasks = d.tasks :=
  Dev.tasks_ite (Dev.tasks_sendFlit _ _) rfl

@[simp] theorem Dev.tasks_emit (d : Dev) (o : Out) : (d.emit o).tasks = d.tasks := by
  rw [Dev.emit]
  dsimp only
  split
  · rfl
  · split
    · exact Dev.tasks_postMsg _ _ _ _
    · rfl

@[simp] theorem Dev.tasks_sendVec (d : Dev) (pf1 : Bool) (v : Nat) : (d.sendVec pf1 v).tasks = d.tasks :=
  Dev.tasks_ite (Dev.tasks_emit _ _) (Dev.tasks_ite rfl rfl)

/-! ### Stores -/

@[simp] theorem Dev.tasks_stLine (d : Dev) (a : Nat) (bs : List Byte) : (d.stLine a bs).tasks = d.tasks :=
  Dev.tasks_ite rfl (Dev.tasks_ite rfl rfl)

theorem Dev.tasks_stLines (d : Dev) (a : Nat) (bs : List Byte) (n : Nat) : (d.stLines a bs n).tasks = d.tasks := by
  induction n generalizing d a bs with
  | zero => rfl
  | succ n ih => exact Dev.tasks_ite rfl ((ih _ _ _).trans (Dev.tasks_stLine _ _ _))

@[simp] theorem Dev.tasks_st (d : Dev) (a : Nat) (bs : List Byte) : (d.st a bs).tasks = d.tasks :=
  Dev.tasks_ite rfl (Dev.tasks_stLines _ _ _ _)

@[simp] theorem Dev.tasks_logPage (d : Dev) (p page : Nat) : (d.logPage p page).tasks = d.tasks :=
  Dev.tasks_ite rfl (Dev.tasks_ite rfl rfl)

@[simp] theorem Dev.tasks_hst (d : Dev) (pasid a : Nat) (bs : List Byte) : (d.hst pasid a bs).tasks = d.tasks := by
  rw [Dev.hst]
  split
  · exact Dev.tasks_foldl (fun d g => Dev.tasks_logPage d _ g) _ _
  · rfl

/-! ### Reports -/

@[simp] theorem Dev.tasks_logEvent (d : Dev) (kind sev code : Nat) (data record : List Byte) :
    (d.logEvent kind sev code data record).tasks = d.tasks :=
  Dev.tasks_ite rfl rfl

@[simp] theorem Dev.tasks_ringVec (d : Dev) (id vec holdoff : Nat) : (d.ringVec id vec holdoff).tasks = d.tasks :=
  Dev.tasks_ite rfl (Dev.tasks_ite (Dev.tasks_sendVec _ _ _) (Dev.tasks_sendVec d _ _))

@[simp] theorem Dev.tasks_markLost (d : Dev) (who : Option Nat) : (d.markLost who).tasks = d.tasks :=
  Dev.tasks_ite rfl rfl

@[simp] theorem Dev.tasks_managerDrop (d : Dev) : d.managerDrop.tasks = d.tasks := Dev.tasks_markLost _ _

@[simp] theorem Dev.tasks_podDrop (d : Dev) (p : Nat) : (d.podDrop p).tasks = d.tasks := Dev.tasks_markLost _ _

@[simp] theorem Dev.tasks_recordStore (d : Dev) (host : Bool) (pasid a : Nat) (bs : List Byte) :
    (d.recordStore host pasid a bs).tasks = d.tasks :=
  Dev.tasks_ite (Dev.tasks_hst _ _ _ _) (Dev.tasks_st _ _ _)

@[simp] theorem Dev.tasks_managerRecord (d : Dev) (e : ErrInfo) (seq : Nat) : (d.managerRecord e seq).tasks = d.tasks := by
  rw [Dev.managerRecord]
  refine Dev.tasks_ite (Dev.tasks_managerDrop d) (Dev.tasks_ite ?_ ?_)
  · exact (Dev.tasks_logEvent _ _ _ _ _ _).trans (Dev.tasks_managerDrop _)
  · exact (Dev.tasks_ringVec _ _ _ _).trans (Dev.tasks_recordStore d _ _ _ _)

@[simp] theorem Dev.tasks_recordManager (d : Dev) (e : ErrInfo) (seq : Nat) : (d.recordManager e seq).tasks = d.tasks := by
  have fatal (c : Prop) [Decidable c] (x : Dev) : (if c then x.put F.ERR_STATUS_FATAL 1 else x).tasks = x.tasks :=
    Dev.tasks_ite rfl rfl
  have recorded := (fatal (severity e = 3) ((d.managerRecord e seq).put F.ERR_STATUS_LAST_SEQ seq)).trans
    (d.tasks_managerRecord e seq)
  exact Dev.tasks_ite ((Dev.tasks_logEvent _ _ _ _ _ _).trans recorded) recorded

@[simp] theorem Dev.tasks_reportManager (d : Dev) (e : ErrInfo) : (d.reportManager e).tasks = d.tasks :=
  Dev.tasks_recordManager _ _ _

@[simp] theorem Dev.tasks_podRecordVec (d : Dev) (p : Nat) : (d.podRecordVec p).tasks = d.tasks :=
  Dev.tasks_ite (Dev.tasks_ringVec _ _ _ _) (Dev.tasks_reportManager _ _)

@[simp] theorem Dev.tasks_podRecord (d : Dev) (p : Nat) (e : ErrInfo) (seq : Nat) : (d.podRecord p e seq).tasks = d.tasks := by
  rw [Dev.podRecord]
  refine Dev.tasks_ite (Dev.tasks_podDrop _ _) (Dev.tasks_ite ?_ ?_)
  · exact (Dev.tasks_reportManager _ _).trans (Dev.tasks_podDrop _ _)
  · exact (Dev.tasks_podRecordVec _ _).trans (Dev.tasks_recordStore (d.put _ _ _ _) _ _ _ _)

@[simp] theorem Dev.tasks_report (d : Dev) (e : ErrInfo) : (d.report e).tasks = d.tasks := by
  rw [Dev.report]
  split
  · rfl
  · have held : (if e.limited = true then ({ d with errs := { d.errs with
        recent := upsert (fun r => r.1 == e.cls && r.2.1 == e.sourceKey) (e.cls, e.sourceKey, d.now)
          d.errs.recent } } : Dev) else d).tasks = d.tasks := Dev.tasks_ite rfl rfl
    dsimp only
    split
    · exact (Dev.tasks_podRecord _ _ _ _).trans ((Dev.tasks_recordManager _ _ _).trans held)
    · exact (Dev.tasks_recordManager _ _ _).trans held

@[simp] theorem Dev.tasks_count (d : Dev) (k : RegKind) (n i j : Nat) : (d.count k n i j).tasks = d.tasks :=
  Dev.tasks_ite rfl (Dev.tasks_ite (Dev.tasks_report _ _) rfl)

/-! ### Memory traffic and the directory -/

@[simp] theorem Dev.tasks_settlePort (d : Dev) (port on off : Nat) (f : Fld) :
    (d.settlePort port on off f).tasks = d.tasks := by
  have row (ks : List Nat) (v : Nat) : (ks.foldl (fun d k => d.put f v k) d).tasks = d.tasks :=
    Dev.tasks_foldl (fun d _ => Dev.tasks_put d _ _ _ _) ks d
  exact Dev.tasks_ite rfl (row _ _)

@[simp] theorem Dev.tasks_atPort (d : Dev) (q : PortReq) : (d.atPort q).tasks = d.tasks :=
  (Dev.tasks_settlePort _ _ _ _ _).trans (Dev.tasks_settlePort _ _ _ _ _)

@[simp] theorem Dev.tasks_memAsk (d : Dev) (port : Nat) (write part openHint : Bool) (lines : List Nat)
    (reply : Option Reply) : (d.memAsk port write part openHint lines reply).tasks = d.tasks := by
  cases lines with
  | nil => rfl
  | cons o rest => exact Dev.tasks_ite (Dev.tasks_atPort _ _) rfl

@[simp] theorem Dev.tasks_ioAsk (d : Dev) (write openHint : Bool) (sector a n : Nat) :
    (d.ioAsk write openHint sector a n).tasks = d.tasks := by
  rw [Dev.ioAsk]
  exact Dev.tasks_ite ((Dev.tasks_memAsk _ _ _ _ _ _ _).trans (Dev.tasks_memAsk _ _ _ _ _ _ _))
    (Dev.tasks_memAsk _ _ _ _ _ _ _)

@[simp] theorem Dev.tasks_snoop (d : Dev) (slice sector : Nat) (inv bcast : Bool) (xs : List Nat) :
    (d.snoop slice sector inv bcast xs).tasks = d.tasks := by
  have sent := Dev.tasks_foldl (f := fun d x => d.emit (.coh x (if inv then 2 else 1) sector))
    (fun d x => Dev.tasks_emit d _) xs d
  exact Dev.tasks_ite ((Dev.tasks_count _ _ _ _ _).trans sent) sent

@[simp] theorem Dev.tasks_setPoison (d : Dev) (a : Nat) (p : Poison) : (d.setPoison a p).tasks = d.tasks := rfl

@[simp] theorem Dev.tasks_sliceWrite (d : Dev) (o : Nat) : (d.sliceWrite o).tasks = d.tasks := rfl

@[simp] theorem Dev.tasks_loseLines (d : Dev) (sector : Nat) : (d.loseLines sector).tasks = d.tasks := by
  rw [Dev.loseLines]
  split
  · exact (Dev.tasks_foldl (fun d _ => Dev.tasks_sliceWrite d _) _ _).trans
      ((Dev.tasks_count _ _ _ _ _).trans (Dev.tasks_foldl (fun d _ => Dev.tasks_setPoison d _ _) _ _))
  · exact (Dev.tasks_foldl (fun d _ => Dev.tasks_emit d _) _ _).trans
      ((Dev.tasks_count _ _ _ _ _).trans (Dev.tasks_foldl (fun d _ => Dev.tasks_setPoison d _ _) _ _))

@[simp] theorem Dev.tasks_checkDir (d : Dev) (slice sector : Nat) : (d.checkDir slice sector).tasks = d.tasks := by
  rw [Dev.checkDir]
  split
  · rfl
  · refine Dev.tasks_ite rfl (Dev.tasks_ite rfl ?_)
    refine (Dev.tasks_report _ _).trans ((Dev.tasks_loseLines _ _).trans (Dev.tasks_snoop (d.unplant _ _ _) _ _ _ _ _))

@[simp] theorem Dev.tasks_plantIf (d : Dev) (target index a : Nat) : (d.plantIf target index a).tasks = d.tasks :=
  Dev.tasks_ite rfl rfl

@[simp] theorem Dev.tasks_lineWritten (d : Dev) (o : Nat) (full : Bool) : (d.lineWritten o full).tasks = d.tasks :=
  (Dev.tasks_plantIf _ _ _ _).trans (Dev.tasks_ite rfl rfl)

@[simp] theorem Dev.tasks_ioWrote (d : Dev) (a n : Nat) (openHint : Bool) : (d.ioWrote a n openHint).tasks = d.tasks := by
  refine Dev.tasks_foldl (fun d sector => ?_) _ _
  refine (Dev.tasks_ioAsk _ _ _ _ _ _).trans ?_
  split
  · exact (Dev.tasks_snoop (d.checkDir _ _) _ _ _ _ _).trans (Dev.tasks_checkDir _ _ _)
  · exact Dev.tasks_checkDir d _ _

@[simp] theorem Dev.tasks_ioStore (d : Dev) (a : Nat) (bs : List Byte) (openHint : Bool) :
    (d.ioStore a bs openHint).tasks = d.tasks :=
  (Dev.tasks_foldl (fun d _ => Dev.tasks_lineWritten d _ _) _ _).trans
    ((Dev.tasks_ioWrote _ _ _ _).trans (Dev.tasks_st _ _ _))

@[simp] theorem Dev.tasks_ioZero (d : Dev) (a n : Nat) : (d.ioZero a n).tasks = d.tasks :=
  Dev.tasks_foldl (fun d _ => Dev.tasks_snoop d _ _ _ _ _) _ d

end Sys2Proof.Machine

/-!
# The NVMe controller: queues and admin commands (spec ch. 11)
-/

namespace Sys2Proof.Machine

/-! ### Queues -/

theorem nat_bne_eq (a b : Nat) : (a != b) = decide (a ≠ b) := by
  rw [Bool.eq_iff_iff, bne_iff_ne, decide_eq_true_iff]

theorem Dev.takeCmd_waiting {d : Dev} {q : Nat} {x : NvmeSq} (queue : d.nvme.sq? q = some x) (ready : d.nvme.rdy = true)
    (up : d.host.up = true) (waits : x.head ≠ x.tail) :
    d.takeCmd q = some { d with nvme := { d.nvme with sqs := d.nvme.sqs.map fun y =>
      if y.id = q then { y with head := (y.head + 1) % y.size } else y } } := by
  simp only [Dev.takeCmd, queue, ready, up, Dev.onNvme, Nvme.onSq, mapIf, beq_iff_eq]
  exact if_pos (by simpa using waits)

theorem Dev.takeCmd_empty {d : Dev} {q : Nat} {x : NvmeSq} (queue : d.nvme.sq? q = some x) (empty : x.head = x.tail) :
    d.takeCmd q = none := by
  simp only [Dev.takeCmd, queue]
  exact if_neg (by simp [empty])

/-- A change of the element that a search finds. -/
theorem find?_mapIf {α : Type} {p : α → Bool} {f : α → α} {l : List α} {x : α} (found : l.find? p = some x)
    (stays : p (f x) = true) : (mapIf p f l).find? p = some (f x) := by
  induction l with
  | nil => exact absurd found (by simp)
  | cons y ys ih =>
    rw [mapIf, List.map_cons]
    by_cases hit : p y = true
    · obtain rfl : y = x := by simpa [List.find?_cons_of_pos hit] using found
      rw [if_pos hit, List.find?_cons_of_pos stays]
    · rw [if_neg hit, List.find?_cons_of_neg hit]
      exact ih (by rwa [List.find?_cons_of_neg hit] at found)

section

variable {d : Dev} {q : Nat} {c : NvmeCq}

theorem Dev.nvme_sendVec (d : Dev) (pf1 : Bool) (v : Nat) : (d.sendVec pf1 v).nvme = d.nvme :=
  congrArg Tasks.nvme (d.tasks_sendVec pf1 v)

/-- Announcing a completion leaves what is posted. -/
theorem Dev.posted_announceCqe (queue : d.nvme.cq? q = some c) :
    ((d.announceCqe c).nvme.cq? q).map (fun c => c.posted) = some c.posted := by
  have id : c.id = q := by simpa using List.find?_some queue
  have counted (n : Nat) : ((d.onNvme fun v => { v with
      cqs := mapIf (fun (x : NvmeCq) => x.id == c.id) (fun x => { x with unannounced := n }) v.cqs }).nvme.cq? q).map
      (fun c => c.posted) = some c.posted := by
    rw [id]
    exact congrArg (Option.map fun c => c.posted) (find?_mapIf (f := fun x => { x with unannounced := n }) queue (by simp [id]))
  rw [Dev.announceCqe]
  dsimp only
  split
  · rw [queue]
    rfl
  · split
    · exact counted _
    · rw [Dev.nvme_sendVec]
      exact counted 0

theorem Dev.posted_postCqe {w : NvmeWait} (queue : d.nvme.cq? q = some c) :
    ((d.postCqe c w).nvme.cq? q).map (fun c => c.posted) = some (c.posted ++ [⟨w.sq, w.cid, w.status, w.dw0⟩]) := by
  obtain rfl : c.id = q := by simpa using List.find?_some queue
  let posts : NvmeCq := { c with
    tail := (c.tail + 1) % c.size, posted := c.posted ++ [⟨w.sq, w.cid, w.status, w.dw0⟩] }
  have found := find?_mapIf (p := fun x : NvmeCq => x.id == c.id) (f := fun _ => posts) queue (beq_self_eq_true _)
  rw [Dev.postCqe]
  exact Dev.posted_announceCqe (c := posts) found

/-- A completion with nothing before it is posted when its queue has room. -/
theorem Dev.settleNvme_one {w : NvmeWait} (one : d.nvme.waits = [w]) (free : w.after = []) (plain : w.kind = .other)
    (queue : d.nvme.cq? w.cq = some c) (room : c.posted.length + 1 < c.size) :
    d.settleNvme = (d.postCqe c w).onNvme fun v => { v with waits := [] } := by
  have may : d.nvme.mayPost [] w = true := by
    simp [Nvme.mayPost, free, plain, queue, room]
  rw [Dev.settleNvme, one]
  simp only [List.foldl_cons, List.foldl_nil, if_pos may, queue]

end

theorem Nvme.cq?_logError (v : Nvme) (sq cid status q : Nat) : (v.logError sq cid status).cq? q = v.cq? q := by
  rw [Nvme.logError]
  split <;> rfl

/-- The completion of a command is posted in its queue. -/
theorem Dev.cmdDone_posts {d : Dev} {sq st dw0 : Nat} {cid : BitVec 16} {q : NvmeSq} {c : NvmeCq}
    (subQ : d.nvme.sq? sq = some q) (comQ : d.nvme.cq? q.cq = some c) (idle : d.nvme.waits = [])
    (room : c.posted.length + 1 < c.size) :
    ((d.cmdDone sq cid st dw0).nvme.cq? q.cq).map (fun c => c.posted) = some (c.posted ++ [⟨sq, cid.toNat, st, dw0⟩]) := by
  let w : NvmeWait := ⟨sq, q.cq, cid.toNat, st, dw0, .other, []⟩
  let e := d.onNvme fun v => { v.logError sq cid.toNat st with waits := v.waits ++ [w] }
  have queue : e.nvme.cq? q.cq = some c := (Nvme.cq?_logError _ _ _ _ _).trans comQ
  have ends : d.cmdDone sq cid st dw0 = e.settleNvme := by
    simp only [Dev.cmdDone, Dev.endCmd, subQ]
    rfl
  have one : d.nvme.waits ++ [w] = [w] := by rw [idle, List.nil_append]
  have settled : e.settleNvme = (e.postCqe c w).onNvme fun v => { v with waits := [] } :=
    Dev.settleNvme_one (w := w) one rfl rfl queue room
  rw [ends, settled]
  exact Dev.posted_postCqe (w := w) queue

/-- Settles O34. -/
theorem nvmeControllerAndQueues : Obligations.NvmeControllerAndQueues := by
  refine ⟨fun s clocked => ⟨fun off => ?enable, ⟨fun on => ?reset, ?flr⟩, fun q v ready => ⟨?sqBell, ?cqBell⟩, ?coalesced⟩,
    fun d q x queue ready up => ⟨Dev.takeCmd_waiting queue ready up, Dev.takeCmd_empty queue⟩,
    fun d sq cid st dw0 q c subQ comQ idle room => Dev.cmdDone_posts subQ comQ idle room⟩
  case enable => exact .of_act (exec_controllerEnable s) clocked (if_neg (by simp [off]))
  case reset => exact .of_act (exec_controllerReset s) clocked (if_pos on)
  case flr => exact .of_act (exec_pf1Flr s) clocked rfl
  case sqBell =>
    have tails (x : NvmeSq) : (if x.id = q.val then (if v.toNat < x.size then { x with tail := v.toNat } else x) else x) =
        if x.id = q.val ∧ v.toNat < x.size then { x with tail := v.toNat } else x := by
      by_cases mine : x.id = q.val <;> simp [mine]
    refine .of_act (exec_nvmeSqDoorbell q v s) clocked ((if_neg (by simp [ready])).trans ?_)
    simp only [Dev.onNvme, Nvme.onSq, mapIf, beq_iff_eq, tails]
  case cqBell =>
    have frees (c : NvmeCq) : (if c.id = q.val then c.free v.toNat else c) =
        if c.id = q.val ∧ v.toNat < c.size ∧ (v.toNat + c.size - c.head) % c.size ≤ c.posted.length then
          { c with head := v.toNat, posted := c.posted.drop ((v.toNat + c.size - c.head) % c.size) }
        else c := by
      by_cases mine : c.id = q.val <;> simp [mine, NvmeCq.free]
    refine .of_act (exec_nvmeCqDoorbell q v s) clocked ((if_neg (by simp [ready])).trans ?_)
    simp only [Dev.onNvme, Nvme.onCq, mapIf, beq_iff_eq, frees]
  case coalesced =>
    refine .of_act (exec_interruptCoalescingExpiry s) clocked ?_
    simp only [nat_bne_eq]
    rfl

end Sys2Proof.Machine

namespace Sys2Proof.Machine

/-! ### Admin commands -/

section

variable {s : State} {d e : Dev} {c : Instr} {f : Dev → Dev}

theorem Dev.admin_taken {s d : Dev} (taken : s.takeCmd 0 = some d) (f : Dev → Dev) : s.admin f = f d := by
  simp only [Dev.admin, taken]

/-- An admin command on the entry that the controller takes. -/
theorem Gives.of_admin (is : exec c s = s.act fun d => d.admin f) (clocked : s.dev.clocked)
    (taken : s.dev.takeCmd 0 = some d) (h : f d = e) : Gives c s e :=
  .of_act is clocked ((Dev.admin_taken taken f).trans h)

end

section

variable {d d' : Dev} {cid : BitVec 16} {prps : List Word}

/-- Data that the host pages can take are stored, and the command ends. -/
theorem Dev.adminData_reached {bs : List Byte} (taken : d.takeCmd 0 = some d') (ok : prpsOk prps bs.length = true)
    (reach : d.runsReach (prpRuns prps bs.length) = .ok) :
    d.adminData cid prps bs = (d'.storeRuns bs (prpRuns prps bs.length)).cmdDone 0 cid 0 := by
  rw [Dev.adminData, if_neg (by simp [ok]), reach]
  exact Dev.admin_taken taken _

theorem Dev.cmdWaits_taken (taken : d.takeCmd 0 = some d') : d.cmdWaits 0 = true := by
  rw [Dev.cmdWaits, taken]
  rfl

/-- Identify of a structure that is not offered. -/
theorem Dev.identify_unknown {cns nsid : Nat} (above : 0x13 < cns) : d.identify cns nsid = .error 0x02 := by
  have ne {k : Nat} (le : k ≤ 0x13) : ¬cns = k := by omega
  rw [Dev.identify, if_neg (ne (by decide)), if_neg (ne (by decide)), if_neg (ne (by decide)), if_neg (ne (by decide)),
    if_neg (ne (by decide)), if_neg (ne (by decide)), if_neg (ne (by decide))]

end

/-- A log page of the asked length. -/
theorem Gives.logPage {s : State} {d : Dev} {cid n : BitVec 16} {lid : BitVec 8} {prps : List Word} {log : List Byte}
    (clocked : s.dev.clocked) (taken : s.dev.takeCmd 0 = some d) (ok : prpsOk prps n.toNat = true)
    (reach : s.dev.runsReach (prpRuns prps n.toNat) = .ok)
    (page : (if lid = 1 then .ok (slice s.dev.errorLog 0 n.toNat) else if lid = 2 then .ok (slice s.dev.smartLog 0 n.toNat)
      else .error 0x109) = Except.ok (slice log 0 n.toNat)) :
    Gives (.getLogPage cid lid n prps) s ((d.storeRuns (slice log 0 n.toNat) (prpRuns prps n.toNat)).cmdDone 0 cid 0) := by
  refine .of_act (exec_getLogPage cid lid n prps s) clocked ((if_neg (by simp [Dev.cmdWaits_taken taken])).trans ?_)
  have stored : s.dev.adminData cid prps (slice log 0 n.toNat) =
      (d.storeRuns (slice log 0 n.toNat) (prpRuns prps n.toNat)).cmdDone 0 cid 0 := by
    rw [Dev.adminData_reached taken (by rwa [length_slice]) (by rwa [length_slice]), length_slice]
  exact (congrArg (s.dev.adminAnswer cid prps) page).trans stored

/-- A queue that is named and there. -/
theorem queue_named {α : Type} {q : BitVec 16} {o : Option α} (some : q ≠ 0) (has : o.isSome = true) :
    ¬(decide (q.toNat = 0) || o.isNone) = true := by
  obtain ⟨x, rfl⟩ := Option.isSome_iff_exists.mp has
  have ne : q.toNat ≠ 0 := fun h => some (BitVec.eq_of_toNat_eq h)
  simp [ne]

/-- Settles O35. -/
theorem nvmeAdminCommandsAndData : Obligations.NvmeAdminCommandsAndData := by
  refine ⟨fun s d cid q n k b ien clocked taken => ⟨fun ok => ?newCq, fun bad => ?badCq, fun ok => ?newSq,
      fun bad => ?badSq, fun some has idle => ?dropSq, fun some has => ⟨fun used => ?usedCq, fun free => ?dropCq⟩,
      fun zero => ⟨?sqZero, ?cqZero⟩, fun many => ?aborts, fun few gone => ?gone, fun few idle => ?aborted, ?opcode,
      fun fid x => ⟨fun bad => ?badFeature, fun ok other => ?setFeature, fun ok => ?getFeature, fun no => ?noFeature⟩⟩,
    fun s d cid nsid prps clocked taken => ⟨fun cns bs is ok reach => ?identify, fun cns above => ?unknown,
      fun n ok reach => ⟨?errors, ?smart⟩, fun lid n ne₁ ne₂ => ?noLog⟩⟩
  case newCq =>
    refine .of_admin (exec_createIoCq cid q n k ien true b s) clocked taken ?_
    simp only [ok]
    rfl
  case badCq =>
    refine .of_admin (exec_createIoCq cid q n k ien true b s) clocked taken ?_
    simp only [if_neg bad]
  case newSq =>
    refine .of_admin (exec_createIoSq cid q n k true b s) clocked taken ?_
    simp only [ok]
    rfl
  case badSq =>
    refine .of_admin (exec_createIoSq cid q n k true b s) clocked taken ?_
    simp only [if_neg bad]
  case dropSq =>
    refine .of_admin (exec_deleteIoSq cid q s) clocked taken ((if_neg (queue_named some has)).trans ?_)
    simp only [idle, List.foldl_nil, nat_bne_eq]
    rfl
  case usedCq =>
    exact .of_admin (exec_deleteIoCq cid q s) clocked taken ((if_neg (queue_named some has)).trans (if_pos used))
  case dropCq =>
    refine .of_admin (exec_deleteIoCq cid q s) clocked taken
      ((if_neg (queue_named some has)).trans ((if_neg (Bool.eq_false_iff.mp free)).trans ?_))
    simp only [nat_bne_eq]
    rfl
  case sqZero =>
    refine .of_admin (exec_deleteIoSq cid q s) clocked taken (if_pos ?_)
    simp [zero]
  case cqZero =>
    refine .of_admin (exec_deleteIoCq cid q s) clocked taken (if_pos ?_)
    simp [zero]
  case aborts => exact .of_admin (exec_abort cid q k s) clocked taken (if_pos many)
  case gone =>
    exact .of_admin (exec_abort cid q k s) clocked taken
      ((if_neg (Nat.not_le.mpr few)).trans (if_neg (Bool.eq_false_iff.mp gone)))
  case aborted =>
    exact .of_admin (exec_abort cid q k s) clocked taken ((if_neg (Nat.not_le.mpr few)).trans (if_pos idle))
  case opcode =>
    refine .of_act (exec_nvmeInvalidOpcode 0 cid s) clocked ?_
    have first : s.dev.takeCmd (0 : Fin 65).val = some d := taken
    simp only [first]
    rfl
  case badFeature => exact .of_admin (exec_setFeatures cid fid false x s) clocked taken (if_pos bad)
  case setFeature =>
    have seven : ¬fid.toNat = 7 := fun h => other (BitVec.eq_of_toNat_eq h)
    refine .of_admin (exec_setFeatures cid fid false x s) clocked taken ((if_neg fun h => h ok).trans ?_)
    rw [if_neg seven]
    rfl
  case getFeature => exact .of_admin (exec_getFeatures cid fid s) clocked taken (if_pos ok)
  case noFeature => exact .of_admin (exec_getFeatures cid fid s) clocked taken (if_neg (Bool.eq_false_iff.mp no))
  case identify =>
    refine .of_act (exec_identify cid cns nsid prps s) clocked ((if_pos (Dev.cmdWaits_taken taken)).trans ?_)
    rw [is]
    exact Dev.adminData_reached taken ok reach
  case unknown =>
    refine .of_act (exec_identify cid cns nsid prps s) clocked ((if_pos (Dev.cmdWaits_taken taken)).trans ?_)
    rw [Dev.identify_unknown above]
    exact Dev.admin_taken taken _
  case errors => exact .logPage clocked taken ok reach (if_pos rfl)
  case smart => exact .logPage clocked taken ok reach ((if_neg (by decide)).trans (if_pos rfl))
  case noLog =>
    refine .of_act (exec_getLogPage cid lid n prps s) clocked ((if_neg (by simp [Dev.cmdWaits_taken taken])).trans ?_)
    rw [if_neg ne₁, if_neg ne₂]
    exact Dev.admin_taken taken _

end Sys2Proof.Machine

namespace Sys2Proof.Machine

/-! ### Namespaces -/

section

variable {d : Dev} {g : Nat}

/-- A size in whole granules. -/
theorem granules_toNat (fits : g < 2 ^ 46) : (BitVec.ofNat 64 (g * 262144)).toNat = g * 262144 := by
  rw [BitVec.toNat_ofNat]
  exact Nat.mod_eq_of_lt (by omega)

theorem granules_ok (least : 1 ≤ g) (fits : g < 2 ^ 46) :
    ¬(((0 : BitVec 8) != 0 || (0 : BitVec 8) != 0 || (0 : BitVec 8) != 0 ||
      BitVec.ofNat 64 (g * 262144) != BitVec.ofNat 64 (g * 262144) || BitVec.ofNat 64 (g * 262144) == 0 ||
      (BitVec.ofNat 64 (g * 262144)).toNat % 262144 != 0) = true) := by
  have size := granules_toNat fits
  have some : BitVec.ofNat 64 (g * 262144) ≠ 0#64 := fun h => by
    rw [h] at size
    simp only [BitVec.toNat_zero] at size
    omega
  rw [size]
  simp [some]

/-- The lowest free NSID takes the lowest run of free granules. -/
theorem Dev.createNs_free {n b : Nat} (cid : BitVec 16) (id : d.freeNsid = some n) (run : d.freeRun g = some b) :
    d.createNs cid g = ((((((d.put F.ING_NS_VALID 1 (n - 1)).put F.ING_NS_POD ((d.podHolding b g).getD 0) (n - 1)).put
      F.ING_NS_SIZE_GIB g (n - 1)).put F.ING_NS_BASE_GIB b (n - 1)).ioZero (b * 2 ^ 30) (g * 2 ^ 30)).onNvme fun v =>
        { v with creating := v.creating ++ [⟨n, some cid.toNat⟩] }) := by
  simp only [Dev.createNs, id, run]

theorem ns_named {n : BitVec 32} (one : n ≠ 0xFFFFFFFF) (d : Dev) :
    (if n.toNat = 0xFFFFFFFF then d.namespaces else [n.toNat]) = [n.toNat] :=
  if_neg fun h => one (BitVec.eq_of_toNat_eq h)

end

section

variable {s : State} {d : Dev} {cid : BitVec 16} {n : BitVec 32}

/-- A write of a pool register is rejected for a valid range that no pod holds. -/
theorem Dev.poolWrite_rejected {d : Dev} {m v : Nat} {k : Bool}
    (valid : bitsOf (regAfter (RegKind.ING_POOL).fields (d.rd ⟨.ING_POOL, m, 0⟩) v false k) 63 1 = 1)
    (nobody : d.podHolding (bitsOf (regAfter (RegKind.ING_POOL).fields (d.rd ⟨.ING_POOL, m, 0⟩) v false k) 0 16)
      (bitsOf (regAfter (RegKind.ING_POOL).fields (d.rd ⟨.ING_POOL, m, 0⟩) v false k) 32 16) = none) :
    d.poolWrite m v k = d.put F.ING_STATUS_REJECT 1 := by
  simp only [Dev.poolWrite]
  exact if_pos (Or.inl ⟨valid, by rw [nobody]; rfl⟩)

theorem Dev.poolWrite_accepted {d : Dev} {m v : Nat} {k : Bool}
    (held : (d.podHolding (bitsOf (regAfter (RegKind.ING_POOL).fields (d.rd ⟨.ING_POOL, m, 0⟩) v false k) 0 16)
      (bitsOf (regAfter (RegKind.ING_POOL).fields (d.rd ⟨.ING_POOL, m, 0⟩) v false k) 32 16)).isSome = true)
    (loses : d.poolLoses m (d.rd ⟨.ING_POOL, m, 0⟩)
      (regAfter (RegKind.ING_POOL).fields (d.rd ⟨.ING_POOL, m, 0⟩) v false k) = false) :
    d.poolWrite m v k =
      d.wr ⟨.ING_POOL, m, 0⟩ (regAfter (RegKind.ING_POOL).fields (d.rd ⟨.ING_POOL, m, 0⟩) v false k) := by
  simp only [Dev.poolWrite]
  refine if_neg ?_
  rintro (⟨-, nobody⟩ | lost)
  · exact absurd (held.symm.trans nobody) (by decide)
  · exact absurd (loses.symm.trans lost) (by decide)

end

/-- Settles O36. -/
theorem nvmeNamespaceCommands : Obligations.NvmeNamespaceCommands := by
  refine ⟨fun s d cid clocked taken => ⟨fun g n b least fits id run => ?create, fun x y ne => ?badSize,
      fun n one has zeroed => ⟨fun busy => ?busy, fun idle => ?delete, fun off => ?attach, fun on => ⟨?again, ?detach⟩⟩,
      fun n one no => ?none_⟩,
    fun s n c clocked found => ⟨fun cid of => ?completes, fun no => ?ends⟩,
    fun s m v clocked => ⟨fun valid nobody => ?rejects, fun held keeps => ?writes⟩⟩
  case create =>
    refine .of_admin (exec_namespaceCreate cid _ _ 0 0 0 s) clocked taken ((if_neg (granules_ok least fits)).trans ?_)
    rw [granules_toNat fits, Nat.mul_div_cancel g (by decide), Dev.createNs_free cid id run]
    rfl
  case badSize => exact .of_admin (exec_namespaceCreate cid x y 0 0 0 s) clocked taken (if_pos (by simp [ne]))
  case busy =>
    refine .of_admin (exec_namespaceDelete cid n s) clocked taken ?_
    simp only [ns_named one, List.any_cons, List.any_nil, has, zeroed, busy]
    rfl
  case delete =>
    refine .of_admin (exec_namespaceDelete cid n s) clocked taken ?_
    simp only [ns_named one, List.any_cons, List.any_nil, has, zeroed, idle]
    rfl
  case attach =>
    refine .of_admin (exec_namespaceAttachment cid n true 1 s) clocked taken ?_
    simp only [has, zeroed, off]
    rfl
  case again =>
    refine .of_admin (exec_namespaceAttachment cid n true 1 s) clocked taken ?_
    simp only [has, zeroed, on]
    rfl
  case detach =>
    refine .of_admin (exec_namespaceAttachment cid n false 1 s) clocked taken ?_
    simp only [has, zeroed, on, nat_bne_eq]
    rfl
  case none_ =>
    refine .of_admin (exec_namespaceDelete cid n s) clocked taken ?_
    simp only [ns_named one, List.any_cons, List.any_nil, no]
    rfl
  case completes =>
    refine .of_act (exec_namespaceZeroingDone n s) clocked ?_
    simp only [found, of]
    rfl
  case ends =>
    refine .of_act (exec_namespaceZeroingDone n s) clocked ?_
    simp only [found, no]
    rfl
  case rejects =>
    refine .of_act (exec_ingPoolWrite m ⟨.bar0, .full, v⟩ s) clocked ?_
    rw [Dev.access_bar0_full (show RegKind.ING_POOL ≠ .RNG_PUSH by decide)]
    exact Dev.poolWrite_rejected valid nobody
  case writes =>
    refine .of_act (exec_ingPoolWrite m ⟨.bar0, .full, v⟩ s) clocked ?_
    rw [Dev.access_bar0_full (show RegKind.ING_POOL ≠ .RNG_PUSH by decide)]
    exact Dev.poolWrite_accepted held keeps

end Sys2Proof.Machine

namespace Sys2Proof.Machine

/-! ### I/O commands -/

section

variable {d : Dev}

/-- With nothing waiting there is nothing to post. -/
theorem Dev.settleNvme_idle (idle : d.nvme.waits = []) : d.settleNvme = d := by
  have same : ({ d.nvme with waits := [] } : Nvme) = d.nvme := by rw [← idle]
  rw [Dev.settleNvme, idle]
  exact congrArg (fun v => ({ d with nvme := v } : Dev)) same

theorem Dev.placeWaiting_none (n : Nat) (none : d.nvme.writeWaits = []) : d.placeWaiting n = d := by
  cases n with
  | zero => rfl
  | succ n => simp only [Dev.placeWaiting, none]

theorem Dev.writeWaits_announceCqe (d : Dev) (c : NvmeCq) : (d.announceCqe c).nvme.writeWaits = d.nvme.writeWaits := by
  rw [Dev.announceCqe]
  dsimp only
  split
  · rfl
  · split
    · rfl
    · rw [Dev.nvme_sendVec]
      rfl

theorem Dev.writeWaits_postCqe (d : Dev) (c : NvmeCq) (w : NvmeWait) :
    (d.postCqe c w).nvme.writeWaits = d.nvme.writeWaits :=
  Dev.writeWaits_announceCqe _ _

/-- Posting completions leaves the Writes that wait. -/
theorem Dev.writeWaits_settleNvme (d : Dev) : d.settleNvme.nvme.writeWaits = d.nvme.writeWaits := by
  rw [Dev.settleNvme]
  refine List.foldlRecOn (motive := fun x : Dev × List NvmeWait => x.1.nvme.writeWaits = d.nvme.writeWaits)
    d.nvme.waits _ rfl fun x same w _ => ?_
  split
  · split
    · exact (Dev.writeWaits_postCqe _ _ _).trans same
    · exact same
  · exact same

theorem Nvme.writeWaits_logError (v : Nvme) (sq cid st : Nat) : (v.logError sq cid st).writeWaits = v.writeWaits := by
  rw [Nvme.logError]
  split <;> rfl

theorem Dev.writeWaits_cmdDone (d : Dev) (sq : Nat) (cid : BitVec 16) (st dw0 : Nat) :
    (d.cmdDone sq cid st dw0).nvme.writeWaits = d.nvme.writeWaits := by
  rw [Dev.cmdDone, Dev.endCmd]
  split
  · exact (Dev.writeWaits_settleNvme _).trans (Nvme.writeWaits_logError _ _ _ _)
  · rfl

theorem Dev.nvme_ioZero (d : Dev) (a n : Nat) : (d.ioZero a n).nvme = d.nvme :=
  congrArg Tasks.nvme (d.tasks_ioZero a n)

theorem Dev.nvme_ioStore (d : Dev) (a : Nat) (bs : List Byte) : (d.ioStore a bs).nvme = d.nvme :=
  congrArg Tasks.nvme (d.tasks_ioStore a bs false)

section

variable {io : NvmeIo}

/-- What the host gives a transfer. -/
theorem Dev.ioReach_ok (reach : d.runsReach (prpRuns io.prps (ioBytes io)) = .ok) (given : io.hostFail = false) :
    d.ioReach io = .ok := by
  simp only [Dev.ioReach, reach, given]
  rfl

theorem Dev.ioReach_failed (reach : d.runsReach (prpRuns io.prps (ioBytes io)) = .ok) (fails : io.hostFail = true) :
    d.ioReach io = .fault := by
  simp only [Dev.ioReach, reach, fails]
  rfl

theorem Dev.ioReach_fault (reach : d.runsReach (prpRuns io.prps (ioBytes io)) = .fault) : d.ioReach io = .fault := by
  simp only [Dev.ioReach, reach]
  rfl

end

end

section

variable {s : State} {d e : Dev} {io : NvmeIo}

/-- A Write that the controller takes. -/
theorem Gives.nvmeWrite (clocked : s.dev.clocked) (sq : io.sq ≠ 0) (taken : s.dev.takeCmd io.sq.val = some d)
    (h : (if s.dev.ioStatus io true ≠ 0 then d.cmdDone io.sq.val io.cid (s.dev.ioStatus io true)
      else if (!s.dev.nvme.writeWaits.isEmpty || !s.dev.nvme.roomFor io) = true then
        d.onNvme fun v => { v with writeWaits := v.writeWaits ++ [io] }
      else (d.runWrite io).getD (s.dev.askPrps (prpRuns io.prps (ioBytes io)))) = e) : Gives (.write io) s e := by
  refine .of_act (exec_write io s) clocked ((if_neg sq).trans ?_)
  rw [taken]
  exact h

/-- A Read that the controller takes. -/
theorem Dev.read_taken (clocked : s.dev.clocked) (sq : io.sq ≠ 0) (taken : s.dev.takeCmd io.sq.val = some d)
    (bad : s.dev.ioStatus io true ≠ 0) :
    Gives (.read io) s (d.cmdDone io.sq.val io.cid (s.dev.ioStatus io true)) := by
  refine .of_act (exec_read io s) clocked ((if_neg sq).trans ?_)
  rw [taken]
  exact if_pos bad

theorem Gives.nvmeRead (clocked : s.dev.clocked) (sq : io.sq ≠ 0) (taken : s.dev.takeCmd io.sq.val = some d)
    (ok : s.dev.ioStatus io true = 0) :
    (s.dev.ioReach io = .ok → Gives (.read io) s (d.runRead io)) ∧
      (s.dev.ioReach io = .fault →
        Gives (.read io) s ((d.forgetRuns 0 (prpRuns io.prps (ioBytes io))).cmdDone io.sq.val io.cid 0x04)) := by
  constructor
  · intro reach
    refine .of_act (exec_read io s) clocked ((if_neg sq).trans ?_)
    rw [taken]
    dsimp only
    rw [if_neg fun h => h ok, reach]
  · intro reach
    refine .of_act (exec_read io s) clocked ((if_neg sq).trans ?_)
    rw [taken]
    dsimp only
    rw [if_neg fun h => h ok, reach]

theorem room_given (none : s.dev.nvme.writeWaits = []) (room : s.dev.nvme.roomFor io = true) :
    ¬(!s.dev.nvme.writeWaits.isEmpty || !s.dev.nvme.roomFor io) = true := by
  rw [none, room]
  decide

/-- The device with the LBAs of a Write Zeroes zeroed, in memory and in the buffer. -/
theorem Gives.nvmeZeroes (clocked : s.dev.clocked) (sq : io.sq ≠ 0) (taken : s.dev.takeCmd io.sq.val = some d)
    (ok : d.ioStatus io false = 0) (none : d.nvme.writeWaits = []) :
    let lo := io.slba.toNat
    let n := io.nlb.toNat + 1
    let z := d.ioZero (d.nsBase io.nsid.toNat + 4096 * lo) (4096 * n)
    Gives (.writeZeroes io) s ((({ z with nvme := { z.nvme with buf := z.nvme.buf.filter fun b =>
      ¬(b.nsid = io.nsid.toNat ∧ lo ≤ b.lba ∧ b.lba < lo + n) } } : Dev).cmdDone io.sq.val io.cid 0).settleNvme) := by
  intro lo n z
  have zeroed (b : BufLba) : (!(b.nsid == io.nsid.toNat && decide (lo ≤ b.lba ∧ b.lba < lo + n))) =
      decide (¬(b.nsid = io.nsid.toNat ∧ lo ≤ b.lba ∧ b.lba < lo + n)) := by
    rw [Bool.eq_iff_iff]
    simp
  let w : Dev := { z with nvme := { z.nvme with buf := z.nvme.buf.filter fun b =>
    ¬(b.nsid = io.nsid.toNat ∧ lo ≤ b.lba ∧ b.lba < lo + n) } }
  have same : (z.onNvme fun v => { v with buf := v.buf.filter fun b =>
      !(b.nsid == io.nsid.toNat && decide (lo ≤ b.lba ∧ b.lba < lo + n)) }) = w := by
    simp only [zeroed]
    rfl
  have still : (w.cmdDone io.sq.val io.cid 0).settleNvme.nvme.writeWaits = [] := by
    rw [Dev.writeWaits_settleNvme, Dev.writeWaits_cmdDone]
    exact (congrArg Nvme.writeWaits (d.nvme_ioZero _ _)).trans none
  refine .of_act (exec_writeZeroes io s) clocked ((if_neg sq).trans ?_)
  rw [taken]
  dsimp only
  rw [if_neg fun h => h ok]
  refine (congrArg (fun x : Dev => (x.cmdDone io.sq.val io.cid 0).settleNvme.placeWaiting (x.nvme.writeWaits.length + 1))
    same).trans ?_
  exact Dev.placeWaiting_none _ still

end

/-- Settles O37. -/
theorem nvmeIoCommands : Obligations.NvmeIoCommands := by
  refine ⟨fun s d io clocked sq taken => ⟨fun bad => ⟨?badWrite, ?badRead⟩, fun ok none room reach given => ?writes,
      fun ok none room reach fails => ?failsWrite, fun ok full => ?waits, fun ok reach given => ?reads,
      fun ok reach fails => ?failsRead, fun ok reach => ?faults, fun ok none => ?zeroes, fun bad => ?badZeroes,
      fun active => ?flush⟩,
    fun s b rest clocked buf => ⟨fun more => ?drains, fun last none writes => ?drained⟩⟩
  case badWrite => exact .nvmeWrite clocked sq taken (if_pos bad)
  case badRead => exact Dev.read_taken clocked sq taken bad
  case writes =>
    refine .nvmeWrite clocked sq taken ((if_neg fun h => h ok).trans ((if_neg (room_given none room)).trans ?_))
    simp only [Dev.runWrite, Dev.ioReach_ok reach given]
    rfl
  case failsWrite =>
    refine .nvmeWrite clocked sq taken ((if_neg fun h => h ok).trans ((if_neg (room_given none room)).trans ?_))
    simp only [Dev.runWrite, Dev.ioReach_failed reach fails]
    rfl
  case waits =>
    exact .nvmeWrite clocked sq taken ((if_neg fun h => h ok).trans (if_pos (by rw [full]; simp)))
  case reads => exact (Gives.nvmeRead clocked sq taken ok).1 (Dev.ioReach_ok reach given)
  case failsRead => exact (Gives.nvmeRead clocked sq taken ok).2 (Dev.ioReach_failed reach fails)
  case faults => exact (Gives.nvmeRead clocked sq taken ok).2 (Dev.ioReach_fault reach)
  case zeroes => exact .nvmeZeroes clocked sq taken ok none
  case badZeroes =>
    refine .of_act (exec_writeZeroes io s) clocked ((if_neg sq).trans ?_)
    rw [taken]
    exact if_pos bad
  case flush =>
    refine .of_act (exec_flush io.sq io.cid io.nsid s) clocked ((if_neg sq).trans ?_)
    rw [taken]
    exact if_neg (by simp [active])
  case drains =>
    refine .of_act (exec_writeBufferDrain s) clocked ?_
    rw [buf]
    exact if_pos more
  case drained =>
    have kept := s.dev.nvme_ioStore (s.dev.nsBase b.nsid + 4096 * b.lba + 64 * b.drained)
      (slice b.bytes (64 * b.drained) 64)
    have settled : ((s.dev.ioStore (s.dev.nsBase b.nsid + 4096 * b.lba + 64 * b.drained)
        (slice b.bytes (64 * b.drained) 64)).onNvme fun v => { v with buf := rest }).settleNvme =
        (s.dev.ioStore (s.dev.nsBase b.nsid + 4096 * b.lba + 64 * b.drained)
          (slice b.bytes (64 * b.drained) 64)).onNvme fun v => { v with buf := rest } :=
      Dev.settleNvme_idle ((congrArg Nvme.waits kept).trans none)
    refine .of_act (exec_writeBufferDrain s) clocked ?_
    rw [buf]
    dsimp only
    rw [if_neg (Nat.not_lt.mpr last), settled]
    exact Dev.placeWaiting_none _ ((congrArg Nvme.writeWaits kept).trans writes)

end Sys2Proof.Machine

/-!
# Column caches (spec ch. 9)
-/

namespace Sys2Proof.Machine

/-! ### Fills and completions -/

/-- What arming an injection at a store can change: the injection registers and the planted errors. -/
theorem Dev.plantIf_eq (d : Dev) (target index a : Nat) :
    ∃ r e, d.plantIf target index a = { d with regs := r, errs := e } := by
  rw [Dev.plantIf]
  split
  · exact ⟨_, _, rfl⟩
  · exact ⟨_, _, rfl⟩

theorem Dev.get_fire_ne (d : Dev) {g : Fld} {k l : Nat}
    (apart : RegRef.addr ⟨g.kind, k, l⟩ ≠ RegRef.addr ⟨.ERR_INJ, 0, 0⟩) : d.fire.get g k l = d.get g k l := by
  rw [Dev.fire, Dev.get_put_ne _ _ _ _ _ _ _ _ apart, Dev.get_put_ne _ _ _ _ _ _ _ _ apart]

theorem Dev.regs_plantIf (d : Dev) (target index a : Nat) :
    (d.plantIf target index a).regs = d.fire.regs ∨ (d.plantIf target index a).regs = d.regs := by
  rw [Dev.plantIf]
  split
  · exact .inl rfl
  · exact .inr rfl

theorem Dev.get_plantIf_ne (d : Dev) (target index a : Nat) {g : Fld} {k l : Nat}
    (apart : RegRef.addr ⟨g.kind, k, l⟩ ≠ RegRef.addr ⟨.ERR_INJ, 0, 0⟩) :
    (d.plantIf target index a).get g k l = d.get g k l := by
  obtain regs | regs := d.regs_plantIf target index a
  · exact (Dev.get_congr regs g k l).trans (d.get_fire_ne apart)
  · exact Dev.get_congr regs g k l

/-- A register lies at or above the first of its kind. -/
theorem RegRef.geom_le_addr (r : RegRef) : r.kind.geom.1 ≤ r.addr := by
  rw [RegRef.addr]
  omega

/-- The registers of the caches lie above the injection register. -/
theorem addr_cch_ne (c pod : Nat) : RegRef.addr ⟨.CCH_CTRL, c, 0⟩ ≠ RegRef.addr ⟨.ERR_INJ, 0, 0⟩ ∧
    RegRef.addr ⟨.CCH_POD_WAYS, c, pod⟩ ≠ RegRef.addr ⟨.ERR_INJ, 0, 0⟩ :=
  ⟨Nat.ne_of_gt (Nat.lt_of_lt_of_le (m := 0x210000) (by decide) (RegRef.geom_le_addr ⟨.CCH_CTRL, c, 0⟩)),
    Nat.ne_of_gt (Nat.lt_of_lt_of_le (m := 0x210100) (by decide) (RegRef.geom_le_addr ⟨.CCH_POD_WAYS, c, pod⟩))⟩

section

variable {d : Dev} {c : Nat}

/-- With nothing waiting at the crossbar there is nothing to try again. -/
theorem Dev.serveWaiting_none (none : d.missWait = []) (c : Nat) : d.serveWaiting c = d := by
  rw [Dev.serveWaiting]
  split
  · rfl
  · rw [none]
    exact congrArg (fun l => ({ d with missWait := l } : Dev)) none.symm

theorem Dev.findLine_setLine (d : Dev) (l : CLine) : (d.setLine l).findLine l.agent l.addr = some l :=
  find?_upsert d.lines (by simp)

theorem Dev.findMiss_freed (d : Dev) (c a : Nat) :
    ({ d with misses := d.misses.filter fun x => !(x.cluster == c && x.addr == a) } : Dev).findMiss c a = none := by
  rw [Dev.findMiss, List.find?_eq_none]
  intro x mem
  have kept := (List.mem_filter.mp mem).2
  rw [Bool.not_eq_true'] at kept
  exact Bool.eq_false_iff.mp kept

variable {m : MissReg} {kind w : Nat}

/-- A fill of a read whose set has a free way installs the line there. -/
theorem Dev.fill_free (miss : d.findLine m.cluster m.addr = none) (on : d.get F.CCH_CTRL_EN m.cluster = 1)
    (free : ((d.wayCandidates m.cluster m.pod m.addr).find? fun w =>
      !((d.setLines m.cluster m.addr).any fun l => l.way == w)) = some w) (p : Poison) :
    d.fill m kind p = d.install m kind p w := by
  simp only [Dev.fill, miss, Dev.chooseWay, if_pos on, free]

/-- The line of a read's fill. -/
def MissReg.line (m : MissReg) (kind w : Nat) : CLine :=
  ⟨m.cluster, m.addr, w, if kind = 2 then .e else .s, m.prefetch, .clean, none⟩

/-- Its register is freed and the line is in place; nothing waits for it. -/
theorem Dev.install_read (read : m.store = false) (alone : m.maint = 0) (none : d.missWait = []) :
    d.install m kind .clean w = ({ d with misses := d.misses.filter fun x =>
      !(x.cluster == m.cluster && x.addr == m.addr) } : Dev).setLine (m.line kind w) := by
  simp only [Dev.install, read, alone, Bool.and_false]
  refine (if_neg Bool.false_ne_true).trans ((congrArg (Dev.serveWaiting · m.cluster) (if_pos trivial)).trans
    (Dev.serveWaiting_none ?_ _))
  exact none

/-- A fill that arrives for a column cache. -/
theorem Dev.filled_free {c : Fin 8} {a : Nat} (miss : d.findLine c.val (lineOf (d.localForm a)) = none)
    (reg : d.findMiss c.val (lineOf (d.localForm a)) = some m) (waits : m.fill = 0) (alone : m.maint = 0)
    (read : m.store = false) (none : d.missWait = []) (on : d.get F.CCH_CTRL_EN c.val = 1)
    (own : d.homeAgent (lineOf (d.localForm a)) ≠ some 16)
    (free : ((d.wayCandidates c.val m.pod (lineOf (d.localForm a))).find? fun w =>
      !((d.setLines c.val (lineOf (d.localForm a))).any fun l => l.way == w)) = some w) :
    ∃ e : Dev, d.filled c.val a kind .clean = e ∧ e.findMiss c.val (lineOf (d.localForm a)) = Option.none ∧
      e.findLine c.val (lineOf (d.localForm a)) = some ⟨c.val, lineOf (d.localForm a), w,
        if kind = 2 then .e else .s, m.prefetch, .clean, Option.none⟩ := by
  obtain ⟨cluster, addr⟩ : m.cluster = c.val ∧ m.addr = lineOf (d.localForm a) := by
    simpa using List.find?_some reg
  rw [← cluster, ← addr] at miss free ⊢
  rw [← addr] at own
  rw [← cluster] at on
  let e := d.plantIf 4 m.cluster m.addr
  obtain ⟨r, errs, planted⟩ := d.plantIf_eq 4 m.cluster m.addr
  have waits' : e.missWait = [] := (congrArg Dev.missWait planted).trans none
  have on' : e.get F.CCH_CTRL_EN m.cluster = 1 := (Dev.get_plantIf_ne _ _ _ _ (addr_cch_ne _ 0).1).trans on
  have ways : e.wayCandidates m.cluster m.pod m.addr = d.wayCandidates m.cluster m.pod m.addr := by
    have same := Dev.get_plantIf_ne d 4 m.cluster m.addr (g := F.CCH_POD_WAYS_WAYS) (addr_cch_ne m.cluster m.pod).2
    rw [Dev.wayCandidates, same]
    simp only [e, planted]
    rfl
  have lines : e.setLines m.cluster m.addr = d.setLines m.cluster m.addr := by
    simp only [e, planted]
    rfl
  have miss' : e.findLine m.cluster m.addr = Option.none := by
    simp only [e, planted]
    exact miss
  have filled : d.filled m.cluster a kind .clean = e.install m kind .clean w := by
    rw [← addr, ← cluster] at reg
    have column : ¬8 ≤ m.cluster := by
      rw [cluster]
      exact Nat.not_le.mpr c.isLt
    have quiet : (decide (kind = 2) && d.homeAgent m.addr == some 16 && decide (m.pod < 64)) = false := by
      rw [beq_eq_false_iff_ne.mpr own, Bool.and_false, Bool.false_and]
    have fills : e.fill m kind .clean = e.install m kind .clean w :=
      Dev.fill_free miss' on' (by rw [ways, lines]; exact free) .clean
    simp only [Dev.filled, ← addr, if_neg column, if_pos, reg, quiet]
    exact (if_neg fun h => h waits).trans fills
  refine ⟨_, filled, ?_, ?_⟩
  · rw [Dev.install_read read alone waits']
    exact Dev.findMiss_freed e m.cluster m.addr
  · rw [Dev.install_read read alone waits']
    exact Dev.findLine_setLine _ (m.line kind w)

end

end Sys2Proof.Machine

namespace Sys2Proof.Machine

/-! ### The write-back buffer and stashes -/

section

variable {d : Dev} {c : Nat}

/-- A hint goes out as a message, or nowhere. -/
theorem Dev.sendStash_eq (d : Dev) (hint a : Nat) : ∃ o, d.sendStash hint a = { d with out := o } := by
  rw [Dev.sendStash]
  split
  next column =>
    refine ⟨_, Dev.emit_out ?_⟩
    exact if_neg (by omega)
  next => exact ⟨_, rfl⟩

/-- With the buffer free and nothing that waits for it, nothing moves. -/
theorem Dev.pump_idle (free : d.wbbBusy c = false) (fills : (d.misses.any fun m => m.cluster == c && m.fill != 0) = false)
    (next : d.maintNext c = none) : d.pump c = d := by
  have noFill : (d.misses.find? fun m => m.cluster == c && m.fill != 0) = none := by
    rw [List.find?_eq_none]
    exact List.any_eq_false.mp fills
  rw [Dev.pump, if_neg (Bool.eq_false_iff.mp free), noFill, next]

theorem Dev.maintNext_none (on : d.get F.CCH_CTRL_EN c ≠ 2) (none : d.maint = []) : d.maintNext c = Option.none := by
  rw [Dev.maintNext, if_neg on, none]
  rfl

end

/-! ### Maintenance -/

section

variable {d : Dev} {c op a : Nat}

theorem Dev.maintWrite_busy (busy : (d.maint.any fun m => m.1 == c) = true) (g : Bool) :
    d.maintWrite c op g = d.put F.CCH_STATUS_MAINT_REJ 1 c :=
  if_pos busy

/-- An operation that the home does not know. -/
theorem Dev.maintWrite_global (free : (d.maint.any fun m => m.1 == c) = false) (cacheOnly : 3 ≤ op ∧ op ≤ 5) :
    d.maintWrite c op true = d.put F.CCH_STATUS_MAINT_REJ 1 c :=
  (if_neg (Bool.eq_false_iff.mp free)).trans (if_pos (by simp [cacheOnly]))

/-- An operation of this cache. -/
theorem Dev.maintWrite_local (free : (d.maint.any fun m => m.1 == c) = false) (known : 1 ≤ op ∧ op ≤ 5) :
    d.maintWrite c op false = (d.put F.CCH_MAINT_GLOBAL 0 c).maintLocal c op
      (d.localForm (d.get F.CCH_MAINT_ADDR_ADDR c * 64)) := by
  rw [Dev.maintWrite]
  exact (if_neg (Bool.eq_false_iff.mp free)).trans ((if_neg (by simp)).trans ((if_neg (by omega)).trans (if_neg (by simp))))

/-- An address names the same target while the capacity and the span are as before. -/
theorem Dev.localForm_put (d : Dev) (f : Fld) (v i j a : Nat)
    (apart : ∀ k ∈ [RegKind.MEM_TRAIN, .MEM_CFG, .LNK_SPAN_CFG, .LNK_SPAN_STATUS],
      RegRef.addr ⟨k, 0, 0⟩ ≠ RegRef.addr ⟨f.kind, i, j⟩) : (d.put f v i j).localForm a = d.localForm a := by
  have cap : (d.put f v i j).capacity = d.capacity := by
    rw [Dev.capacity, Dev.get_put_ne d f F.MEM_TRAIN_STATE v i j 0 0 (apart _ (by simp [F.MEM_TRAIN_STATE])),
      Dev.get_put_ne d f F.MEM_CFG_CAP_GIB v i j 0 0 (apart _ (by simp [F.MEM_CFG_CAP_GIB])), Dev.capacity]
  have target : (d.put f v i j).target a = d.target a := by
    rw [Dev.target, cap, Dev.get_put_ne d f F.LNK_SPAN_CFG_SPAN_NO v i j 0 0 (apart _ (by simp [F.LNK_SPAN_CFG_SPAN_NO])),
      Dev.get_put_ne d f F.LNK_SPAN_STATUS_LIVE v i j 0 0 (apart _ (by simp [F.LNK_SPAN_STATUS_LIVE])), Dev.target]
  rw [Dev.localForm, target, Dev.localForm]

end

section

variable {d : Dev} {c : Fin 8} {op a : Nat}

/-- An operation by address that is refused. -/
theorem Dev.maintAt_busy (busy : (d.maint.any fun m => m.1 == c.val) = true) (g : Bool) :
    d.maintAt c.val op g a = (d.put F.CCH_MAINT_ADDR_ADDR (a / 64) c.val).put F.CCH_STATUS_MAINT_REJ 1 c.val :=
  Dev.maintWrite_busy (d := d.put F.CCH_MAINT_ADDR_ADDR (a / 64) c.val) busy g

theorem Dev.maintAt_global (free : (d.maint.any fun m => m.1 == c.val) = false) :
    d.maintAt c.val 3 true a = (d.put F.CCH_MAINT_ADDR_ADDR (a / 64) c.val).put F.CCH_STATUS_MAINT_REJ 1 c.val :=
  Dev.maintWrite_global (d := d.put F.CCH_MAINT_ADDR_ADDR (a / 64) c.val) free (by decide)

/-- The device with an operation by address begun. -/
def Dev.maintBegan (d : Dev) (c op a : Nat) : Dev :=
  { (d.put F.CCH_MAINT_ADDR_ADDR (a / 64) c).put F.CCH_MAINT_GLOBAL 0 c with
      maint := d.maint ++ [(c, op, d.localForm (a / 64 * 64), false)] }

/-- An operation by address on a line that has no miss register. -/
theorem Dev.maintAt_local (free : (d.maint.any fun m => m.1 == c.val) = false)
    (alone : d.findMiss c.val (d.localForm (a / 64 * 64)) = none) (small : a < 2 ^ 52) (known : 1 ≤ op ∧ op ≤ 3) :
    d.maintAt c.val op false a =
      (d.maintBegan c.val op a).maintLine c.val op (d.localForm (a / 64 * 64)) := by
  have apart : ∀ c : Fin 8, ∀ k ∈ [RegKind.MEM_TRAIN, .MEM_CFG, .LNK_SPAN_CFG, .LNK_SPAN_STATUS],
      RegRef.addr ⟨k, 0, 0⟩ ≠ RegRef.addr ⟨.CCH_MAINT_ADDR, c.val, 0⟩ := by decide +kernel
  have fits : a / 64 < 2 ^ 46 := by omega
  have written : (d.put F.CCH_MAINT_ADDR_ADDR (a / 64) c.val).get F.CCH_MAINT_ADDR_ADDR c.val = a / 64 :=
    Dev.get_put_of_lt _ _ _ (by decide) fits
  rw [Dev.maintAt, Dev.maintWrite_local (d := d.put F.CCH_MAINT_ADDR_ADDR (a / 64) c.val) free ⟨known.1, by omega⟩, written,
    Dev.localForm_put _ _ _ _ _ _ (apart c)]
  simp only [Dev.maintLocal, if_pos known.2]
  have none' : (d.maintBegan c.val op a).findMiss c.val (d.localForm (a / 64 * 64)) = none := alone
  change (match (d.maintBegan c.val op a).findMiss c.val (d.localForm (a / 64 * 64)) with
    | some _ => _
    | none => _) = _
  rw [none']
  rfl

end

section

variable {d : Dev} {c op a : Nat} {l : CLine}

theorem Dev.maintLine_absent (absent : d.findLine c a = none) : d.maintLine c op a = d := by
  simp only [Dev.maintLine, absent]

theorem Dev.maintLine_discard (present : d.findLine c a = some l) : d.maintLine c 3 a = d.discardLine l := by
  simp only [Dev.maintLine, present]
  rfl

theorem Dev.maintLine_dirty (present : d.findLine c a = some l) (dirty : l.st = .m) (free : d.wbbBusy c = false)
    (keeps : op ≠ 3) : d.maintLine c op a = d.toBuffer l (op == 1) := by
  simp only [Dev.maintLine, present, if_neg keeps, if_pos dirty, if_neg (Bool.eq_false_iff.mp free)]

theorem Dev.maintLine_clean (present : d.findLine c a = some l) (clean : l.st ≠ .m) : d.maintLine c 1 a = d := by
  simp only [Dev.maintLine, present, if_neg clean]
  rfl

theorem Dev.maintLine_flush (present : d.findLine c a = some l) (clean : l.st ≠ .m) :
    d.maintLine c 2 a = d.dropLine c a := by
  simp only [Dev.maintLine, present, if_neg clean]
  rfl

end

end Sys2Proof.Machine

namespace Sys2Proof.Machine

/-! ### The zeroing of a tile's store -/

section

variable {d : Dev} {t : Fin 64}

theorem addr_pods_ne : (∀ p < 64, ∀ k ∈ [RegKind.POD_STATUS, .POD_TILES], ∀ t : Fin 64,
    RegRef.addr ⟨k, p, 0⟩ ≠ RegRef.addr ⟨.TIL_TS_SCRUB, t.val, 0⟩) ∧
    ∀ p < 64, ∀ k ∈ [RegKind.POD_STATUS, .POD_TILES], RegRef.addr ⟨k, p, 0⟩ ≠ RegRef.addr ⟨.ERR_INJ, 0, 0⟩ := by
  decide +kernel

/-- The pod of a tile is a matter of the pods' states and tiles. -/
theorem Dev.podOfTile_congr {e : Dev} (state : ∀ p < 64, e.get F.POD_STATUS_STATE p = d.get F.POD_STATUS_STATE p)
    (tiles : ∀ p < 64, e.get F.POD_TILES_MASK p = d.get F.POD_TILES_MASK p) (n : Nat) : e.podOfTile n = d.podOfTile n := by
  refine List.find?_congr fun p mem => ?_
  have lt := List.mem_range.mp mem
  rw [Dev.podState, Dev.podState, Dev.podTile, Dev.podTile, state p lt, tiles p lt]

/-- A tile's store that is zero. -/
def Dev.zeroedStore (d : Dev) (t : Nat) : Dev := (d.zeroStore t).put F.TIL_TS_SCRUB_ZEROING 0 t

theorem Dev.podOfTile_zeroedStore : (d.zeroedStore t.val).podOfTile t.val = d.podOfTile t.val := by
  have kept {f : Fld} (p : Nat) (lt : p < 64) (k : f.kind ∈ [RegKind.POD_STATUS, .POD_TILES]) :
      (d.zeroedStore t.val).get f p = d.get f p := by
    rw [Dev.zeroedStore, Dev.get_put_ne _ _ _ _ _ _ _ _ (addr_pods_ne.1 p lt _ k t), Dev.zeroStore,
      Dev.get_plantIf_ne _ _ _ _ (addr_pods_ne.2 p lt _ k)]
    exact Dev.get_congr rfl f p 0
  exact Dev.podOfTile_congr (fun p lt => kept p lt (by simp [F.POD_STATUS_STATE]))
    (fun p lt => kept p lt (by simp [F.POD_TILES_MASK])) t.val

theorem Dev.zeroed_eq : d.zeroed t.val = { d.zeroedStore t.val with
    lastPod := ((d.podOfTile t.val).map fun p => (t.val, p)).toList ++
      (d.zeroedStore t.val).lastPod.filter fun x => x.1 != t.val } := by
  have pod := Dev.podOfTile_zeroedStore (d := d) (t := t)
  rw [Dev.zeroed]
  change (match (d.zeroedStore t.val).podOfTile t.val with | some p => _ | none => _) = _
  rw [pod]
  cases d.podOfTile t.val <;> rfl

/-- A store that was zeroed: no poisoned word, and it is its pod's. -/
theorem Dev.zeroed_leaves : (d.zeroed t.val).get F.TIL_TS_SCRUB_ZEROING t.val = 0 ∧
    (∀ x ∈ (d.zeroed t.val).tsPoison, x.1 ≠ t.val) ∧
    ((d.zeroed t.val).lastPod.find? fun x => x.1 == t.val) = (d.podOfTile t.val).map fun p => (t.val, p) := by
  have zero : (d.zeroedStore t.val).get F.TIL_TS_SCRUB_ZEROING t.val = 0 :=
    Dev.get_put_of_lt _ _ _ (by decide) (by decide)
  have poison : (d.zeroedStore t.val).tsPoison = d.tsPoison.filter fun x => x.1 != t.val := by
    obtain ⟨r, e, planted⟩ := Dev.plantIf_eq ({ d with
      tsPoison := d.tsPoison.filter fun x => x.1 != t.val, slotMarks := d.slotMarks.filter fun x => x.1 != t.val
      errs := { d.errs with planted := d.errs.planted.filter fun x => !(x.1 == 1 && x.2.1 == t.val) } } : Dev) 1 t.val
        d.errs.inj.addr
    exact congrArg Dev.tsPoison planted
  have rest : (((d.zeroedStore t.val).lastPod.filter fun x => x.1 != t.val).find? fun x => x.1 == t.val) = none := by
    rw [List.find?_eq_none]
    intro x mem is
    exact bne_iff_ne.mp (List.mem_filter.mp mem).2 (beq_iff_eq.mp is)
  have regs : (d.zeroed t.val).regs = (d.zeroedStore t.val).regs := by rw [Dev.zeroed_eq]
  refine ⟨(Dev.get_congr regs _ _ _).trans zero, ?_, ?_⟩
  · rw [Dev.zeroed_eq]
    intro x mem
    change x ∈ (d.zeroedStore t.val).tsPoison at mem
    rw [poison] at mem
    exact bne_iff_ne.mp (List.mem_filter.mp mem).2
  · rw [Dev.zeroed_eq]
    cases d.podOfTile t.val with
    | none => exact rest
    | some p => exact List.find?_cons_of_pos (by simp)

/-- A scrubbed line with nothing planted. -/
theorem Dev.tsScrub_plain {off : Nat} (clear : d.errs.planted = []) :
    (d.tsScrub t.val off .good = d) ∧
      (d.tsPoison.contains (t.val, off / 8 * 8) = false →
        d.tsScrub t.val off .corrected = (d.bump16 F.TIL_TS_ECC_CE_COUNT t.val).report
          { cls := 0x01, pod := d.podOfTile t.val, source := t.val, addr := off / 8 * 8 } ∧
        d.tsScrub t.val off .uncorrectable = d.tsUe t.val (off / 8 * 8) false) := by
  have hit : (d.errs.planted.find? fun x => x.1 == 1 && x.2.1 == t.val && x.2.2.1 / 64 == off / 64) = none := by
    rw [clear]
    rfl
  simp only [Dev.tsScrub, hit]
  refine ⟨ite_self d, fun clean => ⟨if_neg (Bool.eq_false_iff.mp clean), if_neg (Bool.eq_false_iff.mp clean)⟩⟩

end

end Sys2Proof.Machine

namespace Sys2Proof.Machine

/-! ### The commands of a column cache -/

section

variable {d : Dev} {c : Nat}

/-- The last write-back is acknowledged. -/
theorem Dev.wback_last {line : Nat} (buffer : d.wbb = [(c, line)])
    (fills : (d.misses.any fun m => m.cluster == c && m.fill != 0) = false) (on : d.get F.CCH_CTRL_EN c ≠ 2)
    (none : d.maint = []) :
    ((d.hints.find? fun h => h.1 == c && h.2.1 == line) = Option.none →
      (({ d with wbb := d.wbb.erase (c, line) } : Dev).stashHeld c line).pump c = { d with wbb := [] }) ∧
    (∀ h, (d.hints.find? fun h => h.1 == c && h.2.1 == line) = some h →
      (({ d with wbb := d.wbb.erase (c, line) } : Dev).stashHeld c line).pump c =
        ({ d with wbb := [], hints := d.hints.filter fun h => !(h.1 == c && h.2.1 == line) } : Dev).sendStash h.2.2 line) := by
  have empty : d.wbb.erase (c, line) = [] := by rw [buffer]; simp
  have idle (o : List Out) (hs : List (Nat × Nat × Nat)) : ({ d with wbb := [], hints := hs, out := o } : Dev).pump c =
      { d with wbb := [], hints := hs, out := o } :=
    Dev.pump_idle rfl fills (Dev.maintNext_none on none)
  rw [empty]
  constructor
  · intro no
    have held : ({ d with wbb := [] } : Dev).stashHeld c line = { d with wbb := [] } := by simp only [Dev.stashHeld, no]
    rw [held]
    exact idle d.out d.hints
  · intro h has
    obtain ⟨o, sent⟩ := Dev.sendStash_eq
      ({ d with wbb := [], hints := d.hints.filter fun h => !(h.1 == c && h.2.1 == line) } : Dev) h.2.2 line
    have held : ({ d with wbb := [] } : Dev).stashHeld c line =
        ({ d with wbb := [], hints := d.hints.filter fun h => !(h.1 == c && h.2.1 == line) } : Dev).sendStash h.2.2 line := by
      simp only [Dev.stashHeld, has]
    rw [held, sent]
    exact idle o _

/-- A completion for a control core's line. -/
theorem Dev.completedLine_core {x a : Nat} {l : CLine} (core : 8 ≤ x) (present : d.findLine x a = some l) :
    d.completedLine x a = d.setLine { l with st := if l.st = .m then .m else .e } := by
  simp only [Dev.completedLine, present, if_pos core]

theorem Dev.filled_core {x a kind : Nat} (core : 8 ≤ x) : d.filled x a kind .clean =
    d.setLine ⟨x, lineOf (d.localForm a), 0, if kind = 2 then .e else .s, false, .clean, none⟩ := by
  rw [Dev.filled]
  exact if_pos core

/-- A write of CCH_CTRL. -/
theorem Dev.cchCtrlWrite_eq {v : Nat} {en : Nat} (is : d.get F.CCH_CTRL_EN c = en) :
    let plain := d.wr ⟨.CCH_CTRL, c, 0⟩ (regAfter (RegKind.CCH_CTRL).fields (d.rd ⟨.CCH_CTRL, c, 0⟩) (setBits v 0 2 en)
      false false)
    d.cchCtrlWrite c v false =
      if en = 1 ∧ bitsOf v 0 2 = 0 then
        ({ plain.put F.CCH_CTRL_EN 2 c with
          lines := (plain.put F.CCH_CTRL_EN 2 c).lines.filter fun l => !(l.agent == c && l.st != .m) } : Dev).pump c
      else if en = 0 ∧ bitsOf v 0 2 = 1 then
        ({ plain with lines := plain.lines.filter fun l => l.agent != c } : Dev).put F.CCH_CTRL_EN 1 c
      else plain := by
  subst is
  rfl

end

/-- Settles O38. -/
theorem cacheCommands : Obligations.CacheCommands := by
  refine ⟨⟨fun s c a m w clocked miss reg waits alone read none on own free => ⟨?datas, ?datae⟩,
      fun s x a clocked core => ⟨?coreS, ?coreE, fun l present clean => ?coreCmp, fun l present dirty => ?coreDirty⟩,
      fun s x a l m clocked column present reg => ?cmp,
      fun s c a clocked => ⟨fun buffer fills on none => ⟨fun no => ?wback, fun h has => ?hint⟩, fun off => ?noStash,
        fun p on some_ home absent idle pod => ?stash, fun quiet => ?switch, fun busy => ?noSwitch⟩,
      fun s t off clocked => ⟨fun en clear => ⟨?good, fun clean => ⟨?corrected, ?bad⟩⟩, fun zeroing => ?zeroed⟩⟩,
    fun s c a clocked => ⟨fun busy g => ⟨?r1, ?r2, ?r3, ?r4, ?r5⟩,
      fun idle alone => ⟨fun absent => ⟨?a1, ?a2, ?a3⟩, fun l present => ⟨?p3, fun clean => ⟨?c1, ?c2⟩,
        fun dirty free => ⟨?d1, ?d2⟩⟩⟩,
      fun idle => ⟨?g3, ?g4, ?g5, ?w4, ?w5⟩⟩,
    fun s c op a g v clocked => ⟨fun has done => ?complete, ⟨fun en want => ?request, fun en want => ?disable,
      fun en want => ?enable⟩, fun off free next => ?disabled⟩⟩
  case datas =>
    obtain ⟨e, is, freed, line⟩ := Dev.filled_free (kind := 1) miss reg waits alone read none on own free
    exact ⟨e, .of_act (exec_datas (c.castLE (by decide)) a .clean s) clocked is, freed, line⟩
  case datae =>
    obtain ⟨e, is, freed, line⟩ := Dev.filled_free (kind := 2) miss reg waits alone read none on own free
    exact ⟨e, .of_act (exec_datae (c.castLE (by decide)) a .clean s) clocked is, freed, line⟩
  case coreS => exact .of_act (exec_datas x a .clean s) clocked (Dev.filled_core core)
  case coreE => exact .of_act (exec_datae x a .clean s) clocked (Dev.filled_core core)
  case coreCmp =>
    refine .of_act (exec_cmp x a s) clocked ((Dev.completedLine_core core present).trans ?_)
    rw [if_neg clean]
  case coreDirty =>
    refine .of_act (exec_cmp x a s) clocked ((Dev.completedLine_core core present).trans ?_)
    rw [if_pos dirty, ← dirty]
  case cmp =>
    refine .of_act (exec_cmp x a s) clocked ?_
    simp only [Dev.completedLine, present, reg]
    exact if_neg (Nat.not_le.mpr column)
  case wback =>
    exact .of_act (exec_wback c a s) clocked
      ((if_pos (by rw [buffer]; simp)).trans ((Dev.wback_last buffer fills on none).1 no))
  case hint =>
    exact .of_act (exec_wback c a s) clocked
      ((if_pos (by rw [buffer]; simp)).trans ((Dev.wback_last buffer fills on none).2 h has))
  case noStash =>
    refine .of_act (exec_snpstash c a s) clocked (if_pos ?_)
    rcases off with nowhere | off
    · simp [nowhere]
    · simp [off]
  case stash =>
    refine .of_act (exec_snpstash c a s) clocked ((if_neg ?_).trans ?_)
    · simp [on, some_, home, absent, idle]
    · rw [pod]
  case switch => exact .of_act (exec_dz4400ModeSwitch c s) clocked (if_pos quiet)
  case noSwitch => exact .of_act (exec_dz4400ModeSwitch c s) clocked (if_neg busy)
  case good => exact .of_act (exec_tsPatrolScrub t off .good s) clocked ((if_pos en).trans (Dev.tsScrub_plain clear).1)
  case corrected =>
    exact .of_act (exec_tsPatrolScrub t off .corrected s) clocked
      ((if_pos en).trans ((Dev.tsScrub_plain clear).2 clean).1)
  case bad =>
    exact .of_act (exec_tsPatrolScrub t off .uncorrectable s) clocked
      ((if_pos en).trans ((Dev.tsScrub_plain clear).2 clean).2)
  case zeroed => exact ⟨_, .of_act (exec_tileZeroingDone t s) clocked (if_pos zeroing), Dev.zeroed_leaves⟩
  case r1 => exact .of_act (exec_cleanLine c g a s) clocked (Dev.maintAt_busy busy g)
  case r2 => exact .of_act (exec_flushLine c g a s) clocked (Dev.maintAt_busy busy g)
  case r3 => exact .of_act (exec_discardLine c g a s) clocked (Dev.maintAt_busy busy g)
  case r4 => exact .of_act (exec_cleanAll c g s) clocked (Dev.maintWrite_busy busy g)
  case r5 => exact .of_act (exec_flushAll c g s) clocked (Dev.maintWrite_busy busy g)
  case a1 =>
    exact .of_act (exec_cleanLine c false a s) clocked
      ((Dev.maintAt_local idle alone a.isLt (by decide)).trans (Dev.maintLine_absent absent))
  case a2 =>
    exact .of_act (exec_flushLine c false a s) clocked
      ((Dev.maintAt_local idle alone a.isLt (by decide)).trans (Dev.maintLine_absent absent))
  case a3 =>
    exact .of_act (exec_discardLine c false a s) clocked
      ((Dev.maintAt_local idle alone a.isLt (by decide)).trans (Dev.maintLine_absent absent))
  case p3 =>
    exact .of_act (exec_discardLine c false a s) clocked
      ((Dev.maintAt_local idle alone a.isLt (by decide)).trans (Dev.maintLine_discard present))
  case c1 =>
    exact .of_act (exec_cleanLine c false a s) clocked
      ((Dev.maintAt_local idle alone a.isLt (by decide)).trans (Dev.maintLine_clean present clean))
  case c2 =>
    exact .of_act (exec_flushLine c false a s) clocked
      ((Dev.maintAt_local idle alone a.isLt (by decide)).trans (Dev.maintLine_flush present clean))
  case d1 =>
    exact .of_act (exec_cleanLine c false a s) clocked
      ((Dev.maintAt_local idle alone a.isLt (by decide)).trans (Dev.maintLine_dirty present dirty free (by decide)))
  case d2 =>
    exact .of_act (exec_flushLine c false a s) clocked
      ((Dev.maintAt_local idle alone a.isLt (by decide)).trans (Dev.maintLine_dirty present dirty free (by decide)))
  case g3 => exact .of_act (exec_discardLine c true a s) clocked (Dev.maintAt_global idle)
  case g4 => exact .of_act (exec_cleanAll c true s) clocked (Dev.maintWrite_global idle (by decide))
  case g5 => exact .of_act (exec_flushAll c true s) clocked (Dev.maintWrite_global idle (by decide))
  case w4 => exact .of_act (exec_cleanAll c false s) clocked (Dev.maintWrite_local idle (by decide))
  case w5 => exact .of_act (exec_flushAll c false s) clocked (Dev.maintWrite_local idle (by decide))
  case complete =>
    refine .of_act (exec_maintComplete c s) clocked ?_
    rw [has]
    exact if_pos done
  case request =>
    refine .of_act (exec_dz4400ModeRequest c ⟨.bar0, .full, v⟩ s) clocked ?_
    rw [Dev.access_bar0_full (show RegKind.CCH_CTRL ≠ .RNG_PUSH by decide)]
    exact (Dev.cchCtrlWrite_eq en).trans ((if_neg (by omega)).trans (if_neg (by omega)))
  case disable =>
    refine .of_act (exec_cacheDisable c ⟨.bar0, .full, v⟩ s) clocked ?_
    rw [Dev.access_bar0_full (show RegKind.CCH_CTRL ≠ .RNG_PUSH by decide)]
    exact (Dev.cchCtrlWrite_eq en).trans (if_pos ⟨rfl, want⟩)
  case enable =>
    refine .of_act (exec_cacheEnable c ⟨.bar0, .full, v⟩ s) clocked ?_
    rw [Dev.access_bar0_full (show RegKind.CCH_CTRL ≠ .RNG_PUSH by decide)]
    exact (Dev.cchCtrlWrite_eq en).trans ((if_neg (by omega)).trans (if_pos ⟨rfl, want⟩))
  case disabled =>
    have idle : ¬(s.dev.wbbBusy c.val || (s.dev.maintNext c.val).isSome) = true := by rw [free, next]; decide
    exact .of_act (exec_cacheDisableComplete c s) clocked ((if_neg fun h => h off).trans (if_neg idle))

end Sys2Proof.Machine

/-! Settling O39: a request at its home is admitted, served and granted; answers, snoops, write-backs, the retry and
the scrub of a dead agent. -/

namespace Sys2Proof.Machine

/-! ### A directory without planted faults -/

/-- With no fault planted an entry is found as it is. -/
theorem Dev.checkDir_unplanted {d : Dev} (clean : d.errs.planted = []) (slice sector : Nat) :
    d.checkDir slice sector = d := by
  have mode : d.plantedMode 5 slice sector = 0 := by
    rw [Dev.plantedMode, clean]
    rfl
  rw [Dev.checkDir]
  cases d.findDir sector with
  | none => rfl
  | some e => exact if_pos mode

/-! ### A request on its way to its slice -/

theorem Dev.homeRequest_dead {d : Dev} {q : HomeReq} (dead : d.live q.agent.val = false) (k : ReqKind) :
    d.homeRequest q k = d :=
  if_pos (by rw [dead]; rfl)

theorem Dev.homeRequest_nowhere {d : Dev} {q : HomeReq} (live : d.live q.agent.val = true)
    (nowhere : d.target (d.localForm q.addr.toNat) = .nowhere) (k : ReqKind) :
    d.homeRequest q k = d.emit (.coh q.agent.val 12 (d.localForm q.addr.toNat)) :=
  (if_neg (by rw [live]; decide)).trans (if_pos (by simp [nowhere]))

/-- A request of an agent of this device to a home that is not the host's is admitted. -/
theorem Dev.homeRequest_admit {d : Dev} {q : HomeReq} (live : d.live q.agent.val = true) (own : q.agent.val < 17)
    (named : d.target (d.localForm q.addr.toNat) ≠ .nowhere)
    (notHost : d.homeAgent (d.localForm q.addr.toNat) ≠ some 16) (k : ReqKind) :
    d.homeRequest q k = d.admitTxn (d.txnOf q.agent.val (d.localForm q.addr.toNat) q.holds k) := by
  have peer : ¬17 ≤ q.agent.val := by omega
  rw [Dev.homeRequest]
  simp only [live, Bool.not_true, Bool.false_eq_true, if_false, beq_iff_eq, named, peer, decide_false, Bool.false_and,
    Bool.or_false, notHost, Bool.and_eq_true, false_and]

theorem Dev.admitTxn_free {d : Dev} {t : HomeTxn} (free : d.sectorBusy t.sector = false)
    (queue : d.queuedTxns t.slice = []) : d.admitTxn t = d.serveTxn t :=
  if_neg (by rw [free, queue]; exact Bool.false_ne_true)

/-! ### A request that is served -/

section serve
variable {d : Dev} {t : HomeTxn} (clean : d.errs.planted = [])
include clean

theorem Dev.serveTxn_new (absent : d.findDir t.sector = none) (keeps : (t.kind == .rdShared || t.kind.owns) = true)
    {d' : Dev} (room : d.newDir t.sector t.agent t.kind.owns = some d') : d.serveTxn t = d'.grantMsgs t none := by
  simp only [Dev.serveTxn, Dev.checkDir_unplanted clean, absent, keeps, if_true, room]

theorem Dev.serveTxn_full (absent : d.findDir t.sector = none) (keeps : (t.kind == .rdShared || t.kind.owns) = true)
    (room : d.newDir t.sector t.agent t.kind.owns = none) : d.serveTxn t = d.retryTxn t := by
  simp only [Dev.serveTxn, Dev.checkDir_unplanted clean, absent, keeps, if_true, room]

/-- A request that makes no entry is granted at once where the sector has none. -/
theorem Dev.serveTxn_absent (absent : d.findDir t.sector = none)
    (leaves : (t.kind == .rdShared || t.kind.owns) = false) :
    d.serveTxn t = (d.homeWrite t.kind t.addr).grantMsgs t none := by
  simp only [Dev.serveTxn, Dev.checkDir_unplanted clean, absent, leaves, Bool.false_eq_true, if_false, Dev.finishTxn]

theorem Dev.serveTxn_alone {e : DirEnt} (found : d.findDir t.sector = some e) (alone : d.toSnoop e t = []) :
    d.serveTxn t = d.finishTxn t := by
  simp only [Dev.serveTxn, Dev.checkDir_unplanted clean, found, alone, List.isEmpty_nil, if_true]

/-- A request that holders must answer first opens and waits for them. -/
theorem Dev.serveTxn_snoop {e : DirEnt} (found : d.findDir t.sector = some e) (holders : d.toSnoop e t ≠ []) :
    d.serveTxn t =
      (let d' := d.snoop t.slice t.sector t.kind.invalidates e.bcast (d.toSnoop e t)
       { d' with txns := d'.txns ++ [{ t with opened := true, waits := d.toSnoop e t }] }) := by
  have some : (d.toSnoop e t).isEmpty = false := by simpa using holders
  simp only [Dev.serveTxn, Dev.checkDir_unplanted clean, found, some, Bool.false_eq_true, if_false]

end serve

/-- A shared read joins a shared entry and is granted. -/
theorem Dev.finishTxn_join {d : Dev} {t : HomeTxn} {e : DirEnt} (kind : t.kind = .rdShared)
    (found : d.findDir t.sector = some e) (shared : e.excl = false) :
    d.finishTxn t = (d.setDir (e.join t.agent)).grantMsgs t (some e) := by
  have same : e.shared = e := by rw [DirEnt.shared, ← shared]
  have after : e.after t = some (e.join t.agent) := by
    simp only [DirEnt.after, kind, shared, Bool.false_and, Bool.false_eq_true, if_false, same]
  simp only [Dev.finishTxn, found, after, kind, Dev.homeWrite]

/-! ### Answers, snoops and write-backs -/

theorem Dev.answered_open {d : Dev} {x a : Nat} {t : HomeTxn}
    (found : (d.txns.find? fun t => t.opened && t.sector == sectorOf (d.localForm a) && t.waits.contains x) = some t)
    (ls : List (Fin 4 × Line)) (dirty clean : Bool) :
    d.answered x a ls dirty clean =
      (d.answerData (sectorOf (d.localForm a)) t.kind.isSnoop ls).answerTxn t x dirty clean ls.length := by
  simp only [Dev.answered, found]

/-- A write-back of a live agent to a sector that waits for no answer of it. -/
theorem Dev.writeBackMsg_free {d : Dev} {x addr : Nat} (clean : d.errs.planted = []) (live : d.live x = true)
    (named : d.target (lineOf (d.localForm addr)) ≠ .nowhere)
    (free : (d.txns.any fun t => t.opened && t.sector == sectorOf (lineOf (d.localForm addr)) && t.waits.contains x) = false)
    (data : Line) (p : Poison) :
    d.writeBackMsg x addr data p =
      (let a := lineOf (d.localForm addr)
       let mine := ((d.findDir (sectorOf a)).map fun e => !e.excl || e.ptrs.contains x).getD true
       (if mine then d.writeBack x a data p else d).emit (.coh x 7 a)) := by
  have none : (d.txns.find? fun t => t.opened && t.sector == sectorOf (lineOf (d.localForm addr)) && t.waits.contains x)
      = none := by
    rw [List.find?_eq_none]
    simpa using free
  simp only [Dev.writeBackMsg, Dev.checkDir_unplanted clean, live, none, Bool.not_true, Bool.false_or,
    Bool.false_eq_true, if_false, beq_eq_false_iff_ne.2 named]

/-! ### The commands -/

/-- The commands that bring a request to its home, where the home's answer has one form for all of them. -/
theorem gives_requests {s : State} {q : HomeReq} (clocked : s.dev.clocked) {f : ReqKind → Dev}
    (same : ∀ k, s.dev.homeRequest q k = f k) :
    Gives (.rdshared q) s (f .rdShared) ∧ Gives (.rdunique q) s (f .rdUnique) ∧
      Gives (.upgrade q) s (f .upgrade) ∧ Gives (.rdonce q) s (f .rdOnce) ∧
      (∀ data be, Gives (.wrfull q data) s (f (.wrFull data.toList .clean)) ∧
        Gives (.wrpart q data be) s (f (.wrPart data.toList be.toNat))) ∧
      (∀ op y z cached, Gives (.atomic q op y z cached) s (f (.atomic op y z cached))) :=
  ⟨.of_act (exec_rdshared q s) clocked (same _), .of_act (exec_rdunique q s) clocked (same _),
    .of_act (exec_upgrade q s) clocked (same _), .of_act (exec_rdonce q s) clocked (same _),
    fun data be => ⟨.of_act (exec_wrfull q data s) clocked (same _), .of_act (exec_wrpart q data be s) clocked (same _)⟩,
    fun op y z cached => .of_act (exec_atomic q op y z cached s) clocked (same _)⟩

/-- Settles O39: a request is followed from its home's checks to its slice and served there by the entry of its
sector; answers, snoops and write-backs find the transaction, lines or entry that the hypotheses name. -/
theorem coherenceCommands : Obligations.CoherenceCommands := by
  unfold Obligations.CoherenceCommands
  refine ⟨fun s q clocked => ⟨fun dead => gives_requests clocked (Dev.homeRequest_dead dead),
      fun live own => ⟨fun nowhere => gives_requests clocked (Dev.homeRequest_nowhere live nowhere),
        fun named notHost free queue clean => ?_⟩⟩,
    fun s x a t ls clocked found => ⟨.of_act (exec_rspclean x a s) clocked (Dev.answered_open found _ _ _),
      .of_act (exec_rspmiss x a s) clocked (Dev.answered_open found _ _ _),
      .of_act (exec_rspdata x a ls s) clocked (Dev.answered_open found _ _ _)⟩,
    fun s x a clocked own => ⟨.of_act (exec_snpinv x a s) clocked (if_pos own),
      .of_act (exec_snpshared x a s) clocked (if_pos own)⟩,
    fun s q data p clocked clean live named free => ⟨fun absent => ?wrback, fun e found owned other => ?crossed⟩,
    fun s n t x clocked => ⟨fun found => ?retry, fun last own => ?scrub⟩⟩
  · have serve (k : ReqKind) := (Dev.homeRequest_admit live own named notHost k).trans (Dev.admitTxn_free free queue)
    refine ⟨fun absent => ⟨fun d room => ?shared, fun d room => ⟨?unique, ?upgrade, fun op y z => ?cached⟩,
      fun room => ?full, ?once, fun data be => ⟨?whole, ?part⟩, fun op y z => ?atomic⟩,
      fun e found shared narrow => ⟨?join, fun holders => ?snoop⟩⟩
    case shared =>
      exact .of_act (exec_rdshared q s) clocked ((serve _).trans (Dev.serveTxn_new clean absent rfl room))
    case unique =>
      exact .of_act (exec_rdunique q s) clocked ((serve _).trans (Dev.serveTxn_new clean absent rfl room))
    case upgrade =>
      exact .of_act (exec_upgrade q s) clocked ((serve _).trans (Dev.serveTxn_new clean absent rfl room))
    case cached =>
      exact .of_act (exec_atomic q op y z true s) clocked ((serve _).trans (Dev.serveTxn_new clean absent rfl room))
    case full =>
      exact .of_act (exec_rdshared q s) clocked ((serve _).trans (Dev.serveTxn_full clean absent rfl room))
    case once =>
      exact .of_act (exec_rdonce q s) clocked ((serve _).trans (Dev.serveTxn_absent clean absent rfl))
    case whole =>
      exact .of_act (exec_wrfull q data s) clocked ((serve _).trans (Dev.serveTxn_absent clean absent rfl))
    case part =>
      exact .of_act (exec_wrpart q data be s) clocked ((serve _).trans (Dev.serveTxn_absent clean absent rfl))
    case atomic =>
      exact .of_act (exec_atomic q op y z false s) clocked ((serve _).trans (Dev.serveTxn_absent clean absent rfl))
    case join =>
      have alone : s.dev.toSnoop e (s.dev.txnOf q.agent.val (s.dev.localForm q.addr.toNat) q.holds .rdShared) = [] :=
        if_neg (by rw [shared]; exact Bool.false_ne_true)
      exact .of_act (exec_rdshared q s) clocked
        ((serve _).trans ((Dev.serveTxn_alone clean found alone).trans (Dev.finishTxn_join rfl found shared)))
    case snoop =>
      have asked : s.dev.toSnoop e (s.dev.txnOf q.agent.val (s.dev.localForm q.addr.toNat) q.holds .rdUnique) =
          s.dev.holders e q.agent.val := rfl
      refine .of_act (exec_rdunique q s) clocked
        ((serve _).trans ((Dev.serveTxn_snoop clean found (by rw [asked]; exact holders)).trans ?_))
      rw [narrow, asked]
      rfl
  case wrback =>
    refine .of_act (exec_wrback q data p s) clocked ((Dev.writeBackMsg_free clean live named free _ _).trans ?_)
    simp only [absent, Option.map_none, Option.getD_none, if_true]
  case crossed =>
    refine .of_act (exec_wrback q data p s) clocked ((Dev.writeBackMsg_free clean live named free _ _).trans ?_)
    simp only [found, Option.map_some, Option.getD_some, owned, other, Bool.not_true, Bool.or_false,
      Bool.false_eq_true, if_false]
  case retry =>
    refine .of_act (exec_dirRetry n s) clocked ?_
    simp only [found]
  case scrub =>
    refine .of_act (exec_scrubComplete s) clocked ?_
    simp only [last, List.head?_nil, Dev.markScrubbed, own, if_true]

end Sys2Proof.Machine

/-! Settling O40: the training of the memory channels and their queues. -/

namespace Sys2Proof.Machine

/-! ### Registers and channels -/

/-- The persistent event log changes no register but its own. -/
theorem Dev.get_logEvent_ne (d : Dev) (g : Fld) (k l : Nat)
    (apart : RegRef.addr ⟨g.kind, k, l⟩ ≠ RegRef.addr ⟨.SHL_LOG_STATE, 0, 0⟩)
    (kind sev code : Nat) (data record : List Byte) :
    (d.logEvent kind sev code data record).get g k l = d.get g k l := by
  rw [Dev.logEvent]
  split
  · exact Dev.get_put_ne _ _ _ _ _ _ _ _ apart
  · exact Dev.get_put_ne _ _ _ _ _ _ _ _ apart

/-- Only a channel that there is can be busy, so it holds what is written to it. -/
theorem Dev.memCh_onCh {d : Dev} {n : Nat} (inside : n < d.chans.length) (f : MemCh → MemCh) :
    (d.onCh n f).memCh n = f (d.memCh n) := by
  simp [Dev.memCh, Dev.onCh, inside]

theorem Dev.memCh_outside {d : Dev} {n : Nat} (outside : d.chans.length ≤ n) : d.memCh n = MemCh.reset := by
  simp [Dev.memCh, outside]

/-- A change that leaves the requests of a busy channel as they are runs no maintenance. -/
theorem Dev.maintIfQuiet_busy {d : Dev} {n : Nat} {f : MemCh → MemCh} (busy : (d.memCh n).quiet = false)
    (keeps : (f (d.memCh n)).quiet = (d.memCh n).quiet) : (d.onCh n f).maintIfQuiet n = d.onCh n f := by
  have inside : n < d.chans.length := by
    by_contra outside
    rw [Dev.memCh_outside (Nat.le_of_not_lt outside)] at busy
    exact absurd busy (by decide)
  refine if_neg ?_
  rw [Dev.memCh_onCh inside, keeps, busy, Bool.and_false]
  exact Bool.false_ne_true

/-- Two changes of a channel that agree on what it holds are one. -/
theorem Dev.onCh_congr {d : Dev} {n : Nat} {f g : MemCh → MemCh} (same : f (d.memCh n) = g (d.memCh n)) :
    d.onCh n f = d.onCh n g := by
  rw [Dev.onCh, same, Dev.onCh]

/-! ### Training -/

/-- What training leaves outside the registers. -/
theorem Dev.get_withDimms (d : Dev) (x : Option Dimms) (g : Fld) (k l : Nat) :
    Dev.get { d with dimms := x } g k l = d.get g k l := Dev.get_congr rfl _ _ _

theorem Dev.get_withNvme (d : Dev) (n : Nvme) (g : Fld) (k l : Nat) :
    Dev.get { d with nvme := n } g k l = d.get g k l := Dev.get_congr rfl _ _ _

theorem Dev.get_withTrained (d : Dev) (m : List Host.Cell) (p : List (Nat × Poison)) (n : Nvme) (s : Shell) (e : Errs) (g : Fld)
    (k l : Nat) : Dev.get { d with mem := m, poison := p, nvme := n, shell := s, errs := e } g k l = d.get g k l :=
  Dev.get_congr rfl _ _ _

section training
variable (d : Dev) (x : Dimms)

/-- The installed DIMMs are described in MEM_CFG alone. -/
theorem Dev.get_setDimms_ne (g : Fld) (k l : Nat)
    (apart : RegRef.addr ⟨g.kind, k, l⟩ ≠ RegRef.addr ⟨.MEM_CFG, 0, 0⟩) : (d.setDimms x).get g k l = d.get g k l := by
  simp only [Dev.setDimms, Dev.get_withDimms]
  iterate 6 rw [Dev.get_put_ne _ _ _ _ _ _ _ _ apart]

theorem Dev.get_capGib_setDimms :
    (d.setDimms x).get F.MEM_CFG_CAP_GIB = 16 * x.perChannel.val * x.capacity.toNat := by
  have fits : 16 * x.perChannel.val * x.capacity.toNat < 2 ^ 16 := by
    have most : 16 * x.perChannel.val * x.capacity.toNat ≤ 16 * 2 * 255 :=
      Nat.mul_le_mul (by omega) (by omega)
    omega
  simp only [Dev.setDimms, Dev.get_withDimms]
  rw [Dev.get_put_field _ F.MEM_CFG_DENSITY F.MEM_CFG_CAP_GIB _ _ _ rfl (by decide) (by decide),
    Dev.get_put_field _ F.MEM_CFG_DEVW F.MEM_CFG_CAP_GIB _ _ _ rfl (by decide) (by decide),
    Dev.get_put_field _ F.MEM_CFG_RANKS F.MEM_CFG_CAP_GIB _ _ _ rfl (by decide) (by decide),
    Dev.get_put_field _ F.MEM_CFG_DPC2 F.MEM_CFG_CAP_GIB _ _ _ rfl (by decide) (by decide),
    Dev.get_put_field _ F.MEM_CFG_SPEED F.MEM_CFG_CAP_GIB _ _ _ rfl (by decide) (by decide),
    Dev.get_put_of_lt _ _ _ (by decide) fits]

theorem Dev.nvme_setDimms : (d.setDimms x).nvme = d.nvme := by
  simp only [Dev.setDimms, Dev.put_nvme]

variable (verified : Bool)

theorem Dev.trainState_trained : (d.trained x verified).get F.MEM_TRAIN_STATE = 3 := by
  simp only [Dev.trained, Dev.get_withTrained]
  exact Dev.get_put_of_lt _ _ _ (by decide) (by decide)

theorem Dev.mem_trained : (d.trained x verified).mem = [] := by
  simp only [Dev.trained]

theorem Dev.dimms_trained : (d.trained x verified).dimms = some x := by
  simp only [Dev.trained, Dev.setDimms, Dev.put_dimms]

theorem Dev.nvme_trained : (d.trained x verified).nvme.rdy = d.nvme.enabled := by
  rw [Dev.trained]
  refine congrArg Nvme.enabled ?_
  rw [Dev.put_nvme, Dev.put_nvme, Dev.put_nvme, Dev.nvme_setDimms]

theorem Dev.capGib_trained :
    (d.trained x verified).get F.MEM_CFG_CAP_GIB = 16 * x.perChannel.val * x.capacity.toNat := by
  simp only [Dev.trained, Dev.get_withTrained]
  rw [Dev.get_put_ne _ _ _ _ _ _ _ _ (by decide), Dev.get_put_ne _ _ _ _ _ _ _ _ (by decide),
    Dev.get_put_ne _ _ _ _ _ _ _ _ (by decide), Dev.get_capGib_setDimms]

variable (ch step : Nat)

theorem Dev.trainState_trainFailed : (d.trainFailed ch step x).get F.MEM_TRAIN_STATE = 4 := by
  rw [Dev.trainFailed, Dev.get_logEvent_ne _ _ _ _ (by decide), Dev.get_put_of_lt _ _ _ (by decide) (by decide)]

theorem Dev.failCh_trainFailed (fits : ch < 16) : (d.trainFailed ch step x).get F.MEM_TRAIN_FAIL_CH = ch := by
  simp only [Dev.trainFailed]
  rw [Dev.get_logEvent_ne _ _ _ _ (by decide),
    Dev.get_put_field _ F.MEM_TRAIN_STATE F.MEM_TRAIN_FAIL_CH _ _ _ rfl (by decide) (by decide),
    Dev.get_put_field _ F.MEM_TRAIN_STEP F.MEM_TRAIN_FAIL_CH _ _ _ rfl (by decide) (by decide), Dev.get_withNvme,
    Dev.get_put_field _ F.MEM_TRAIN_FAIL_STEP F.MEM_TRAIN_FAIL_CH _ _ _ rfl (by decide) (by decide),
    Dev.get_put_of_lt _ _ _ (by decide) fits]

theorem Dev.failStep_trainFailed (fits : step < 16) : (d.trainFailed ch step x).get F.MEM_TRAIN_FAIL_STEP = step := by
  simp only [Dev.trainFailed]
  rw [Dev.get_logEvent_ne _ _ _ _ (by decide),
    Dev.get_put_field _ F.MEM_TRAIN_STATE F.MEM_TRAIN_FAIL_STEP _ _ _ rfl (by decide) (by decide),
    Dev.get_put_field _ F.MEM_TRAIN_STEP F.MEM_TRAIN_FAIL_STEP _ _ _ rfl (by decide) (by decide), Dev.get_withNvme,
    Dev.get_put_of_lt _ _ _ (by decide) fits]

theorem Dev.cfs_trainFailed : (d.trainFailed ch step x).nvme.cfs = true := by
  rw [Dev.trainFailed]
  refine (congrArg (fun t => t.nvme.cfs) (Dev.tasks_logEvent _ _ _ _ _ _)).trans ?_
  rw [Dev.tasks_put, Dev.tasks_put, Dev.tasks]

end training

end Sys2Proof.Machine

namespace Sys2Proof.Machine

/-! ### The commands of a memory channel -/

theorem Dev.mclk_onCh (d : Dev) (n : Nat) (f : MemCh → MemCh) : (d.onCh n f).mclk = d.mclk := by
  rw [Dev.mclk, Dev.get_congr (d := d.onCh n f) (e := d) rfl]
  rfl

theorem Dev.memReady_of {d : Dev} (ready : d.get F.MEM_TRAIN_STATE = 3) : d.memReady = true := by
  rw [Dev.memReady, ready]
  rfl

theorem addr_throttle_ne_chStatus : ∀ n : Fin 16,
    RegRef.addr ⟨.PWR_THERMAL, 0, 0⟩ ≠ RegRef.addr ⟨.MEM_CH_STATUS, n.val, 0⟩ := by decide +kernel

theorem hottest_one (t : BitVec 8) : hottest [t] = t.toNat := Nat.zero_max _

/-- A line on which no fault is planted reads as good. -/
theorem Dev.lineCheck_good {d : Dev} (clean : d.errs.planted = []) (n o : Nat) (scrub : Bool) :
    d.lineCheck n o .good scrub = d := by
  have mode : d.plantedMode 6 0 o = 0 := by
    rw [Dev.plantedMode, clean]
    rfl
  rw [Dev.lineCheck]
  simp only [mode]
  exact ite_self d

/-- Marking the entry at a list's front changes that entry alone. -/
theorem map_zipIdx_front {α : Type} (f : α → α) (x : α) (xs : List α) :
    ((x :: xs).zipIdx.map fun y => if y.2 = 0 then f y.1 else y.1) = f x :: xs := by
  have later (l : List α) (k : Nat) :
      ((l.zipIdx (k + 1)).map fun y : α × Nat => if y.2 = 0 then f y.1 else y.1) = l := by
    induction l generalizing k with
    | nil => rfl
    | cons y l ih => simp [List.zipIdx_cons, ih]
  rw [List.zipIdx_cons, List.map_cons, later]
  rfl

theorem Dev.watermarkWrite_eq (d : Dev) (n v : Nat) :
    d.watermarkWrite n v false =
      (let r : RegRef := ⟨.MEM_CH_WM, n, 0⟩
       let new := d.wr r (regAfter r.kind.fields (d.rd r) v false false)
       if decide (new.get F.MEM_CH_WM_LOW n < new.get F.MEM_CH_WM_HIGH n ∧ new.get F.MEM_CH_WM_HIGH n ≤ 64) then new
       else d.put F.MEM_CH_STATUS_CFG_REJ 1 n) := by
  simp only [decide_eq_true_eq]
  rfl

theorem Dev.slotCommitWrite_commit (d : Dev) (n : Nat) {v : Nat} (commit : v % 2 = 1) :
    d.slotCommitWrite n v =
      if tableOk (d.shadow n) then d.put F.MEM_CH_STATUS_COMMIT_PEND 1 n else d.put F.MEM_CH_STATUS_CFG_REJ 1 n := by
  have asked : fieldIn F.MEM_CH_SLOT_COMMIT_COMMIT v ≠ 0 := by
    simpa [fieldIn, bitsOf, F.MEM_CH_SLOT_COMMIT_COMMIT] using commit
  exact if_neg asked

theorem Dev.trainable_of {d : Dev} (untrained : d.get F.MEM_TRAIN_STATE < 3) : d.trainable = true :=
  decide_eq_true untrained

/-- Settles O40: training ends by the facts about `Dev.trained` and `Dev.trainFailed`; for a channel the hypotheses of
each clause choose the branch that its command takes. -/
theorem memoryChannelCommands : Obligations.MemoryChannelCommands := by
  unfold Obligations.MemoryChannelCommands
  refine ⟨fun s x v clocked untrained => ⟨fun good => ⟨s.dev.trained x v, ?trained, Dev.trainState_trained _ _ _,
      Dev.mem_trained _ _ _, Dev.dimms_trained _ _ _, Dev.nvme_trained _ _ _, Dev.capGib_trained _ _ _⟩, fun bad => ?unfit,
      fun ch step later => ⟨s.dev.trainFailed ch.val step.val x, ?failed, Dev.trainState_trainFailed _ _ _ _,
        Dev.failCh_trainFailed _ _ _ _ ch.isLt,
        Dev.failStep_trainFailed _ _ _ _ (Nat.lt_trans step.isLt (by decide)), Dev.cfs_trainFailed _ _ _ _⟩⟩,
    fun s n clocked trained => ⟨fun sub trfc => ?refresh, fun t hot mild => ?warm, fun t hot => ?hot, fun busy => ⟨?zq, ?retrain⟩,
    fun due => ?grantDue, fun eligible => ?granted, fun calm ports rq wq scrub => ?scrub⟩,
    fun s n clocked => ⟨fun q found clean => ?issue, fun e draining => ?held, fun e rest queue young => ?aging, fun high => ?drain,
    fun empty => ?idle, fun busy => ?busy, fun sub bank => ?close, fun v => ⟨fun commit legal => ?legal,
    fun commit broken => ?broken⟩, fun pending first => ⟨fun good => ?applied, fun bad => ?refused⟩, fun v => ?marks⟩⟩
  case trained =>
    refine .of_act (exec_trainingComplete x v s) clocked ?_
    simp only [Dev.trainable_of untrained, good, Bool.not_true, Bool.false_eq_true, if_false, if_true]
  case unfit =>
    refine .of_act (exec_trainingComplete x v s) clocked ?_
    simp only [Dev.trainable_of untrained, bad, Bool.not_true, Bool.false_eq_true, if_false]
  case failed =>
    refine .of_act (exec_trainingFail ch step x s) clocked (if_pos ?_)
    rw [Dev.trainable_of untrained, Bool.true_and, bne_iff_ne]
    exact later
  case refresh =>
    refine .of_act (exec_refresh n sub trfc s) clocked ((if_pos (Dev.memReady_of trained)).trans ?_)
    rw [Dev.stallNs, Dev.mclk_onCh]
  case warm =>
    have cold : ¬95 < t.toNat := by omega
    refine .of_act (exec_dimmThermalPoll n [t] s) clocked ?_
    simp only [Dev.memReady_of trained, List.isEmpty_cons, Bool.not_true, Bool.or_self, Bool.false_eq_true, if_false, hottest_one, hot, mild,
      cold, if_true, Dev.get_put_ne _ F.MEM_CH_STATUS_HOT F.PWR_THERMAL_DIMM_THROTTLE _ _ _ _ _ (addr_throttle_ne_chStatus n)]
  case hot =>
    have warm : 85 < t.toNat := by omega
    refine .of_act (exec_dimmThermalPoll n [t] s) clocked ?_
    simp only [Dev.memReady_of trained, List.isEmpty_cons, Bool.not_true, Bool.or_self, Bool.false_eq_true, if_false, hottest_one, hot, warm,
      if_true]
  case zq =>
    exact .of_act (exec_zqCalibration n s) clocked ((if_pos (Dev.memReady_of trained)).trans (Dev.maintIfQuiet_busy busy rfl))
  case retrain =>
    exact .of_act (exec_retrainPass n s) clocked ((if_pos (Dev.memReady_of trained)).trans (Dev.maintIfQuiet_busy busy rfl))
  case grantDue =>
    refine .of_act (exec_grantOpportunity n s) clocked ?_
    simp only [Dev.memReady_of trained, due, Bool.not_true, Bool.false_eq_true, if_false, Bool.true_or, if_true]
  case granted =>
    refine .of_act (exec_grantOpportunity n s) clocked ?_
    simp only [Dev.memReady_of trained, eligible, Bool.not_true, Bool.false_eq_true, if_false, Bool.or_true, if_true]
  case scrub =>
    refine .of_act (exec_grantOpportunity n s) clocked ?_
    simp only [Dev.memReady_of trained, calm, ports, rq, wq, scrub, List.any_nil, Bool.not_true, Bool.false_eq_true, if_false,
      Bool.or_self, List.isEmpty_nil, Bool.and_self, if_true]
  case issue =>
    refine .of_act (exec_readIssue n .good s) clocked ?_
    simp only [found]
    rw [Dev.lineCheck_good (d := (s.dev.onCh n.val _).rowAccess n.val q) clean]
  case held =>
    have none : s.dev.nextRead n.val = none := if_pos draining
    refine .of_act (exec_readIssue n e s) clocked ?_
    simp only [none]
  case aging =>
    have first : (s.dev.memCh n.val).rq.findIdx? (fun e => !e.aged) = some 0 := by
      rw [queue, List.findIdx?_cons, young]
      rfl
    refine .of_act (exec_readAging n s) clocked ?_
    simp only [first]
    refine Dev.onCh_congr ?_
    simp only [queue]
    rw [map_zipIdx_front fun e : QEnt => { e with aged := true }]
  case drain => exact .of_act (exec_writeDrain n s) clocked (if_pos high)
  case idle => exact .of_act (exec_readIdleDrain n s) clocked (if_pos (by rw [empty]; rfl))
  case busy => exact .of_act (exec_readIdleDrain n s) clocked (if_neg (by simpa using busy))
  case close => exact .of_act (exec_rowIdleClose n sub bank s) clocked rfl
  case legal =>
    refine .of_act (exec_slotCommit n ⟨.bar0, .full, v⟩ s) clocked ?_
    rw [Dev.access_bar0_full (show RegKind.MEM_CH_SLOT_COMMIT ≠ .RNG_PUSH by decide)]
    exact (Dev.slotCommitWrite_commit _ _ commit).trans (if_pos legal)
  case broken =>
    refine .of_act (exec_slotCommit n ⟨.bar0, .full, v⟩ s) clocked ?_
    rw [Dev.access_bar0_full (show RegKind.MEM_CH_SLOT_COMMIT ≠ .RNG_PUSH by decide)]
    exact (Dev.slotCommitWrite_commit _ _ commit).trans
      (if_neg fun legal => Bool.false_ne_true (broken.symm.trans legal))
  case applied =>
    exact .of_act (exec_slotCommitApply n s) clocked ((if_pos ⟨pending, first⟩).trans (if_pos good))
  case refused =>
    exact .of_act (exec_slotCommitApply n s) clocked
      ((if_pos ⟨pending, first⟩).trans (if_neg fun good => Bool.false_ne_true (bad.symm.trans good)))
  case marks =>
    refine .of_act (exec_watermarkWrite n ⟨.bar0, .full, v⟩ s) clocked ?_
    rw [Dev.access_bar0_full (show RegKind.MEM_CH_WM ≠ .RNG_PUSH by decide)]
    exact Dev.watermarkWrite_eq _ _ _

end Sys2Proof.Machine

/-! Settling O41: the last beat that a channel's byte counter can count. -/

namespace Sys2Proof.Machine

/-- An error ring of the manager in device memory takes records of counters that saturate, and the byte counter of
DMA channel 0 stands at its last value. -/
def saturatingDma : Dev :=
  let d := Dev.reset.count .DMA_CH_BYTES (2 ^ 48 - 1) 0
  ((d.put F.ERR_CFG_SAT_REC 1).put F.ERR_RING_CFG_EN 1).put F.ERR_RING_CFG_SIZE_LOG2 6

/-- A FILL of one byte at 0x1000. -/
def lastFill : DmaCur := DmaCur.fresh 0 ([2, 0, 0, 0, 0, 0, 0, 0] ++ leBytes 8 7 ++ leBytes 8 0x1000 ++ leBytes 8 1)

/-- The beat of one byte leaves twelve that are not zero: its own, and those of the record of the counter that saturates
with it (R479). -/
theorem length_mem_saturatingDma : (saturatingDma.beatWrite lastFill 1).mem.length = 12 := by decide +kernel

/-- Refutes O41: the beat's byte may be the one that saturates the channel's byte counter, and where SAT_REC is set
and the manager's error ring lies in device memory, its COUNTER_SAT record is written to that memory as well. -/
theorem not_dmaCommands : ¬Obligations.DmaCommands := by
  intro h
  obtain ⟨-, -, -, -, -, beat⟩ := h
  have mem := congrArg List.length (beat saturatingDma lastFill 1 (by decide +kernel) (by decide +kernel)
    (by decide +kernel) (by decide) (by decide +kernel) (by decide +kernel))
  rw [length_mem_saturatingDma] at mem
  exact absurd mem (by decide +kernel)

end Sys2Proof.Machine

/-!
# What reports and memory traffic write

Reports, messages, and reads and writes at the homes change the rings, the log, the channels, the directory and the
caches, and the registers that speak of them; the other registers and the rest of the device stay as they are.
-/

namespace Sys2Proof.Machine

/-- The registers that reports and memory traffic write. -/
def noisyKinds : List RegKind :=
  [.ERR_STATUS, .ERR_RING_CFG, .ERR_RING_PTR, .ERR_INJ, .SHL_LOG_STATE, .DIR_POISONED, .ERR_POD_STATUS, .ERR_POD_RING_CFG,
    .ERR_POD_RING_PTR, .POD_LOG_CFG, .MEM_CH_ECC, .MEM_CH_ECC_ADDR, .MEM_CH_STATUS]

/-- The number of registers of a kind that one index counts. -/
def RegKind.instances (k : RegKind) : Nat := k.geom.2.2.1

/-- Neither reports nor memory traffic write the register. -/
def RegRef.Quiet (r : RegRef) : Prop := ∀ k ∈ noisyKinds, ∀ i < k.instances, r.addr ≠ RegRef.addr ⟨k, i, 0⟩

/-- The device without what reports and memory traffic change. -/
def Dev.calm (d : Dev) : Dev :=
  { d with regs := [], mem := [], hmem := [], poison := [], lines := [], wbb := [], dir := [], chans := [], memWait := [],
           host := Dev.reset.host, out := [], ports := [], shell := Dev.reset.shell, errs := Dev.reset.errs, msgTag := 0 }

/-- Reports and memory traffic lead from one device to another. -/
structure Dev.Hushed (d e : Dev) : Prop where
  calm : e.calm = d.calm
  quiet : ∀ r : RegRef, r.Quiet → e.rd r = d.rd r

namespace Dev.Hushed
variable {d e f : Dev}

theorem refl (d : Dev) : d.Hushed d := ⟨rfl, fun _ _ => rfl⟩

theorem trans (h : d.Hushed e) (k : e.Hushed f) : d.Hushed f :=
  ⟨k.calm.trans h.calm, fun r q => (k.quiet r q).trans (h.quiet r q)⟩

theorem of_regs (calm : e.calm = d.calm) (regs : e.regs = d.regs) : d.Hushed e :=
  ⟨calm, fun r _ => by rw [Dev.rd, Dev.rd, regs]⟩

/-- What changes no register and nothing else that is kept may come first. -/
theorem after (h : e.Hushed f) (calm : e.calm = d.calm) (regs : e.regs = d.regs) : d.Hushed f :=
  (of_regs calm regs).trans h

theorem ite {c : Prop} [Decidable c] (h : d.Hushed e) (k : d.Hushed f) : d.Hushed (if c then e else f) := by
  split
  · exact h
  · exact k

theorem foldl {α : Type} {g : Dev → α → Dev} (keeps : ∀ (d : Dev) (x : α), d.Hushed (g d x)) (xs : List α) (d : Dev) :
    d.Hushed (xs.foldl g d) := by
  induction xs generalizing d with
  | nil => exact refl d
  | cons x xs ih => exact (keeps d x).trans (ih _)

theorem foldl_mem {α : Type} {g : Dev → α → Dev} (xs : List α) (keeps : ∀ d : Dev, ∀ x ∈ xs, d.Hushed (g d x)) (d : Dev) :
    d.Hushed (xs.foldl g d) := by
  induction xs generalizing d with
  | nil => exact refl d
  | cons x xs ih =>
    exact (keeps d x List.mem_cons_self).trans (ih (fun d y mem => keeps d y (List.mem_cons_of_mem x mem)) _)

theorem get (h : d.Hushed e) (f : Fld) (i j : Nat) (quiet : RegRef.Quiet ⟨f.kind, i, j⟩) : e.get f i j = d.get f i j := by
  rw [Dev.get, Dev.get, h.quiet _ quiet]

end Dev.Hushed

theorem Dev.hushed_put (d : Dev) {f : Fld} {i : Nat} (v : Nat) (noisy : f.kind ∈ noisyKinds) (inside : i < f.kind.instances) :
    d.Hushed (d.put f v i) :=
  ⟨rfl, fun _ quiet => Dev.rd_wr_ne _ _ _ _ (quiet _ noisy i inside)⟩

theorem Dev.hushed_bump16 (d : Dev) {f : Fld} {i : Nat} (noisy : f.kind ∈ noisyKinds) (inside : i < f.kind.instances) :
    d.Hushed (d.bump16 f i) :=
  d.hushed_put _ noisy inside

/-! ### Messages and stores -/

theorem Dev.hushed_fire (d : Dev) : d.Hushed d.fire :=
  (d.hushed_put 0 (f := F.ERR_INJ_ARMED) (by decide) (by decide)).trans
    (Dev.hushed_put _ 1 (f := F.ERR_INJ_FIRED) (by decide) (by decide))

theorem Dev.hushed_sendFlit (d : Dev) (p : Nat) : d.Hushed (d.sendFlit p) :=
  (Dev.Hushed.ite d.hushed_fire (.refl d)).trans (.of_regs rfl rfl)

theorem Dev.hushed_postMsg (d : Dev) (p : Nat) (o : Out) (slot : Nat) : d.Hushed (d.postMsg p o slot) :=
  .ite (.after (e := { d with out := _, ports := _ }) (Dev.hushed_sendFlit _ p) rfl rfl) (.of_regs rfl rfl)

theorem Dev.hushed_emit (d : Dev) (o : Out) : d.Hushed (d.emit o) := by
  rw [Dev.emit]
  dsimp only
  split
  · exact .of_regs rfl rfl
  · split
    · exact .after (Dev.hushed_postMsg _ _ _ _) rfl rfl
    · exact .of_regs rfl rfl

theorem Dev.hushed_sendVec (d : Dev) (pf1 : Bool) (v : Nat) : d.Hushed (d.sendVec pf1 v) :=
  .ite (d.hushed_emit _) (.ite (.refl d) (.of_regs rfl rfl))

theorem Dev.hushed_stLine (d : Dev) (a : Nat) (bs : List Byte) : d.Hushed (d.stLine a bs) :=
  .ite (.of_regs rfl rfl) (.ite (.of_regs rfl rfl) (.refl d))

theorem Dev.hushed_stLines (d : Dev) (a : Nat) (bs : List Byte) (n : Nat) : d.Hushed (d.stLines a bs n) := by
  induction n generalizing d a bs with
  | zero => exact .refl d
  | succ n ih => exact .ite (.refl d) ((d.hushed_stLine _ _).trans (ih _ _ _))

theorem Dev.hushed_st (d : Dev) (a : Nat) (bs : List Byte) : d.Hushed (d.st a bs) :=
  .ite (.of_regs rfl rfl) (d.hushed_stLines _ _ _)

theorem Dev.hushed_logPage (d : Dev) {p : Nat} (page : Nat) (pod : p < 64) : d.Hushed (d.logPage p page) :=
  .ite (.refl d) (.ite (.of_regs rfl rfl) (d.hushed_put 1 (f := F.POD_LOG_CFG_OUTSIDE) (by decide) pod))

theorem Dev.hushed_hst (d : Dev) (pasid a : Nat) (bs : List Byte) : d.Hushed (d.hst pasid a bs) := by
  rw [Dev.hst]
  split
  next p found =>
    have pod : p < 64 := List.mem_range.mp (List.mem_of_find?_eq_some found)
    exact .after (.foldl (fun (d : Dev) g => d.hushed_logPage g pod) _ _) rfl rfl
  · exact .of_regs rfl rfl

/-! ### Reports -/

theorem Dev.hushed_logEvent (d : Dev) (kind sev code : Nat) (data record : List Byte) :
    d.Hushed (d.logEvent kind sev code data record) :=
  .ite (d.hushed_bump16 (f := F.SHL_LOG_STATE_DROPPED) (by decide) (by decide))
    (.after (Dev.hushed_put _ _ (f := F.SHL_LOG_STATE_HEAD_SEQ) (i := 0) (by decide) (by decide)) rfl rfl)

theorem Dev.hushed_ringVec (d : Dev) (id vec holdoff : Nat) : d.Hushed (d.ringVec id vec holdoff) :=
  .ite (.of_regs rfl rfl) (.ite (d.hushed_sendVec _ _) (.trans (d.hushed_sendVec _ _) (.of_regs rfl rfl)))

theorem Dev.hushed_markLost (d : Dev) (who : Option Nat) : d.Hushed (d.markLost who) :=
  .ite (.refl d) (.of_regs rfl rfl)

theorem Dev.hushed_managerDrop (d : Dev) : d.Hushed d.managerDrop :=
  (d.hushed_bump16 (f := F.ERR_STATUS_DROPPED) (by decide) (by decide)).trans (Dev.hushed_markLost _ _)

theorem Dev.hushed_podDrop (d : Dev) {p : Nat} (pod : p < 64) : d.Hushed (d.podDrop p) :=
  (d.hushed_bump16 (f := F.ERR_POD_STATUS_DROPPED) (by decide) pod).trans (Dev.hushed_markLost _ _)

theorem Dev.hushed_recordStore (d : Dev) (host : Bool) (pasid a : Nat) (bs : List Byte) :
    d.Hushed (d.recordStore host pasid a bs) :=
  .ite (d.hushed_hst _ _ _) (d.hushed_st _ _)

theorem Dev.hushed_clearLost (d : Dev) (who : Option Nat) : d.Hushed (d.clearLost who) := .of_regs rfl rfl

theorem Dev.hushed_managerRecord (d : Dev) (e : ErrInfo) (seq : Nat) : d.Hushed (d.managerRecord e seq) := by
  rw [Dev.managerRecord]
  refine .ite d.hushed_managerDrop (.ite ?_ ?_)
  · exact (d.hushed_put 0 (f := F.ERR_RING_CFG_EN) (by decide) (by decide)).trans
      ((Dev.hushed_managerDrop _).trans (Dev.hushed_logEvent _ _ _ _ _ _))
  · exact (d.hushed_recordStore _ _ _ _).trans ((Dev.hushed_clearLost _ _).trans
      ((Dev.hushed_put _ _ (f := F.ERR_RING_PTR_TAIL) (by decide) (by decide)).trans (Dev.hushed_ringVec _ _ _ _)))

theorem Dev.hushed_recordManager (d : Dev) (e : ErrInfo) (seq : Nat) : d.Hushed (d.recordManager e seq) := by
  have fatal (c : Prop) [Decidable c] (x : Dev) : x.Hushed (if c then x.put F.ERR_STATUS_FATAL 1 else x) :=
    .ite (x.hushed_put 1 (f := F.ERR_STATUS_FATAL) (by decide) (by decide)) (.refl x)
  have recorded := (d.hushed_managerRecord e seq).trans
    ((Dev.hushed_put _ seq (f := F.ERR_STATUS_LAST_SEQ) (i := 0) (by decide) (by decide)).trans (fatal (severity e = 3) _))
  exact .ite (recorded.trans (Dev.hushed_logEvent _ _ _ _ _ _)) recorded

theorem Dev.hushed_nextSeq (d : Dev) : d.Hushed d.nextSeq.2 := .of_regs rfl rfl

theorem Dev.hushed_reportManager (d : Dev) (e : ErrInfo) : d.Hushed (d.reportManager e) :=
  d.hushed_nextSeq.trans (Dev.hushed_recordManager _ _ _)

theorem Dev.hushed_podRecordVec (d : Dev) (p : Nat) : d.Hushed (d.podRecordVec p) :=
  .ite (d.hushed_ringVec _ _ _) (d.hushed_reportManager _)

theorem Dev.hushed_podRecord (d : Dev) {p : Nat} (e : ErrInfo) (seq : Nat) (pod : p < 64) :
    d.Hushed (d.podRecord p e seq) := by
  rw [Dev.podRecord]
  have last := d.hushed_put seq (f := F.ERR_POD_STATUS_LAST_SEQ) (by decide) pod
  refine .ite (last.trans (Dev.hushed_podDrop _ pod)) (.ite ?_ ?_)
  · exact last.trans ((Dev.hushed_put _ 0 (f := F.ERR_POD_RING_CFG_EN) (by decide) pod).trans
      ((Dev.hushed_podDrop _ pod).trans (Dev.hushed_reportManager _ _)))
  · exact last.trans ((Dev.hushed_recordStore _ _ _ _ _).trans ((Dev.hushed_clearLost _ _).trans
      ((Dev.hushed_put _ _ (f := F.ERR_POD_RING_PTR_TAIL) (by decide) pod).trans (Dev.hushed_podRecordVec _ _))))

/-- A report concerns a pod that there is, or none. -/
theorem Dev.hushed_report (d : Dev) {e : ErrInfo} (pod : ∀ p, e.pod = some p → p < 64) : d.Hushed (d.report e) := by
  rw [Dev.report]
  split
  · exact .refl d
  · have held : d.Hushed (if e.limited = true then ({ d with errs := { d.errs with
        recent := upsert (fun r => r.1 == e.cls && r.2.1 == e.sourceKey) (e.cls, e.sourceKey, d.now)
          d.errs.recent } } : Dev) else d) := .ite (.of_regs rfl rfl) (.refl d)
    dsimp only
    split
    next p which =>
      exact held.trans ((Dev.hushed_nextSeq _).trans
        ((Dev.hushed_recordManager _ _ _).trans (Dev.hushed_podRecord _ _ _ (pod p which))))
    · exact held.trans ((Dev.hushed_nextSeq _).trans (Dev.hushed_recordManager _ _ _))

/-- A report that concerns no pod. -/
theorem Dev.hushed_report_podless (d : Dev) {e : ErrInfo} (pod : e.pod = none) : d.Hushed (d.report e) :=
  d.hushed_report fun p which => by rw [pod] at which; cases which

/-- A counter of one of these registers counts, and its saturation may be reported. -/
theorem Dev.hushed_count (d : Dev) {k : RegKind} {i : Nat} (n : Nat) (noisy : k ∈ noisyKinds) (inside : i < k.instances) :
    d.Hushed (d.count k n i) := by
  have wrote (v : Nat) : d.Hushed (d.wr ⟨k, i, 0⟩ v) :=
    ⟨rfl, fun _ quiet => Dev.rd_wr_ne _ _ _ _ (quiet _ noisy i inside)⟩
  exact .ite (wrote _) (.ite ((wrote _).trans (Dev.hushed_report_podless _ rfl)) (wrote _))

/-- Any counter leaves the rest of the device as it is. -/
theorem Dev.calm_count (d : Dev) (k : RegKind) (n i : Nat) : (d.count k n i).calm = d.calm := by
  rw [Dev.count]
  split
  · rfl
  · split
    · exact (Dev.hushed_report_podless (d.wr ⟨k, i, 0⟩ _) rfl).calm
    · rfl

/-! ### Memory traffic and the directory -/

theorem Dev.pod_podOfAddr {d : Dev} {a p : Nat} (found : d.podOfAddr a = some p) : p < 64 :=
  List.mem_range.mp (List.mem_of_find?_eq_some found)

theorem memChanOf_lt (o : Nat) : memChanOf o < 16 := by
  have lt (x lo : Nat) : bitsOf x lo 4 < 2 ^ 4 := Nat.mod_lt _ (by decide)
  exact Nat.xor_lt_two_pow (Nat.xor_lt_two_pow (Nat.xor_lt_two_pow (lt _ _) (lt _ _)) (lt _ _)) (lt _ _)

theorem Dev.hushed_setPoison (d : Dev) (o : Nat) (x : Poison) : d.Hushed (d.setPoison o x) := .of_regs rfl rfl

theorem Dev.hushed_unplant (d : Dev) (target index a : Nat) : d.Hushed (d.unplant target index a) := .of_regs rfl rfl

theorem Dev.hushed_memUe (d : Dev) {n : Nat} (o : Nat) (injected : Bool) (chan : n < 16) : d.Hushed (d.memUe n o injected) := by
  rw [Dev.memUe]
  refine .trans ?_ (Dev.hushed_report _ fun p which => Dev.pod_podOfAddr (a := o) which)
  refine (d.hushed_setPoison o .ue).trans ((Dev.hushed_bump16 _ (f := F.MEM_CH_ECC_UE_COUNT) (by decide) chan).trans
    (.ite (.refl _) ?_))
  exact (Dev.hushed_put _ _ (f := F.MEM_CH_ECC_ADDR_OFFSET) (by decide) chan).trans
    (Dev.hushed_put _ _ (f := F.MEM_CH_ECC_ADDR_VALID) (by decide) chan)

theorem Dev.hushed_findUe (d : Dev) (o : Nat) : d.Hushed (d.findUe o) :=
  .ite ((d.hushed_unplant 6 0 o).trans (Dev.hushed_memUe _ o true (memChanOf_lt o))) (.refl d)

theorem Dev.hushed_settlePort (d : Dev) (port on off : Nat) {f : Fld} (status : f.kind = .MEM_CH_STATUS) :
    d.Hushed (d.settlePort port on off f) := by
  have row (v : Nat) : d.Hushed ((List.range 16).foldl (fun d k => d.put f v k) d) := by
    refine .foldl_mem _ (fun d k mem => d.hushed_put v ?_ ?_) d
    · rw [status]
      decide
    · rw [status]
      exact List.mem_range.mp mem
  exact .ite (.refl d) (row _)

theorem Dev.hushed_onCh (d : Dev) (n : Nat) (f : MemCh → MemCh) : d.Hushed (d.onCh n f) := .of_regs rfl rfl

theorem Dev.hushed_settlePanic (d : Dev) : d.Hushed d.settlePanic :=
  (d.hushed_settlePort 8 (d.get F.MEM_RT_CFG_IO_ON) (d.get F.MEM_RT_CFG_IO_OFF) (f := F.MEM_CH_STATUS_PANIC_IO) rfl).trans
    (Dev.hushed_settlePort _ 9 _ _ (f := F.MEM_CH_STATUS_PANIC_LNK) rfl)

theorem Dev.hushed_atPort (d : Dev) (q : PortReq) : d.Hushed (d.atPort q) :=
  (d.hushed_onCh _ _).trans (Dev.hushed_settlePanic _)

theorem Dev.hushed_memAsk (d : Dev) (port : Nat) (write part openHint : Bool) (lines : List Nat)
    (reply : Option Reply) : d.Hushed (d.memAsk port write part openHint lines reply) := by
  cases lines with
  | nil => exact .refl d
  | cons o rest => exact .ite (d.hushed_atPort _) (.of_regs rfl rfl)

theorem Dev.hushed_ioAsk (d : Dev) (write openHint : Bool) (sector a n : Nat) :
    d.Hushed (d.ioAsk write openHint sector a n) := by
  rw [Dev.ioAsk]
  exact .ite ((d.hushed_memAsk _ _ _ _ _ _).trans (Dev.hushed_memAsk _ _ _ _ _ _ _)) (d.hushed_memAsk _ _ _ _ _ _)

/-- Snoops that no set BCAST asks for are messages only. -/
theorem Dev.hushed_snoop (d : Dev) (slice sector : Nat) (inv : Bool) (xs : List Nat) :
    d.Hushed (d.snoop slice sector inv false xs) :=
  Dev.Hushed.foldl (fun d _ => d.hushed_emit _) xs d

theorem Dev.hushed_sliceWrite (d : Dev) (o : Nat) : d.Hushed (d.sliceWrite o) := d.hushed_onCh _ _

theorem Dev.hushed_loseLines (d : Dev) (sector : Nat) : d.Hushed (d.loseLines sector) := by
  rw [Dev.loseLines]
  have marked : d.Hushed ((List.range 4).foldl (fun d k => d.setPoison (sector + 64 * k) .lost) d) :=
    .foldl (fun (d : Dev) k => d.hushed_setPoison (sector + 64 * k) .lost) _ d
  have counted := marked.trans (Dev.hushed_count _ (k := .DIR_POISONED) (i := 0) 4 (by decide) (by decide))
  split
  · exact counted.trans (.foldl (fun (d : Dev) k => d.hushed_sliceWrite (sector + 64 * k)) _ _)
  next h _ => exact counted.trans (.foldl (fun (d : Dev) k => d.hushed_emit (.coh h 28 (sector + 64 * k) 0 .lost)) _ _)

theorem Dev.hushed_dropDir (d : Dev) (sector : Nat) : d.Hushed (d.dropDir sector) := .of_regs rfl rfl

/-- The cached and buffered lines of a sector may be dropped. -/
theorem Dev.hushed_dropLines (d : Dev) (lines : List CLine) (wbb : List (Nat × Nat)) :
    d.Hushed { d with lines := lines, wbb := wbb } := .of_regs rfl rfl

theorem Dev.hushed_keepLines (d : Dev) (lines : List CLine) : d.Hushed { d with lines := lines } := .of_regs rfl rfl

/-- A sector whose entry is lost is dropped and reported (R241, R248). -/
theorem Dev.hushed_loseEntry (d : Dev) (e : DirEnt) (sector slice : Nat) (lines : List CLine) (wbb : List (Nat × Nat)) :
    d.Hushed (((({ d with lines := lines, wbb := wbb } : Dev).loseSector e).dropDir sector).report
      { cls := 0x0C, srcKind := 13, source := slice, addr := sector, injected := true }) :=
  (d.hushed_dropLines lines wbb).trans ((Dev.hushed_loseLines _ _).trans
    ((Dev.hushed_dropDir _ _).trans (Dev.hushed_report_podless _ rfl)))

theorem Dev.hushed_checkDir (d : Dev) (slice sector : Nat) : d.Hushed (d.checkDir slice sector) := by
  rw [Dev.checkDir]
  split
  · exact .refl d
  · have gone := d.hushed_unplant 5 slice sector
    refine .ite (.refl d) (.ite gone ?_)
    exact gone.trans ((Dev.hushed_snoop _ _ _ _ _).trans (Dev.hushed_loseEntry _ _ _ _ _ _))

theorem Dev.hushed_withErrs (d : Dev) (errs : Errs) : d.Hushed { d with errs := errs } := .of_regs rfl rfl

theorem Dev.hushed_plantIf (d : Dev) (target index a : Nat) : d.Hushed (d.plantIf target index a) :=
  .ite (d.hushed_fire.trans (Dev.hushed_withErrs _ _)) (.refl d)

theorem Dev.hushed_setDir (d : Dev) (e : DirEnt) : d.Hushed (d.setDir e) := by
  rw [Dev.setDir]
  exact .after (Dev.hushed_plantIf _ _ _ _) rfl rfl

/-- A read of a sector at its home leaves an owner a clean copy. -/
theorem Dev.hushed_readOwner (d : Dev) (sector : Nat) :
    d.Hushed (match d.findDir sector with
      | some e =>
        if e.excl then
          ((d.snoop e.slice sector false false ((d.holders e 24).filter fun x => decide (16 ≤ x))).setDir e.shared)
        else d
      | none => d) := by
  split
  · exact .ite ((d.hushed_snoop _ _ _ _).trans (Dev.hushed_setDir _ _)) (.refl d)
  · exact .refl d

/-- A read at the homes (R274). -/
theorem Dev.hushed_ioRead (d : Dev) (a n : Nat) (openHint : Bool) : d.Hushed (d.ioRead a n openHint) := by
  refine (Dev.Hushed.foldl (fun (d : Dev) o => d.hushed_findUe o) (linesOf a n) d).trans
    (.foldl (fun (d : Dev) sector => ?_) _ _)
  exact (d.hushed_checkDir (d.sliceOf sector) sector).trans ((Dev.hushed_readOwner _ sector).trans
    ((Dev.hushed_keepLines _ _).trans (Dev.hushed_ioAsk _ _ _ _ _ _)))

/-! ### Addresses -/

theorem Dev.target_of_hushed {d e : Dev} (h : d.Hushed e) (a : Nat) : e.target a = d.target a := by
  have capacity : e.capacity = d.capacity := by
    rw [Dev.capacity, Dev.capacity, h.get F.MEM_TRAIN_STATE 0 0 (by unfold RegRef.Quiet; decide +kernel),
      h.get F.MEM_CFG_CAP_GIB 0 0 (by unfold RegRef.Quiet; decide +kernel)]
  rw [Dev.target, Dev.target, capacity, h.get F.LNK_SPAN_CFG_SPAN_NO 0 0 (by unfold RegRef.Quiet; decide +kernel),
    h.get F.LNK_SPAN_STATUS_LIVE 0 0 (by unfold RegRef.Quiet; decide +kernel)]

theorem Dev.localForm_of_hushed {d e : Dev} (h : d.Hushed e) (a : Nat) : e.localForm a = d.localForm a := by
  rw [Dev.localForm, Dev.localForm, Dev.target_of_hushed h]

end Sys2Proof.Machine

/-! Settling O43: an engine takes, works and stops a job. -/

namespace Sys2Proof.Machine

/-! ### Working a job -/

/-- An engine with no injection armed works the unfinished job of its operation. -/
theorem Dev.work_open {d : Dev} {e : Nat} {x : EngJob} {op : Nat} (found : d.engJob e = some x) (busy : x.finished = false)
    (calm : d.armed 9 e = false) (same : d.engOp x = op) (fault : Bool) :
    d.work e op fault =
      if fault then d.engineFault x false else if x.job.stageJob then d.workStage x else d.workDma x := by
  simp only [Dev.work, found, busy, same, bne_self_eq_false, Bool.or_self, Bool.false_eq_true, if_false, calm,
    Bool.or_false, Dev.fireIf]

section stage
variable {d : Dev} {x : EngJob}

theorem Dev.workStage_compress (op : x.job.op = 1) :
    d.workStage x = d.jobWorked x
      (compressed x.job.fmt x.job.level false false .first x.job.src x.job.src.length x.job.limit) :=
  if_pos op

theorem Dev.workStage_fits (op : x.job.op = 0) (fits : (unpack x.job.fmt x.job.src false).out.length ≤ x.job.limit) :
    d.workStage x = d.setEng { x with finished := true, status := (unpack x.job.fmt x.job.src false).status,
                                      consumed := (unpack x.job.fmt x.job.src false).consumed,
                                      output := (unpack x.job.fmt x.job.src false).out } := by
  rw [Dev.workStage, if_neg (by rw [op]; decide)]
  exact congrArg (d.jobWorked x) (if_neg (Nat.not_lt.mpr fits))

theorem Dev.workStage_long (op : x.job.op = 0) (long : x.job.limit < (unpack x.job.fmt x.job.src false).out.length) :
    d.workStage x = d.setEng { x with finished := true, status := 4,
                                      consumed := (unpack x.job.fmt x.job.src false).consumed,
                                      output := (unpack x.job.fmt x.job.src false).out.take x.job.limit } := by
  rw [Dev.workStage, if_neg (by rw [op]; decide)]
  exact congrArg (d.jobWorked x) (if_pos long)

end stage

/-- The descriptor of a DMA job is the line that the engine has read, wherever the read may have been reported. -/
theorem Dev.workDma_eq (d : Dev) (x : EngJob) :
    d.workDma x =
      (let seen := d.ioRead (d.localForm x.job.addr) 64
       let b := seen.ld (d.localForm x.job.addr) 64
       if !seen.jobValid b then seen.jobWorked x (nothing 9)
       else if !seen.jobCtxInPod x.job.pod b then seen.jobWorked x (nothing 8)
       else match seen.partOf x.job.pod b with
         | none => seen.jobWorked x (nothing 0x0A)
         | some t =>
           if !seen.jobInPod x.job.pod b then seen.jobWorked x (nothing 8)
           else
             let pasid := seen.get F.POD_PASID_PASID x.job.pod
             match if jobFlag b 3 then seen.xlate pasid (jobSrc b) (jobSrcLen b) else .ok with
             | .wait => seen.askPage pasid (jobSrc b) (jobSrcLen b) (.job x.engine)
             | .fault => (seen.forgetFault pasid (jobSrc b) (jobSrcLen b)).runJob x b t
                 (seen.okBytes pasid (jobSrc b) (jobSrcLen b))
             | .ok => seen.runJob x b t (jobSrcLen b)) := by
  rw [Dev.workDma, Dev.localForm_of_hushed (d.hushed_ioRead (d.localForm x.job.addr) 64 false)] <;> rfl

/-! ### The end of a job -/

theorem Dev.jobResults_count (d : Dev) (k : RegKind) (n i : Nat) : (d.count k n i).jobResults = d.jobResults := by
  have calm := congrArg Dev.jobResults (d.calm_count k n i)
  exact calm

theorem Dev.jobResults_freeEngine (d : Dev) (x : EngJob) : (d.freeEngine x).jobResults = d.jobResults := by
  have counted (e : Dev) : ((e.count .CMP_ENG_IN x.consumed x.engine).count .CMP_ENG_OUT x.output.length
      x.engine).jobResults = e.jobResults := by
    rw [Dev.jobResults_count, Dev.jobResults_count]
  rw [Dev.freeEngine]
  split
  · rw [Dev.jobResults_count, counted, Dev.put_jobResults, Dev.put_jobResults, Dev.put_jobResults]
  · rw [counted, Dev.put_jobResults, Dev.put_jobResults, Dev.put_jobResults]

/-! ### The commands -/

/-- The command of the operation works the job. -/
theorem gives_work {s : State} {e : Fin 8} {x : EngJob} (clocked : s.dev.clocked) (found : s.dev.engJob e.val = some x)
    (busy : x.finished = false) (calm : s.dev.armed 9 e.val = false) {d : Dev} {fault : Bool}
    (works : (if fault then s.dev.engineFault x false else if x.job.stageJob then s.dev.workStage x
      else s.dev.workDma x) = d) :
    (s.dev.engOp x = 0 → Gives (.decompress e fault) s d) ∧ (s.dev.engOp x = 1 → Gives (.compress e fault) s d) :=
  ⟨fun op => .of_act (exec_decompress e fault s) clocked ((Dev.work_open found busy calm op fault).trans works),
    fun op => .of_act (exec_compress e fault s) clocked ((Dev.work_open found busy calm op fault).trans works)⟩

/-- Settles O43: an engine's turn is that of `Dev.work_open`, and a DMA job's checks come in the order of
`Dev.workDma_eq`. -/
theorem compressionCommands : Obligations.CompressionCommands := by
  unfold Obligations.CompressionCommands
  refine ⟨fun s e j clocked free on => ⟨fun staged => ?staged, fun unstaged room next => ?dma, fun unstaged full => ?full⟩,
    fun s e x clocked found busy calm => ?_,
    fun s e x clocked found => ⟨fun busy => ?busy, fun done dma => ?dmaStops, fun done stage tile => ?stageStops⟩⟩
  case staged =>
    refine .of_act (exec_engineTakeJob e s) clocked ?_
    simp only [free, on, Option.isSome_none, Bool.not_true, Bool.or_self, Bool.false_eq_true, if_false, staged]
  case dma =>
    refine .of_act (exec_engineTakeJob e s) clocked ?_
    simp only [free, on, Option.isSome_none, Bool.not_true, Bool.or_self, Bool.false_eq_true, if_false, unstaged,
      Nat.not_le.mpr room, next]
  case full =>
    refine .of_act (exec_engineTakeJob e s) clocked ?_
    simp only [free, on, Option.isSome_none, Bool.not_true, Bool.or_self, Bool.false_eq_true, if_false, unstaged, full,
      if_true]
  case busy =>
    refine .of_act (exec_jobStop e s) clocked ?_
    simp only [found, busy, Bool.not_false, if_true]
  case dmaStops =>
    refine .of_act (exec_jobStop e s) clocked ?_
    simp only [found, done, dma, Bool.not_true, Bool.false_eq_true, if_false]
  case stageStops =>
    refine .of_act (exec_jobStop e s) clocked ?_
    simp only [found, done, stage, Bool.not_true, Bool.false_eq_true, if_false, if_true, Dev.stopStageJob,
      Nat.not_le.mpr tile, Dev.jobResults_freeEngine]
  · have faulty := gives_work (fault := true) clocked found busy calm (if_pos rfl)
    have works {d : Dev} (h : (if x.job.stageJob then s.dev.workStage x else s.dev.workDma x) = d) :=
      gives_work (fault := false) clocked found busy calm ((if_neg Bool.false_ne_true).trans h)
    refine ⟨faulty.1, faulty.2, fun op stage => ⟨fun fits decomp => ?fits, fun long decomp => ?long⟩,
      fun op stage => ?compress, fun dma => ?_⟩
    case fits => exact (works ((if_pos stage).trans (Dev.workStage_fits decomp fits))).1 op
    case long => exact (works ((if_pos stage).trans (Dev.workStage_long decomp long))).1 op
    case compress =>
      have comp : x.job.op = 1 := (if_pos stage).symm.trans op
      exact (works ((if_pos stage).trans (Dev.workStage_compress comp))).2 op
    · have worksDma {d : Dev} (h : s.dev.workDma x = d) := works ((if_neg (by rw [dma]; exact Bool.false_ne_true)).trans h)
      refine ⟨fun bad => ?invalid, fun valid away => ?context, fun valid inPod none => ?part,
        fun t valid inPod part => ⟨fun away => ?outside, fun inside device => ?runs⟩⟩
      case invalid =>
        refine worksDma ?_
        simp only [Dev.workDma_eq, bad, Bool.not_false, if_true]
      case context =>
        refine worksDma ?_
        simp only [Dev.workDma_eq, valid, away, Bool.not_false, Bool.not_true, Bool.false_eq_true, if_false, if_true]
      case part =>
        refine worksDma ?_
        simp only [Dev.workDma_eq, valid, inPod, none, Bool.not_true, Bool.false_eq_true, if_false]
      case outside =>
        refine worksDma ?_
        simp only [Dev.workDma_eq, valid, inPod, part, away, Bool.not_false, Bool.not_true, Bool.false_eq_true, if_false,
          if_true]
      case runs =>
        refine worksDma ?_
        simp only [Dev.workDma_eq, valid, inPod, part, inside, device, Bool.not_true, Bool.false_eq_true, if_false]

end Sys2Proof.Machine

/-! Settling O44: enabling a ring, its doorbell, pushes, fetches and holdoff. -/

namespace Sys2Proof.Machine

/-! ### Registers of one index -/

/-- Two fields of the register blocks of one index lie in different registers, or in different bits of one. -/
def Fld.apart (f g : Fld) : Bool :=
  if g.kind = f.kind then decide (g.lo + g.width ≤ 64 ∧ (g.lo + g.width ≤ f.lo ∨ f.lo + f.width ≤ g.lo))
  else decide (g.kind.geom.1 ≠ f.kind.geom.1 ∧ g.kind.geom.2.1 = f.kind.geom.2.1 ∧
    g.kind.geom.2.2.2.1 = f.kind.geom.2.2.2.1)

theorem Dev.get_put_apart (d : Dev) {f g : Fld} (apart : f.apart g = true) (v i j : Nat) :
    (d.put f v i j).get g i j = d.get g i j := by
  rw [Fld.apart] at apart
  split at apart
  next same =>
    obtain ⟨inside, bits⟩ := of_decide_eq_true apart
    exact Dev.get_put_field d f g v i j same inside bits
  next =>
    obtain ⟨base, outer, inner⟩ := of_decide_eq_true apart
    refine Dev.get_put_ne d f g v i j i j fun same => base ?_
    simp only [RegRef.addr, outer, inner] at same
    omega

/-- The registers of the work rings lie apart from those that reports and memory traffic write. -/
theorem RegRef.quiet_ring {k : RegKind} {n : Nat} (low : 0xa0000 ≤ k.geom.1) (high : k.geom.1 < 0xa0080)
    (stride : k.geom.2.1 = 0x80) (inside : n < 1024) : RegRef.Quiet ⟨k, n, 0⟩ := by
  have away : ∀ k ∈ noisyKinds, ∀ i < k.instances,
      RegRef.addr ⟨k, i, 0⟩ < 0xa0000 ∨ 0xc0080 ≤ RegRef.addr ⟨k, i, 0⟩ := by decide +kernel
  intro noisy mem i lt same
  have := away noisy mem i lt
  have addr : RegRef.addr ⟨k, n, 0⟩ = k.geom.1 + 0x80 * n := by simp only [RegRef.addr, stride, Nat.mul_zero, Nat.add_zero]
  omega

/-! ### Enabling -/

section start
variable {d : Dev} {n : Nat}

/-- The device of an enabled ring that starts (R302, R313). -/
def Dev.ringStarted (d : Dev) (n : Nat) : Dev :=
  let d := (d.put F.RNG_CFG_EN 1 n).put F.RNG_DB_TAIL 0 n
  let d := ((d.put F.RNG_HEAD_FETCH 0 n).put F.RNG_HEAD_DONE 0 n).put F.RNG_HEAD_PHASE 0 n
  let d := (d.put F.RNG_STATUS_CAUSE 0 n).put F.RNG_STATUS_ERR_INDEX 0 n
  { d.put F.RNG_STATUS_STATE 1 n with pushed := d.pushed.filter fun x => x.1 != n }

theorem Dev.ringStart_started (owned : d.get F.RNG_OWNER_ASSIGNED n = 1) (reach : d.ringHost n = true ∨ d.ringInPod n = true) :
    d.ringStart n = d.ringStarted n := by
  refine (if_neg (by rw [owned]; decide)).trans (if_neg ?_)
  rcases reach with host | inPod
  · simp [host]
  · simp [inPod]

theorem Dev.ringStart_refused (owned : d.get F.RNG_OWNER_ASSIGNED n = 1) (device : d.ringHost n = false)
    (away : d.ringInPod n = false) : d.ringStart n = d.violation (d.ringPod n) 0 :=
  (if_neg (by rw [owned]; decide)).trans (if_pos (by rw [device, away]; rfl))

theorem Dev.get_withPushed (d : Dev) (pushed : List (Nat × Nat × List Byte)) (f : Fld) (i j : Nat) :
    Dev.get { d with pushed := pushed } f i j = d.get f i j := Dev.get_congr rfl _ _ _

variable (d n)

theorem Dev.en_ringStarted : (d.ringStarted n).get F.RNG_CFG_EN n = 1 := by
  simp (disch := decide) only [Dev.ringStarted, Dev.get_withPushed, Dev.get_put_apart]
  exact Dev.get_put_of_lt _ _ _ (by decide) (by decide)

theorem Dev.ringState_ringStarted : (d.ringStarted n).ringState n = 1 := by
  simp only [Dev.ringState, Dev.ringStarted, Dev.get_withPushed]
  exact Dev.get_put_of_lt _ _ _ (by decide) (by decide)

theorem Dev.ringTail_ringStarted : (d.ringStarted n).ringTail n = 0 := by
  have tail : (d.ringStarted n).get F.RNG_DB_TAIL n = 0 := by
    simp (disch := decide) only [Dev.ringStarted, Dev.get_withPushed, Dev.get_put_apart]
    exact Dev.get_put_of_lt _ _ _ (by decide) (by decide)
  rw [Dev.ringTail, tail, Nat.zero_mod]

theorem Dev.ringFetch_ringStarted : (d.ringStarted n).ringFetch n = 0 := by
  simp (disch := decide) only [Dev.ringFetch, Dev.ringStarted, Dev.get_withPushed, Dev.get_put_apart]
  exact Dev.get_put_of_lt _ _ _ (by decide) (by decide)

theorem Dev.ringDone_ringStarted : (d.ringStarted n).ringDone n = 0 := by
  simp (disch := decide) only [Dev.ringDone, Dev.ringStarted, Dev.get_withPushed, Dev.get_put_apart]
  exact Dev.get_put_of_lt _ _ _ (by decide) (by decide)

theorem Dev.cause_ringStarted : (d.ringStarted n).get F.RNG_STATUS_CAUSE n = 0 := by
  simp (disch := decide) only [Dev.ringStarted, Dev.get_withPushed, Dev.get_put_apart]
  exact Dev.get_put_of_lt _ _ _ (by decide) (by decide)

theorem Dev.mem_ringStarted : (d.ringStarted n).mem = d.mem := by
  simp only [Dev.ringStarted, Dev.put_mem]

theorem Dev.runs_ringStarted : (d.ringStarted n).runs = d.runs := by
  simp only [Dev.ringStarted, Dev.put_runs]

end start

/-! ### The commands -/

theorem Dev.ringCfgWrite_start {d : Dev} {n v : Nat} (off : d.ringState n = 0) (en : fieldIn F.RNG_CFG_EN v = 1) :
    d.ringCfgWrite n v false = Dev.ringStart (d.wr ⟨.RNG_CFG, n, 0⟩
      (regAfter RegKind.RNG_CFG.fields (d.rd ⟨.RNG_CFG, n, 0⟩) (setBits v 0 1 0) false false)) n :=
  (if_neg (fun h => h off)).trans (if_pos (by rw [en]; rfl))

theorem Dev.ringDbWrite_stopped {d : Dev} {n v : Nat} (stopped : 3 ≤ d.leaveP1.ringState n) :
    d.ringDbWrite n v = d.leaveP1 := by
  simp only [Dev.ringDbWrite]
  split
  · omega
  · omega
  · omega
  · rfl

theorem Dev.ringDbWrite_runs {d : Dev} {n v : Nat} (runs : d.leaveP1.ringState n = 1 ∨ d.leaveP1.ringState n = 2) :
    d.ringDbWrite n v = d.leaveP1.moveTail n (fieldIn F.RNG_DB_TAIL v % d.leaveP1.ringSize n) := by
  rcases runs with idle | active
  · simp only [Dev.ringDbWrite, idle]
  · simp only [Dev.ringDbWrite, active]

/-- The ring of device memory is read at its home (R293, R306). -/
theorem Dev.fetchEntry_device {d : Dev} {n : Nat} (device : d.ringHost n = false) (poisoned : Bool) :
    d.fetchEntry n poisoned =
      (let a := d.ringAddr n (d.ringFetch n)
       let seen := d.ioRead (d.localForm a) 64
       if poisoned || (!seen.ringHost n && seen.poisonAt (seen.localForm a) != .clean) then seen.fetchFault n
       else seen.takeEntry n (seen.ringLoad (seen.ringHost n) (seen.ringPasid n) a 64)) := by
  simp only [Dev.fetchEntry, device, Dev.ringReach, Dev.ringSeen, Bool.false_eq_true, if_false]

/-- Reading the entry does not change where the ring lies. -/
theorem Dev.ringHost_ioRead (d : Dev) (n : Fin 1024) (a k : Nat) : (d.ioRead a k).ringHost n.val = d.ringHost n.val := by
  rw [Dev.ringHost, Dev.ringHost, (d.hushed_ioRead a k false).get F.RNG_CFG_HOST n.val 0
    (RegRef.quiet_ring (by decide) (by decide) rfl n.isLt)]

/-- A whole entry that the host pushes through BAR0 reaches its ring. -/
theorem Dev.push_whole {d : Dev} {n : Nat} {e : List Byte} (whole : e.length = 64) :
    (if !entryOk e then d.regError (RegRef.addr ⟨.RNG_PUSH, n, 0⟩) (windowPod .bar0)
      else if d.reaches .bar0 ⟨.RNG_PUSH, n, 0⟩ then d.ringPush n e
      else d.refuseAccess .bar0 ⟨.RNG_PUSH, n, 0⟩) = d.ringPush n e := by
  have line : entryOk e = true := by simpa [entryOk] using whole
  rw [line]
  rfl

/-- Settles O44: the state of the ring, and what its memory holds at FETCH, choose the branch of each command. -/
theorem ringCommands : Obligations.RingCommands := by
  unfold Obligations.RingCommands
  refine ⟨fun s n v clocked => ⟨⟨fun on => ?on, fun off en owned => ⟨fun reach => ?starts, fun device away => ?refused⟩⟩,
      ⟨fun off => ?doorOff, fun runs => ?doorRuns, fun stopped => ?doorStopped⟩⟩,
    fun s n e clocked whole => ⟨fun runs => ⟨fun full => ?pushFull, fun room => ?pushRoom⟩, fun stopped => ?pushStopped⟩,
    fun s n clocked may => ⟨fun x b held => ?held, fun none device => ⟨?poisonedNow, fun marked => ?marked, fun clean still => ?taken⟩⟩,
    fun s n h clocked found => ⟨fun quiet => ?quiet, fun wants => ?wants⟩⟩
  case on =>
    refine .of_act (exec_ringEnable n ⟨.bar0, .full, v⟩ s) clocked ?_
    rw [Dev.access_bar0_full (show RegKind.RNG_CFG ≠ .RNG_PUSH by decide)]
    exact if_pos on
  case starts =>
    have gives : Gives (.ringEnable n ⟨.bar0, .full, v⟩) s (Dev.ringStarted _ n.val) :=
      .of_act (exec_ringEnable n ⟨.bar0, .full, v⟩ s) clocked
        ((Dev.access_bar0_full (show RegKind.RNG_CFG ≠ .RNG_PUSH by decide) _ _ _).trans
          ((Dev.ringCfgWrite_start off en).trans (Dev.ringStart_started owned reach)))
    exact ⟨_, gives, Dev.en_ringStarted _ _, Dev.ringState_ringStarted _ _, Dev.ringTail_ringStarted _ _,
      Dev.ringFetch_ringStarted _ _, Dev.ringDone_ringStarted _ _, Dev.cause_ringStarted _ _,
      (Dev.mem_ringStarted _ _).trans (Dev.wr_mem _ _ _), (Dev.runs_ringStarted _ _).trans (Dev.wr_runs _ _ _)⟩
  case refused =>
    refine .of_act (exec_ringEnable n ⟨.bar0, .full, v⟩ s) clocked ?_
    rw [Dev.access_bar0_full (show RegKind.RNG_CFG ≠ .RNG_PUSH by decide)]
    exact (Dev.ringCfgWrite_start off en).trans (Dev.ringStart_refused owned device away)
  case doorOff =>
    refine .of_act (exec_ringDoorbell n ⟨.bar0, .full, v⟩ s) clocked ?_
    rw [Dev.access_bar0_full (show RegKind.RNG_DB ≠ .RNG_PUSH by decide)]
    simp only [Dev.ringDbWrite, off]
  case doorRuns =>
    refine .of_act (exec_ringDoorbell n ⟨.bar0, .full, v⟩ s) clocked ?_
    rw [Dev.access_bar0_full (show RegKind.RNG_DB ≠ .RNG_PUSH by decide)]
    exact Dev.ringDbWrite_runs runs
  case doorStopped =>
    refine .of_act (exec_ringDoorbell n ⟨.bar0, .full, v⟩ s) clocked ?_
    rw [Dev.access_bar0_full (show RegKind.RNG_DB ≠ .RNG_PUSH by decide)]
    exact Dev.ringDbWrite_stopped stopped
  case pushFull =>
    refine .of_act (exec_ringPush n .bar0 e s) clocked ((Dev.push_whole whole).trans ?_)
    exact (if_pos runs).trans (if_pos full)
  case pushRoom =>
    refine .of_act (exec_ringPush n .bar0 e s) clocked ((Dev.push_whole whole).trans ?_)
    exact (if_pos runs).trans (if_neg room)
  case pushStopped =>
    refine .of_act (exec_ringPush n .bar0 e s) clocked ((Dev.push_whole whole).trans ?_)
    exact if_neg (by omega)
  case held =>
    refine .of_act (exec_entryFetch n b s) clocked ?_
    simp only [may, Bool.not_true, Bool.false_eq_true, if_false, held]
  case poisonedNow =>
    refine .of_act (exec_entryFetch n true s) clocked ?_
    simp only [may, Bool.not_true, Bool.false_eq_true, if_false, none, Dev.fetchEntry_device device, Bool.true_or, if_true]
    rfl
  case marked =>
    refine .of_act (exec_entryFetch n false s) clocked ?_
    simp only [may, Bool.not_true, Bool.false_eq_true, if_false, none, Dev.fetchEntry_device device, Bool.false_or,
      Dev.ringHost_ioRead, device, Bool.not_false, Bool.true_and, bne_iff_ne, marked, ne_eq, not_false_eq_true, if_true]
    rfl
  case taken =>
    refine .of_act (exec_entryFetch n false s) clocked ?_
    simp only [may, Bool.not_true, Bool.false_eq_true, if_false, none, Dev.fetchEntry_device device, Bool.false_or, still,
      Bool.not_false, Bool.true_and, clean, bne_self_eq_false, Dev.ringLoad]
  case quiet =>
    refine .of_act (exec_holdoffExpiry n s) clocked ?_
    simp only [Dev.endHoldoff, found, quiet, Bool.false_eq_true, if_false]
  case wants =>
    refine .of_act (exec_holdoffExpiry n s) clocked ?_
    simp only [Dev.endHoldoff, found, wants, if_true]

end Sys2Proof.Machine

/-! Settling O45: what each entry of a ring comes to. -/

namespace Sys2Proof.Machine

section entry
variable {d : Dev} {r : Run}

/-- The run that is found stands under its own ring and index. -/
theorem Dev.findRun_own {ring index : Nat} (found : d.findRun ring index = some r) : d.findRun r.ring r.index = some r := by
  have here := List.find?_some found
  simp only [Bool.and_eq_true, beq_iff_eq] at here
  obtain ⟨rfl, rfl⟩ := here
  exact found

/-! ### RUN -/

theorem Dev.runEntry_fenced (fenced : d.podFenced r.pod = true) :
    d.runEntry r = d.takeFree.2.failEntry r ⟨0xF2, d.takeFree.1.toNat % 256⟩ :=
  if_pos fenced

theorem Dev.runEntry_program {m : Image} (free : d.podFenced r.pod = false) (valid : d.program r.pod r.handle = .ok m) :
    d.runEntry r = d.submit r m (d.resident r.pod r.handle).isSome := by
  simp only [Dev.runEntry, free, Bool.false_eq_true, if_false, valid]

theorem Dev.runEntry_error {f : Fail} (free : d.podFenced r.pod = false) (bad : d.program r.pod r.handle = .error f) :
    d.runEntry r = (if f.status = 0x10 then d else d.countInvalid r.pod).failEntry r f := by
  simp only [Dev.runEntry, free, Bool.false_eq_true, if_false, bad]

/-! ### CONVERT -/

theorem Dev.convertRead_outside {n : Nat} (device : r.flag 2 = false) (outside : d.inPod r.pod r.paramAddr n = false) :
    d.convertRead r n = .fail d addrFault := by
  simp only [Dev.convertRead, device, outside, Bool.false_eq_true, if_false, Bool.not_false, if_true]

theorem Dev.convertRead_poisoned {n a : Nat} (device : r.flag 2 = false) (inside : d.inPod r.pod r.paramAddr n = true)
    (same : (d.ioRead (d.localForm r.paramAddr) n).localForm r.paramAddr = a)
    (marked : (d.ioRead (d.localForm r.paramAddr) n).poisonIn a n ≠ .clean) :
    d.convertRead r n = .fail (d.ioRead (d.localForm r.paramAddr) n)
      (poisonFail ((d.ioRead (d.localForm r.paramAddr) n).poisonIn a n)) := by
  simp only [Dev.convertRead, device, inside, Bool.false_eq_true, if_false, Bool.not_true, same]

theorem Dev.convertEntry_fail {e : Dev} {f : Fail} (read : d.convertRead r 64 = .fail e f) :
    d.convertEntry r = e.failEntry r f := by
  simp only [Dev.convertEntry, read]

section header
variable {one two : Dev} {h b : List Byte} (first : d.convertRead r 64 = .ok one h)
  (second : one.convertRead r (roundUp (32 + 32 * min (fieldAt h 4 2) 8) 64) = .ok two b)
include first second

theorem Dev.convertEntry_badHeader (bad : batchHeader b = none) : d.convertEntry r = two.failEntry r badBatch := by
  simp only [Dev.convertEntry, first, second, bad]

theorem Dev.convertEntry_batch {fs : List ArrowDesc} {len : Nat} {e : Dev} {bs : List Byte}
    (good : batchHeader b = some (fs, len)) (third : two.convertRead r len = .ok e bs) :
    d.convertEntry r = e.convertBatch r fs bs := by
  simp only [Dev.convertEntry, first, second, good, third]

end header

/-! ### Completions -/

theorem Dev.writeHeader_other (other : r.kind ≠ 1) : d.writeHeader r = .done d := by
  simp only [Dev.writeHeader, other, false_and, if_false]

theorem Dev.writeCompletion_device (device : d.ringHost r.ring = false) :
    d.writeCompletion r =
      (d.ioStore (d.localForm (d.ringAddr r.ring r.index)) (d.completionBytes r)).completed r := by
  simp only [Dev.writeCompletion, Dev.ringReach, Dev.ringStore, device, Bool.false_eq_true, if_false]

end entry

/-- Settles O45: the entry that the command names is found, and its state and its pod's choose the branch. -/
theorem entryCommands : Obligations.EntryCommands := by
  unfold Obligations.EntryCommands
  intro s q r clocked found
  refine ⟨fun fetched nop turn => ?nop, fun fetched nop early => ?nopWaits,
    fun fetched run next active => ⟨fun fenced => ?fenced, fun free =>
      ⟨fun m valid => ?submits, fun f bad unknown => ?unknown, fun f bad other => ?invalid⟩⟩,
    fun fetched conv next active runs device => ⟨fun outside => ?outside, fun inside =>
      ⟨fun marked same => ?marked, fun two h fs len e b first second => ⟨fun bad => ?badHeader, fun bs good third => ?batch⟩⟩⟩,
    fun limited fine open_ active => ⟨fun unplaced => ?entryTimes, fun placed busy => ?runTimes⟩, fun unlimited => ?noLimit,
    fun turn ended unwritten other device => ?completes, fun early => ?early⟩
  case nop =>
    refine .of_act (exec_nop q s) clocked ?_
    simp only [found, fetched, nop, ← turn, beq_self_eq_true, Bool.and_self, if_true]
  case nopWaits =>
    refine .of_act (exec_nop q s) clocked ?_
    simp only [found, beq_eq_false_iff_ne.mpr early, Bool.and_false, Bool.false_eq_true, if_false]
  case fenced =>
    refine .of_act (exec_run q s) clocked ?_
    simp only [found, fetched, run, next, active, beq_self_eq_true, Bool.and_self, if_true]
    exact Dev.runEntry_fenced fenced
  case submits =>
    refine .of_act (exec_run q s) clocked ?_
    simp only [found, fetched, run, next, active, beq_self_eq_true, Bool.and_self, if_true]
    exact Dev.runEntry_program free valid
  case unknown =>
    refine .of_act (exec_run q s) clocked ?_
    simp only [found, fetched, run, next, active, beq_self_eq_true, Bool.and_self, if_true]
    rw [Dev.runEntry_error free bad, if_pos unknown]
  case invalid =>
    refine .of_act (exec_run q s) clocked ?_
    simp only [found, fetched, run, next, active, beq_self_eq_true, Bool.and_self, if_true]
    rw [Dev.runEntry_error free bad, if_neg other]
  case outside =>
    refine .of_act (exec_convert q s) clocked ?_
    simp only [found, fetched, conv, next, active, runs, beq_self_eq_true, Bool.and_self, Bool.not_false, if_true]
    exact Dev.convertEntry_fail (Dev.convertRead_outside device outside)
  case marked =>
    refine .of_act (exec_convert q s) clocked ?_
    simp only [found, fetched, conv, next, active, runs, beq_self_eq_true, Bool.and_self, Bool.not_false, if_true]
    exact Dev.convertEntry_fail (Dev.convertRead_poisoned device inside same marked)
  case badHeader =>
    refine .of_act (exec_convert q s) clocked ?_
    simp only [found, fetched, conv, next, active, runs, beq_self_eq_true, Bool.and_self, Bool.not_false, if_true]
    exact Dev.convertEntry_badHeader first second bad
  case batch =>
    refine .of_act (exec_convert q s) clocked ?_
    simp only [found, fetched, conv, next, active, runs, beq_self_eq_true, Bool.and_self, Bool.not_false, if_true]
    exact Dev.convertEntry_batch first second good third
  case entryTimes =>
    refine .of_act (exec_runTimeout q s) clocked ?_
    simp only [found, beq_eq_false_iff_ne.mpr limited, fine, beq_eq_false_iff_ne.mpr open_, active, unplaced,
      Option.isSome_none, bne_self_eq_false, Bool.false_and, Bool.or_self, Bool.false_eq_true, if_false]
  case runTimes =>
    refine .of_act (exec_runTimeout q s) clocked ?_
    simp only [found, beq_eq_false_iff_ne.mpr limited, fine, beq_eq_false_iff_ne.mpr open_, active, placed, busy,
      Option.isSome_none, bne_self_eq_false, Bool.true_and, Bool.or_self, Bool.false_eq_true, if_false, if_true]
  case noLimit =>
    refine .of_act (exec_runTimeout q s) clocked ?_
    simp only [found, unlimited, beq_self_eq_true, Bool.true_or, if_true]
  case completes =>
    refine .of_act (exec_completionWrite q s) clocked ?_
    simp only [found, ← turn, ended, unwritten, bne_self_eq_false, Bool.not_true, Bool.or_self, Bool.false_eq_true, if_false,
      Dev.writeHeader_other other, Dev.findRun_own found, Dev.writeCompletion_device device]
  case early =>
    refine .of_act (exec_completionWrite q s) clocked ?_
    simp only [found, bne_iff_ne.mpr early, Bool.true_or, if_true]

end Sys2Proof.Machine

/-! Settling O47: every stage command is one turn of `Dev.stage`. -/

namespace Sys2Proof.Machine

/-- An activation works on the device that it was found in. -/
theorem Dev.d_actOf {d : Dev} {w : StageRef} {a : Act} (found : d.actOf w = some a) : a.d = d := by
  simp only [Dev.actOf, Option.bind_eq_some_iff] at found
  obtain ⟨i, -, r, -, p, -, st, -, found⟩ := found
  split at found
  · cases found
    rfl
  · cases found

section turn
variable {d : Dev} {w : StageRef} {a : Act} {opc : Nat} {ok : Nat → Bool} {turn : Act → List (Nat × Block) × Turn}
  (found : d.actOf w = some a)
include found

theorem Dev.stage_other (other : ¬(swOp a.w = opc ∧ ok a.w = true)) : d.stage w opc ok turn = d := by
  simp only [Dev.stage, found, other, if_false]

variable (op : swOp a.w = opc) (may : ok a.w = true)
include op may

theorem Dev.stage_directoryLost (lost : (d.errs.jdrLost && joinStage a.w) = true) :
    d.stage w opc ok turn = d.failInst a.i a.n ⟨0xF2, 0x09⟩ 0 0 := by
  simp only [Dev.stage, found, op, may, and_self, if_true, lost]

variable (there : (d.errs.jdrLost && joinStage a.w) = false)
include there

theorem Dev.stage_slotBad (bad : a.slotBad = true) :
    d.stage w opc ok turn = (d.bump16 F.TIL_TS_ECC_UE_COUNT a.i.tile).failInst a.i a.n ⟨0xF0, 0x02⟩ 0 0 := by
  simp only [Dev.stage, found, op, may, and_self, if_true, there, Bool.false_eq_true, if_false, bad]
  rfl

theorem Dev.stage_closes (good : a.slotBad = false) (calm : d.get F.ERR_INJ_ARMED = 0) :
    d.stage w opc ok turn = a.applyK.close w.act.toNat (turn a.applyK).1 (turn a.applyK).2 := by
  have same : a.applyK.d = d := (show a.applyK.d = a.d from rfl).trans (Dev.d_actOf found)
  have unarmed : a.applyK.d.get F.ERR_INJ_ARMED = 0 := by rw [same, calm]
  simp only [Dev.stage, found, op, may, and_self, if_true, there, Bool.false_eq_true, if_false, good,
    Act.armedBit_off unarmed, Act.injected_off unarmed]

end turn

/-- A command that works a turn of its stage. -/
theorem stageTurns_of_exec {c : StageRef → Instr} {opc : Nat} {ok : Nat → Bool} {turn : Act → List (Nat × Block) × Turn}
    (runs : ∀ w s, exec (c w) s = s.act fun d => d.stage w opc ok turn) : StageTurns c opc ok turn := by
  intro s w clocked
  refine ⟨fun none => .of_act (runs w s) clocked ?_, fun a found => ⟨fun other => ?_, fun op may lost => ?_,
    fun op may there bad => ?_, fun op may there good calm => ?_⟩⟩
  · simp only [Dev.stage, none]
  · exact .of_act (runs w s) clocked (Dev.stage_other found other)
  · exact .of_act (runs w s) clocked (Dev.stage_directoryLost found op may lost)
  · exact .of_act (runs w s) clocked (Dev.stage_slotBad found op may there bad)
  · exact .of_act (runs w s) clocked (Dev.stage_closes found op may there good calm)

/-- Settles O47: each command is `Dev.stage` of its opcode and turn (`stageTurns_of_exec`). -/
theorem stageCommands : Obligations.StageCommands :=
  ⟨stageTurns_of_exec exec_scan, stageTurns_of_exec exec_skip, stageTurns_of_exec exec_decode,
    stageTurns_of_exec exec_filter, stageTurns_of_exec exec_compute, stageTurns_of_exec exec_compact,
    stageTurns_of_exec exec_hash, stageTurns_of_exec exec_build, stageTurns_of_exec exec_probe, stageTurns_of_exec exec_agg,
    stageTurns_of_exec exec_part, stageTurns_of_exec exec_spill, stageTurns_of_exec exec_sortrun,
    stageTurns_of_exec exec_mergeRuns, stageTurns_of_exec exec_mergeRegions, stageTurns_of_exec exec_topk,
    stageTurns_of_exec exec_lookup, stageTurns_of_exec exec_emit, stageTurns_of_exec exec_limit,
    stageTurns_of_exec exec_yieldStage, stageTurns_of_exec exec_exchange, stageTurns_of_exec exec_rangeFloor,
    stageTurns_of_exec exec_rangeExact, stageTurns_of_exec exec_rangeCover, stageTurns_of_exec exec_rangeInsert,
    stageTurns_of_exec exec_rangeDelete, stageTurns_of_exec exec_bloomset, stageTurns_of_exec exec_bloomtest⟩

end Sys2Proof.Machine

/-! Settling O48: the turns of a stage that reads streams. -/

namespace Sys2Proof.Machine

/-! ### A turn -/

section turn
variable {a : Act} {whole : Bool} {body : Act → List (Nat × Block) → Turn} {final : Act → Turn} {bs : List (Nat × Block)}

/-- With a block at every input, the turn is about these blocks. -/
theorem Act.streamTurn_blocks (blocks : (a.ins.map fun v => (a.inBlock v).map fun b => (v, b)) = bs.map some) :
    a.streamTurn whole body final =
      match a.accept bs with
      | none => (bs, .fail a ⟨0x25, 0⟩ ((bs.head?.map fun x => x.2.seq).getD 0) 0)
      | some b =>
        if !aligned bs then (bs, .fail b ⟨0x23, 0⟩ ((bs.head?.map fun x => x.2.seq).getD 0) 0)
        else if !a.writersDone then (bs, .hold)
        else if whole && !a.outRoom then (bs, .stall)
        else (bs, body (b.lookDicts bs) bs) := by
  have there : ((a.ins.map fun v => (v, a.inBlock v)).all fun x => x.2.isSome) = true := by
    have each : (a.ins.map fun v => (a.inBlock v).map fun b => (v, b)).all Option.isSome = true := by
      rw [blocks]
      simp
    simpa [List.all_map, Function.comp_def] using each
  have these : ((a.ins.map fun v => (v, a.inBlock v)).filterMap fun x => x.2.map fun b => (x.1, b)) = bs := calc
    _ = (a.ins.map fun v => (a.inBlock v).map fun b => (v, b)).filterMap id := by
      rw [List.filterMap_map, List.filterMap_map]
      rfl
    _ = bs := by
      rw [blocks, List.filterMap_map]
      exact List.filterMap_some
  simp only [Act.streamTurn, there, if_true, these] <;> rfl

/-- With a block missing, the turn depends on the inputs that have ended. -/
theorem Act.streamTurn_missing (missing : ∃ v ∈ a.ins, a.inBlock v = none) :
    a.streamTurn whole body final =
      if a.ins.all fun v => a.inEnded v then ([], final a)
      else if (a.ins.any fun v => (a.inBlock v).isSome) && (a.ins.any fun v => (a.inBlock v).isNone && a.inEnded v) then
        ([], .fail a ⟨0x23, 0⟩ 0 0)
      else ([], .hold) := by
  have gap : ((a.ins.map fun v => (v, a.inBlock v)).all fun x => x.2.isSome) = false := by
    obtain ⟨v, mem, none⟩ := missing
    rw [List.all_map, List.all_eq_false]
    exact ⟨v, mem, by simp [none]⟩
  simp only [Act.streamTurn, gap, Bool.false_eq_true, if_false, List.any_map, Function.comp_def]

end turn

/-! ### The last turn of a command -/

/-- What the stage at the end of its inputs is. -/
theorem Dev.endAt_eq {d : Dev} {w : StageRef} {opc : Nat} {a : Act} (h : d.endAt w opc = some a) :
    d.turnAt w opc = some a ∧ (a.ins.any fun v => (a.inBlock v).isNone) = true ∧ a.ins.all a.inEnded = true := by
  rw [Dev.endAt, Option.filter_eq_some_iff, Bool.and_eq_true] at h
  obtain ⟨turn, none, ended⟩ := h
  exact ⟨turn, none, ended⟩

/-- A stage command whose last turn leaves the stage as it then stands. -/
theorem gives_lastTurn {c : Instr} {s : State} {w : StageRef} {opc : Nat} {a b : Act} {ok : Nat → Bool}
    {turn : Act → List (Nat × Block) × Turn} (runs : exec c s = s.act fun d => d.stage w opc ok turn)
    (clocked : s.dev.clocked) (ends : s.dev.endAt w opc = some a) (may : ok a.w = true) (last : turn a = ([], .quiet b)) :
    Gives c s b.commit := by
  obtain ⟨at_, -, -⟩ := Dev.endAt_eq ends
  have gives := gives_turn runs clocked at_ may
  rw [last] at gives
  exact gives

/-- The last turn of a stage that reads streams. -/
theorem Dev.streamTurn_endAt {d : Dev} {w : StageRef} {opc : Nat} {a : Act} (ends : d.endAt w opc = some a)
    (whole : Bool) (body : Act → List (Nat × Block) → Turn) (final : Act → Turn) :
    a.streamTurn whole body final = ([], final a) := by
  obtain ⟨-, none, ended⟩ := Dev.endAt_eq ends
  exact Act.streamTurn_end none ended whole body final

theorem limitTurn_streams {a : Act} (counts : limitCount a.w ≠ 0) :
    limitTurn a = a.streamTurn true limitBody endStage :=
  if_neg counts

theorem probeFinal_ends {a : Act} (unspilled : a.jst ≠ 5) (replayed : a.jst ≠ 6) : probeFinal a = .quiet a.finish :=
  if_neg (by simp [unspilled, replayed])

/-- Settles O48: a turn by its blocks (`Act.streamTurn_blocks`) or by the inputs that have none
(`Act.streamTurn_missing`), and the last turn of each command. -/
theorem streamTurns : Obligations.StreamTurns := by
  unfold Obligations.StreamTurns
  refine ⟨fun a whole body final bs => ⟨fun blocks => ⟨fun stale => ?stale, fun b accepts =>
      ⟨fun differ => ?differ, fun same waits => ?waits, fun same written wants full => ?full,
        fun same written room => ?works⟩⟩,
      fun missing ended => ?ended, fun ended open_ some => ?mixed, fun missing running => ?holds⟩,
    fun s w a clocked => ?_⟩
  case stale => simp only [Act.streamTurn_blocks blocks, stale]
  case differ => simp only [Act.streamTurn_blocks blocks, accepts, differ, Bool.not_false, if_true]
  case waits =>
    simp only [Act.streamTurn_blocks blocks, accepts, same, waits, Bool.not_true, Bool.false_eq_true, if_false,
      Bool.not_false, if_true]
  case full =>
    simp only [Act.streamTurn_blocks blocks, accepts, same, written, wants, full, Bool.not_true, Bool.false_eq_true,
      if_false, Bool.not_false, Bool.and_self, if_true]
  case works =>
    have open_ : ¬(whole && !a.outRoom) = true := by
      cases whole
      · exact Bool.false_ne_true
      · rw [room rfl]
        exact Bool.false_ne_true
    simp only [Act.streamTurn_blocks blocks, accepts, same, written, Bool.not_true, Bool.false_eq_true, if_false, open_]
  case ended =>
    rw [Act.streamTurn_missing missing, if_pos (List.all_eq_true.mpr ended)]
  case mixed =>
    obtain ⟨v, mem, none, past⟩ := ended
    obtain ⟨u, memU, runs⟩ := open_
    obtain ⟨x, memX, block⟩ := some
    rw [Act.streamTurn_missing ⟨v, mem, none⟩, if_neg, if_pos]
    · rw [Bool.and_eq_true, List.any_eq_true, List.any_eq_true]
      exact ⟨⟨x, memX, block⟩, v, mem, by simp [none, past]⟩
    · rw [List.all_eq_true]
      intro all
      exact Bool.false_ne_true (runs.symm.trans (all u memU))
  case holds =>
    obtain ⟨v, mem, none⟩ := missing
    rw [Act.streamTurn_missing ⟨v, mem, none⟩, if_neg, if_neg]
    · rw [Bool.and_eq_true, List.any_eq_true, List.any_eq_true]
      rintro ⟨-, u, memU, past⟩
      simp [running u memU] at past
    · rw [List.all_eq_true]
      intro all
      exact Bool.false_ne_true ((running v mem).symm.trans (all v mem))
  · refine ⟨fun ends => gives_end (exec_skip w s) clocked ends rfl rfl, fun ends => gives_end (exec_decode w s) clocked ends rfl rfl,
      fun ends => gives_end (exec_filter w s) clocked ends rfl rfl, fun ends => gives_end (exec_compute w s) clocked ends rfl rfl,
      fun ends => gives_end (exec_compact w s) clocked ends rfl rfl, fun ends => gives_end (exec_hash w s) clocked ends rfl rfl,
      fun ends => gives_end (exec_build w s) clocked ends rfl rfl,
      fun ends => gives_lastTurn (exec_agg w s) clocked ends rfl (Dev.streamTurn_endAt ends _ _ _),
      fun ends => gives_end (exec_yieldStage w s) clocked ends rfl rfl,
      fun ends => gives_end (exec_bloomset w s) clocked ends rfl rfl,
      fun ends => gives_end (exec_bloomtest w s) clocked ends rfl rfl,
      fun counts ends => gives_lastTurn (exec_limit w s) clocked ends rfl
        ((limitTurn_streams counts).trans (Dev.streamTurn_endAt ends _ _ _)),
      fun op ends => gives_end (exec_rangeFloor w s) clocked ends (beq_iff_eq.mpr op) rfl,
      fun op ends => gives_end (exec_rangeExact w s) clocked ends (beq_iff_eq.mpr op) rfl,
      fun op ends => gives_end (exec_rangeCover w s) clocked ends (beq_iff_eq.mpr op) rfl,
      fun op ends => gives_end (exec_rangeInsert w s) clocked ends (beq_iff_eq.mpr op) rfl,
      fun op ends => gives_end (exec_rangeDelete w s) clocked ends (beq_iff_eq.mpr op) rfl,
      fun live unspilled replayed ends => gives_lastTurn (exec_probe w s) clocked ends rfl
        ((if_neg (by rw [live]; exact Bool.false_ne_true)).trans ((Dev.streamTurn_endAt ends _ _ _).trans
          (congrArg (Prod.mk []) (probeFinal_ends unspilled replayed)))),
      fun live spilled ends => gives_lastTurn (exec_probe w s) clocked ends rfl
        ((if_neg (by rw [live]; exact Bool.false_ne_true)).trans ((Dev.streamTurn_endAt ends _ _ _).trans
          (congrArg (Prod.mk []) (if_pos spilled))))⟩

end Sys2Proof.Machine

/-! Settling O49: the turns of the source stages and of the stages that work rows. -/

namespace Sys2Proof.Machine

/-! ### Turns of a command -/

section gives
variable {c : Instr} {s : State} {w : StageRef} {opc : Nat} {a b : Act} {ok : Nat → Bool}
  {turn : Act → List (Nat × Block) × Turn} (runs : exec c s = s.act fun d => d.stage w opc ok turn)
  (clocked : s.dev.clocked)
include runs clocked

/-- A turn that leaves the stage as it then stands. -/
theorem gives_quiet (here : s.dev.turnAt w opc = some a) (may : ok a.w = true) {bs : List (Nat × Block)}
    (quiet : turn a = (bs, .quiet b)) : Gives c s b.commit := by
  have gives := gives_turn runs clocked here may
  rw [quiet] at gives
  exact gives

/-- A turn that has worked a block and keeps its inputs. -/
theorem gives_worked (here : s.dev.turnAt w opc = some a) (may : ok a.w = true) {bs : List (Nat × Block)}
    (done : turn a = (bs, .done b false)) : Gives c s (b.worked w) := by
  have gives := gives_turn runs clocked here may
  rw [done] at gives
  exact gives

end gives

/-- The stage of a source command that can put a block. -/
theorem Dev.sourceAt_eq {d : Dev} {w : StageRef} {opc : Nat} {a : Act} (h : d.sourceAt w opc = some a) :
    d.turnAt w opc = some a ∧ a.i.life = .running ∧ a.outRoom = true := by
  rw [Dev.sourceAt, Option.filter_eq_some_iff, Bool.and_eq_true, beq_iff_eq] at h
  obtain ⟨turn, runs, room⟩ := h
  exact ⟨turn, runs, room⟩

/-- Blocks that the stage of a command works. -/
theorem Dev.offerAt_eq {d : Dev} {w : StageRef} {opc : Nat} {a : Act} {bs : List (Nat × Block)}
    (h : d.offerAt w opc = some (a, bs)) :
    ∃ x, d.turnAt w opc = some x ∧ x.offer = some (a, bs) ∧ x.w = a.w := by
  obtain ⟨x, here, offer⟩ := Option.bind_eq_some_iff.mp h
  exact ⟨x, here, offer, (Act.offer_w offer).symm⟩

/-! ### SCAN -/

/-- Looking something up does not touch what the stage works on. -/
structure Act.SameStage (a b : Act) : Prop where
  inst : b.i = a.i
  pipe : b.p = a.p
  stage : b.n = a.n
  state : b.st = a.st

theorem Act.SameStage.refl (a : Act) : a.SameStage a := ⟨rfl, rfl, rfl, rfl⟩

theorem Act.SameStage.trans {a b c : Act} (h : a.SameStage b) (k : b.SameStage c) : a.SameStage c :=
  ⟨k.inst.trans h.inst, k.pipe.trans h.pipe, k.stage.trans h.stage, k.state.trans h.state⟩

theorem Act.sameStage_look (a : Act) (addr n : Nat) : a.SameStage (a.look addr n) := ⟨rfl, rfl, rfl, rfl⟩

theorem Act.sameStage_lookSet (a : Act) (addr : Nat) : a.SameStage (a.lookSet addr) := by
  rw [Act.lookSet]
  split
  · exact .refl a
  · exact (a.sameStage_look _ _).trans (Act.sameStage_look _ _ _)

theorem Act.sameStage_lookSource (a : Act) : a.SameStage a.lookSource := by
  rw [Act.lookSource]
  split
  · exact .refl a
  · dsimp only
    split
    · exact (a.sameStage_look _ _).trans (Act.sameStage_lookSet _ _)
    · exact a.sameStage_lookSet _

/-- Claiming the groups of a column set changes the stage's registers only. -/
theorem Act.outRoom_claim (a : Act) (set : ColSet) : (a.claim set).outRoom = a.outRoom := by
  rw [Act.claim]
  split
  · rfl
  · rfl

theorem Act.SameStage.outRoom {a b : Act} (h : a.SameStage b) : b.outRoom = a.outRoom := by
  simp only [Act.outRoom, Act.outs, Act.w, h.inst, h.pipe, h.stage]

section scan
variable {a : Act} (runs : a.i.life = .running)
include runs

theorem scanTurn_ends (opened : a.lookSource.st.opened = true) (none : a.lookSource.st.groups = []) :
    scanTurn a = ([], .quiet a.lookSource.finish) := by
  simp only [scanTurn, a.sameStage_lookSource.inst, runs, bne_self_eq_false, Bool.false_eq_true, if_false, opened, none,
    List.isEmpty_nil, Bool.and_self, if_true]

theorem scanTurn_group {set : ColSet} {g : Nat} {gs : List Nat} (room : a.outRoom = true)
    (opens : a.lookSource.scanOpen = .ok set) (more : a.lookSource.st.opened = false ∨ a.lookSource.st.groups ≠ [])
    (next : (a.lookSource.claim set).st.groups = g :: gs) :
    scanTurn a = ([], (a.lookSource.claim set).scanGroup set g) := by
  have open_ : ¬(a.lookSource.st.opened && a.lookSource.st.groups.isEmpty) = true := by
    rcases more with closed | left
    · simp [closed]
    · simp [left]
  simp only [scanTurn, a.sameStage_lookSource.inst, runs, bne_self_eq_false, Bool.false_eq_true, if_false, open_, opens,
    Except.mapError, next, Act.outRoom_claim, a.sameStage_lookSource.outRoom, room, if_true]

end scan

section group
variable {c : Act} {set : ColSet} {g : Nat}

theorem Act.scanGroup_put (plain : swField c.w 72 = 0xFF) {e : Act} {blocks : List (List Byte × List Byte)}
    (fetched : c.fetchCols set g c.outs 0 = (e, .ok blocks)) :
    c.scanGroup set g = .done ((e.putGroup g c.outs blocks).nextGroup) false := by
  have keeps : c.scanSkips set g = .ok false := if_pos plain
  simp only [Act.scanGroup, plain, if_true, keeps, fetched]

theorem Act.scanGroup_skip (zoned : swField c.w 72 ≠ 0xFF)
    (skips : (c.look (c.setAddr set g (swField c.w 72)) 64).scanSkips set g = .ok true) :
    c.scanGroup set g =
      .done (((c.look (c.setAddr set g (swField c.w 72)) 64).outs.foldl (fun x v => x.putEmpty v g)
        (c.look (c.setAddr set g (swField c.w 72)) 64)).nextGroup) false := by
  simp only [Act.scanGroup, zoned, if_false, skips]

end group

/-! ### LOOKUP and MERGE -/

section source
variable {a : Act} (runs : a.i.life = .running) (room : a.outRoom = true)
include runs room

theorem lookupTurn_join (plain : swMode a.w 0 = false) {b : Act} {c : Col}
    (found : a.joinLookups (a.d.region a.i.pod a.rrgn).keyType (a.lookupKeys (a.d.region a.i.pod a.rrgn).keyType) =
      .ok (b, c)) :
    lookupTurn a = .done ((b.outs.zipIdx).foldl (fun e x => e.put x.1 0
      ([c, (a.lookupKeys (a.d.region a.i.pod a.rrgn).keyType).map some].getD x.2 [])) b).finish false := by
  simp only [lookupTurn, runs, room, plain, bne_self_eq_false, Bool.false_eq_true, if_false, Bool.not_true, found]

theorem lookupTurn_range (range : swMode a.w 0 = true) {d : Dev}
    (good : a.d.rcheck (a.i.tile / 8) a.i.pod a.rrgn = .ok d) :
    lookupTurn a =
      (let t := a.d.get F.RDR_POD_RGN_STATE_KEYTYPE a.i.pod a.rrgn
       let x := (d.useRegion a.i.pod a.rrgn t).rsearches (a.i.tile / 8) a.i.pod a.rrgn 1
         ((a.lookupKeys t).map fun v => some (orderedBytes t false v))
       let b : Act := { a with d := x.1 }
       .done ((b.outs.zipIdx).foldl (fun e y => e.put y.1 0
         ([x.2.map fun n => n.map fun m => Val.int (m : Nat), (a.lookupKeys t).map some].getD y.2 [])) b).finish false) := by
  simp only [lookupTurn, runs, room, range, bne_self_eq_false, Bool.false_eq_true, if_false, Bool.not_true, if_true, good,
    Except.map]

/-- The rows of a MERGE: those that it holds, or those that it forms now. -/
theorem Act.rowSource_rows {form : Act → Except (Dev × Fail) (Act × List Row)} {b : Act} {rows : List Row}
    (has : (a.st.outRows = some rows ∧ b = a) ∨ (a.st.outRows = none ∧ form a = .ok (b, rows))) :
    a.rowSource form = b.emitRows rows := by
  rcases has with ⟨held, rfl⟩ | ⟨none, formed⟩
  · simp only [Act.rowSource, runs, room, bne_self_eq_false, Bool.false_eq_true, if_false, Bool.not_true, held]
  · simp only [Act.rowSource, runs, room, bne_self_eq_false, Bool.false_eq_true, if_false, Bool.not_true, none, formed]

end source

theorem Act.emitRows_none (b : Act) : b.emitRows [] = .quiet b.finish := rfl

theorem Act.emitRows_some (b : Act) {rows : List Row} (some : rows ≠ []) :
    b.emitRows rows =
      .done (((b.outs.zipIdx).foldl (fun (e : Act) x => e.put x.1 b.st.seqOut (colOfRows (rows.take b.maxRows) x.2)) b).onSt
        fun st => { st with seqOut := st.seqOut + 1, finished := st.finished + 1,
                            outRows := Option.some (rows.drop b.maxRows) }) false :=
  if_neg (by simpa using some)

/-- A MERGE puts its rows block by block, and ends when none is left. -/
theorem gives_merge {c : Instr} {s : State} {w : StageRef} {a b : Act} {rows : List Row} {ok : Nat → Bool}
    {form : Act → Except (Dev × Fail) (Act × List Row)}
    (runs : exec c s = s.act fun d => d.stage w 0x11 ok fun a => ([], a.rowSource form)) (clocked : s.dev.clocked)
    (here : s.dev.sourceAt w 0x11 = some a) (may : ok a.w = true)
    (has : (a.st.outRows = some rows ∧ b = a) ∨ (a.st.outRows = none ∧ form a = .ok (b, rows))) :
    (rows = [] → Gives c s b.finish.commit) ∧
    (rows ≠ [] →
      let e := (b.outs.zipIdx).foldl (fun (e : Act) x => e.put x.1 b.st.seqOut (colOfRows (rows.take b.maxRows) x.2)) b
      Gives c s ((e.onSt fun st => { st with
        seqOut := st.seqOut + 1, finished := st.finished + 1, outRows := some (rows.drop b.maxRows) }).worked w)) := by
  obtain ⟨turn, live, room⟩ := Dev.sourceAt_eq here
  have source := Act.rowSource_rows live room has
  refine ⟨fun none => gives_quiet runs clocked turn may (congrArg (Prod.mk []) (source.trans ?_)),
    fun some => gives_worked runs clocked turn may (congrArg (Prod.mk []) (source.trans (b.emitRows_some some)))⟩
  rw [none, Act.emitRows_none]

end Sys2Proof.Machine

namespace Sys2Proof.Machine

/-! ### The stages that work rows -/

section rows
variable {a e : Act} {v : Nat} {b : Block} {rest bs : List (Nat × Block)}

theorem skipBody_excluded {h raw : List Byte} (body : b.body = .encoded h raw)
    (out : a.mayHold (a.p.typeOf (streamNo v)) (swField a.w 48) (swField a.w 56) (Husk.ofBytes h) = false) :
    skipBody a ((v, b) :: rest) = .done (a.skipPut false a.outs ((v, b) :: rest)) true := by
  simp only [skipBody, body, out, Bool.false_eq_true, if_false]

theorem skipBody_holds {h raw : List Byte} (body : b.body = .encoded h raw)
    (in_ : a.mayHold (a.p.typeOf (streamNo v)) (swField a.w 48) (swField a.w 56) (Husk.ofBytes h) = true)
    (good : a.skipChecks ((v, b) :: rest) = none) :
    skipBody a ((v, b) :: rest) = .done (a.skipPut true a.outs ((v, b) :: rest)) true := by
  simp only [skipBody, body, in_, if_true, good]

theorem skipBody_decoded {rows : Col} (body : b.body = .decoded rows) (good : a.skipChecks ((v, b) :: rest) = none) :
    skipBody a ((v, b) :: rest) = .done (a.skipPut true a.outs ((v, b) :: rest)) true := by
  simp only [skipBody, body, if_true, good]

theorem decodeBody_decodes {h raw : List Byte} {c : Col} (body : b.body = .encoded h raw)
    (typ : (Husk.ofBytes h).typ = a.p.typeOf (streamNo (a.outs.headD 0)))
    (decodes : a.decodeBlock (zoneType (a.p.typeOf (streamNo v))) h raw a.dictK = .ok (e, c))
    (fits : decodedSize (a.p.typeOf (streamNo (a.outs.headD 0))) c ≤ blockLimit) :
    decodeBody a ((v, b) :: rest) = .done (e.putBody (a.outs.headD 0) b.seq (.decoded c) none) true := by
  simp only [decodeBody, body, typ, ne_eq, not_true_eq_false, if_false, decodes, Nat.not_lt.mpr fits]

theorem hashBody_out {cols : List Col} {o : Nat} {os : List Nat} (reads : a.readAll bs = .ok (e, cols))
    (outs : e.outs = o :: os) :
    hashBody a bs = .done (e.put o (setSeq bs)
      ((e.hashes (setRows bs) (bs.map fun x => x.1) cols).map fun h => some (.int (h : Nat)))) true := by
  simp only [hashBody, reads, outs]

theorem hashBody_annotates {cols : List Col} (reads : a.readAll ((v, b) :: rest) = .ok (e, cols)) (outs : e.outs = []) :
    hashBody a ((v, b) :: rest) = .done (e.annotate v b ((e.hashes (setRows ((v, b) :: rest))
      (((v, b) :: rest).map fun x => x.1) cols).map (BitVec.ofNat 64))) true := by
  simp only [hashBody, reads, outs]

theorem filterBody_selects {rows : List URow} (room : a.selRoom (a.p.groupOfStage a.n) (setSeq bs) = true)
    (runs : a.runCode 0 bs (List.replicate (setRows bs) true) = .ok (e, rows)) (good : firstFault rows 0 = none) :
    filterBody a bs = .done (e.writeSel (a.p.groupOfStage a.n) (setSeq bs)
      (rows.map fun r => r.m.getD 0 none == some true)) true := by
  simp only [filterBody, room, Bool.not_true, Bool.false_eq_true, if_false, runs, good]

theorem computeBody_computes {rows : List URow}
    (runs : a.runCode (bitsOf a.w 40 2) bs (a.selected (setSeq bs) (setRows bs)) = .ok (e, rows))
    (good : firstFault (e.chargeOuts rows) 0 = none) :
    computeBody a bs = .done ((e.outs.zipIdx).foldl (fun f x => f.putCol x.1 (setSeq bs) (oneDict (e.dictsOf bs))
      ((e.chargeOuts rows).map fun r => if r.live then r.v.getD (8 + x.2) none else none)) e) true := by
  simp only [computeBody, runs, good]

theorem compactBody_keeps {cols : List Col} (reads : a.readAll bs = .ok (e, cols)) :
    compactBody a bs = .done (e.putKept (e.selected (setSeq bs) (setRows bs)) e.outs bs cols) true := by
  simp only [compactBody, reads]

/-- A LIMIT after these blocks: the rows that its count leaves are put, and counted. -/
def Act.limitedTo (e : Act) (bs : List (Nat × Block)) (cols : List Col) : Act :=
  let x := limitRows e.limitOffset (limitCount e.w) (e.selected (setSeq bs) (setRows bs)) e.st.skipped e.st.passed
  (e.putKept x.1 e.outs bs cols).onSt fun st => { st with skipped := x.2.1, passed := x.2.2 }

theorem limitBody_eq {cols : List Col} (reads : a.readAll bs = .ok (e, cols)) :
    limitBody a bs =
      if (e.limitedTo bs cols).st.passed = limitCount (e.limitedTo bs cols).w then
        .done ((e.limitedTo bs cols).takeBlocks bs).limitEnd false
      else .done (e.limitedTo bs cols) true := by
  simp only [limitBody, reads]
  rfl

/-- The turn of a LIMIT with a count works its blocks. -/
theorem limitTurn_offer {x : Act} (offer : x.offer = some (a, bs)) (counts : limitCount a.w ≠ 0) :
    limitTurn x = (bs, limitBody a bs) := by
  rw [limitTurn_streams (by rw [← Act.offer_w offer]; exact counts), Act.streamTurn_offer offer]

section yield
variable (free : a.st.heldBlk = false)
include free

theorem yieldBody_posted (posted : a.st.posted = true) : yieldBody a bs = a.yieldPass 0 bs := by
  simp only [yieldBody, free, posted, Bool.false_eq_true, if_false, if_true]

variable (unposted : a.st.posted = false)
include unposted

theorem yieldBody_counts (few : a.st.count + 1 < bitsOf a.w 48 16) :
    yieldBody a bs = a.yieldPass (a.st.count + 1) bs := by
  simp only [yieldBody, free, unposted, Bool.false_eq_true, if_false, few, if_true]

theorem yieldBody_event (due : bitsOf a.w 48 16 ≤ a.st.count + 1) : yieldBody a bs = a.yieldEvent (setSeq bs) bs := by
  simp only [yieldBody, free, unposted, Bool.false_eq_true, if_false, Nat.not_lt.mpr due, setSeq]

end yield

theorem Act.w_withDev (a : Act) (d : Dev) : ({ a with d := d } : Act).w = a.w := rfl

theorem Act.yieldEvent_passes {seq t : Nat} {d : Dev} (spawned : a.d.spawn (a.eventThread seq) = some (t, d))
    (plain : swMode a.w 0 = false) : a.yieldEvent seq bs = ({ a with d := d.schedule } : Act).yieldPass 0 bs := by
  simp only [Act.yieldEvent, spawned, Act.w_withDev, plain, Bool.false_eq_true, if_false]

theorem Act.yieldEvent_holds {seq t : Nat} {d : Dev} (spawned : a.d.spawn (a.eventThread seq) = some (t, d))
    (holds : swMode a.w 0 = true) :
    a.yieldEvent seq bs = .quiet (({ a with d := d.schedule } : Act).onSt fun st =>
      { st with heldBlk := true, posted := true, heldUs := 0 }) := by
  simp only [Act.yieldEvent, spawned, Act.w_withDev, holds, if_true]

end rows

/-- Settles O49: each source stage's turn from its own lemma, and for each stage that works rows its body's result. -/
theorem sourceAndRowStagesComplete : Obligations.SourceAndRowStagesComplete := by
  unfold Obligations.SourceAndRowStagesComplete
  refine ⟨⟨fun s w a clocked here => ?scan, fun s w a clocked here => ?lookup, fun s w a b rows clocked here =>
      ⟨fun source has => gives_merge (exec_mergeRuns w s) clocked here (beq_iff_eq.mpr source) has,
        fun source has => gives_merge (exec_mergeRegions w s) clocked here (beq_iff_eq.mpr source) has⟩⟩,
    fun s w a v b rest clocked => ⟨fun offer => ?skip, fun offer h raw e c body typ decodes fits => ?decode,
      fun offer e cols reads => ⟨fun o os outs => ?hashOut, fun outs => ?hashAnn⟩⟩,
    fun s w a e bs rows clocked => ⟨fun offer room runs good => ?filter, fun offer runs good => ?compute⟩,
    fun s w a e bs cols clocked => ⟨fun offer reads => ?compact, fun offer counts reads => ?limit,
      fun here zero => gives_quiet (exec_limit w s) clocked here rfl (if_pos zero), fun offer free => ?yields⟩⟩
  case scan =>
    obtain ⟨turn, live, room⟩ := Dev.sourceAt_eq here
    refine ⟨fun opened none => gives_quiet (exec_scan w s) clocked turn rfl (scanTurn_ends live opened none),
      fun set g gs opens more next => ?_⟩
    have group := scanTurn_group live room opens more next
    exact ⟨fun plain e blocks fetched => gives_worked (exec_scan w s) clocked turn rfl
        (group.trans (congrArg (Prod.mk []) (Act.scanGroup_put plain fetched))),
      fun zoned skips => gives_worked (exec_scan w s) clocked turn rfl
        (group.trans (congrArg (Prod.mk []) (Act.scanGroup_skip zoned skips)))⟩
  case lookup =>
    obtain ⟨turn, live, room⟩ := Dev.sourceAt_eq here
    exact ⟨fun plain b c found => gives_worked (exec_lookup w s) clocked turn rfl
        (congrArg (Prod.mk []) (lookupTurn_join live room plain found)),
      fun range d good => gives_worked (exec_lookup w s) clocked turn rfl
        (congrArg (Prod.mk []) (lookupTurn_range live room range good))⟩
  case skip =>
    exact ⟨fun h raw body out => gives_offer (exec_skip w s) clocked offer rfl (skipBody_excluded body out),
      fun h raw body in_ good => gives_offer (exec_skip w s) clocked offer rfl (skipBody_holds body in_ good),
      fun rows body good => gives_offer (exec_skip w s) clocked offer rfl (skipBody_decoded body good)⟩
  case decode => exact gives_offer (exec_decode w s) clocked offer rfl (decodeBody_decodes body typ decodes fits)
  case hashOut => exact gives_offer (exec_hash w s) clocked offer rfl (hashBody_out reads outs)
  case hashAnn => exact gives_offer (exec_hash w s) clocked offer rfl (hashBody_annotates reads outs)
  case filter => exact gives_offer (exec_filter w s) clocked offer rfl (filterBody_selects room runs good)
  case compute => exact gives_offer (exec_compute w s) clocked offer rfl (computeBody_computes runs good)
  case compact => exact gives_offer (exec_compact w s) clocked offer rfl (compactBody_keeps reads)
  case limit =>
    obtain ⟨x, turn, offered, -⟩ := Dev.offerAt_eq offer
    have body := (limitTurn_offer offered counts).trans (congrArg (Prod.mk bs) (limitBody_eq reads))
    refine ⟨fun more => ?_, fun all => gives_worked (exec_limit w s) clocked turn rfl
      (body.trans (congrArg (Prod.mk bs) (if_pos all)))⟩
    have gives := gives_turn (exec_limit w s) clocked turn rfl
    rw [body.trans (congrArg (Prod.mk bs) (if_neg more))] at gives
    exact gives
  case yields =>
    refine ⟨fun posted => gives_offer (exec_yieldStage w s) clocked offer rfl (yieldBody_posted free posted),
      fun unposted few => gives_offer (exec_yieldStage w s) clocked offer rfl (yieldBody_counts free unposted few),
      fun unposted due t d spawned => ⟨fun plain => ?_, fun holds => ?_⟩⟩
    · exact gives_offer (exec_yieldStage w s) clocked offer rfl
        ((yieldBody_event free unposted due).trans (Act.yieldEvent_passes spawned plain))
    · exact gives_offer_kept (exec_yieldStage w s) clocked offer rfl
        ((yieldBody_event free unposted due).trans (Act.yieldEvent_holds spawned holds))

end Sys2Proof.Machine

namespace Sys2Proof.Machine

/-! ### The stages of the directories -/

/-- A turn whose blocks are done with. -/
theorem gives_finished {c : Instr} {s : State} {w : StageRef} {opc : Nat} {a b : Act} {ok : Nat → Bool}
    {turn : Act → List (Nat × Block) × Turn} {bs : List (Nat × Block)}
    (runs : exec c s = s.act fun d => d.stage w opc ok turn) (clocked : s.dev.clocked)
    (here : s.dev.turnAt w opc = some a) (may : ok a.w = true) (done : turn a = (bs, .done b true)) :
    Gives c s (b.finished w bs) := by
  have gives := gives_turn runs clocked here may
  rw [done] at gives
  exact gives

section directories
variable {a e f : Act} {v : Nat} {b : Block} {rest bs : List (Nat × Block)} {cols : List Col} {c : Col}

theorem buildBody_inserts (reads : a.readAll ((v, b) :: rest) = .ok (e, cols))
    (inserts : e.buildRows (swField e.w 56) (e.buildRecs v b cols) = (f, none)) :
    buildBody a ((v, b) :: rest) = .done f true := by
  simp only [buildBody, reads, inserts]

theorem aggBody_folds (reads : a.readAll ((v, b) :: rest) = .ok (e, cols)) :
    aggBody a ((v, b) :: rest) =
      e.foldRows (e.p.accArray e.w e.st.k e.i.number e.count) b.seq
        ((keepRows (e.selected b.seq b.body.rowCount) (List.range b.body.rowCount)).map fun r =>
          (r, if swMode e.w 0 then b.annAt r else 0,
            [(cols.getD 0 []).getD r none, (cols.getD (if swField e.w 16 = 0xFF then 0 else 1) []).getD r none])) := by
  simp only [aggBody, reads]

theorem insertBody_inserts (reads : a.readAll ((v, b) :: rest) = .ok (e, cols)) {d : Dev}
    (inserts : (e.d.useRegion e.i.pod e.rrgn (e.p.typeOf (streamNo v))).rinsertRows e.i.pod e.rrgn (swField e.w 56)
      (((orderedKeys (e.p.typeOf (streamNo v)) (cols.getD 0 [])).zipIdx).filterMap fun x => x.1.map fun k =>
        (k, (((cols.getD 1 []).getD x.2 none).map fun y => y.toInt.toNat))) = (d, none)) :
    insertBody a ((v, b) :: rest) = .done { e with d := d } true := by
  simp only [insertBody, reads, inserts]

theorem bloomsetBody_sets (reads : a.readBlock v b = .ok (e, c))
    (sets : (e.lookBits ((keepRows (e.selected b.seq c.length) (keyHashes b c)).filterMap id)).bloomSetRows
      ((keepRows (e.selected b.seq c.length) (keyHashes b c)).filterMap id) = .ok f) :
    bloomsetBody a ((v, b) :: rest) = .done f true := by
  simp only [bloomsetBody, reads, sets]

theorem bloomtestBody_tests (room : a.selRoom (a.p.groupOfStage a.n) b.seq = true)
    (reads : a.readBlock v b = .ok (e, c)) {bits : List Bool}
    (tests : (e.lookBits ((keyHashes b c).filterMap id)).bloomTestRows (keyHashes b c) = .ok (f, bits)) :
    bloomtestBody a ((v, b) :: rest) = .done (f.writeSel (a.p.groupOfStage a.n) b.seq bits) true := by
  simp only [bloomtestBody, room, Bool.not_true, Bool.false_eq_true, if_false, reads, tests]

theorem deleteBody_deletes (reads : a.readBlock v b = .ok (e, c)) :
    deleteBody a ((v, b) :: rest) = .done { e with
      d := ((orderedKeys (e.p.typeOf (streamNo v)) c).filterMap id).foldl
        (fun d k => if 32 < k.length then d else d.rdelete e.i.pod e.rrgn k)
        (e.d.useRegion e.i.pod e.rrgn (e.p.typeOf (streamNo v))) } true := by
  simp only [deleteBody, reads]

/-- What a range search leaves: the found values on its output, or as the annotation of its keys. -/
def Act.searched (e : Act) (v : Nat) (b : Block) (c : Col) (d : Dev) (op : Nat) : Act :=
  let t := e.p.typeOf (streamNo v)
  let x := (d.useRegion e.i.pod e.rrgn t).rsearches (e.i.tile / 8) e.i.pod e.rrgn op (orderedKeys t c)
  let g : Act := { e with d := x.1 }
  match g.outs with
  | o :: _ => g.put o b.seq (x.2.map fun n => n.map fun m => Val.int (m : Nat))
  | [] => g.annotate v b (x.2.map fun n => BitVec.ofNat 64 (n.getD 0xFFFFFFFFFFFFFFFF))

theorem searchBody_searches (reads : a.readBlock v b = .ok (e, c)) {d : Dev}
    (good : e.d.rcheck (e.i.tile / 8) e.i.pod e.rrgn = .ok d) (op : Nat) :
    searchBody op a ((v, b) :: rest) = .done (e.searched v b c d op) true := by
  simp only [searchBody, reads, good, Act.searched]
  split <;> rename_i outs <;> simp only [outs]

/-! PROBE -/

theorem Act.emitExpand_all {a : Act} {seq : Nat} {rows : List (List (Option Val))} (fits : rows.length ≤ a.maxRows) :
    a.emitExpand seq rows =
      .done ((a.putExpand seq (rows.take a.maxRows)).onSt fun st => { st with outRows := none }) true := by
  simp only [Act.emitExpand, List.drop_eq_nil_of_le fits, List.isEmpty_nil, if_true]

theorem Act.finishLive_expand {a : Act} {ps : List Probed}
    (expands : swMode (a.onSt fun st => { st with seqOut := max st.seqOut (b.seq + 1) }).w 3 = true) :
    a.finishLive bs b ps =
      (a.onSt fun st => { st with seqOut := max st.seqOut (b.seq + 1) }).emitExpand b.seq
        (expandOut ((List.range ps.length).map (rowNumber b.seq)) ps) := by
  simp only [Act.finishLive, expands, if_true]

theorem Act.finishLive_one {a : Act} {ps : List Probed} {x : Nat × Block}
    (plain : swMode (a.onSt fun st => { st with seqOut := max st.seqOut (b.seq + 1) }).w 3 = false) :
    a.finishLive [x] b ps =
      (let g := a.onSt fun st => { st with seqOut := max st.seqOut (b.seq + 1) }
       .done (g.writeSel (g.p.groupOfStage g.n) b.seq (ps.map fun (y : Probed) => y.bit)) true) := by
  simp only [Act.finishLive, plain, Bool.false_eq_true, if_false]

theorem Act.finishLive_more {a : Act} {ps : List Probed} {x : Nat × Block} {v1 : Nat} {b1 : Block}
    {more : List (Nat × Block)}
    (plain : swMode (a.onSt fun st => { st with seqOut := max st.seqOut (b.seq + 1) }).w 3 = false) :
    a.finishLive (x :: (v1, b1) :: more) b ps =
      (let g := a.onSt fun st => { st with seqOut := max st.seqOut (b.seq + 1) }
       .done ((g.annotate v1 b1 (ps.map fun (y : Probed) => BitVec.ofNat 64 y.ann)).writeSel (g.p.groupOfStage g.n) b.seq
        (ps.map fun (y : Probed) => y.bit)) true) := by
  simp only [Act.finishLive, plain, Bool.false_eq_true, if_false]
  rfl

theorem Act.noteCarried_nil (a : Act) : a.noteCarried [] = a := rfl

/-- A PROBE of a region that is not spilled probes the rows of its block. -/
theorem probeBody_probes (fresh : a.st.outRows = none) (unspilled : a.jst ≠ 5) (replayed : a.jst ≠ 6)
    (room : swMode a.w 3 = true ∨ a.selRoom (a.p.groupOfStage a.n) b.seq = true)
    (reads : a.readBlock v b = .ok (e, c)) {ps : List Probed}
    (probes : e.liveRows false b
      (c.map fun y => y.map (normKey (e.p.typeOf (streamNo v)) (e.d.get F.JDR_POD_RGN_STATE_CASEFOLD e.i.pod e.rgn == 1)))
      [] ((List.range b.body.rowCount).zip (e.selected b.seq b.body.rowCount)) = .ok (f, ps)) :
    probeBody a ((v, b) :: rest) = f.finishLive ((v, b) :: rest) b ps := by
  have no5 : (a.jst == 5) = false := beq_eq_false_iff_ne.mpr unspilled
  have no6 : (a.jst == 6) = false := beq_eq_false_iff_ne.mpr replayed
  have roomy : (!swMode a.w 3 && !a.selRoom (a.p.groupOfStage a.n) b.seq) = false := by
    rcases room with h | h <;> simp [h]
  simp only [probeBody, fresh, no5, no6, roomy, Bool.or_self, Bool.false_eq_true, if_false, List.any_nil, reads,
    Act.readCarried, probes, Act.noteCarried_nil]

end directories

end Sys2Proof.Machine

namespace Sys2Proof.Machine

/-! ### The stages that write areas, sort and send -/

section writing
variable {a b c e : Act} {bs : List (Nat × Block)} {cols : List Col}

theorem partBody_parts {v : Nat} {k : Block} {rest : List (Nat × Block)}
    (opens : a.openArea (swField a.w 104) a.partHead = .ok b) (reads : b.readAll ((v, k) :: rest) = .ok (c, cols))
    (parts : c.partRows c.destArea (keepRows (c.selected k.seq k.body.rowCount)
      (((List.range k.body.rowCount).map k.annAt).zip (rowsOfCols k.body.rowCount cols))) = .ok e) :
    partBody a ((v, k) :: rest) = .done e true := by
  simp only [partBody, opens, reads, parts]

theorem Act.spillGroup_put {blocks : List (List Byte × List Byte)} {rows seq : Nat}
    (puts : a.putSetGroup a.destArea 0 blocks rows = .ok e) : a.spillGroup blocks rows seq = .done e true := by
  simp only [Act.spillGroup, puts]

section spill
variable (opens : a.openArea (swField a.w 104) 64 = .ok b) (some : bs ≠ [])
    (reads : (b.w.testBit 46 = true ∧ b.readAll bs = .ok (c, cols)) ∨
      (b.w.testBit 46 = false ∧ c = b ∧ cols = bs.map fun _ => []))
include opens some reads

theorem spillBody_eq :
    spillBody a bs =
      (let sel := c.selected (setSeq bs) (setRows bs)
       let rows := (sel.filter id).length
       let addr := c.destArea.base + c.st.cursor
       if !(swMode c.w 0) then c.spillGroup (c.spillBlocks sel bs cols) rows (setSeq bs)
       else match c.packBlocks addr (c.spillBlocks sel bs cols) 0 with
         | .full => .stall
         | .wait a => if a.d.enginesOff then .back a else .quiet a
         | .fail a f => .fail a f (setSeq bs) 0
         | .ok a blocks => (a.dropResults addr).spillGroup blocks rows (setSeq bs)) := by
  obtain ⟨⟨v, k⟩, rest, rfl⟩ := List.exists_cons_of_ne_nil some
  have input : (if b.w.testBit 46 then b.readAll ((v, k) :: rest) else .ok (b, ((v, k) :: rest).map fun _ => [])) =
      .ok (c, cols) := by
    rcases reads with ⟨bit, reads⟩ | ⟨bit, rfl, rfl⟩
    · rw [bit, if_pos rfl, reads]
    · rw [bit, if_neg Bool.false_ne_true]
  simp only [spillBody, opens, input]
  rfl

theorem spillBody_plain (plain : swMode c.w 0 = false)
    (puts : c.putSetGroup c.destArea 0 (c.spillBlocks (c.selected (setSeq bs) (setRows bs)) bs cols)
      ((c.selected (setSeq bs) (setRows bs)).filter id).length = .ok e) :
    spillBody a bs = .done e true := by
  rw [spillBody_eq opens some reads]
  simp only [plain, Bool.not_false, if_true, Act.spillGroup_put puts]

theorem spillBody_packed (packed : swMode c.w 0 = true) {f : Act} {blocks : List (List Byte × List Byte)}
    (packs : c.packBlocks (c.destArea.base + c.st.cursor)
      (c.spillBlocks (c.selected (setSeq bs) (setRows bs)) bs cols) 0 = .ok f blocks)
    (puts : (f.dropResults (c.destArea.base + c.st.cursor)).putSetGroup
      (f.dropResults (c.destArea.base + c.st.cursor)).destArea 0 blocks
      ((c.selected (setSeq bs) (setRows bs)).filter id).length = .ok e) :
    spillBody a bs = .done e true := by
  rw [spillBody_eq opens some reads]
  simp only [packed, Bool.not_true, Bool.false_eq_true, if_false, packs, Act.spillGroup_put puts]

end spill

theorem sortrunBody_holds {x : Act} (opens : a.openArea (swField a.w 104) 0x4040 = .ok b)
    (stores : b.storeCheck b.heldBytes = .ok x) (reads : x.readAll bs = .ok (c, cols))
    (holds : c.holdRows (c.presentRows (setSeq bs) (setRows bs) cols) = .ok e) : sortrunBody a bs = .done e true := by
  simp only [sortrunBody, opens, stores, reads, holds]

theorem topkBody_keeps (stores : a.storeCheck (a.st.held.length * a.topSize) = .ok b)
    (reads : b.readAll bs = .ok (c, cols)) :
    topkBody a bs = .done ((c.presentRows (setSeq bs) (setRows bs) cols).foldl Act.topRow (c.topDicts bs)) true := by
  simp only [topkBody, stores, reads]

section emit
variable {typed : List (Nat × Col)} (reads : a.emitCols bs = .ok (b, typed))
include reads

theorem emitBody_none (none : ((b.selected (setSeq bs) (setRows bs)).filter id).length = 0) :
    emitBody a bs = .done b true := by
  simp only [emitBody, reads, none, if_true]

variable (some : ((b.selected (setSeq bs) (setRows bs)).filter id).length ≠ 0)
include some

theorem emitBody_plain (plain : b.st.source = none) :
    emitBody a bs = b.writeBatch (setSeq bs) (typed.map fun x => (x.1, keepRows (b.selected (setSeq bs) (setRows bs)) x.2))
      ((b.selected (setSeq bs) (setRows bs)).filter id).length := by
  have gathers : ∀ l, b.gatherField l = .ok (b, l) := by
    intro l
    simp only [Act.gatherField, plain]
  simp only [emitBody, reads, some, if_false, plain, gathers]

theorem emitBody_gathers {x : ColSet × Nat} {k : Nat × Col} {ks : List (Nat × Col)} {gathered : List (Nat × Col)}
    (source : b.st.source = Option.some x) (first : typed = k :: ks)
    (gathers : (b.lookGather x.1 (keepRows (b.selected (setSeq bs) (setRows bs)) k.2)).gatherField
      (typed.map fun y => (y.1, keepRows (b.selected (setSeq bs) (setRows bs)) y.2)) = .ok (c, gathered)) :
    emitBody a bs =
      c.writeBatch (setSeq bs) gathered ((b.selected (setSeq bs) (setRows bs)).filter id).length := by
  subst first
  simp only [emitBody, reads, some, if_false, source, gathers]

end emit

theorem exchangeBody_held (held : a.st.heldBlk = true) :
    exchangeBody a bs = a.sendAll (a.d.spanInsts a.r a.i.pipe) (setSeq bs) := by
  simp only [exchangeBody, held, if_true]

theorem exchangeBody_routes (free : a.st.heldBlk = false) (reads : a.readAll bs = .ok (b, cols))
    (routes : (b.fillAnn bs).1.routeRows (a.d.spanInsts a.r a.i.pipe).length bs
      (keepRows ((b.fillAnn bs).1.selected (setSeq bs) (setRows bs)) ((List.range (setRows bs)).zip
        (((List.range (setRows bs)).map fun r => ((b.fillAnn bs).2.head?.map fun y => y.2.annAt r).getD 0).zip
          (rowsOfCols (setRows bs) cols)))) = some c) :
    exchangeBody a bs =
      (c.onSt fun st => { st with heldBlk := true }).sendAll (a.d.spanInsts a.r a.i.pipe) (setSeq bs) := by
  simp only [exchangeBody, free, Bool.false_eq_true, if_false, reads, routes]

/-! The last turns. -/

/-- Two folds agree whose steps agree on every value with a property that the steps keep. -/
theorem foldl_eq_of_kept {α β : Type} {P : β → Prop} {f g : β → α → β} (same : ∀ b x, P b → f b x = g b x)
    (kept : ∀ b x, P b → P (g b x)) (l : List α) : ∀ b, P b → l.foldl f b = l.foldl g b := by
  induction l with
  | nil => exact fun _ _ => rfl
  | cons x l ih =>
    intro b holds
    rw [List.foldl_cons, List.foldl_cons, same b x holds]
    exact ih _ (kept b x holds)

theorem partFinal_writes (opens : a.openArea (swField a.w 104) a.partHead = .ok b)
    (flushes : b.flushParts a.destArea (List.range (2 ^ bitsOf a.w 64 8)) = .ok c) {addrs : List Nat}
    (writes : c.writeSets a.destArea c.ins.length
      (c.st.sets ++ List.replicate (2 ^ bitsOf a.w 64 8 - c.st.sets.length) { groups := [], rows := 0 }) = .ok (e, addrs)) :
    partFinal a = .quiet (((e.store 0 (a.destArea.base + 64) (addrs.flatMap (leBytes 8))).closeArea a.destArea
      (a.destArea.base + 64) (totalRows
        (c.st.sets ++ List.replicate (2 ^ bitsOf a.w 64 8 - c.st.sets.length) { groups := [], rows := 0 }))).finish) := by
  simp only [partFinal, opens, flushes, writes]

theorem spillFinal_writes (opens : a.openArea (swField a.w 104) 64 = .ok b) {addr : Nat}
    (writes : b.writeSet a.destArea (b.st.sets.headD { groups := [], rows := 0 }) b.ins.length = .ok (e, addr)) :
    spillFinal a =
      .quiet (e.closeArea a.destArea addr (b.st.sets.headD { groups := [], rows := 0 }).rows).finish := by
  simp only [spillFinal, opens, writes]

theorem sortrunFinal_writes (opens : a.openArea (swField a.w 104) 0x4040 = .ok b)
    (drains : (b.drainRuns (b.st.held.length + 1)).bind Act.flushRun = .ok c) {addrs : List Nat}
    (writes : c.writeSets a.destArea c.ins.length c.st.sets = .ok (e, addrs)) :
    sortrunFinal a = .quiet (e.writeHeader a.destArea addrs).finish := by
  simp only [sortrunFinal, opens, drains, writes]

theorem Act.st_put (f : Act) (v seq : Nat) (c : Col) : (f.put v seq c).st = f.st := by
  simp only [Act.put, Act.putCol]
  split <;> rfl

theorem topkFinal_puts (room : a.outRoom = true) (fits : a.st.held.length ≤ a.maxRows) (plain : a.st.bases = []) :
    topkFinal a = .quiet ((a.outs.zipIdx).foldl (fun f x => f.put x.1 a.st.seqOut
      (colOfRows ((a.st.held.take a.maxRows).map fun y => y.row) x.2)) a).finish := by
  simp only [topkFinal, room, Bool.not_true, Bool.false_eq_true, if_false, fits, if_true]
  refine congrArg (fun b : Act => Turn.quiet b.finish) (foldl_eq_of_kept (P := fun f => f.st.bases = [])
    (fun f x none => ?_) (fun f x none => by rw [Act.st_put, none]) _ _ plain)
  simp only [none, List.find?_nil]

theorem emitFinal_writes (shares : a.emitK ≠ 0xFF) (last : a.lastEmit = true) (fits : 64 ≤ a.emitDest.len)
    (puts : a.emitPut a.emitDest 0 (resultHeader a.ins.length a.emitCount.2.1 a.emitCount.2.2 a.emitCount.1) = .ok e) :
    emitFinal a = .quiet e.finish := by
  simp only [emitFinal, shares, if_false, last, Bool.not_true, Bool.false_eq_true, Nat.not_lt.mpr fits, puts]

theorem exchangeFinal_ends
    (reached : a.lostPeer (a.d.spanInsts a.r a.i.pipe) (List.range (a.d.spanInsts a.r a.i.pipe).length) = none) :
    exchangeFinal a = .quiet { a with
      d := (a.d.spanInsts a.r a.i.pipe).foldl (fun (d : Dev) x => d.emit (.xfer x.1 5 (a.xHead x.2))) a.d,
      st := { a.st with ended := true } } := by
  simp only [exchangeFinal, reached]

end writing

/-- Settles O50: for each stage the result of its body on the blocks it takes, and of its last turn. -/
theorem directoryAndWritingStagesComplete : Obligations.DirectoryAndWritingStagesComplete := by
  unfold Obligations.DirectoryAndWritingStagesComplete
  refine ⟨⟨fun s w a e f bs cols clocked => ⟨fun offer v b rest first reads inserts => ?build,
        fun offer => ?agg, fun offer op v b rest first reads d inserts => ?insert⟩,
      fun s w a e f v b rest c clocked => ⟨fun k first reads => ⟨fun offer sets => ?bloomset,
        fun offer room bits tests => ?bloomtest,
        fun x here fresh offer new no5 no6 room ps probes => ?probe⟩,
      fun offer reads => ⟨fun op => ?delete, fun d good => ?search⟩⟩⟩,
    fun s w a b c e bs cols clocked => ⟨fun offer opens reads v k rest first parts => ?part,
      fun offer opens some reads => ⟨fun plain puts => ?spill, fun packed f blocks packs puts => ?packed⟩,
      fun offer opens x stores reads holds => ?sortrun, fun offer stores reads => ?topk,
      fun offer typed reads => ⟨fun none => ?emitNone, fun some plain done => ?emit,
        fun x k ks gathered some source first gathers done => ?emitGather⟩,
      fun offer => ⟨fun held => ?exchange, fun free reads routes => ?exchangeNew⟩⟩,
    fun s w a b c e clocked => ⟨fun ends opens flushes addrs writes => ?partEnd, fun ends opens addr writes => ?spillEnd,
      fun ends opens drains addrs writes => ?sortEnd, fun ends room fits plain => ?topkEnd,
      fun ends shares last fits puts => ?emitEnd, fun ends reached => ?exchangeEnd⟩⟩
  case build =>
    refine gives_offer (exec_build w s) clocked offer rfl ?_
    rw [annotated, first]
    rw [first] at reads
    exact buildBody_inserts reads inserts
  case agg =>
    obtain ⟨x, turn, offered, same⟩ := Dev.offerAt_eq offer
    intro y v b rest first reads second rows folds
    refine gives_finished (exec_agg w s) clocked turn rfl ?_
    rw [Act.streamTurn_offer offered, same]
    refine congrArg (Prod.mk bs) (Eq.trans ?_ folds)
    cases slots : swMode a.w 0 with
    | true =>
      have y_eq : y = a.fillAnn bs := if_pos slots
      rw [y_eq] at first reads
      rw [if_pos rfl, annotated, first]
      rw [first] at reads
      exact aggBody_folds reads
    | false =>
      have y_eq : y = (a, bs) := if_neg (by rw [slots]; exact Bool.false_ne_true)
      rw [y_eq] at first reads
      rw [if_neg Bool.false_ne_true, show bs = _ from first]
      rw [show (a, bs).2 = _ from first] at reads
      exact aggBody_folds reads
  case insert =>
    subst first
    exact gives_offer (exec_rangeInsert w s) clocked offer (beq_iff_eq.mpr op) (insertBody_inserts reads inserts)
  case bloomset =>
    refine gives_offer (exec_bloomset w s) clocked offer rfl ?_
    rw [annotated, first]
    exact bloomsetBody_sets reads sets
  case bloomtest =>
    refine gives_offer (exec_bloomtest w s) clocked offer rfl ?_
    rw [annotated, first]
    exact bloomtestBody_tests room reads tests
  case probe =>
    have turn : (if x.st.liveDone then ([], x.replayTurn) else x.streamTurn true (annotated probeBody) probeFinal) =
        ((v, b) :: rest, f.finishLive ((v, k) :: rest) k ps) := by
      rw [if_neg (ne_true_of_eq_false fresh), Act.streamTurn_offer offer, annotated, first,
        probeBody_probes new no5 no6 room reads probes]
    refine ⟨fun plain one => ?_, fun v1 b1 more plain two => ?_, fun expands fits => ?_⟩
    · subst one
      exact gives_finished (exec_probe w s) clocked here rfl (turn.trans (congrArg (Prod.mk _) (Act.finishLive_one plain)))
    · subst two
      exact gives_finished (exec_probe w s) clocked here rfl (turn.trans (congrArg (Prod.mk _) (Act.finishLive_more plain)))
    · exact gives_finished (exec_probe w s) clocked here rfl (turn.trans (congrArg (Prod.mk _)
        ((Act.finishLive_expand expands).trans (Act.emitExpand_all fits))))
  case delete => exact gives_offer (exec_rangeDelete w s) clocked offer (beq_iff_eq.mpr op) (deleteBody_deletes reads)
  case search =>
    intro found
    have found_eq : ∀ op, found op = (e.searched v b c d op).finished w ((v, b) :: rest) := by
      intro op
      simp only [found, Act.searched]
      split <;> rename_i outs <;> simp only [outs]
    simp only [found_eq]
    exact ⟨fun op => gives_offer (exec_rangeFloor w s) clocked offer (beq_iff_eq.mpr op) (searchBody_searches reads good 0),
      fun op => gives_offer (exec_rangeExact w s) clocked offer (beq_iff_eq.mpr op) (searchBody_searches reads good 1),
      fun op => gives_offer (exec_rangeCover w s) clocked offer (beq_iff_eq.mpr op) (searchBody_searches reads good 2)⟩
  case part =>
    refine gives_offer (exec_part w s) clocked offer rfl ?_
    rw [annotated, first]
    rw [first] at reads
    exact partBody_parts opens reads parts
  case spill => exact gives_offer (exec_spill w s) clocked offer rfl (spillBody_plain opens some reads plain puts)
  case packed => exact gives_offer (exec_spill w s) clocked offer rfl (spillBody_packed opens some reads packed packs puts)
  case sortrun => exact gives_offer (exec_sortrun w s) clocked offer rfl (sortrunBody_holds opens stores reads holds)
  case topk => exact gives_offer (exec_topk w s) clocked offer rfl (topkBody_keeps stores reads)
  case emitNone => exact gives_offer (exec_emit w s) clocked offer rfl (emitBody_none reads none)
  case emit => exact gives_offer (exec_emit w s) clocked offer rfl ((emitBody_plain reads some plain).trans done)
  case emitGather =>
    exact gives_offer (exec_emit w s) clocked offer rfl ((emitBody_gathers reads some source first gathers).trans done)
  case exchange =>
    exact ⟨fun done => gives_offer (exec_exchange w s) clocked offer rfl ((exchangeBody_held held).trans done),
      fun quiet => gives_offer_kept (exec_exchange w s) clocked offer rfl ((exchangeBody_held held).trans quiet)⟩
  case exchangeNew =>
    exact ⟨fun done => gives_offer (exec_exchange w s) clocked offer rfl ((exchangeBody_routes free reads routes).trans done),
      fun quiet => gives_offer_kept (exec_exchange w s) clocked offer rfl
        ((exchangeBody_routes free reads routes).trans quiet)⟩
  case partEnd => exact gives_end (exec_part w s) clocked ends rfl (partFinal_writes opens flushes writes)
  case spillEnd => exact gives_end (exec_spill w s) clocked ends rfl (spillFinal_writes opens writes)
  case sortEnd => exact gives_end (exec_sortrun w s) clocked ends rfl (sortrunFinal_writes opens drains writes)
  case topkEnd => exact gives_end (exec_topk w s) clocked ends rfl (topkFinal_puts room fits plain)
  case emitEnd => exact gives_end (exec_emit w s) clocked ends rfl (emitFinal_writes shares last fits puts)
  case exchangeEnd => exact gives_end (exec_exchange w s) clocked ends rfl (exchangeFinal_ends reached)

end Sys2Proof.Machine

namespace Sys2Proof.Machine

/-! ### Instances -/

theorem Dev.mayLeave_running {d : Dev} {i : Inst} {r : Run} (may : d.mayLeave i r = true) :
    i.life = .running ∧ i.stop = false := by
  simp only [Dev.mayLeave, Bool.and_eq_true, beq_iff_eq, Bool.not_eq_true'] at may
  obtain ⟨⟨⟨runs, unstopped⟩, -⟩, -⟩ := may
  exact ⟨runs, unstopped⟩

/-- Settles O53, each command by the condition that its clause gives. -/
theorem instanceCommands : Obligations.InstanceCommands := by
  unfold Obligations.InstanceCommands
  refine ⟨fun s t slot i clocked found => ⟨fun stop open_ live => ?stops, fun goes => ?goesOn⟩,
    fun s w a clocked here opc held runs unquiet => ?timeout,
    fun s t slot x clocked found migrates gone => ⟨fun drained => ?drained, fun drains left => ?drains⟩,
    fun s t slot i r p m area clocked here => ⟨fun runs goes quiesces => ?quiesces, fun active => ?active,
      fun migrates goes => ?moves, fun may active k target ready own => ?begins, fun may active none => ?stays,
      fun claimed none unreserved goes fits may active => ?parks, fun unclaimed => ?unclaimed,
      fun parked goes active back => ?restores, fun unparked => ?unparked⟩⟩
  case stops =>
    refine .of_act (exec_stopAtBlockBoundary t slot s) clocked ?_
    simp only [found, stop, bne_iff_ne.mpr open_, bne_iff_ne.mpr live, Bool.and_self, if_true]
  case goesOn =>
    refine .of_act (exec_stopAtBlockBoundary t slot s) clocked ?_
    simp only [found, goes, Bool.false_and, Bool.false_eq_true, if_false]
  case timeout =>
    refine .of_act (exec_yieldTimeout w s) clocked ?_
    have due : (swOp a.w = 0x1A && a.st.heldBlk && a.i.life == .running && s.dev.podState a.i.pod != 3) = true := by
      rw [opc, held, runs, bne_iff_ne.mpr unquiet]
      rfl
    simp only [Dev.yieldTimeout, here, due, if_true]
  case drained =>
    refine .of_act (exec_migrationComplete t slot s) clocked ?_
    have free : (x.drain == 0 || s.dev.undrained t.val slot.val == 0) = true := by
      rw [Bool.or_eq_true, beq_iff_eq, beq_iff_eq]
      exact drained
    simp only [found, migrates, gone, Option.isNone_none, free, beq_self_eq_true, Bool.and_self, if_true, Dev.freeSlot]
  case drains =>
    refine .of_act (exec_migrationComplete t slot s) clocked ?_
    have busy : (x.drain == 0 || s.dev.undrained t.val slot.val == 0) = false := by
      rw [Bool.or_eq_false_iff, beq_eq_false_iff_ne, beq_eq_false_iff_ne]
      exact ⟨drains, left⟩
    simp only [found, busy, Bool.and_false, Bool.false_eq_true, if_false]
  case quiesces =>
    refine .of_act (exec_instanceQuiesce t slot s) clocked ?_
    simp only [here, runs, goes, quiesces, beq_self_eq_true, Bool.not_false, Bool.and_self, if_true]
  case active =>
    refine .of_act (exec_instanceQuiesce t slot s) clocked ?_
    simp only [here, beq_eq_false_iff_ne.mpr active, Bool.and_false, Bool.false_eq_true, if_false]
  case moves =>
    refine .of_act (exec_migrateInstance t slot s) clocked ?_
    simp only [here, migrates, goes, beq_self_eq_true, Bool.not_false, Bool.and_self, if_true]
  case begins =>
    obtain ⟨runs, -⟩ := Dev.mayLeave_running may
    refine .of_act (exec_migrateInstance t slot s) clocked ?_
    have still : (i.life == Life.migrating) = false := by rw [runs]; rfl
    simp only [here, still, Bool.false_and, Bool.false_eq_true, if_false, may, active, beq_self_eq_true, Bool.and_self,
      if_true, Dev.beginMove, target, ready, own, Dev.beginLeave]
  case stays =>
    obtain ⟨runs, -⟩ := Dev.mayLeave_running may
    refine .of_act (exec_migrateInstance t slot s) clocked ?_
    have still : (i.life == Life.migrating) = false := by rw [runs]; rfl
    simp only [here, still, Bool.false_and, Bool.false_eq_true, if_false, may, active, beq_self_eq_true, Bool.and_self,
      if_true, Dev.beginMove, none]
  case parks =>
    refine .of_act (exec_parkInstance t slot area s) clocked ?_
    simp only [here, claimed, none, unreserved, Option.isNone_none, goes, Bool.not_false, fits, may, active,
      beq_self_eq_true, Bool.and_self, Bool.or_true, if_true]
  case unclaimed =>
    refine .of_act (exec_parkInstance t slot area s) clocked ?_
    simp only [here, unclaimed, Bool.false_and, Bool.false_eq_true, if_false]
  case restores =>
    refine .of_act (exec_restoreParked t slot s) clocked ?_
    simp only [here, parked, goes, active, bne_self_eq_false, Bool.or_self, Bool.false_eq_true, if_false, back, if_true,
      Dev.unpark]
  case unparked =>
    refine .of_act (exec_restoreParked t slot s) clocked ?_
    simp only [here, bne_iff_ne.mpr unparked, Bool.true_or, if_true]

end Sys2Proof.Machine

namespace Sys2Proof.Machine

/-! ### Join and range regions -/

/-- A fold over the bits of a number that has one bit takes one step. -/
theorem foldl_range_bit {α : Type} (f : α → Nat → α) (c : α → Nat → Bool) {n g : Nat} (below : g < n) (a : α) :
    (List.range n).foldl (fun x k => if (2 ^ g).testBit k && c x k then f x k else x) a =
      if c a g then f a g else a := by
  have bit : (fun k => (2 ^ g).testBit k) = fun k => k == g := by
    funext k
    rw [Nat.testBit_two_pow, Bool.beq_eq_decide_eq]
    exact decide_eq_decide.mpr eq_comm
  have one : (List.range n).filter (fun k => (2 ^ g).testBit k) = [g] := by
    rw [bit, List.filter_beq, List.count_eq_one_of_mem List.nodup_range (List.mem_range.mpr below), List.replicate_one]
  have nested : (fun x k => if (2 ^ g).testBit k && c x k then f x k else x) =
      fun x k => if (2 ^ g).testBit k then (if c x k then f x k else x) else x := by
    funext x k
    cases (2 ^ g).testBit k <;> rfl
  rw [nested, ← List.foldl_filter, one, List.foldl_cons, List.foldl_nil]

theorem fieldIn_bit16 {f : Fld} (at0 : f.lo = 0) (wide : f.width = 16) {g v : Nat} (lt : g < 16) (one : v = 2 ^ g) :
    fieldIn f v = 2 ^ g := by
  have fits : 2 ^ g < 2 ^ 16 := Nat.pow_lt_pow_right (by decide) lt
  rw [fieldIn, at0, wide, one, bitsOf, Nat.shiftRight_zero, Nat.mod_eq_of_lt fits]

theorem Dev.jdrClear_one (d : Dev) (p : Nat) {g : Nat} (lt : g < 16) : d.jdrClear p (2 ^ g) = d.clearRegion p g := by
  have fold := foldl_range_bit (fun (d : Dev) g => d.clearRegion p g) (fun _ _ => true) lt d
  simp only [Bool.and_true, if_true] at fold
  exact fold

theorem Dev.rdrClear_one (d : Dev) (p : Nat) {g : Nat} (lt : g < 16) :
    d.rdrClear p (2 ^ g) =
      if (d.rregion p g).owner.isNone then d.put F.RDR_POD_RGN_STATE_STATE 1 p g else d :=
  foldl_range_bit (fun (d : Dev) g => d.put F.RDR_POD_RGN_STATE_STATE 1 p g)
    (fun d g => (d.rregion p g).owner.isNone) lt d

theorem Dev.tasks_zeroCount (d : Dev) (addr : Nat) : (d.zeroCount addr).tasks = d.tasks :=
  Dev.tasks_ite rfl (Dev.tasks_st _ _ _)

theorem Dev.tasks_zeroAreas (d : Dev) (r : JRegion) : (d.zeroAreas r).tasks = d.tasks :=
  Dev.tasks_ite ((Dev.tasks_st _ _ _).trans (Dev.tasks_ite (Dev.tasks_zeroCount _ _) rfl))
    (Dev.tasks_ite (Dev.tasks_zeroCount _ _) rfl)

theorem Dev.jstate_setJstate (d : Dev) {p g v : Nat} (fits : v < 16) : (d.setJstate p g v).jstate p g = v :=
  d.get_put_of_lt p g (by decide) fits

theorem Dev.freeEntries_gone (d : Dev) (p g : Nat) : ∀ e ∈ (d.freeEntries p g).jents, ¬(e.pod = p ∧ e.rgn = g) := by
  intro e mem
  have other := (List.mem_filter.mp mem).2
  rw [Bool.not_eq_true', Bool.and_eq_false_iff, beq_eq_false_iff_ne, beq_eq_false_iff_ne] at other
  exact fun same => other.elim (fun h => h same.1) (fun h => h same.2)

/-- The end of a builder's sweep: BUILDING where the run goes on, INVALID where it has failed. -/
theorem Dev.sweepDone_builder {d : Dev} {p g : Nat} (sweeps : d.jstate p g = 1) (builds : (d.region p g).forBuild = true) :
    d.sweepDone p g =
      if d.builderLives (d.region p g) then ((d.freeEntries p g).zeroAreas (d.region p g)).setJstate p g 2
      else (d.freeEntries p g).setJstate p g 7 := by
  simp only [Dev.sweepDone, sweeps, ne_eq, not_true_eq_false, if_false, builds, Bool.not_true, Bool.false_eq_true]
  rfl

theorem Dev.sweepDone_builder_jents {d : Dev} {p g : Nat} (sweeps : d.jstate p g = 1)
    (builds : (d.region p g).forBuild = true) : (d.sweepDone p g).jents = (d.freeEntries p g).jents := by
  rw [Dev.sweepDone_builder sweeps builds]
  split
  · exact congrArg Tasks.jents (Dev.tasks_zeroAreas _ _)
  · rfl

theorem Dev.sweepDone_builder_jstate {d : Dev} {p g : Nat} (sweeps : d.jstate p g = 1)
    (builds : (d.region p g).forBuild = true) :
    (d.sweepDone p g).jstate p g = if d.builderLives (d.region p g) then 2 else 7 := by
  rw [Dev.sweepDone_builder sweeps builds]
  split
  · exact Dev.jstate_setJstate _ (by decide)
  · exact Dev.jstate_setJstate _ (by decide)

section unload
variable {d : Dev} {p g : Nat} (spills : d.jstate p g = 4) (held : (d.region p g).unloaded = false)
include spills held

theorem Dev.unloadDone_poisoned (some : ∃ e ∈ d.jents, e.pod = p ∧ e.rgn = g ∧ e.ue = true) :
    d.unloadDone p g = (d.builders (d.region p g)).foldl (fun (d : Dev) x =>
      if x.1.life = .running then d.failInst x.1 (x.2.buildStage g) dirFail 0 0 else d) d := by
  have any : ((d.jents.filter fun e => e.pod == p && e.rgn == g).any fun e => e.ue) = true := by
    obtain ⟨e, mem, pod, rgn, ue⟩ := some
    exact List.any_eq_true.mpr ⟨e, List.mem_filter.mpr ⟨mem, by simp [pod, rgn]⟩, ue⟩
  simp only [Dev.unloadDone, spills, held, ne_eq, not_true_eq_false, Bool.false_eq_true, or_self, if_false, any, if_true,
    beq_iff_eq]

theorem Dev.unloadDone_clean (clean : ∀ e ∈ d.jents, e.pod = p → e.rgn = g → e.ue = false) {e : Dev}
    (unloads : (d.freeEntries p g).unloadRecs (d.region p g) []
      ((d.jents.filter fun e => e.pod == p && e.rgn == g).flatMap fun e =>
        d.unloadEntry (d.region p g) (d.regionPay p g) e) = some e) :
    d.unloadDone p g = (e.setRegion { d.region p g with unloaded := true }).releaseBuilders (d.region p g) := by
  have none : ((d.jents.filter fun e => e.pod == p && e.rgn == g).any fun e => e.ue) = false := by
    refine List.any_eq_false.mpr fun e mem => ?_
    obtain ⟨mem, own⟩ := List.mem_filter.mp mem
    rw [Bool.and_eq_true, beq_iff_eq, beq_iff_eq] at own
    obtain ⟨pod, rgn⟩ := own
    exact ne_true_of_eq_false (clean e mem pod rgn)
  simp only [Dev.unloadDone, spills, held, ne_eq, not_true_eq_false, Bool.false_eq_true, or_self, if_false, none, unloads]

end unload

/-- Settles O54: each command of a region by the case of its state. -/
theorem regionCommands : Obligations.RegionCommands := by
  unfold Obligations.RegionCommands
  refine ⟨fun s p g clocked => ?states, fun s p g v clocked => ⟨fun one => ⟨?clear, ?rclear⟩, fun ok => ?configures,
    fun bad => ?rejects⟩⟩
  case states =>
    refine ⟨fun sweeps plain => ?empties, fun sweeps builds => ?builds, fun other => ?still,
      fun spills unheld some => ?poisoned, fun spills unheld good d unloads => ?unloads, fun other => ?unspilled,
      fun x spilled ready => ?replays, fun waits => ?waits, fun x replay at6 done => ?next, fun none => ?unreplayed,
      .of_act (exec_genMarkingDone p g s) clocked rfl, fun sweeps => ?rclears, fun other => ?rstill⟩
    case empties =>
      refine .of_act (exec_clearSweepDone p g s) clocked ?_
      simp only [Dev.sweepDone, sweeps, ne_eq, not_true_eq_false, if_false, plain, Bool.not_false, if_true, Dev.freeEntries]
    case builds =>
      exact ⟨_, .of_act (exec_clearSweepDone p g s) clocked rfl, Dev.sweepDone_builder_jstate sweeps builds,
        fun e mem => s.dev.freeEntries_gone _ _ e (Dev.sweepDone_builder_jents sweeps builds ▸ mem)⟩
    case still => exact .of_act (exec_clearSweepDone p g s) clocked (if_pos other)
    case poisoned =>
      exact .of_act (exec_spillUnloadComplete p g s) clocked (Dev.unloadDone_poisoned spills unheld some)
    case unloads =>
      exact .of_act (exec_spillUnloadComplete p g s) clocked (Dev.unloadDone_clean spills unheld good unloads)
    case unspilled =>
      exact .of_act (exec_spillUnloadComplete p g s) clocked (if_pos (.inl other))
    case replays =>
      refine .of_act (exec_replayStart p g s) clocked ?_
      simp only [spilled, ne_eq, not_true_eq_false, if_false, ready]
    case waits =>
      refine .of_act (exec_replayStart p g s) clocked ?_
      simp only [waits, ite_self]
    case next =>
      refine .of_act (exec_replayWaveDone p g s) clocked ?_
      simp only [replay, at6, done, ne_eq, not_true_eq_false, Bool.not_true, Bool.false_eq_true, or_self, if_false]
    case unreplayed =>
      refine .of_act (exec_replayWaveDone p g s) clocked ?_
      simp only [none]
    case rclears => exact .of_act (exec_rdrClearDone p g s) clocked (if_neg (not_not_intro sweeps))
    case rstill => exact .of_act (exec_rdrClearDone p g s) clocked (if_pos other)
  case clear =>
    refine .of_act (exec_jdrRegionClear p _ s) clocked ?_
    rw [Dev.access_bar0_full (show RegKind.JDR_POD_CLEAR ≠ .RNG_PUSH by decide), fieldIn_bit16 rfl rfl g.isLt one,
      Dev.jdrClear_one _ _ g.isLt]
    rfl
  case rclear =>
    refine .of_act (exec_rdrRegionClear p _ s) clocked ?_
    rw [Dev.access_bar0_full (show RegKind.RDR_POD_CLEAR ≠ .RNG_PUSH by decide), fieldIn_bit16 rfl rfl g.isLt one,
      Dev.rdrClear_one _ _ g.isLt]
    cases owned : ((s.dev.unstage (RegRef.addr ⟨.RDR_POD_CLEAR, p.val, 0⟩)).rregion p.val g.val).owner <;> rfl
  case configures =>
    refine .of_act (exec_rdrRegionCfg p g _ s) clocked ?_
    rw [Dev.access_bar0_full (show RegKind.RDR_POD_RGN_CFG ≠ .RNG_PUSH by decide)]
    exact if_pos ok
  case rejects =>
    refine .of_act (exec_rdrRegionCfg p g _ s) clocked ?_
    rw [Dev.access_bar0_full (show RegKind.RDR_POD_RGN_CFG ≠ .RNG_PUSH by decide)]
    exact if_neg (ne_true_of_eq_false bad)

end Sys2Proof.Machine

namespace Sys2Proof.Machine

/-! ### Exchanges between members -/

section credit
variable {d : Dev} {x : XRef} {i : Inst} {r : Run} {g : Nat} {st : StageSt}
    (found : d.findInst x.tile.val x.slot.val = some i) (run : d.findRun i.ring i.index = some r)
    (global : globalOf (d.spanInsts r i.pipe) x.member.val x.inst.toNat = some g) (stage : i.stages[x.stage.val]? = some st)
include found run global stage

theorem Dev.onCredit_eq (f : Credit → Credit) :
    d.onCredit x f =
      if (st.credit g).asked then
        d.setInst { i with stages := i.stages.set x.stage.val (st.setCredit (f (st.credit g))) }
      else d := by
  simp only [Dev.onCredit, found, run, Option.bind_some, global, stage]

theorem creditTimeout_gives {s : State} (at_ : s.dev = d) (clocked : s.dev.clocked) :
    Gives (.creditTimeout x) s (if (st.credit g).asked && i.life == .running && !st.ended then
      d.failInst i x.stage.val ⟨0x61, x.member.val⟩ 0 0 else d) := by
  refine .of_act (exec_creditTimeout x s) clocked ?_
  simp only [at_, found, run, Option.bind_some, global, stage]

end credit

/-- Settles O55: the producer's commands by its credit, the consumer's by the message it holds. -/
theorem exchangeCommands : Obligations.ExchangeCommands := by
  unfold Obligations.ExchangeCommands
  refine ⟨fun s x i r g st clocked found run global stage => ⟨fun asked => ⟨?grants, ?holds, fun runs open_ => ?times⟩,
      fun calm => ⟨?ungranted, ?unheld, ?untimed⟩⟩,
    fun s q c rows clocked here => ⟨fun room first => ?grant, fun full => ?hold, fun other => ?strange,
      fun own full => ?again, fun h rest holds own room => ?oldest, fun own some few wide => ?takes,
      fun other => ?drops, fun other => ?foreign, fun own new => ⟨fun more => ?closes, fun all none => ?ends⟩⟩⟩
  case grants =>
    exact .of_act (exec_creditGrant x s) clocked ((Dev.onCredit_eq found run global stage _).trans (if_pos asked))
  case holds =>
    exact .of_act (exec_creditHold x s) clocked ((Dev.onCredit_eq found run global stage _).trans (if_pos asked))
  case times =>
    have gives := creditTimeout_gives found run global stage rfl clocked
    rw [asked, runs, open_] at gives
    exact gives
  case ungranted =>
    exact .of_act (exec_creditGrant x s) clocked
      ((Dev.onCredit_eq found run global stage _).trans (if_neg (ne_true_of_eq_false calm)))
  case unheld =>
    exact .of_act (exec_creditHold x s) clocked
      ((Dev.onCredit_eq found run global stage _).trans (if_neg (ne_true_of_eq_false calm)))
  case untimed =>
    have gives := creditTimeout_gives found run global stage rfl clocked
    rw [calm] at gives
    exact gives
  case grant =>
    refine .of_act (exec_creditRequest q s) clocked ?_
    simp only [here, room, first, List.isEmpty_nil, Bool.and_self, if_true]
  case hold =>
    refine .of_act (exec_creditRequest q s) clocked ?_
    simp only [here, full, Bool.false_and, Bool.false_eq_true, if_false]
  case strange =>
    refine .of_act (exec_holdRepeat q s) clocked ?_
    simp only [here, other, Bool.not_false, if_true]
  case again =>
    refine .of_act (exec_holdRepeat q s) clocked ?_
    simp only [here, own, full, Bool.not_true, Bool.false_eq_true, if_false]
  case oldest =>
    refine .of_act (exec_holdRepeat q s) clocked ?_
    rw [holds] at own
    simp only [here, holds, own, room, Bool.not_true, Bool.false_eq_true, if_false, if_true]
  case takes =>
    refine .of_act (exec_exchangePacket q rows s) clocked ?_
    have nonempty : rows.isEmpty = false := List.isEmpty_eq_false_iff.mpr (List.ne_nil_of_length_pos some)
    have fit : (rows.any fun r => r.cols.length != c.streams.length) = false :=
      List.any_eq_false.mpr fun r mem => by simp [wide r mem]
    simp only [here, own, nonempty, fit, Nat.not_lt.mpr few, decide_false, Bool.not_true, Bool.or_self,
      Bool.false_eq_true, if_false]
  case drops =>
    refine .of_act (exec_exchangePacket q rows s) clocked ?_
    simp only [here, other, Bool.not_false, Bool.true_or, if_true]
  case foreign =>
    refine .of_act (exec_endMarker q s) clocked ?_
    simp only [here, other, Bool.not_false, if_true]
  case closes =>
    refine .of_act (exec_endMarker q s) clocked ?_
    simp only [here, own, new, more, Bool.not_true, Bool.false_eq_true, if_false]
  case ends =>
    refine .of_act (exec_endMarker q s) clocked ?_
    simp only [here, own, new, all, none, List.isEmpty_nil, Bool.not_true, Bool.false_eq_true, if_false, if_true]

end Sys2Proof.Machine

/-! Settling O56: the ports, their codewords and flits, and the headers of messages. -/

namespace Sys2Proof.Machine

/-! ### The ports -/

theorem Dev.linkLost_unkept {d : Dev} {k : Nat} (gone : (d.port k).kept = false) : d.linkLost k = d := by
  simp only [Dev.linkLost, gone, Bool.not_false, if_true]

theorem Dev.portState_put_ctrl (d : Dev) (v k : Nat) : (d.put F.LNK_PORT_CTRL_EN v k).portState k = d.portState k := by
  have apart : Fld.apart F.LNK_PORT_CTRL_EN F.LNK_PORT_STATUS_STATE = true := by decide
  simp only [Dev.portState, Dev.get_put_apart _ apart]

theorem bitsOf_mod_width (v lo w : Nat) : bitsOf v lo w % 2 ^ w = bitsOf v lo w := Nat.mod_mod _ _

theorem bitsOf_foldl_apart {g : Fld} {fs : List Fld} (apart : ∀ f ∈ fs, g.lo + g.width ≤ f.lo ∨ f.lo + f.width ≤ g.lo)
    (x : Fld → Nat) (v : Nat) :
    bitsOf (fs.foldl (fun v f => setBits v f.lo f.width (x f)) v) g.lo g.width = bitsOf v g.lo g.width := by
  induction fs generalizing v with
  | nil => rfl
  | cons f fs ih =>
    obtain ⟨first, rest⟩ := List.forall_mem_cons.mp apart
    rw [List.foldl_cons, ih rest, bitsOf_setBits_ne _ _ _ _ _ _ first]

/-- A field of a register after a whole write, where no later field lies on it. -/
theorem bitsOf_regAfter {g : Fld} {before after : List Fld}
    (apart : ∀ f ∈ after, g.lo + g.width ≤ f.lo ∨ f.lo + f.width ≤ g.lo) (old new : Nat) (locked : Bool) :
    bitsOf (regAfter (before ++ g :: after) old new locked false) g.lo g.width =
      fieldAfter g old new locked % 2 ^ g.width := by
  simp only [regAfter, Bool.false_and, Bool.false_eq_true, if_false, List.foldl_append, List.foldl_cons]
  rw [bitsOf_foldl_apart apart, bitsOf_setBits]

theorem fieldAfter_locked {g : Fld} (lockable : g.acc = .rwl) (old new : Nat) :
    fieldAfter g old new true = bitsOf old g.lo g.width := by
  simp only [fieldAfter, lockable, if_true]

/-- A lockable field keeps its value through a whole write of its locked register. -/
theorem bitsOf_regAfter_locked {g : Fld} {before after : List Fld} (lockable : g.acc = .rwl)
    (apart : ∀ f ∈ after, g.lo + g.width ≤ f.lo ∨ f.lo + f.width ≤ g.lo) (old new : Nat) :
    bitsOf (regAfter (before ++ g :: after) old new true false) g.lo g.width = bitsOf old g.lo g.width := by
  rw [bitsOf_regAfter apart, fieldAfter_locked lockable, bitsOf_mod_width]

section locked
variable {d : Dev} (locked : d.get F.LNK_SPAN_CFG_LOCK = 1) (v : Nat)
include locked

theorem Dev.spanCfgWrite_locked :
    d.spanCfgWrite v false =
      (d.wr ⟨.LNK_SPAN_CFG, 0, 0⟩ (regAfter (RegKind.fields .LNK_SPAN_CFG) (d.rd ⟨.LNK_SPAN_CFG, 0, 0⟩) v true false)).put
        F.LNK_SPAN_CFG_LOCK 1 := by
  simp only [Dev.spanCfgWrite, locked, if_true]
  rfl

theorem Dev.spanCfgWrite_lock : (d.spanCfgWrite v false).get F.LNK_SPAN_CFG_LOCK = 1 := by
  rw [Dev.spanCfgWrite_locked locked]
  exact Dev.get_put_of_lt _ 0 0 (by decide) (by decide)

theorem Dev.spanCfgWrite_field {g : Fld} {before after : List Fld} (here : g.kind = .LNK_SPAN_CFG)
    (fields : RegKind.fields .LNK_SPAN_CFG = before ++ g :: after) (lockable : g.acc = .rwl)
    (apart : ∀ f ∈ after, g.lo + g.width ≤ f.lo ∨ f.lo + f.width ≤ g.lo) (unlike : g.lo + g.width ≤ 63) :
    (d.spanCfgWrite v false).get g = d.get g := by
  rw [Dev.spanCfgWrite_locked locked, Dev.get_put_field _ _ _ _ _ _ here (by omega) (.inl unlike), Dev.get, here, Dev.rd_wr,
    bitsOf_mod _ _ _ (by omega), fields, bitsOf_regAfter_locked lockable apart, Dev.get, here]

theorem Dev.spanCfgWrite_id : (d.spanCfgWrite v false).get F.LNK_SPAN_CFG_SPAN_ID = d.get F.LNK_SPAN_CFG_SPAN_ID :=
  Dev.spanCfgWrite_field locked v rfl (before := [F.LNK_SPAN_CFG_LOCK, F.LNK_SPAN_CFG_AUTO_READMIT, F.LNK_SPAN_CFG_SPAN_NO])
    (after := []) rfl rfl (by decide) (by decide)

theorem Dev.spanCfgWrite_number : (d.spanCfgWrite v false).get F.LNK_SPAN_CFG_SPAN_NO = d.get F.LNK_SPAN_CFG_SPAN_NO :=
  Dev.spanCfgWrite_field locked v rfl (before := [F.LNK_SPAN_CFG_LOCK, F.LNK_SPAN_CFG_AUTO_READMIT])
    (after := [F.LNK_SPAN_CFG_SPAN_ID]) rfl rfl (by decide) (by decide)

end locked

/-- A device awake takes no wake. -/
theorem Dev.wakeUp_awake {d : Dev} (awake : d.pstate ≤ 1) (on : d.pw.off = false) (kept : d.hull.otp.lifecycle ≠ 4)
    (sources : Nat) : d.wakeUp sources = d := by
  simp only [Dev.wakeUp, on, kept, awake, Bool.false_eq_true, if_false, or_true, if_true]

/-! ### Codewords and flits -/

theorem Dev.rd_count_ne (d : Dev) {k : RegKind} {i : Nat} {r : RegRef} (quiet : r.Quiet)
    (other : r.addr ≠ RegRef.addr ⟨k, i, 0⟩) (n : Nat) : (d.count k n i).rd r = d.rd r := by
  have wrote (v : Nat) : (d.wr ⟨k, i, 0⟩ v).rd r = d.rd r := Dev.rd_wr_ne _ _ _ _ other
  rw [Dev.count]
  split
  · exact wrote _
  · split
    · exact ((Dev.hushed_report_podless _ rfl).quiet r quiet).trans (wrote _)
    · exact wrote _

theorem quiet_portStatus (k : Fin 4) : RegRef.Quiet ⟨.LNK_PORT_STATUS, k.val, 0⟩ := by
  revert k
  unfold RegRef.Quiet
  decide +kernel

theorem portStatus_fecCorr (k : Fin 4) :
    RegRef.addr ⟨.LNK_PORT_STATUS, k.val, 0⟩ ≠ RegRef.addr ⟨.LNK_PORT_FEC_CORR, k.val, 0⟩ := by
  revert k
  decide +kernel

theorem portStatus_fecUncorr (k : Fin 4) :
    RegRef.addr ⟨.LNK_PORT_STATUS, k.val, 0⟩ ≠ RegRef.addr ⟨.LNK_PORT_FEC_UNCORR, k.val, 0⟩ := by
  revert k
  decide +kernel

/-- The errors that a codeword's decoder counts. -/
def Dev.fecCounted (d : Dev) (k e : Nat) : Dev :=
  if e = 0 then d else if e ≤ 15 then d.count .LNK_PORT_FEC_CORR e k else d.count .LNK_PORT_FEC_UNCORR 1 k

theorem Dev.portState_fecCounted (d : Dev) (k : Fin 4) (e : Nat) : (d.fecCounted k.val e).portState k.val = d.portState k.val := by
  have same {c : Dev} (h : c.rd ⟨.LNK_PORT_STATUS, k.val, 0⟩ = d.rd ⟨.LNK_PORT_STATUS, k.val, 0⟩) :
      c.portState k.val = d.portState k.val := congrArg (bitsOf · 0 4) h
  rw [Dev.fecCounted]
  split
  · rfl
  · split
    · exact same (Dev.rd_count_ne _ (quiet_portStatus k) (portStatus_fecCorr k) _)
    · exact same (Dev.rd_count_ne _ (quiet_portStatus k) (portStatus_fecUncorr k) _)

/-- A codeword at an ACTIVE port that holds its lock. -/
theorem gives_codeword {s : State} {k : Fin 4} (h : BitVec 20) (e : BitVec 8) {q : Port} (clocked : s.dev.clocked)
    (active : s.dev.portState k.val = 4) (locked : (s.dev.port k.val).cwLock = true)
    (tracks : (s.dev.port k.val).tracked ((s.dev.port k.val).goodWord h.toNat e.toNat)
      (if e.toNat ≤ 15 then bitsOf h.toNat 4 8 else ((s.dev.port k.val).cwSeq + 1) % 256) = q) :
    Gives (.codeword k h e) s
      (let d := (s.dev.fecCounted k.val e.toNat).onPort k.val fun _ => q
       if q.cwLock = false then d.retrainPort k.val
       else if 15 < e.toNat ∨ 3 ≤ bitsOf h.toNat 0 4 then d.sendNak k.val else d) := by
  refine .of_act (exec_codeword k h e s) clocked ?_
  have at4 : ((s.dev.fecCounted k.val e.toNat).onPort k.val fun _ => q).portState k.val = 4 :=
    (s.dev.portState_fecCounted k e.toNat).trans active
  have open_ : ¬(s.dev.portState k.val < 2 ∨ 4 < s.dev.portState k.val) := by omega
  rw [Dev.fecCounted] at at4
  simp only [open_, if_false, tracks, Dev.fecCounted, at4, ne_eq, not_true_eq_false, locked, Bool.true_and,
    Bool.not_eq_true']

end Sys2Proof.Machine

namespace Sys2Proof.Machine

/-! ### What a port keeps -/

/-- A change of a port that leaves it as it is changes nothing. -/
theorem Dev.onPort_same {d : Dev} {k : Nat} {f : Port → Port} (same : f (d.port k) = d.port k) : d.onPort k f = d := by
  have ports : d.ports.modify k f = d.ports := by
    refine List.ext_getElem? fun j => ?_
    rw [List.getElem?_modify]
    split
    next here =>
      subst here
      cases at_ : d.ports[k]? with
      | none => rfl
      | some p =>
        have port : d.port k = p := by rw [Dev.port, List.getD_eq_getElem?_getD, at_, Option.getD_some]
        rw [port] at same
        exact congrArg some same
    next => exact id_map' _
  exact congrArg (fun l => { d with ports := l }) ports

/-- What a change of a port keeps of each port, it keeps of the port it changes. -/
theorem Dev.port_onPort {α : Type} (d : Dev) (k : Nat) {f : Port → Port} {g : Port → α} (keeps : ∀ p, g (f p) = g p) :
    g ((d.onPort k f).port k) = g (d.port k) := by
  simp only [Dev.onPort, Dev.port, List.getD_eq_getElem?_getD, List.getElem?_modify, if_true]
  cases d.ports[k]? with
  | none => rfl
  | some p => exact keeps p

theorem afterAck_missing {l : List Nat} {ack : Nat} (gone : l.contains ack = false) : afterAck l ack = l := by
  have none : l.findIdx? (· == ack) = none := by
    rw [List.findIdx?_eq_none_iff]
    intro x mem
    rw [beq_eq_false_iff_ne]
    rintro rfl
    rw [List.contains_iff_mem.mpr mem] at gone
    exact Bool.noConfusion gone
  simp only [afterAck, none]

/-- An ACK that names nothing unacknowledged leaves the port as it is. -/
theorem Dev.takeAck_nothing {d : Dev} {k ack : Nat} (gone : (d.port k).replay.contains ack = false) :
    d.takeAck k ack false = d := by
  simp only [Dev.takeAck, afterAck_missing gone, Nat.lt_irrefl, if_false, Bool.not_false, if_true, Bool.toNat_false,
    Nat.add_zero]
  exact Dev.onPort_same rfl

theorem Dev.sendWaiting_nothing {d : Dev} {k : Nat} (none : (d.port k).waiting = []) : d.sendWaiting k = d := by
  have same : d.onPort k (fun x => { x with waiting := [] }) = d := Dev.onPort_same (none ▸ rfl)
  rw [Dev.port] at none
  rw [Dev.sendWaiting]
  split
  · simp only [none, List.foldl_nil]
    exact same
  · rfl

/-! ### Headers -/

theorem setBits_lt_two_pow {v n : Nat} (lo w x : Nat) (below : v < 2 ^ n) (inside : lo + w ≤ n) :
    setBits v lo w x < 2 ^ n := by
  refine Nat.lt_pow_two_of_testBit _ fun i high => ?_
  rw [testBit_setBits, if_neg (by omega)]
  exact Nat.testBit_lt_two_pow (Nat.lt_of_lt_of_le below (Nat.pow_le_pow_right (by omega) high))

theorem DzHeader.slot_lt (h : DzHeader) : h.slot < 2 ^ 216 := by
  unfold DzHeader.slot
  iterate 10 refine setBits_lt_two_pow _ _ _ ?_ (by decide)
  exact Nat.two_pow_pos _

/-- The fields of a header, read back from its slot. -/
theorem DzHeader.ofSlot_slot (h : DzHeader) :
    DzHeader.ofSlot h.slot =
      { group := h.group % 2 ^ 16, addr := h.addr % 2 ^ 46, txn := h.txn % 2 ^ 16, poison := h.poison % 2 ^ 2,
        len := h.len % 2 ^ 8, opc := h.opc % 2 ^ 8, src := h.src % 2 ^ 4, dst := h.dst % 2 ^ 4, hop := h.hop % 2 ^ 2,
        body := h.body % 2 ^ 110 } := by
  simp (disch := decide) only [DzHeader.ofSlot, DzHeader.slot, bitsOf_setBits_ne, bitsOf_setBits]

/-! ### Messages to a peer -/

section message
variable {d : Dev} {o : Out} {k : Nat} {i : Option Nat} (to_ : o.peer d.self = some (k, i))
include to_

theorem Dev.emit_unrouted (none : d.portsTo k = []) : d.emit o = { d with out := o :: d.out } := by
  rw [Dev.self] at to_
  simp only [Dev.emit, to_, none, List.getElem?_nil]

theorem Dev.emit_posts {p : Nat} (port : (d.portsTo k)[(i.getD 0) % (d.portsTo k).length]? = some p) :
    d.emit o = ({ d with msgTag := d.msgTag + 1 } : Dev).postMsg p o (o.head d.self k (Config.messageTag d.msgTag)).slot := by
  rw [Dev.self] at to_
  simp only [Dev.emit, to_, port, Dev.self]

end message

section post
variable {d : Dev} {o : Out} {p slot : Nat}

theorem Dev.postMsg_leaves (credits : slotLen slot ≤ (d.ports.getD p Port.reset).credits.getD o.creditAt 0)
    (room : (d.ports.getD p Port.reset).replay.length < 256) (first : (d.ports.getD p Port.reset).waiting = []) :
    d.postMsg p o slot = d.launch p o slot := by
  refine if_pos ?_
  simp only [Port.canSend, first, List.any_nil, Bool.not_false, credits, room, decide_true, Bool.and_self]

theorem Dev.postMsg_waits (held : (d.ports.getD p Port.reset).credits.getD o.creditAt 0 < slotLen slot ∨
      256 ≤ (d.ports.getD p Port.reset).replay.length ∨
      ((d.ports.getD p Port.reset).waiting.any fun w => w.1.linkClass == o.linkClass) = true) :
    d.postMsg p o slot =
      { d with ports := d.ports.modify p fun x => { x with waiting := x.waiting ++ [(o, slot)] } } := by
  refine if_neg ?_
  rcases held with poor | full | queued
  · simp only [Port.canSend, Nat.not_le.mpr poor, decide_false, Bool.and_false, Bool.false_and, Bool.false_eq_true,
      not_false_eq_true]
  · simp only [Port.canSend, Nat.not_lt.mpr full, decide_false, Bool.and_false, Bool.false_eq_true, not_false_eq_true]
  · simp only [Port.canSend, queued, Bool.not_true, Bool.false_and, Bool.false_eq_true, not_false_eq_true]

end post

end Sys2Proof.Machine

namespace Sys2Proof.Machine

/-! ### The lock of codewords -/

section words
variable {p : Port} (locked : p.cwLock = true)
include locked

theorem Port.tracked_good (seq : Nat) :
    p.tracked true seq = { p with cwGood := min (p.cwGood + 1) 8, cwBad := 0, cwSeq := seq } := by
  simp only [Port.tracked, if_true, locked, Bool.true_or]

theorem Port.tracked_bad (few : p.cwBad < 3) (seq : Nat) :
    p.tracked false seq = { p with cwGood := 0, cwBad := p.cwBad + 1, cwSeq := seq } := by
  simp only [Port.tracked, Bool.false_eq_true, if_false, locked, Bool.true_and, few, decide_true, Nat.not_le.mpr few]

theorem Port.tracked_lost (many : 3 ≤ p.cwBad) (seq : Nat) :
    p.tracked false seq = { p with cwGood := 0, cwBad := 0, cwSeq := seq, cwLock := false } := by
  simp only [Port.tracked, Bool.false_eq_true, if_false, locked, Bool.true_and, Nat.not_lt.mpr many, decide_false, many,
    if_true]

end words

theorem Port.goodWord_good {p : Port} {h e : Nat} (few : e ≤ 15) (sync : bitsOf h 12 8 = 0xA5)
    (next : bitsOf h 4 8 = (p.cwSeq + 1) % 256) : p.goodWord h e = true := by
  simp only [Port.goodWord, few, decide_true, sync, next, beq_self_eq_true, Bool.true_or, Bool.and_self]

theorem Port.goodWord_many {p : Port} {h e : Nat} (many : 15 < e) : p.goodWord h e = false := by
  simp only [Port.goodWord, Nat.not_le.mpr many, decide_false, Bool.false_and]

theorem Dev.fecCounted_few (d : Dev) (k : Nat) {e : Nat} (few : e ≤ 15) :
    d.fecCounted k e = if e = 0 then d else d.count .LNK_PORT_FEC_CORR e k := by
  rw [Dev.fecCounted, if_pos few]

theorem Dev.fecCounted_many (d : Dev) (k : Nat) {e : Nat} (many : 15 < e) :
    d.fecCounted k e = d.count .LNK_PORT_FEC_UNCORR 1 k := by
  rw [Dev.fecCounted, if_neg (by omega), if_neg (by omega)]

/-- A codeword that keeps the lock: it is discarded and answered with NAK, or taken. -/
theorem gives_codeword_held {s : State} {k : Fin 4} (h : BitVec 20) (e : BitVec 8) {q : Port} {d : Dev}
    (clocked : s.dev.clocked) (active : s.dev.portState k.val = 4) (locked : (s.dev.port k.val).cwLock = true)
    (tracks : (s.dev.port k.val).tracked ((s.dev.port k.val).goodWord h.toNat e.toNat)
      (if e.toNat ≤ 15 then bitsOf h.toNat 4 8 else ((s.dev.port k.val).cwSeq + 1) % 256) = q)
    (held : q.cwLock = true) (counts : s.dev.fecCounted k.val e.toNat = d) :
    Gives (.codeword k h e) s
      (if 15 < e.toNat ∨ 3 ≤ bitsOf h.toNat 0 4 then (d.onPort k.val fun _ => q).sendNak k.val
       else d.onPort k.val fun _ => q) := by
  subst counts
  have word := gives_codeword h e clocked active locked tracks
  simp only [held, Bool.true_eq_false, if_false] at word
  exact word

/-- Settles O56: each port command by the port's state, codewords by `gives_codeword`, flits by what they acknowledge, and
headers by their fields. -/
theorem portAndLinkCommands : Obligations.PortAndLinkCommands := by
  unfold Obligations.PortAndLinkCommands
  refine ⟨⟨fun s k clocked => ?ports, fun s k low awake on kept => ?wakes⟩,
    ⟨fun s k h e clocked active => ?words, fun s k f clocked active => ?flits, fun p cr i lt => ?credits,
      fun s k f h e clocked silent => ?silent⟩,
    fun h group addr txn poison len opc src dst hop body => ⟨?slot, h.slot_lt⟩,
    fun d o k i to_ => ⟨Dev.emit_unrouted to_, fun p port => ⟨fun credits room first => ?leaves, fun held => ?held⟩⟩⟩
  case ports =>
    refine ⟨fun v unlocked => ?unlocked, fun v locked => ?locked, fun off => ?enables, fun on => ?enabled,
      fun unkept => ?disables, fun stopped => ?retrains, fun runs => ?ignores, fun detects => ?detects,
      fun other => ?undetected, fun trains => ⟨fun w some wide => ?trained, fun w half narrow => ?narrow, ?fails,
        fun h narrow wide => ?halves⟩,
      fun n asks refused unkept => ?refused, fun n asks accepted unkept => ?accepted, fun active => ?lows,
      fun waits => ⟨?acked, ?unacked⟩, fun calm => ⟨?calmAck, ?calmTimeout⟩⟩
    case unlocked =>
      refine .of_act (exec_spanCfgLock _ s) clocked ?_
      rw [Dev.access_bar0_full (show RegKind.LNK_SPAN_CFG ≠ .RNG_PUSH by decide)]
      have free : (s.dev.unstage (RegRef.addr ⟨.LNK_SPAN_CFG, 0, 0⟩)).get F.LNK_SPAN_CFG_LOCK = 0 := unlocked
      simp only [Dev.spanCfgWrite, free, Nat.zero_ne_one, if_false]
      rfl
    case locked =>
      refine ⟨_, .of_act (exec_spanCfgLock _ s) clocked rfl, ?_⟩
      rw [Dev.access_bar0_full (show RegKind.LNK_SPAN_CFG ≠ .RNG_PUSH by decide)]
      have held : (s.dev.unstage (RegRef.addr ⟨.LNK_SPAN_CFG, 0, 0⟩)).get F.LNK_SPAN_CFG_LOCK = 1 := locked
      exact ⟨Dev.spanCfgWrite_lock held _, Dev.spanCfgWrite_id held _, Dev.spanCfgWrite_number held _⟩
    case enables =>
      exact .of_act (exec_portEnable k s) clocked (if_pos ((s.dev.portState_put_ctrl 1 k.val).trans off))
    case enabled =>
      exact .of_act (exec_portEnable k s) clocked
        (if_neg fun off => on ((s.dev.portState_put_ctrl 1 k.val).symm.trans off))
    case disables =>
      refine .of_act (exec_portDisable k s) clocked ?_
      have gone : (((s.dev.put F.LNK_PORT_CTRL_EN 0 k.val).enterPort k.val 0).port k.val).kept = false := unkept
      simp only [Dev.portDisable, Dev.linkLost_unkept gone]
    case retrains =>
      refine .of_act (exec_portRetrain k s) clocked ?_
      rcases stopped with state | state <;> simp only [Dev.portRetrain, state]
    case ignores =>
      refine .of_act (exec_portRetrain k s) clocked ?_
      rcases runs with state | state | state | state <;> simp only [Dev.portRetrain, state]
    case detects => exact .of_act (exec_portSignalDetect k s) clocked (if_pos detects)
    case undetected => exact .of_act (exec_portSignalDetect k s) clocked (if_neg other)
    case trained =>
      exact .of_act (exec_portTrainComplete k w s) clocked
        ((if_neg fun bad => bad.elim (fun h => h trains) some).trans (if_pos wide))
    case narrow =>
      have some : ¬(s.dev.portState k.val ≠ 2 ∨ w.val = 0) := by omega
      have short : ¬(w.val = 3 ∨ s.dev.get F.LNK_PORT_CTRL_NARROW_OK k.val = 1) := by omega
      exact .of_act (exec_portTrainComplete k w s) clocked ((if_neg some).trans (if_neg short))
    case fails => exact .of_act (exec_portTrainFail k none s) clocked (if_neg (not_not_intro trains))
    case halves =>
      have full : s.dev.get F.LNK_PORT_CTRL_NARROW_OK k.val = 1 ∧ s.dev.get F.LNK_PORT_STATUS_WIDTH k.val ≠ 1 ∧
          s.dev.get F.LNK_PORT_STATUS_WIDTH k.val ≠ 2 := by omega
      exact .of_act (exec_portTrainFail k (some h) s) clocked ((if_neg (not_not_intro trains)).trans (if_pos full))
    case refused =>
      refine .of_act (exec_portParameters k n s) clocked ?_
      simp only [asks, ne_eq, not_true_eq_false, if_false, refused, Dev.linkLost_unkept unkept, ite_self,
        Bool.false_eq_true]
    case accepted =>
      refine .of_act (exec_portParameters k n s) clocked ?_
      simp only [asks, ne_eq, not_true_eq_false, if_false, accepted, Dev.linkLost_unkept unkept, ite_self, if_true]
    case lows => exact .of_act (exec_lpreq k s) clocked (if_pos active)
    case acked => exact .of_act (exec_lpack k s) clocked (if_pos waits)
    case unacked => exact .of_act (exec_lpackTimeout k s) clocked (if_pos waits)
    case calmAck => exact .of_act (exec_lpack k s) clocked (if_neg (ne_true_of_eq_false calm))
    case calmTimeout => exact .of_act (exec_lpackTimeout k s) clocked (if_neg (ne_true_of_eq_false calm))
  case wakes =>
    refine .of_always (exec_wakePattern k s) ?_
    have wide : ¬(s.dev.pstate = 2 ∨ s.dev.pstate = 3 ∨ s.dev.pw.off = true) := by
      rw [Dev.pstate, on]
      simp only [Bool.false_eq_true, or_false]
      omega
    simp only [low, ne_eq, not_true_eq_false, if_false, Dev.wakeUp_awake awake on kept, wide]
  case words =>
    intro p locked
    refine ⟨fun few sync next => ?good, fun many left => ?bad, fun many lost => ?lost⟩
    case good =>
      have word := gives_codeword_held h e clocked active locked
        (q := { p with cwGood := min (p.cwGood + 1) 8, cwBad := 0, cwSeq := (p.cwSeq + 1) % 256 }) (by
          rw [Port.goodWord_good few sync next, if_pos few, next]
          exact Port.tracked_good locked _) locked (s.dev.fecCounted_few k.val few)
      refine ⟨fun flit => ?_, fun other => ?_⟩
      · rw [if_neg (by omega)] at word
        exact word
      · rw [if_pos (.inr other)] at word
        exact word
    case bad =>
      have word := gives_codeword_held h e clocked active locked
        (q := { p with cwGood := 0, cwBad := p.cwBad + 1, cwSeq := (p.cwSeq + 1) % 256 }) (by
          rw [Port.goodWord_many many, if_neg (by omega)]
          exact Port.tracked_bad locked left _) locked (s.dev.fecCounted_many k.val many)
      rw [if_pos (.inl many)] at word
      exact word
    case lost =>
      have word := gives_codeword h e clocked active locked
        (q := { p with cwGood := 0, cwBad := 0, cwSeq := (p.cwSeq + 1) % 256, cwLock := false }) (by
          rw [Port.goodWord_many many, if_neg (by omega)]
          exact Port.tracked_lost locked lost _)
      simp only [Dev.fecCounted_many _ _ many, if_true] at word
      exact word
  case flits =>
    have accepted (good : f.crcOk = true) (order : f.seq.toNat = (s.dev.port k.val).rxSeq) :
        ¬(!f.crcOk || f.seq.toNat != (s.dev.port k.val).rxSeq) = true := by
      simp [good, order]
    refine ⟨fun bad => ?nak, fun good order => ?takes, fun good order plain gone none => ?bare⟩
    case nak =>
      refine .of_act (exec_flit k f s) clocked ((if_neg (not_not_intro active)).trans (if_pos ?_))
      rw [Bool.or_eq_true, Bool.not_eq_true', bne_iff_ne]
      exact bad
    case takes =>
      exact .of_act (exec_flit k f s) clocked ((if_neg (not_not_intro active)).trans (if_neg (accepted good order)))
    case bare =>
      refine .of_act (exec_flit k f s) clocked
        ((if_neg (not_not_intro active)).trans ((if_neg (accepted good order)).trans ?_))
      rw [plain, Dev.takeAck_nothing, Dev.sendWaiting_nothing]
      · rw [Dev.port_onPort _ _ (g := Port.waiting)]
        · exact none
        · exact fun _ => rfl
      · rw [Dev.port_onPort _ _ (g := Port.replay)]
        · exact gone
        · exact fun _ => rfl
  case credits =>
    simp only [Port.returned, List.getD_eq_getElem?_getD, List.getElem?_map, List.getElem?_zipIdx,
      List.getElem?_eq_getElem lt, Option.map_some, Option.getD_some, Nat.zero_add]
  case silent =>
    exact ⟨.of_act (exec_flit k f s) clocked (if_pos (by omega)),
      .of_act (exec_codeword k h e s) clocked (if_pos (.inl silent))⟩
  case slot =>
    rw [DzHeader.ofSlot_slot, Nat.mod_eq_of_lt group, Nat.mod_eq_of_lt addr, Nat.mod_eq_of_lt txn,
      Nat.mod_eq_of_lt (b := 2 ^ 2) poison, Nat.mod_eq_of_lt (b := 2 ^ 8) len, Nat.mod_eq_of_lt (b := 2 ^ 8) opc,
      Nat.mod_eq_of_lt (b := 2 ^ 4) src, Nat.mod_eq_of_lt (b := 2 ^ 4) dst, Nat.mod_eq_of_lt (b := 2 ^ 2) hop,
      Nat.mod_eq_of_lt body]
  case leaves => exact (Dev.emit_posts to_ port).trans (Dev.postMsg_leaves credits room first)
  case held => exact (Dev.emit_posts to_ port).trans (Dev.postMsg_waits held)

end Sys2Proof.Machine

namespace Sys2Proof.Machine

/-! ### The members of a span -/

theorem Dev.fencePeer_lost {d : Dev} {k : Nat} (lost : d.isLive k = false) (clean tell : Bool) :
    d.fencePeer k clean tell = d := by
  simp only [Dev.fencePeer, lost, Bool.not_false, if_true]

theorem Dev.isLive_hear (d : Dev) (j k : Nat) : (d.hear j).isLive k = d.isLive k := rfl

theorem Dev.spanRun_hear (d : Dev) (k : Nat) (group : BitVec 16) (tag : BitVec 64) :
    (d.hear k).spanRun group tag = d.spanRun group tag := rfl

theorem Dev.runPeers_hear (d : Dev) (k : Nat) (r : Run) : (d.hear k).runPeers r = d.runPeers r := rfl

theorem Dev.joins_hear (d : Dev) (k : Nat) : (d.hear k).joins = d.joins := rfl

/-- Settles O57: each message by whether its sender is live and its run is known. -/
theorem spanCommands : Obligations.SpanCommands := by
  unfold Obligations.SpanCommands
  refine ⟨fun s clocked => ⟨.of_act (exec_helloSend s) clocked rfl, fun v => ?permit⟩,
    fun s k clocked => ⟨fun own => ⟨?ownHello, fun nbrs => ?ownLinks⟩, fun other => ⟨?hello, fun nbrs => ?links⟩,
      fun lost => ⟨?lostPath, ?lostTimeout, fun j own clean => ?lostFence, ?lostReady⟩,
      fun live => ⟨.of_act (exec_pathLost k s) clocked rfl, .of_act (exec_peerTimeout k s) clocked rfl,
        fun j clean => ?fencesSender, fun j clean other => ?fencesPeer, ?ready⟩⟩,
    fun s k pipe group tag crc detail status counts clocked => ⟨fun lost => ⟨?lostJoin, ?lostDone, ?lostAbort⟩,
      fun unknown => ?expires, fun known => ?keeps, fun live unknown => ⟨?heldJoin, ?heldDone, ?heldAbort⟩,
      fun r live known => ⟨fun placed peer same => ?joins, ?done, fun running placed => ?aborts⟩⟩,
    fun s q r clocked found placed running => ⟨fun k missing => ?times, fun all => ?complete⟩⟩
  case permit =>
    refine .of_act (exec_readmitPermit _ s) clocked ?_
    rw [Dev.access_bar0_full (show RegKind.LNK_SPAN_CTRL ≠ .RNG_PUSH by decide)]
    rfl
  case ownHello => exact .of_act (exec_hello k s) clocked (if_pos own)
  case ownLinks => exact .of_act (exec_linkstate k nbrs s) clocked (if_pos own)
  case hello => exact .of_act (exec_hello k s) clocked (if_neg other)
  case links => exact .of_act (exec_linkstate k nbrs s) clocked (if_neg other)
  case lostPath => exact .of_act (exec_pathLost k s) clocked (Dev.fencePeer_lost lost _ _)
  case lostTimeout => exact .of_act (exec_peerTimeout k s) clocked (Dev.fencePeer_lost lost _ _)
  case lostFence =>
    refine .of_act (exec_fenceMessage k j own clean s) clocked ?_
    simp only [lost, Bool.not_false, if_true]
  case lostReady =>
    refine .of_act (exec_ready k s) clocked ?_
    simp only [Dev.isLive_hear, lost, Bool.false_eq_true, if_false]
  case fencesSender =>
    refine .of_act (exec_fenceMessage k j true clean s) clocked ?_
    simp only [live, Bool.not_true, Bool.false_eq_true, if_false, Bool.true_or, if_true]
  case fencesPeer =>
    refine .of_act (exec_fenceMessage k j false clean s) clocked ?_
    simp only [live, Bool.not_true, Bool.false_eq_true, if_false, beq_eq_false_iff_ne.mpr other, Bool.or_self]
  case ready =>
    refine .of_act (exec_ready k s) clocked ?_
    simp only [Dev.isLive_hear, live, if_true]
  case lostJoin =>
    refine .of_act (exec_join k group tag crc counts s) clocked ?_
    simp only [lost, Bool.not_false, if_true]
  case lostDone =>
    refine .of_act (exec_pipeDone k group tag pipe s) clocked ?_
    simp only [lost, Bool.not_false, if_true]
  case lostAbort =>
    refine .of_act (exec_abortMessage k group tag status detail s) clocked ?_
    simp only [lost, Bool.not_false, if_true]
  case expires =>
    refine .of_act (exec_joinHoldExpiry k group tag s) clocked ?_
    simp only [unknown, Option.isSome_none, Bool.false_eq_true, if_false]
  case keeps => exact .of_act (exec_joinHoldExpiry k group tag s) clocked (if_pos known)
  case heldJoin =>
    refine .of_act (exec_join k group tag crc counts s) clocked ?_
    simp only [live, Bool.not_true, Bool.false_eq_true, if_false, Dev.spanRun_hear, unknown, Dev.joins_hear]
  case heldDone =>
    refine .of_act (exec_pipeDone k group tag pipe s) clocked ?_
    simp only [live, Bool.not_true, Bool.false_eq_true, if_false, unknown]
  case heldAbort =>
    refine .of_act (exec_abortMessage k group tag status detail s) clocked ?_
    simp only [live, Bool.not_true, Bool.false_eq_true, if_false, unknown]
  case joins =>
    refine .of_act (exec_join k group tag crc counts s) clocked ?_
    simp only [live, Bool.not_true, Bool.false_eq_true, if_false, Dev.spanRun_hear, known, placed, Dev.runPeers_hear, peer,
      same, beq_self_eq_true, if_true]
  case done =>
    refine .of_act (exec_pipeDone k group tag pipe s) clocked ?_
    simp only [live, Bool.not_true, Bool.false_eq_true, if_false, known]
  case aborts =>
    refine .of_act (exec_abortMessage k group tag status detail s) clocked ?_
    simp only [live, Bool.not_true, Bool.false_eq_true, if_false, known, running, Option.isSome_none, placed, if_true]
  case times =>
    refine .of_act (exec_joinTimeout q s) clocked ?_
    simp only [found, placed, running, Bool.not_true, Option.isSome_none, Bool.or_self, Bool.false_eq_true, if_false,
      missing]
  case complete =>
    refine .of_act (exec_joinTimeout q s) clocked ?_
    have none : ((s.dev.runPeers r).find? fun k => !(r.joins.any fun j => j.member == k)) = none :=
      List.find?_eq_none.mpr fun k mem => by rw [all k mem]; exact Bool.noConfusion
    simp only [found, placed, running, Bool.not_true, Option.isSome_none, Bool.or_self, Bool.false_eq_true, if_false, none]

end Sys2Proof.Machine

namespace Sys2Proof.Machine

/-! ### Faults of tiles, clusters, the mesh and the control cores -/

theorem Dev.armed_idle {d : Dev} (idle : d.get F.ERR_INJ_ARMED = 0) (target index : Nat) : d.armed target index = false := by
  simp only [Dev.armed, idle]
  rfl

/-- Settles O58: each fault by whether what it is about is fenced already. -/
theorem faultCommands : Obligations.FaultCommands := by
  unfold Obligations.FaultCommands
  refine ⟨fun s t unit slot stage seq clocked idle => ⟨fun fenced => ⟨?fenced, ?fencedDog⟩, fun sound => ?watchdog,
      fun i sound found runs => ?residue⟩,
    fun s c clocked => ⟨fun fenced => ?fencedCluster, fun sound => ?cluster⟩,
    fun s seg run clocked idle => ⟨fun fenced => ?fencedSegment, fun sound few => ?replays, fun sound third => ?segment⟩,
    fun s c clocked => ⟨fun fenced => ?fencedCore, fun sound free unnamed idle => ?core⟩⟩
  case fenced =>
    refine .of_act (exec_residueMismatch t unit slot stage seq s) clocked ?_
    simp only [fenced, Bool.true_or, if_true]
    split <;> rfl
  case fencedDog => exact .of_act (exec_tileWatchdog t s) clocked (if_pos fenced)
  case watchdog => exact .of_act (exec_tileWatchdog t s) clocked (if_neg (ne_true_of_eq_false sound))
  case residue =>
    refine .of_act (exec_residueMismatch t unit slot stage seq s) clocked ?_
    simp only [found, sound, runs, beq_self_eq_true, Bool.true_or, Bool.not_true, Bool.or_self, Bool.false_eq_true,
      if_false, Dev.armed_idle idle, Bool.false_and, Dev.fireIf]
  case fencedCluster => exact .of_act (exec_clusterFault c s) clocked (if_pos fenced)
  case cluster => exact .of_act (exec_clusterFault c s) clocked (if_neg (ne_true_of_eq_false sound))
  case fencedSegment => exact .of_act (exec_fabricParity seg run s) clocked (if_pos fenced)
  case replays =>
    refine .of_act (exec_fabricParity seg run s) clocked ?_
    have below : ¬3 ≤ s.dev.parityCount seg.toNat + 1 := by omega
    have off : (s.dev.get F.ERR_INJ_ARMED == 1) = false := by rw [idle]; rfl
    simp only [sound, off, Bool.false_and, Bool.false_eq_true, if_false, Dev.fireIf, below]
  case segment =>
    refine .of_act (exec_fabricParity seg none s) clocked ?_
    have above : 3 ≤ s.dev.parityCount seg.toNat + 1 := by omega
    have off : (s.dev.get F.ERR_INJ_ARMED == 1) = false := by rw [idle]; rfl
    simp only [sound, off, Bool.false_and, Bool.false_eq_true, if_false, Dev.fireIf, above, if_true, Dev.fabricFail]
  case fencedCore => exact .of_act (exec_lockstepMiscompare c s) clocked (if_pos fenced)
  case core =>
    refine .of_act (exec_lockstepMiscompare c s) clocked ?_
    simp only [sound, Bool.false_eq_true, if_false, Dev.armed_idle idle, Dev.fireIf, unnamed, free]
    cases left : ((s.dev.onCore c.val fun _ => { fenced := true, cur := none, next := none }).killAgent (8 + c.val)).coreLeft
      <;> rfl

end Sys2Proof.Machine

namespace Sys2Proof.Machine

/-! ### Self-tests, retests, error rings and injections -/

theorem Dev.retestWrite_one (d : Dev) {t : Nat} (lt : t < 64) :
    d.retestWrite (2 ^ t) =
      if d.tileFenced t && !(d.get F.ERR_FENCE_OTHER_CLUSTER).testBit (t / 8) then
        d.queueTest { d.tileTest t with retest := true }
      else d := by
  have one := foldl_range_bit (fun (d : Dev) t => d.queueTest { d.tileTest t with retest := true })
    (fun d t => d.tileFenced t && !(d.get F.ERR_FENCE_OTHER_CLUSTER).testBit (t / 8)) lt d
  simp only [← Bool.and_assoc] at one
  exact one

theorem Dev.tileFenced_fired (d : Dev) (t : Nat) : (d.put F.ERR_INJ_FIRED 1).tileFenced t = d.tileFenced t := by
  have apart : Fld.apart F.ERR_INJ_FIRED F.ERR_FENCE_TILE_FENCED = true := by decide
  simp only [Dev.tileFenced, Dev.get_put_apart _ apart]

section inject
variable {d : Dev}

theorem Dev.armInjection_refused (bad : d.get F.ERR_INJ_ARMED = 1 ∨ injCount (d.get F.ERR_INJ_TARGET) ≤ d.get F.ERR_INJ_INDEX ∨
      injMode (d.get F.ERR_INJ_TARGET) (d.get F.ERR_INJ_MODE) = false) : d.armInjection = d :=
  if_pos bad

variable (idle : d.get F.ERR_INJ_ARMED = 0) (inside : d.get F.ERR_INJ_INDEX < injCount (d.get F.ERR_INJ_TARGET))
    (listed : injMode (d.get F.ERR_INJ_TARGET) (d.get F.ERR_INJ_MODE) = true)
include idle inside listed

theorem Dev.armInjection_may : ¬(d.get F.ERR_INJ_ARMED = 1 ∨ injCount (d.get F.ERR_INJ_TARGET) ≤ d.get F.ERR_INJ_INDEX ∨
      injMode (d.get F.ERR_INJ_TARGET) (d.get F.ERR_INJ_MODE) = false) := by
  rw [idle, listed]
  simp only [Nat.zero_ne_one, Bool.true_eq_false, or_false, false_or]
  omega

theorem Dev.armInjection_arms (waits : d.get F.ERR_INJ_TARGET ≠ 3) :
    d.armInjection = { d.put F.ERR_INJ_ARMED 1 with errs := { d.errs with
      inj := ⟨d.get F.ERR_INJ_TARGET, d.get F.ERR_INJ_INDEX, d.get F.ERR_INJ_MODE, d.get F.ERR_INJ_ADDR_ADDR⟩ } } :=
  (if_neg (Dev.armInjection_may idle inside listed)).trans (if_neg waits)

theorem Dev.armInjection_fires (fires : d.get F.ERR_INJ_TARGET = 3) (fenced : d.tileFenced (d.get F.ERR_INJ_INDEX) = true) :
    d.armInjection = d.put F.ERR_INJ_FIRED 1 :=
  (if_neg (Dev.armInjection_may idle inside listed)).trans
    ((if_pos fires).trans (if_pos ((d.tileFenced_fired _).trans fenced)))

end inject

/-- Settles O59: each test command by its conditions, rings by whether they were on, injections by their target. -/
theorem selfTestAndInjection : Obligations.SelfTestAndInjection := by
  unfold Obligations.SelfTestAndInjection
  have bit {t : Fin 64} : (BitVec.ofNat 64 (2 ^ t.val)).toNat = 2 ^ t.val := by
    rw [BitVec.toNat_ofNat, Nat.mod_eq_of_lt (Nat.pow_lt_pow_right (by decide) t.isLt)]
  refine ⟨fun s t c clocked => ⟨fun off => ⟨?off, ?offLate⟩, fun u on free none oldest => ?claims,
      fun on due emptied awake => ?starts, fun busy => ?busy, fun idle pass => ?untested,
      fun tests idle => ⟨?passes, ?fails⟩, fun on new sound => ?late, fun fenced whole => ?retests, fun sound => ?sound⟩,
    fun s v p clocked => ⟨⟨fun off on => ?ring, fun on => ?ringOn⟩, fun off on => ⟨fun good => ?podRing, fun bad => ?podBad⟩,
      fun quiet => ?quiet, fun asks bad => ?refused, fun asks idle inside listed => ⟨fun waits => ?arms,
        fun fires fenced => ?fires⟩⟩⟩
  case off => exact .of_act (exec_selftestClaim c s) clocked (if_pos (.inl off))
  case offLate => exact .of_act (exec_selftestLate t s) clocked (if_pos (.inl off))
  case claims =>
    refine .of_act (exec_selftestClaim c s) clocked ?_
    have calm : ((clusterTiles c.val).any fun t => (s.dev.tileTest t).claimed || (s.dev.tileTest t).testing) = false := by
      refine List.any_eq_false.mpr fun v mem => ?_
      obtain ⟨unclaimed, untested⟩ := free v mem
      rw [unclaimed, untested]
      exact Bool.noConfusion
    simp only [on, Nat.one_ne_zero, calm, none, Option.isSome_none, Bool.false_eq_true, or_self, if_false, oldest]
  case starts => exact .of_act (exec_selftestStart t s) clocked (if_pos ⟨.inl on, due, emptied, awake⟩)
  case busy =>
    refine .of_act (exec_selftestStart t s) clocked (if_neg ?_)
    rintro ⟨-, -, emptied, -⟩
    rw [busy] at emptied
    exact Bool.noConfusion emptied
  case untested =>
    refine .of_act (exec_selftestDone t pass s) clocked (if_pos ?_)
    rw [show (s.dev.tileTest t.val).testing = false from idle]
    rfl
  case passes =>
    refine .of_act (exec_selftestDone t true s) clocked ?_
    simp only [show (s.dev.tileTest t.val).testing = true from tests, Bool.not_true, Bool.false_eq_true, if_false,
      Dev.armed_idle idle, Bool.not_false, Bool.and_self, if_true]
  case fails =>
    refine .of_act (exec_selftestDone t false s) clocked ?_
    simp only [show (s.dev.tileTest t.val).testing = true from tests, Bool.not_true, Bool.false_eq_true, if_false,
      Dev.armed_idle idle, Bool.false_and, Dev.fireIf]
  case late =>
    refine .of_act (exec_selftestLate t s) clocked (if_neg ?_)
    rw [on, show (s.dev.tileTest t.val).late = false from new, sound]
    decide
  case retests =>
    refine .of_act (exec_retest _ s) clocked ?_
    rw [Dev.access_bar0_full (show RegKind.ERR_RETEST ≠ .RNG_PUSH by decide), bit, Dev.retestWrite_one _ t.isLt]
    exact if_pos (by rw [fenced, whole]; rfl)
  case sound =>
    refine .of_act (exec_retest _ s) clocked ?_
    rw [Dev.access_bar0_full (show RegKind.ERR_RETEST ≠ .RNG_PUSH by decide), bit, Dev.retestWrite_one _ t.isLt]
    exact if_neg (by rw [sound]; exact Bool.false_ne_true)
  case ring =>
    refine .of_act (exec_errorRingEnable none _ s) clocked ?_
    rw [Dev.access_bar0_full (show RegKind.ERR_RING_CFG ≠ .RNG_PUSH by decide)]
    exact if_pos ⟨off, on⟩
  case ringOn =>
    refine .of_act (exec_errorRingEnable none _ s) clocked ?_
    rw [Dev.access_bar0_full (show RegKind.ERR_RING_CFG ≠ .RNG_PUSH by decide)]
    refine if_neg ?_
    rintro ⟨off, -⟩
    exact absurd (off.symm.trans on) (by decide)
  case podRing =>
    refine .of_act (exec_errorRingEnable (some p) _ s) clocked ?_
    dsimp only
    rw [Dev.access_bar0_full (show RegKind.ERR_POD_RING_CFG ≠ .RNG_PUSH by decide)]
    exact (if_pos ⟨off, on⟩).trans (if_neg (ne_true_of_eq_false good))
  case podBad =>
    refine .of_act (exec_errorRingEnable (some p) _ s) clocked ?_
    dsimp only
    rw [Dev.access_bar0_full (show RegKind.ERR_POD_RING_CFG ≠ .RNG_PUSH by decide)]
    exact (if_pos ⟨off, on⟩).trans (if_pos bad)
  case quiet =>
    refine .of_act (exec_injectionArm _ s) clocked ?_
    rw [Dev.access_bar0_full (show RegKind.ERR_INJ ≠ .RNG_PUSH by decide)]
    exact if_neg (ne_true_of_eq_false quiet)
  case refused =>
    refine .of_act (exec_injectionArm _ s) clocked ?_
    rw [Dev.access_bar0_full (show RegKind.ERR_INJ ≠ .RNG_PUSH by decide)]
    exact (if_pos asks).trans (Dev.armInjection_refused bad)
  case arms =>
    refine .of_act (exec_injectionArm _ s) clocked ?_
    rw [Dev.access_bar0_full (show RegKind.ERR_INJ ≠ .RNG_PUSH by decide)]
    exact (if_pos asks).trans (Dev.armInjection_arms idle inside listed waits)
  case fires =>
    refine .of_act (exec_injectionArm _ s) clocked ?_
    rw [Dev.access_bar0_full (show RegKind.ERR_INJ ≠ .RNG_PUSH by decide)]
    exact (if_pos asks).trans (Dev.armInjection_fires idle inside listed fires fenced)

end Sys2Proof.Machine

/-! Settling O60: writes and reads of registers, and wakes. -/

namespace Sys2Proof.Machine

/-! ### Writes -/

section writes
variable {d : Dev} {a : RegAccess} {off : Nat}

/-- Below the component registers a write from BAR0, the Shell or the executive goes to a register. -/
theorem Dev.standardWrite_low (low : off < 0x4000000) (other : a.src ≠ .pf1) : d.standardWrite a off = none := by
  rw [Dev.standardWrite, if_neg other]
  split
  · rfl
  · rw [if_neg Bool.false_ne_true, if_neg (by omega), if_neg (by omega), if_neg (by omega)]

theorem Dev.registerWrite_reg (low : off < 0x4000000) (other : a.src ≠ .pf1) (aligned : off % 8 = 0) {r : RegRef}
    (here : d.regAt a.src off = some r) :
    d.registerWrite a off = d.access a r fun d v keepLow => d.writeReg a.src r v keepLow := by
  simp only [Dev.registerWrite, Dev.standardWrite_low low other, aligned, if_true, here]

theorem Dev.registerWrite_none (low : off < 0x4000000) (other : a.src ≠ .pf1)
    (nothing : off % 8 ≠ 0 ∨ d.regAt a.src off = none) :
    d.registerWrite a off = d.regError off (windowPod a.src) := by
  have none : (if off % 8 = 0 then d.regAt a.src off else none) = none := by
    rcases nothing with odd | none
    · exact if_neg odd
    · rw [none, ite_self]
  simp only [Dev.registerWrite, Dev.standardWrite_low low other, none]

end writes

section access
variable {d : Dev} {src : RegFrom} {r : RegRef} {v : Word} {apply : Dev → Nat → Bool → Dev}

theorem Dev.access_partial : d.access ⟨src, .partialBytes, v⟩ r apply = d.regError r.addr (windowPod src) := if_pos rfl

theorem Dev.access_hidden (hidden : d.reaches src r = false) {lanes : Lanes} (whole : lanes ≠ .partialBytes) :
    d.access ⟨src, lanes, v⟩ r apply = d.refuseAccess src r :=
  (if_neg whole).trans (if_pos (by rw [hidden]; rfl))

variable (reaches : d.reaches src r = true) (plain : r.kind ≠ .RNG_PUSH)
include reaches plain

theorem Dev.access_full : d.access ⟨src, .full, v⟩ r apply = apply (d.unstage r.addr) v.toNat false := by
  rw [Dev.access, if_neg (by exact nofun), if_neg (by rw [reaches]; exact Bool.noConfusion), if_neg plain]

theorem Dev.access_lower : d.access ⟨src, .lower, v⟩ r apply = d.stageLow r.addr v.toNat := by
  rw [Dev.access, if_neg (by exact nofun), if_neg (by rw [reaches]; exact Bool.noConfusion), if_neg plain]

theorem Dev.access_upper : d.access ⟨src, .upper, v⟩ r apply =
    match d.staged r.addr with
    | some lo => apply (d.unstage r.addr) (v.toNat % 2 ^ 32 * 2 ^ 32 + lo) false
    | none => apply d (v.toNat % 2 ^ 32 * 2 ^ 32) true := by
  rw [Dev.access, if_neg (by exact nofun), if_neg (by rw [reaches]; exact Bool.noConfusion), if_neg plain] <;>
    rfl

end access

theorem Dev.unstage_get (d : Dev) (a : Nat) (f : Fld) (i j : Nat) : (d.unstage a).get f i j = d.get f i j := rfl

/-- A ring's base, which a write changes while the ring is DISABLED. -/
theorem Dev.writeReg_ringBase (d : Dev) (src : RegFrom) (n v : Nat) (low : n < 1024) (keep : Bool) :
    d.writeReg src ⟨.RNG_BASE, n, 0⟩ v keep =
      if d.get F.RNG_STATUS_STATE n = 0 then d.applyPlain ⟨.RNG_BASE, n, 0⟩ v keep else d := by
  have addr : RegRef.addr ⟨.RNG_BASE, n, 0⟩ = 0xa0000 + 0x80 * n := by
    simp only [RegRef.addr, RegKind.geom]
    omega
  rw [Dev.writeReg]
  simp only [addr]
  rw [if_neg (by omega), if_pos (by omega)]
  simp only [Dev.writeRings, Dev.applyUnless, Dev.ringState, bne_iff_ne, ite_not, ne_eq]

/-! ### Reads -/

/-- The enabled bytes among the first `n` of a value. -/
def enabledUpTo (be : BitVec 8) (v n : Nat) : Nat :=
  (List.range n).foldl (fun acc k => if be.getLsbD k then acc + bitsOf v (8 * k) 8 * 2 ^ (8 * k) else acc) 0

theorem enabledUpTo_succ (be : BitVec 8) (v n : Nat) :
    enabledUpTo be v (n + 1) =
      2 ^ (8 * n) * (if be.getLsbD n then bitsOf v (8 * n) 8 else 0) + enabledUpTo be v n := by
  rw [enabledUpTo, List.range_succ, List.foldl_append, List.foldl_cons, List.foldl_nil]
  split
  · rw [Nat.mul_comm (2 ^ (8 * n)), Nat.add_comm]
    rfl
  · rw [Nat.mul_zero, Nat.zero_add]
    rfl

/-- Bit `i` of the enabled bytes is that of the value where its byte is enabled. -/
theorem testBit_enabledUpTo (be : BitVec 8) (v n i : Nat) :
    (enabledUpTo be v n).testBit i = (decide (i < 8 * n) && be.getLsbD (i / 8) && v.testBit i) := by
  induction n generalizing i with
  | zero => simp [enabledUpTo]
  | succ n ih =>
    have below : enabledUpTo be v n < 2 ^ (8 * n) :=
      Nat.lt_pow_two_of_testBit _ fun i high => by simp [ih, Nat.not_lt.mpr high]
    rw [enabledUpTo_succ, Nat.testBit_two_pow_mul_add _ below]
    split
    next low =>
      have inside : i < 8 * (n + 1) := by omega
      rw [ih]
      simp only [low, inside]
    next high =>
      by_cases inside : i < 8 * (n + 1)
      · have byte : i / 8 = n := by omega
        have at_ : 8 * n + (i - 8 * n) = i := by omega
        have narrow : i - 8 * n < 8 := by omega
        simp only [inside, byte, decide_true, Bool.true_and]
        cases be.getLsbD n with
        | true => simp only [if_true, testBit_bitsOf, narrow, at_, decide_true]
        | false => simp only [Bool.false_eq_true, if_false, Nat.zero_testBit, Bool.false_and]
      · have wide : ¬i - 8 * n < 8 := by omega
        simp only [inside, decide_false, Bool.false_and]
        split
        · simp only [testBit_bitsOf, wide, decide_false, Bool.false_and]
        · exact Nat.zero_testBit _

theorem testBit_enabledBytes (be : BitVec 8) (v i : Nat) :
    (enabledBytes be v).testBit i = (decide (i < 64) && be.getLsbD (i / 8) && v.testBit i) :=
  testBit_enabledUpTo be v 8 i

theorem enabledBytes_zero (be : BitVec 8) : enabledBytes be 0 = 0 := by
  refine Nat.eq_of_testBit_eq fun i => ?_
  rw [testBit_enabledBytes, Nat.zero_testBit, Bool.and_false]

theorem bitsOf_enabledBytes (be : BitVec 8) (v : Nat) {k : Nat} (lt : k < 8) :
    bitsOf (enabledBytes be v) (8 * k) 8 = if be.getLsbD k then bitsOf v (8 * k) 8 else 0 := by
  refine Nat.eq_of_testBit_eq fun i => ?_
  rw [testBit_bitsOf, testBit_enabledBytes]
  by_cases inside : i < 8
  · have byte : (8 * k + i) / 8 = k := by omega
    have low : 8 * k + i < 64 := by omega
    simp only [inside, low, byte, decide_true, Bool.true_and]
    cases be.getLsbD k with
    | true => simp only [if_true, testBit_bitsOf, inside, decide_true]
    | false => simp only [Bool.false_eq_true, if_false, Nat.zero_testBit, Bool.false_and]
  · simp only [inside, decide_false, Bool.false_and]
    split
    · simp only [testBit_bitsOf, inside, decide_false, Bool.false_and]
    · exact (Nat.zero_testBit _).symm

/-- An unstated offset of PF1 BAR0 reads zero in every one of its bytes. -/
theorem Dev.pf1Word_undefined (d : Dev) {off : Nat} (none : pf1Defined off = false) : d.pf1Word (off / 8 * 8) = 0 := by
  have away := of_decide_eq_false none
  rw [Dev.pf1Word, if_neg (by omega), if_neg (by omega), if_neg (by omega), if_neg (by omega), if_neg (by omega),
    if_neg (by omega)]

theorem Dev.standardWord_low (d : Dev) {off : Nat} (low : off < 0x4000000) : d.standardWord off = 0 := by
  rw [Dev.standardWord, if_neg (by omega), if_neg (by omega), if_neg (by omega)]

end Sys2Proof.Machine

namespace Sys2Proof.Machine

/-! ### Wakes -/

theorem Dev.wakeUp_none {d : Dev} (on : d.pw.off = false) (kept : d.hull.otp.lifecycle ≠ 4) {sources : Nat}
    (none : d.wakers sources = 0 ∨ d.pstate ≤ 1) : d.wakeUp sources = d := by
  simp only [Dev.wakeUp, on, kept, Bool.false_eq_true, if_false, none, if_true]

theorem Dev.pstate_put_pending (d : Dev) (v : Nat) : (d.put F.PWR_WAKE_PENDING v).pstate = d.pstate := by
  have apart : Fld.apart F.PWR_WAKE_PENDING F.PWR_STATE_STATE = true := by decide
  simp only [Dev.pstate, Dev.get_put_apart _ apart]

/-- Settles O60: a write goes to the register at its address (`Dev.registerWrite_reg`), a read covers the enabled bytes
(`testBit_enabledBytes`), and a wake follows the power state. -/
theorem registerWritesAndWakes : Obligations.RegisterWritesAndWakes := by
  unfold Obligations.RegisterWritesAndWakes
  refine ⟨⟨fun s v off r clocked low => ⟨fun aligned here plain => ?writes, fun nothing lanes => ?nowhere⟩,
      fun s v p clocked => ?base⟩,
    ⟨fun be v k lt => bitsOf_enabledBytes be v lt, fun v => ⟨?full, ?lower, ?upper⟩,
      fun d src u r => ⟨fun reaches => ?sample, fun reaches status random pit => ?noEffect, fun p window hidden => ?hidden⟩,
      fun d u off r => ⟨fun here => ?reads, fun low none => ?empty, fun none => ?pf1, fun p none => ?window⟩⟩,
    fun s w on kept => ⟨fun none => ?unwoken, fun some at2 => ?wakes, fun some at3 lost => ?dark, fun some at4 => ?latched⟩⟩
  case writes =>
    have reg (src : RegFrom) (lanes : Lanes) (other : src ≠ .pf1) (named : s.dev.regAt src off.toNat = some r) {d : Dev}
        (gives : (s.dev.access ⟨src, lanes, v⟩ r fun d v keepLow => d.writeReg src r v keepLow) = d) :
        Gives (.registerWrite ⟨src, lanes, v⟩ off) s d :=
      .of_act (exec_registerWrite _ off s) clocked ((Dev.registerWrite_reg low other aligned named).trans gives)
    refine ⟨reg .bar0 .full nofun here (Dev.access_full rfl plain), reg .shell .full nofun here (Dev.access_full rfl plain),
      reg .exec .full nofun here (Dev.access_full rfl plain), reg .bar0 .lower nofun here (Dev.access_lower rfl plain),
      fun lo staged => ?_, fun unstaged => ?_, reg .bar0 .partialBytes nofun here Dev.access_partial⟩
    · refine reg .bar0 .upper nofun here ((Dev.access_upper rfl plain).trans ?_)
      rw [staged]
    · refine reg .bar0 .upper nofun here ((Dev.access_upper rfl plain).trans ?_)
      rw [unstaged]
  case nowhere =>
    exact .of_act (exec_registerWrite _ off s) clocked (Dev.registerWrite_none low nofun nothing)
  case base =>
    intro r off d
    have here : barReg off.toNat = some r := by decide +kernel
    have low : off.toNat < 0x4000000 := by decide +kernel
    have aligned : off.toNat % 8 = 0 := by decide +kernel
    have base (lanes : Lanes) {e : Dev} (gives : (s.dev.access ⟨.bar0, lanes, v⟩ r fun d v keepLow =>
        d.writeReg .bar0 r v keepLow) = e) : Gives (.registerWrite ⟨.bar0, lanes, v⟩ off) s e :=
      .of_act (exec_registerWrite _ off s) clocked
        ((Dev.registerWrite_reg (a := ⟨.bar0, lanes, v⟩) low nofun aligned here).trans gives)
    have plain : r.kind ≠ .RNG_PUSH := by decide
    refine ⟨fun off_ => ?_, fun on => ?_, base .lower (Dev.access_lower rfl plain), fun lo staged off_ => ?_,
      base .partialBytes Dev.access_partial, ?_, ?_, fun n other => ?_⟩
    · refine base .full ((Dev.access_full rfl plain).trans ((Dev.writeReg_ringBase _ _ _ _ (by decide) _).trans ?_))
      exact if_pos off_
    · refine base .full ((Dev.access_full rfl plain).trans ((Dev.writeReg_ringBase _ _ _ _ (by decide) _).trans ?_))
      exact if_neg on
    · refine base .upper ((Dev.access_upper rfl plain).trans ?_)
      rw [staged]
      exact (Dev.writeReg_ringBase _ _ _ _ (by decide) _).trans (if_pos off_)
    · refine .of_act (exec_registerWrite _ (off + 1) s) clocked ?_
      have next : (off + 1).toNat = r.addr + 1 := by decide +kernel
      rw [next]
      exact Dev.registerWrite_none (by decide +kernel) nofun (.inl (by decide +kernel))
    · refine .of_act (exec_registerWrite _ 0x38 s) clocked ?_
      exact Dev.registerWrite_none (by decide) nofun (.inr rfl)
    · refine .of_act (exec_ringDoorbell n _ s) clocked (Dev.access_hidden ?_ nofun)
      have shown : s.dev.inWindow p.val ⟨.RNG_DB, n.val, 0⟩ = s.dev.ringOf p.val n.val := rfl
      rw [Dev.reaches, shown, other]
  case full =>
    refine Nat.eq_of_testBit_eq fun i => ?_
    have all : ∀ k < 8, ReadUnit.full.enables.getLsbD k = true := by decide
    rw [testBit_enabledBytes, Nat.testBit_mod_two_pow]
    by_cases inside : i < 64
    · rw [all _ (by omega), Bool.and_true]
    · simp only [inside, decide_false, Bool.false_and]
  case lower =>
    refine Nat.eq_of_testBit_eq fun i => ?_
    have half : ∀ k < 8, ReadUnit.lower.enables.getLsbD k = decide (k < 4) := by decide
    rw [testBit_enabledBytes, Nat.testBit_mod_two_pow]
    by_cases inside : i < 64
    · have bytes : decide (i / 8 < 4) = decide (i < 32) := decide_eq_decide.mpr (by omega)
      simp only [inside, decide_true, Bool.true_and, half _ (show i / 8 < 8 by omega), bytes]
    · have out : ¬i < 32 := by omega
      simp only [inside, out, decide_false, Bool.false_and]
  case upper =>
    refine Nat.eq_of_testBit_eq fun i => ?_
    have half : ∀ k < 8, ReadUnit.upper.enables.getLsbD k = decide (4 ≤ k) := by decide
    rw [testBit_enabledBytes, Nat.mul_comm, Nat.testBit_two_pow_mul, Nat.testBit_mod_two_pow, Nat.testBit_div_two_pow]
    by_cases inside : i < 64
    · have bytes : decide (4 ≤ i / 8) = decide (32 ≤ i) := decide_eq_decide.mpr (by omega)
      simp only [inside, decide_true, Bool.true_and, half _ (show i / 8 < 8 by omega), bytes]
      by_cases high : 32 ≤ i
      · have at_ : i - 32 + 32 = i := by omega
        have narrow : i - 32 < 32 := by omega
        simp only [high, narrow, at_, decide_true, Bool.true_and]
      · simp only [high, decide_false, Bool.false_and]
    · have wide : ¬i - 32 < 32 := by omega
      simp only [inside, wide, decide_false, Bool.false_and, Bool.and_false]
  case sample => exact congrArg Prod.fst (if_pos reaches)
  case noEffect =>
    rw [Dev.sampleReg, if_pos reaches, Dev.readEffect]
    split
    · contradiction
    · contradiction
    · contradiction
    · rfl
  case hidden =>
    subst window
    exact if_neg (by rw [Dev.reaches, hidden]; exact Bool.false_ne_true)
  case reads => simp only [Dev.readAt, Dev.regAt, here]
  case empty =>
    simp only [Dev.readAt, Dev.regAt, none]
    rw [Dev.standardWord_low _ (by omega), enabledBytes_zero]
  case pf1 =>
    simp only [Dev.readAt, Dev.regAt]
    rw [Dev.pf1Word_undefined _ none, enabledBytes_zero]
  case window => simp only [Dev.readAt, Dev.regAt, none]
  case unwoken => exact .of_always (exec_wake w s) (Dev.wakeUp_none on kept none)
  case wakes =>
    refine .of_always (exec_wake w s) ?_
    have state : s.dev.pstate = 2 := at2
    have woken : ¬(s.dev.wakers w.toNat = 0 ∨ s.dev.pstate ≤ 1) := by omega
    simp only [Dev.wakeUp, on, kept, Bool.false_eq_true, if_false, woken, Dev.pstate_put_pending]
    simp only [state]
  case dark =>
    refine .of_always (exec_wake w s) ?_
    have state : s.dev.pstate = 3 := at3
    have woken : ¬(s.dev.wakers w.toNat = 0 ∨ s.dev.pstate ≤ 1) := by omega
    simp only [Dev.wakeUp, on, kept, Bool.false_eq_true, if_false, woken, Dev.pstate_put_pending]
    simp only [state]
    exact if_pos lost
  case latched =>
    refine .of_always (exec_wake w s) ?_
    have state : s.dev.pstate = 4 := at4
    have woken : ¬(s.dev.wakers w.toNat = 0 ∨ s.dev.pstate ≤ 1) := by omega
    simp only [Dev.wakeUp, on, kept, Bool.false_eq_true, if_false, woken, Dev.pstate_put_pending]
    simp only [state, Dev.onPw]

end Sys2Proof.Machine
